-- ==== Sys2Proof/Word.lean ====
section
/-! DEFINITION. The word types of the register space and of byte streams (R3, R4 of 00_scope.md). -/

namespace Sys2Proof

/-- R3: a byte is 8 bits. -/
abbrev Byte := BitVec 8

/-- R4: a register word is 32 bits. -/
abbrev Word := BitVec 32

/-- R4: a FIFO word is 64 bits. -/
abbrev FWord := BitVec 64

/-- A byte string, lowest offset first. -/
abbrev Bytes := List Byte

end Sys2Proof
end

