-- ==== Sys2Proof/Machine/Map.lean ====
section
/-! DEFINITION. Sparse tables: sorted association lists from a number to a value, in one canonical form. Every
register file, table and memory of the device that is sparse is one of these. -/

namespace Sys2Proof.Machine

/-- A sparse table: keys strictly rising. -/
abbrev NMap (α : Type) := List (Nat × α)

/-- The value listed at a key, if any. -/
def mapGet? {α : Type} : NMap α → Nat → Option α
  | [], _ => none
  | (a, v) :: r, k => if a == k then some v else mapGet? r k

/-- The value at a key, or `d` where nothing is listed. -/
def mapGet {α : Type} (d : α) (m : NMap α) (k : Nat) : α := (mapGet? m k).getD d

/-- List a value at a key, keeping the keys strictly rising. -/
def mapPut {α : Type} : NMap α → Nat → α → NMap α
  | [], k, v => [(k, v)]
  | (a, w) :: r, k, v =>
    if k < a then (k, v) :: (a, w) :: r
    else if k == a then (k, v) :: r
    else (a, w) :: mapPut r k v

/-- Remove a key. -/
def mapDel {α : Type} : NMap α → Nat → NMap α
  | [], _ => []
  | (a, w) :: r, k => if a == k then r else (a, w) :: mapDel r k

/-- Write a value in canonical form: a value equal to what an unlisted key reads as removes the entry. -/
def mapStore {α : Type} [BEq α] (dflt : α) (m : NMap α) (k : Nat) (v : α) : NMap α :=
  if v == dflt then mapDel m k else mapPut m k v

/-- Change the value at a key, starting from `d` where nothing is listed. -/
def mapMod {α : Type} (d : α) (m : NMap α) (k : Nat) (f : α → α) : NMap α := mapPut m k (f (mapGet d m k))

/-- Remove every key that `p` picks. -/
def mapDrop {α : Type} (m : NMap α) (p : Nat → Bool) : NMap α := m.filter (fun e => !p e.1)

/-- The keys rise strictly. -/
def mapSorted {α : Type} : NMap α → Bool
  | [] => true
  | [_] => true
  | (a, _) :: (b, w) :: r => decide (a < b) && mapSorted ((b, w) :: r)

/-- The canonical form of a map whose unlisted keys read as `d`: keys rise strictly and no entry reads as `d`. -/
def mapWf {α : Type} [BEq α] (d : α) (m : NMap α) : Bool := mapSorted m && m.all (fun e => !(e.2 == d))

end Sys2Proof.Machine
end

