-- ==== Sys2Proof/Machine/Bits.lean ====
section
/-! DEFINITION. Bit fields, byte order and rounding: the small arithmetic the blocks share (R2, R5, R10). -/

namespace Sys2Proof.Machine

/-- R5: the field of `w` bits that starts at bit `lo`. -/
def bits (v lo w : Nat) : Nat := (v >>> lo) % 2 ^ w

/-- Bit `i`. -/
def bit (v i : Nat) : Bool := Nat.testBit v i

/-- `v` with the field of `w` bits at `lo` set to `x`. -/
def setBits (v lo w x : Nat) : Nat :=
  (v >>> (lo + w)) * 2 ^ (lo + w) + (x % 2 ^ w) * 2 ^ lo + v % 2 ^ lo

/-- `v` with bit `i` set to `b`. -/
def setBit (v i : Nat) (b : Bool) : Nat := setBits v i 1 b.toNat

/-- The little-endian number of a byte string (R10). -/
def leNat : Bytes → Nat
  | [] => 0
  | b :: r => b.toNat + 256 * leNat r

/-- The big-endian number of a byte string. -/
def beNat (bs : Bytes) : Nat := bs.foldl (fun a b => 256 * a + b.toNat) 0

/-- The `n` bytes of `v`, least significant first. -/
def leBytes : Nat → Nat → Bytes
  | 0, _ => []
  | n + 1, v => BitVec.ofNat 8 v :: leBytes n (v / 256)

/-- The `n` bytes of `v`, most significant first. -/
def beBytes (n v : Nat) : Bytes := (leBytes n v).reverse

/-- `n` bytes from offset `off`. -/
def slice (bs : Bytes) (off n : Nat) : Bytes := (bs.drop off).take n

/-- The little-endian number of `n` bytes at `off`. -/
def leAt (bs : Bytes) (off n : Nat) : Nat := leNat (slice bs off n)

/-- `n` zero bytes. -/
def zeros (n : Nat) : Bytes := List.replicate n 0

/-- `bs` cut or zero-filled to `n` bytes. -/
def fit (n : Nat) (bs : Bytes) : Bytes := (bs ++ zeros (n - bs.length)).take n

/-- ⌈a / b⌉. -/
def ceilDiv (a b : Nat) : Nat := (a + b - 1) / b

/-- `x` held between `lo` and `hi`. -/
def clamp (lo hi x : Nat) : Nat := if x < lo then lo else if hi < x then hi else x

/-- Byte-wise exclusive or, as long as the first string. -/
def xorBytes : Bytes → Bytes → Bytes
  | [], _ => []
  | a :: r, [] => a :: r
  | a :: r, b :: q => (a ^^^ b) :: xorBytes r q

/-- A byte string in blocks of 16 bytes, the last one as long as it is; `n` bounds the number of blocks. -/
def blocks16 : Nat → Bytes → List Bytes
  | 0, _ => []
  | n + 1, bs => if bs.isEmpty then [] else bs.take 16 :: blocks16 n (bs.drop 16)

/-- Entry `i` of a list, or `d`. -/
def nth {α : Type} (d : α) (l : List α) (i : Nat) : α := (l[i]?).getD d

/-- The list with entry `i` changed. -/
def setNth {α : Type} : List α → Nat → α → List α
  | [], _, _ => []
  | _ :: r, 0, v => v :: r
  | a :: r, i + 1, v => a :: setNth r i v

/-- The numbers below `n` whose bit of `mask` is set. -/
def bitList (n mask : Nat) : List Nat := (List.range n).filter (fun i => bit mask i)

/-- The index of the first entry that `p` picks. -/
def findIdx {α : Type} (p : α → Bool) : List α → Nat → Option Nat
  | [], _ => none
  | a :: r, i => if p a then some i else findIdx p r (i + 1)

end Sys2Proof.Machine
end

