-- ==== Sys2Proof/Syntax.lean ====
section
/-! DEFINITION. The commands of the block: one constructor of `Instr` per row of spec/opcode_table.json, with the
operands that come from outside the device (the table gives no bits and no operands: DESIGN CHOICE, log entry 12). -/

namespace Sys2Proof

/-- R15, R374: who issues a register access or a vault command. -/
inductive Initiator where
  | pcie0 | pcie1 | hspi | eopod | jtag
  deriving DecidableEq, Repr

/-- R70: the straps at the PORST_N rising edge. -/
structure Straps where
  cmpt    : Bool
  bootsel : BitVec 2
  testen  : Bool
  deriving DecidableEq, Repr

/-- R364: what an enrolment takes from the silicon: fifteen reads of the array and the drawn message bits. -/
structure EnrolInput where
  reads   : List Bytes
  message : Bytes
  deriving DecidableEq, Repr

/-- What a boot meets outside the device's state: the PUF reads of each regeneration attempt (R363, R365), the
enrolment input (R364), the DRAM found (R480) and whether a 32.768 kHz crystal answers (R105). -/
structure BootInput where
  puf     : List (List Bytes)
  enrol   : EnrolInput
  dens0   : Nat
  dens1   : Nat
  ddrRate : Nat
  rtcXtal : Bool
  deriving DecidableEq, Repr

/-- R72: the three rail groups. -/
inductive RailGroup where
  | alwaysOn | retained | switched
  deriving DecidableEq, Repr

/-- R153: a FIFO word of a ring and whether its parity fails. -/
structure RingWord where
  data : FWord
  bad  : Bool
  deriving DecidableEq, Repr

/-- R150: an ECC finding at the row that a kerf slot scrubs. Memories: 0 cell buffer, 1 route table, 2 signal cache,
3 PDU image memory, 4 key slots. -/
structure EccFinding where
  mem    : Nat
  uncorr : Bool
  deriving DecidableEq, Repr

/-- What a kerf slot meets in the memories: ECC findings at the rows it scrubs (R150), and source records of the Mill in which an
uncorrectable error stands from now on, for the next read to find (R325; DESIGN CHOICE, log entry 128). -/
structure KerfEcc where
  scrub : List EccFinding := []
  src   : List Nat := []
  deriving DecidableEq, Repr

/-- R151: an ECC finding in a wheel owner table. -/
structure OwnerEcc where
  res    : Nat
  slot   : Nat
  uncorr : Bool
  deriving DecidableEq, Repr

/-- R162: the frame formats of a CAN channel. -/
inductive CanFmt where
  | classical | fd | fdBrs | xl
  deriving DecidableEq, Repr

/-- A CAN frame on the wire (R162, R171). For CAN XL `id` is the priority ID. -/
structure CanFrame where
  fmt  : CanFmt
  xtd  : Bool
  rtr  : Bool
  esi  : Bool
  id   : Nat
  vcid : Nat
  sdt  : Nat
  af   : Nat
  sec  : Bool
  data : Bytes
  deriving DecidableEq, Repr

/-- R168, R180: a received CAN frame, and how many commits took effect between its SOF and its end. -/
structure RxFrame where
  back  : Nat
  frame : CanFrame
  deriving DecidableEq, Repr

/-- R203: a frame decoded in M1 Watch, with its DLC. -/
structure SwkFrame where
  dlc   : Nat
  frame : CanFrame
  deriving DecidableEq, Repr

/-- R305, R327: a slice, and the lines whose split CRC does not match as it reads them. -/
structure SliceRead where
  slice : Nat
  crc   : List Nat
  deriving DecidableEq, Repr

/-- R323, R325, R327: a line read from DRAM, how many errors inline ECC corrected in the read, and the lines whose split CRC does not
match as the slices that go on read them. -/
structure LineRead where
  line : Nat
  corr : Nat
  crc  : List Nat
  deriving DecidableEq, Repr

/-- R320, R327: a destination PDU, and whether the CRC-16 of its copy fails. -/
structure PduRead where
  pdu : Nat
  crc : Bool
  deriving DecidableEq, Repr

/-- R493: the units of a readout whose inline ECC fails on both copies, and how many errors it corrected. -/
structure RegionRead where
  bad  : List Nat
  corr : Nat
  deriving DecidableEq, Repr

/-- R10, R15: a read of a register word: its offset, and its size in bytes. -/
structure ReadAt where
  off  : Nat
  size : Nat
  deriving DecidableEq, Repr

/-- R193, R169: how a transmit attempt ends in an error: detected on the bus (with the steps of 8 by which ISO 11898-1 raises TEC for
it: none for its exceptions, more than one where dominant bits go on after the flag), or a transmitter delay TDCV measured out of
range. -/
inductive TxErr where
  | detected (steps : Nat)
  | delay (tdcv : Nat)
  deriving DecidableEq, Repr

/-- R212, R223: what a port hands over: a whole frame (FCS included) with a PCS error in it or not, the head of a
frame at its cut-through admission, or the rest of that frame. -/
inductive EthRx where
  | whole (frame : Bytes) (codeErr : Bool)
  | head (hdr : Bytes)
  | tail (frame : Bytes) (codeErr : Bool)
  deriving DecidableEq, Repr

/-- R235, R239: the link faults, with the reason LINK_DOWN carries. -/
inductive LinkFlt where
  | pcs | localFault | remoteFault | inBand
  | anMismatch (reported : Nat)
  | sdsPll | enableZero
  deriving DecidableEq, Repr

/-- The result of a flash program or erase (R524). -/
inductive FlashRes where
  | ok | fail
  deriving DecidableEq, Repr

/-- R392, R404: what the comparator and the checks report with a mismatch. -/
structure Mismatch where
  rail        : Bool
  evMain      : Bool
  evChecker   : Bool
  undoEntries : Nat
  deriving DecidableEq, Repr

/-- R419: where an NM PDU arrives. -/
inductive NmPort where
  | can (ch id : Nat)
  | eth (port : Nat)
  deriving DecidableEq, Repr

/-- R472 to R474: how a far transaction ends: data (zero for a write), or a reason of R473. -/
inductive FarRes where
  | ok (data : Word)
  | failed (reason : Nat)
  deriving DecidableEq, Repr

/-- R356: what SC1 installs: the key slot and SAK, SCI, SSCI, salt, AN, first PN, suite, and whether the SA transmits. -/
structure SakArgs where
  tx    : Bool
  sc    : Nat
  an    : Nat
  slot  : Nat
  sak   : Bytes
  sci   : Nat
  ssci  : Nat
  salt  : Bytes
  pn    : Nat
  suite : Nat
  deriving DecidableEq, Repr

/-- One constructor per row of spec/opcode_table.json, in the table's order. -/
inductive Instr where
  -- resets, boot and power (03, 04, 05, 18)
  | porstAssert
  | porstRelease (straps : Straps) (b : BootInput)
  | wrstAssert
  | wrstRelease (b : BootInput)
  | phyRstRelease (gpio : Nat)
  | railLoss (g : RailGroup)
  | powerGood (b : BootInput)
  | routingOpen
  | signalBlockLoad (blk : Nat) (reads : List Bytes)
  | pduimgLoad (reads : List Bytes)
  | modeRequest (who : Initiator) (w : Word) (auth : Bool)
  | groveGate (g : Nat)
  | groveRestore (g : Nat)
  | watchEntryStart
  | watchEntryFlush
  | watchRailRelease
  | watchLimitExpire
  | traceHoldExpire
  | lockToSplit
  | splitToLock
  | safeHoldEntry
  | sagDetectorReport (det : Nat)
  | sagHoldEnd
  | sagStepEnd
  | sagPersist
  | pllUnlock (pll : Nat)
  | xtalFail
  | sdsPllRelockRetry (sds : Nat) (locked : Bool)
  | rtcAlarm
  -- wheel, commits and crossings (05, 06)
  | wheelBoundary
  | kerfSlot (ecc : KerfEcc) (owner : Option OwnerEcc)
  | commitRegs (who : Initiator)
  | commitDelta (who : Initiator) (regs : Bool)
  | ringCommit (x : Nat) (out : Bool) (words : List RingWord)
  | ringRelease (x : Nat) (out : Bool)
  | handshakeSend (x : Nat) (out : Bool) (w : FWord)
  | handshakeAck (x : Nat) (out : Bool)
  | pulseLaunch (x : Nat) (out : Bool) (before : Nat) (inCycle : Bool)
  | pulseAck (x : Nat) (out : Bool) (during : Nat)
  | crossingReset (x : Nat) (out reader : Bool) (uncommitted : Nat)
  | crossRepair (x : Nat) (out : Bool)
  | crossStall (x : Nat) (out : Bool)
  | crossTimeout (x : Nat) (out : Bool)
  | crossProgress (x : Nat) (out : Bool)
  -- CAN channels (07)
  | canFrameReceived (ch : Nat) (f : RxFrame)
  | canFilterVerdict (ch : Nat)
  | canRxError (ch : Nat) (steps : Nat)
  | canTxError (ch : Nat) (e : TxErr)
  | canArbLost (ch : Nat)
  | canFrameSent (ch : Nat)
  | canSelection (ch : Nat)
  | canSof (ch : Nat)
  | canBufferRefill (ch : Nat)
  | canInitRequest (who : Initiator) (ch : Nat)
  | canInitLeave (who : Initiator) (ch : Nat)
  | canInitEntry (ch : Nat)
  | canIntegrated (ch : Nat)
  | canRecover (who : Initiator) (ch : Nat)
  | canBusOn (ch : Nat)
  | canStateParity (ch : Nat)
  | canColumnStart (ch : Nat)
  | canColumnEnd (ch : Nat)
  | canCancelRequest (who : Initiator) (ch : Nat) (w : Word)
  | canMbAcq (who : Initiator) (ch : Nat)
  | canMbRel (who : Initiator) (ch : Nat)
  | canMbGo (who : Initiator) (ch : Nat)
  | swkMatch (ch : Nat) (f : SwkFrame)
  | swkFecWake (ch : Nat)
  -- Ethernet ports and time (08)
  | ethFrameReceived (port : Nat) (ev : EthRx)
  | ethPauseReceived (port quanta : Nat)
  | ethPauseEnd (port : Nat)
  | ethStagingInstant (port : Nat)
  | ethTxStart (port : Nat)
  | timeStepWrite (who : Initiator) (hi : Word)
  | timeStep
  | gclEntryAdvance (port : Nat)
  | gclCfgchg (who : Initiator) (port : Nat)
  | gclChanged (port : Nat)
  | streamUnblock (who : Initiator) (w : Word)
  | cbRecoveryReset (idx : Nat)
  | linkDown (port : Nat) (f : LinkFlt)
  | linkGood (port : Nat)
  | linkUp (port : Nat)
  | ethEnableWrite (who : Initiator) (port : Nat) (en : Bool)
  | tc10SleepRequest (port : Nat)
  | tc10Poll (port : Nat) (status : Word)
  | ppsInEdge
  | ppsOutPulse
  -- routing and the Landing (09, 10)
  | parseComplete (src : Nat)
  | routeLookup (client : Nat)
  | bufferAdmission (input : Nat)
  | hostAdmissionRetry (input : Nat)
  | waitlimExpire (input : Nat)
  | cellTime
  | cellRead (input : Nat) (unc : List (Nat × Nat))
  | queueFlush (who : Initiator) (w : Word)
  | tableWindowSelect (who : Initiator) (w : Word)
  | rteWindowCopy
  | diagRoutingActivation (tester addr : Nat)
  | diagRequest (tester target : Nat) (payload : Bytes)
  | diagResponse (target : Nat) (payload : Bytes)
  | diagTimeout (target : Nat) (ncr : Bool)
  | diagConnectionClose (tester : Nat)
  -- Signal Mill (11)
  -- `srcBad`: the source record reads with an uncorrectable error (R325); `crc`: lines, or the emission, whose split CRC-16 does
  -- not match as it is read (R327)
  | milSliceStart (side : Bool) (r : SliceRead)
  | cacheRefill (r : LineRead) (bad0 bad1 : Bool)
  | cacheWriteback (line : Nat)
  | timeoutSweep
  | emissionTick
  | emissionSnapshot (r : PduRead)
  | milTableWindow (who : Initiator) (w : Word)
  | milWindowCopy
  -- Crypto Block (12)
  | jobSubmit (who : Initiator) (page : Nat) (w : Word)
  | blockBoundary (sq : Nat)
  | jobComplete (page : Nat)
  | enc (page blocks : Nat)
  | dec (page blocks : Nat)
  | gmul (page blocks : Nat)
  | ctrx (page blocks : Nat)
  | hinit (page : Nat)
  | gacc (page blocks : Nat)
  | gfinal (page : Nat)
  | subkey (page : Nat)
  | macc (page blocks : Nat)
  | mfinal (page : Nat)
  | ctr (page : Nat)
  | cbcEnc (page : Nat)
  | cbcDec (page : Nat)
  | cmacGen (page : Nat)
  | cmacVer (page : Nat)
  | gcmSeal (page : Nat)
  | gcmOpen (page : Nat)
  | pageAbort (who : Initiator) (page : Nat)
  | cryEngineFault (engine sq : Nat)
  | authVerify (sq : Nat)
  | authGenerate (sq : Nat)
  | authVerifyGenerate (sq : Nat)
  | freshCheckpoint (prof : Nat) (res : FlashRes)
  | shutdownCheckpoint
  | macsecRx (port : Nat) (frame : Bytes)
  | macsecTx (port : Nat)
  | cryTableWindow (who : Initiator) (w : Word)
  | cryWindowCopy
  -- Key Vault (13)
  | derive (who : Initiator)
  | invalidate (who : Initiator)
  | unwrap (who : Initiator)
  | replace (who : Initiator) (res : List FlashRes)
  | kvtStoreDone
  | storeBackgroundErase
  | newchal (who : Initiator) (entropy : Bytes)
  | token (who : Initiator)
  | kvtAlarm (src : Nat)
  -- twins and faults (14)
  | twinMismatch (twin : Nat) (m : Mismatch)
  | replayStart (twin : Nat) (poisoned : List Nat)
  | twinResume (twin : Nat)
  | commitNotice (twin seq : Nat)
  | degradedCheckFail (outputCode predicted : Bool)
  | scStopped (pair : Nat)
  | fmRail
  -- network sleep and wake (15)
  | nmPduReceived (c : Nat) (src : NmPort) (pdu : Bytes)
  | nmRequest (who : Initiator) (c : Nat) (w : Word)
  | nmTmsgExpire (c : Nat)
  | nmTrepeatExpire (c : Nat)
  | nmTtimeoutExpire (c : Nat)
  | nmTwaitExpire (c : Nat)
  | sleepCommitPoint (c : Nat)
  | sleepComplete (c : Nat)
  | nmSleepTimeout (c : Nat)
  | nmFalseWake (c : Nat)
  | pncExpire (p : Nat)
  | offenderLogInterval (c : Nat)
  | inhHoldExpire (j : Nat)
  | wakeholdExpire
  | wakeInEdge (input : Nat) (rising : Bool)
  | phyIntNEdge (gpio : Nat)
  -- host interface and bridge (16)
  | hostLinkDown (e : Nat)
  | hostLinkUp (e : Nat)
  | txTailWrite (who : Initiator) (t : Nat) (w : Word)
  | txRecord (e t : Nat)
  | txCompletion (e t : Nat)
  | rxBufferPost (who : Initiator) (r : Nat) (w : Word)
  | rxDelivery (e r : Nat)
  | irqItrExpire (e : Nat) (tx : Bool) (q : Nat)
  | msixUnmask (who : Initiator) (v : Nat)
  | pageDomainWrite (who : Initiator) (p : Nat) (w : Word)
  | eventEntryWrite (bad : Bool)
  | evqNext (who : Initiator) (f : Nat)
  | evqMark (who : Initiator) (f : Nat)
  | evqRewind (who : Initiator) (f : Nat)
  | evqRelease (who : Initiator) (f : Nat)
  | hspiWrite (mosi : Bytes)
  | hspiRead (mosi : Bytes) (fetched : Nat)
  | hspiBadCmd (cmd : Byte)
  | hspiCsRise (mosi : Bytes)
  | bridgeWrite (who : Initiator) (off : Nat) (w : Word)
  | bridgeRead (who : Initiator) (off : Nat)
  | bridgeFarDone (bus : Nat) (res : FarRes)
  | bridgeReadTimeout (seq : Nat)
  | i2cIndirectRead (who : Initiator) (w : Word)
  | bridgePoll (k : Nat)
  -- recorder (17)
  | recordWrite
  | recSoftTrigger (who : Initiator)
  | crashIn
  | recPostmsExpire
  | recRelease (who : Initiator)
  | readoutGo (who : Initiator)
  | readoutAbort (who : Initiator)
  | recReadoutDone (r : RegionRead)
  -- update (18)
  | updOpen (who : Initiator)
  | updOpenDelta (who : Initiator)
  | updWrite (who : Initiator) (res : FlashRes)
  | updVerify (who : Initiator)
  | updArm (who : Initiator)
  | updAbort (who : Initiator)
  | updConfirm (who : Initiator) (slotB : Bool)
  | updReset (who : Initiator)
  | fallback (who : Initiator)
  | trialExpire
  -- Tally counter clears
  | ckpClr (who : Initiator) (w : Word)
  | swhClr (who : Initiator) (w : Word)
  | canClr (who : Initiator) (ch : Nat) (w : Word)
  | ethClr (who : Initiator) (port : Nat) (w : Word)
  | lndClr (who : Initiator) (w : Word)
  | rteClr (who : Initiator) (w : Word)
  | milClr (who : Initiator) (w : Word)
  | cryClr (who : Initiator) (w : Word)
  | kvtClr (who : Initiator) (w : Word)
  | fltClr (who : Initiator) (w : Word)
  | nmcClr (who : Initiator) (w : Word)
  | hifClr (who : Initiator) (w : Word)
  | recClr (who : Initiator) (w : Word)
  | updClr (who : Initiator) (w : Word)
  -- register accesses and late rows of the table
  | registerPairLowRead (who : Initiator) (r : ReadAt)
  | registerWrite (who : Initiator) (off size : Nat) (w : Word)
  | retainedPowerGood
  | linkFault (port : Nat) (f : LinkFlt)
  | shaperCreditZero (port cls : Nat)
  | sakInstall (port : Nat) (a : SakArgs)
  | busMasterEnable (e : Nat) (on : Bool)
  deriving DecidableEq, Repr

end Sys2Proof
end

