-- ==== Sys2Proof/Machine/StateCore.lean ====
section
/-! DEFINITION. State of the Commons that every block shares: clocks, modes and wake (03, 04), the wheel and the
crossings (06), the structure image and commits (05), boot flash, fuses and update (18), events and the host (16).
Every field holds its value right after reset as its default. -/

namespace Sys2Proof.Machine

/-- R18, R86: the operating modes M0 Dormant to M7 Provision. -/
inductive Mode where
  | m0 | m1 | m2 | m3 | m4 | m5 | m6 | m7
  deriving DecidableEq, Repr

/-- R87: the transition of modes under way. -/
inductive Trans where
  /-- No transition. -/
  | idle
  /-- Watch entry from a mode, to M0 at once afterwards or not (R89, R92); its step 2 is over. -/
  | watchEntry (src : Mode) (toM0 flushed : Bool)
  /-- Masks of groves to be powered, and then of groves to be gated (M3 to M2, M2 to M2, M2 to M3). -/
  | regroup (add drop : Nat)
  /-- A wake from M1 (false) or M0 (true) before routing opens (R96, R97). -/
  | wake (dormant : Bool)
  deriving DecidableEq, Repr

/-- R456, R458: an event stamped by its source and not written yet, with the TIME cycle in which it occurred. -/
structure Ev where
  stamp  : Nat
  born   : Nat
  code   : Nat
  cls    : Nat
  data   : Bytes
  unsync : Bool
  deriving DecidableEq, Repr

/-- R99: the slowdown episode. -/
structure Sag where
  active   : Bool := false
  /-- PHASE of CKP_SAGSTAT: 0 full speed, 1 hold, 2 to 5 steps 1 to 4. -/
  phase    : Nat := 0
  firstDet : Nat := 0
  /-- PERSIST_LIM in force at D, in µs (R101). -/
  limit    : Nat := 0
  /-- TIME clock cycle of D, and of the latest report or the start of the step that runs. -/
  start    : Nat := 0
  since    : Nat := 0
  /-- R84: PLL edges passed of every 8, and the edge of the group. -/
  n        : Nat := 8
  edge     : Nat := 0
  /-- PERSIST of CKP_SAGSTAT; this episode has exceeded its limit. -/
  persist  : Bool := false
  overLimit : Bool := false
  deriving DecidableEq, Repr

/-- 03 and 04: rails, pins, clocks, modes, wake. -/
structure Clk where
  mode      : Mode := .m3
  target    : Mode := .m3
  trans     : Trans := .idle
  /-- R90: the pending request. -/
  pendReq   : Option Mode := none
  /-- R89: modes still to be entered by the chain under way, and its trigger as R104 numbers it. -/
  chain     : List Mode := []
  trig      : Nat := 0
  /-- R87: groves whose admission is closed and whose island is still powered. -/
  gating    : Nat := 0
  lastRej   : Nat := 0
  /-- R96 step 8: routing is open, and since which TIME cycle. -/
  routing   : Bool := false
  routingAt : Nat := 0
  /-- R92 step 1: ingress admission is open. -/
  ingress   : Bool := false
  /-- R91: F4 and F3 faults that wait for the wheel boundary. -/
  f4Pend    : Bool := false
  f3Pend    : Bool := false
  /-- R102: M6 entered with no hold routes. -/
  noHold    : Bool := false
  pllLock   : Nat := 0
  pllRun    : Nat := 0
  xtalOk    : Bool := false
  rtcXtal   : Bool := false
  backup    : Bool := false
  /-- CKP_ISLAND: the islands powered (R35). -/
  islands   : Nat := 0x20
  sag       : Sag := {}
  /-- CKP_RTC and its accumulator of TIME cycles. -/
  rtc       : Nat := 0
  rtcAcc    : Nat := 0
  wakeTime  : Nat := 0
  wakeFirst : Nat := 0x0A
  wakeChan  : Nat := 0
  /-- WAKEHOLD has run out since routing opened (R428). -/
  holdDone  : Bool := false
  /-- R72: rail groups present, and the two supply enables as driven. -/
  alwaysOn  : Bool := true
  retained  : Bool := true
  switched  : Bool := true
  enSw      : Bool := false
  enRet     : Bool := false
  /-- PORST_N and WRST_N low; the device waits in reset; a self-reset waits for its boot. -/
  porstLow  : Bool := true
  wrstLow   : Bool := false
  selfReset : Bool := false
  /-- R70: the straps as sampled. -/
  cmpt      : Bool := false
  bootsel   : Nat := 0
  testen    : Bool := false
  /-- R64, R67: the pin section is in force; GPIO numbers whose PHY_RST_N role has been released. -/
  pinsOn    : Bool := false
  phyOut    : List Nat := []
  /-- R67: TIME cycle at which the pin section was applied. -/
  pinsAt    : Nat := 0
  /-- R66: GPIO output levels frozen by SAFE of the pin section in M6 and M7. -/
  safeOut   : Bool := false
  /-- Time: TIME clock cycles, phase of the 8 PLL edges per 5 TIME cycles, device time in units of 2^-39 ns. -/
  tclk      : Nat := 0
  pllPhase  : Nat := 0
  dtime     : Nat := 0
  /-- R227: the step of device time that waits for the microsecond boundary (two's complement of 64 bits). -/
  step      : Option Nat := none
  ppsIn     : Nat := 0
  ppsOut    : Bool := false
  /-- R13: a fast part has been applied since the last PORST_N, so fields marked AON and IMG keep their contents. -/
  aonImg    : Bool := false
  /-- R87: TIME cycle at which M1 Watch came into force. -/
  watchAt   : Nat := 0
  /-- R504: XSPICFG as copied into AON. -/
  xspi      : Nat := 0
  deriving DecidableEq, Repr

/-- R16: a requested clear: every Tally counter whose low-word offset lies from `lo` to `hi`, of one instance or of
all. -/
structure TClear where
  lo   : Nat
  hi   : Nat
  inst : Option Nat
  deriving DecidableEq, Repr

/-- R152 to R159: one direction of one crossing. -/
structure Xing where
  /-- Committed groups not released, oldest first. -/
  groups  : List (List RingWord) := []
  /-- The handshake word that the sender holds. -/
  hs      : Option FWord := none
  acc     : Nat := 0
  xfer    : Option Nat := none
  sat     : Bool := false
  stalled : Bool := false
  timed   : Bool := false
  /-- Re-pairing: 0 none, 1 the writer was reset, 2 the reader, 3 the ring after a timeout (R159). -/
  repair  : Nat := 0
  disc    : Nat := 0
  unknown : Bool := false
  dropped : Nat := 0
  deriving DecidableEq, Repr

/-- 06: the wheel. -/
structure Whl where
  slot    : Nat := 0
  turn    : Nat := 0
  /-- R142: owner tables by RES, 256 owner codes each; empty before the SLOT section is loaded. -/
  owners  : NMap (List Nat) := []
  /-- R151: damaged slots as RES * 256 + slot. -/
  damaged : List Nat := []
  /-- R150: the next row to scrub, by memory 0 to 4. -/
  scrub   : NMap Nat := []
  /-- R414: memory rows with a corrected error, as memory * 2^20 + row. -/
  eccHist : List Nat := []
  xings   : NMap Xing := []
  deriving DecidableEq, Repr

/-- R139: one record of the graft: section TYPE, index, record (as its little-endian number). -/
structure Graft where
  type  : Nat
  index : Nat
  val   : Nat
  deriving DecidableEq, Repr

/-- 05: the structure image in force. Records are held as the little-endian numbers of their bytes, "exactly as in
the image" (R120), and read through named fields. -/
structure Img where
  fast       : Bool := false
  flags      : Nat := 0
  secver     : Nat := 0
  start      : Nat := 0
  startGroves : Nat := 0
  wakeMode   : Nat := 0
  wakeGroves : Nat := 0
  imageId    : Nat := 0
  digest     : Bytes := []
  keyIdx     : Nat := 0
  compat     : Bool := false
  rejCode    : Nat := 0
  rejRec     : Nat := 0
  security   : Bytes := []
  pins       : List Nat := []
  grove      : NMap Nat := []
  reginit    : List (Nat × Nat) := []
  routeKeys  : List Nat := []
  route      : NMap Nat := []
  canFilt    : NMap Nat := []
  tern       : NMap Nat := []
  pol        : NMap Nat := []
  sched      : List Nat := []
  nml        : NMap Nat := []
  hold       : NMap Bool := []
  fdb        : NMap Nat := []
  stream     : NMap Nat := []
  mcast      : NMap (List Nat) := []
  gcl        : List Nat := []
  auth       : NMap Nat := []
  svc        : NMap Nat := []
  sigIdx     : NMap Nat := []
  blockDig   : List Bytes := []
  /-- Offsets and lengths of the streamed sections, and the digest of PDUIMG. -/
  sigLen     : Nat := 0
  sigOff     : Nat := 0
  pduLen     : Nat := 0
  pduOff     : Nat := 0
  pduDig     : Bytes := []
  pduOn      : Bool := false
  active     : List Nat := []
  failed     : List Nat := []
  /-- R132: Mill copies discarded or dropped that were bound for a host. -/
  preLost    : Nat := 0
  sigEvent   : Bool := false
  /-- R137, R330: signal entries that committed deltas replaced since the load. -/
  sigGraft   : NMap Nat := []
  deriving DecidableEq, Repr

/-- 05: commits and deltas. -/
structure Commit where
  /-- R134: dirty groups, each as kind * 2^16 + instance, in the order first written. -/
  dirty    : List Nat := []
  /-- R135: the commit window is open; its commit carries the staged delta. -/
  window   : Bool := false
  winDelta : Bool := false
  /-- Turns completed since the window opened, and whether the kerf slot has applied the commit. -/
  due      : Bool := false
  staged   : Bool := false
  /-- Groups of the running commit, and whether it carries the delta. -/
  groups   : List Nat := []
  values   : NMap Word := []
  delta    : Bool := false
  seq      : Nat := 0
  /-- R135: writes stalled by the window, oldest first. -/
  stalled  : List (Initiator × Nat × Word) := []
  /-- R138: the staged delta and its digest and flags; R139: records in force that still fold in. -/
  graft    : List Graft := []
  graftOn  : Bool := false
  newDig   : Bytes := []
  live     : List Graft := []
  liveGrps : Nat := 0
  liveSeq  : Nat := 0
  deltaErr : Bool := false
  deriving DecidableEq, Repr

/-- R502: the boot record in force. -/
structure BootRec where
  valid    : Bool := false
  seq      : Nat := 0
  copy     : Nat := 0
  active   : Nat := 0
  stateA   : Nat := 0
  stateB   : Nat := 0
  left     : Nat := 0
  secs     : Nat := 0
  xspi     : Nat := 0
  fwSecA   : Nat := 0
  fwSecB   : Nat := 0
  imgSecA  : Nat := 0
  imgSecB  : Nat := 0
  lastFb   : Nat := 0
  deriving DecidableEq, Repr

/-- R381, R383, R500, R508: the one-time fuses. Reset value: none in the spec, DESIGN CHOICE, log entry 4. -/
structure Fuses where
  lc       : Nat := 0
  fwcnt    : Nat := 0
  imgcnt   : Nat := 0
  revoke   : Nat := 0
  keyDig   : List Bytes := []
  authDig  : Bytes := []
  devid    : Bytes := []
  /-- R509: FUSE_EXHAUSTED has been raised: bit 0 FWCNT, bit 1 IMGCNT. -/
  spent    : Nat := 0
  deriving DecidableEq, Repr

/-- R520 to R525: the flash store. -/
structure Store where
  seq      : Nat := 0
  copy     : Nat := 0
  n        : Nat := 0
  map      : NMap Nat := []
  retired  : List Nat := []
  keyRo    : Bool := false
  freshRo  : Bool := false
  mapRo    : Bool := false
  /-- FRESH ring: sector at the head, records in it, ring number, next record SEQ. -/
  head     : Nat := 0
  fill     : Nat := 0
  ring     : Nat := 0
  recSeq   : Nat := 1
  /-- R523: logical sectors to erase in the background. -/
  erase    : List Nat := []
  deriving DecidableEq, Repr

/-- 18: boot and the update session. -/
structure Upd where
  brec     : BootRec := {}
  booted   : Nat := 0
  bootRep  : Nat := 0
  cause    : Nat := 0
  /-- R515: the trial timer, in the units of device time of `Clk.dtime`; the trial has expired. -/
  trialAcc : Nat := 0
  expired  : Bool := false
  sess     : Nat := 0
  owner    : Nat := 0
  target   : Nat := 0
  isDelta  : Bool := false
  status   : Nat := 0
  code     : Nat := 0
  busy     : Bool := false
  /-- Programmed ranges of the session (offset, length), and erased 64 KiB blocks. -/
  prog     : List (Nat × Nat) := []
  erased   : List Nat := []
  done     : Nat := 0
  staging  : NMap Byte := []
  /-- R512 RESET waits for the wheel boundary. -/
  resetDue : Bool := false
  deriving DecidableEq, Repr

/-- R456, R459: an entry written to an event FIFO. -/
structure EvEntry where
  code   : Nat
  cls    : Nat
  unsync : Bool
  clamp  : Bool
  seq    : Nat
  stamp  : Nat
  data   : Bytes
  /-- R461: a word of the entry fails parity when it is served. -/
  bad    : Bool
  deriving DecidableEq, Repr

/-- R455 to R462: one event FIFO. -/
structure Fifo where
  /-- Entries not released, oldest first. -/
  entries   : List EvEntry := []
  rd        : Nat := 0
  mark      : Nat := 0
  levelHit  : Bool := false
  /-- R462: a release has brought the fill below LEVEL since the last hit. -/
  armed     : Bool := true
  seq       : Nat := 0
  last      : Nat := 0
  lossCount : Nat := 0
  lossCode  : Nat := 0
  lossStamp : Nat := 0
  /-- SEQ of the entries already counted in EVQ_POISON. -/
  poisoned  : List Nat := []
  deriving DecidableEq, Repr

/-- R450: a transmit record decided and not completed: cookie, status, segments, whether it waits for a timestamp and
which frame, and the timestamp. -/
structure TxComp where
  num    : Nat
  cookie : Nat
  status : Nat
  segs   : Nat
  frame  : Option Nat
  stamp  : Nat
  /-- The admission is still open (the frame waits for admission or its last copy). -/
  wait   : Bool
  deriving DecidableEq, Repr

/-- R220 to R222: a segmentation request at work: record, headers, MSS, payload and padding bytes still to take, the
next segment, the route entry it names. -/
structure Tso where
  num   : Nat
  hdr   : Bytes
  mss   : Nat
  left  : Nat
  pad   : Nat
  k     : Nat
  named : Option Nat
  /-- R222: the egress port. -/
  port  : Option Nat := none
  deriving DecidableEq, Repr

/-- 16: one transmit queue of an endpoint. -/
structure TxQ where
  /-- R447: window words, by word offset in the 32 KiB ring. -/
  win    : NMap Word := []
  /-- R447: the next byte that the transmit engine takes; the first byte of the record that awaits its admission. -/
  head   : Nat := 0
  start  : Nat := 0
  /-- R448: bytes of a bad record still to be passed over. -/
  skip   : Nat := 0
  tso    : Option Tso := none
  comps  : List TxComp := []
  nextNum : Nat := 0
  widx   : Nat := 0
  phase  : Bool := true
  unsig  : Nat := 0
  /-- R454: TIME cycle of the first completion not signalled. -/
  unsigAt : Nat := 0
  deriving DecidableEq, Repr

/-- 16: one receive queue of an endpoint. -/
structure RxQ where
  bhead  : Nat := 0
  widx   : Nat := 0
  phase  : Bool := true
  unsig  : Nat := 0
  /-- R454: TIME cycle of the first completion not signalled. -/
  unsigAt : Nat := 0
  drops  : Nat := 0
  deriving DecidableEq, Repr

/-- R439 to R441, R463: one PCIe endpoint. -/
structure Ep where
  up     : Bool := false
  bme    : Bool := false
  tx     : NMap TxQ := []
  rx     : NMap RxQ := []
  /-- Receive buffer rings: words by RQ * 512 + word. -/
  bufs   : NMap Word := []
  /-- MSI-X table words by offset / 4 (reset: vector control masked, R439), and pending bits. -/
  msix   : NMap Word := []
  pba    : List Nat := []
  deriving DecidableEq, Repr

/-- R444: the access error log of an initiator; errors since the last report, and device time in ns of that report. -/
structure AccLog where
  err    : Bool := false
  off    : Nat := 0
  kind   : Nat := 0
  count  : Nat := 0
  last   : Option Nat := none
  deriving DecidableEq, Repr

/-- R15, R241: the read latch and the write hold of an initiator, each with the offset of the pair. The latch holds what stands
above the low word: one word, or TBS_TIME1 and TBS_TIME2. -/
structure PairBuf where
  latch : Option (Nat × Nat) := none
  hold  : Option (Nat × Word) := none
  deriving DecidableEq, Repr

/-- R465 to R468: the host SPI port: status bits WCRC, ACCERR, CUT; bytes sent on MISO last. -/
structure Hspi where
  wcrc : Bool := false
  acc  : Bool := false
  cut  : Bool := false
  miso : Bytes := []
  deriving DecidableEq, Repr

/-- R471: an access in the bridge: bus 0 to 6 as BRG_POLLCFG numbers them. -/
structure BrgAcc where
  seq   : Nat
  who   : Nat
  off   : Nat
  /-- Port and device address of Clause 45, or the I2C address of an indirect read. -/
  addr  : Nat
  write : Bool
  data  : Word
  /-- 0 host or Eopod access, 1 indirect read, 2 poll. -/
  kind  : Nat
  poll  : Nat
  issued : Bool
  /-- R472: the read has timed out or its endpoint has gone; its data is discarded. -/
  dead  : Bool
  deriving DecidableEq, Repr

/-- R45, R451, R471: an access of an initiator that has not taken effect: the command that makes it, and whether its endpoint's
link has gone since (R441). -/
structure BrgWait where
  who  : Initiator
  cmd  : Instr
  gone : Bool
  deriving DecidableEq, Repr

/-- 16: the Peripheral Bridge. -/
structure Brg where
  seq     : Nat := 0
  /-- Queued and issued accesses per far bus 0 to 4 (MDIO0, MDIO1, PSPI0, PSPI1, I2C). -/
  queues  : NMap (List BrgAcc) := []
  /-- R45, R451, R471: accesses that found their bus queue or transmit window full, and those that follow them from the same
  initiator, oldest first. -/
  wait    : List BrgWait := []
  log     : NMap (List Word) := []
  logNext : Nat := 0
  irdOpen : List Nat := []
  /-- BRG_IRDRES per initiator. -/
  irdRes  : NMap Nat := []
  pollVal : NMap Nat := []
  rderr   : Bool := false
  irdbusy : Bool := false
  deriving DecidableEq, Repr

/-- An output that leaves the device: the MODEL'S observation log (DESIGN CHOICE, log entry 7). -/
inductive Output where
  /-- R61, R66: a ball or line takes a level: name number and level. 0 IRQ_N, 1 HSPI_IRQ_N, 2 FAULT_N, 3 RSTOUT_N,
  4 SUPPLY_EN_SW, 5 SUPPLY_EN_RET, 6 PPS_OUT, 7 FSPI_RST_N, 8 + c DDRc_RESET_N, 16 + j INH_OUT j, 32 + g GPIO g,
  64 + n CANn_TXD between frames. -/
  | line (name : Nat) (high : Bool)
  /-- R63: every output and bidirectional ball goes high-impedance. R66: one of them does. -/
  | ballsZ
  | lineZ (name : Nat)
  /-- R77, R111: the transmit and the receive pair of an Ethernet lane are inverted or not. -/
  | lane (port : Nat) (txInv rxInv : Bool)
  | can (ch : Nat) (f : CanFrame)
  | canXbit (ch : Nat) (kind : Nat)
  /-- R170: the data phase of the XL frame that follows goes out in PWM symbols of so many CANP cycles. -/
  | canPwm (ch short long : Nat)
  | eth (port : Nat) (bytes : Bytes)
  | ethCut (port : Nat)
  /-- R224: the frame on the wire ends after so many bytes with its FCS inverted. -/
  | ethStomp (port sent : Nat)
  | ethPause (port : Nat) (quanta : Nat)
  /-- R440: a posted write to host memory. -/
  | hostWrite (e addr : Nat) (data : Bytes)
  | msix (e : Nat) (addr : Nat) (data : Nat)
  /-- R466: bytes of MISO. -/
  | miso (bytes : Bytes)
  /-- A read completion of a register or bridge read. -/
  | completion (who : Initiator) (off : Nat) (w : Word)
  /-- R470: a far transaction issued: bus, address, write, data. -/
  | far (bus addr : Nat) (write : Bool) (data : Nat)
  /-- R152: a group, a word or a count delivered by a crossing. -/
  | ring (x : Nat) (out : Bool) (group : List RingWord)
  | shake (x : Nat) (out : Bool) (w : FWord)
  | pulses (x : Nat) (out : Bool) (n : Nat) (sat : Bool)
  /-- R295: a DoIP message to a tester. -/
  | doip (tester : Nat) (bytes : Bytes)
  deriving DecidableEq, Repr

end Sys2Proof.Machine
end

