-- ==== Sys2Proof/Machine/StateNet.lean ====
section
/-! DEFINITION. State of the datapath: frames and PDUs, CAN channels (07), the Landing (09) and the Route Engine with
the diagnostic gateway (10). Every field holds its value right after reset as its default. -/

namespace Sys2Proof.Machine

/-- The header of a CAN PDU of no frame. -/
def canNone : CanFrame :=
  { fmt := .classical, xtd := false, rtr := false, esi := false, id := 0, vcid := 0, sdt := 0, af := 0, sec := false, data := [] }

/-- R449, R450: which transmit record a frame came from: endpoint, queue, number of the record, and whether TSREQ asks
for its egress timestamp. -/
structure TxRef where
  e     : Nat
  t     : Nat
  num   : Nat
  tsreq : Bool
  deriving DecidableEq, Repr

/-- One copy of a frame: queue index (R244), traffic class, route entry, the format a CAN copy is sent in (R172, R282),
VLAN action, VID and PCP (R120, R270), and the REASON a record copy carries (R297, R486). -/
structure Dest where
  q      : Nat
  tc     : Nat
  route  : Nat
  fmt    : CanFmt
  vlan   : Nat
  vid    : Nat
  pcp    : Nat
  reason : Nat
  deriving DecidableEq, Repr

/-- A frame or PDU inside the device. Ethernet frames are held as received or submitted, without their FCS; a CAN PDU
as its payload with the header fields of R171 in `can` (for an ACF message `af` holds stream ID bits [48:0], R274). -/
structure Pkt where
  id      : Nat := 0
  /-- KIND of R453: 0 Ethernet, 1 Classical CAN, 2 FD, 3 XL, 4 Mill PDU, 5 crypto output. -/
  kind    : Nat := 0
  can     : CanFrame := canNone
  data    : Bytes := []
  /-- R242, R243: stored size S. -/
  size    : Nat := 0
  /-- Ingress code of R284 byte 33, or 0x90 + slice for the Mill. -/
  ingress : Nat := 0
  /-- Landing port it enters at (R9). -/
  input   : Nat := 0
  /-- Ingress timestamp, device time in ns. -/
  stamp   : Nat := 0
  /-- R485: device time was unsynchronised at the stamp. -/
  unsync  : Bool := false
  /-- R223: only the head of the frame has been received. -/
  part    : Bool := false
  /-- R223: its head was taken for cut-through. -/
  headTaken : Bool := false
  acf     : Bool := false
  /-- R211, R216: received on ETHM. -/
  ethm    : Bool := false
  tx      : Option TxRef := none
  /-- R222: a TSO segment: whether it is the last. -/
  seg     : Option Bool := none
  /-- R286: marked drop-eligible. -/
  de      : Bool := false
  /-- R453: verified under R289. -/
  auth    : Bool := false
  /-- R255: its IP header was parsed and its ECN field is ECT. -/
  ect     : Bool := false
  /-- R316: a Mill PDU of FORM 4, an Ethernet frame. -/
  form4   : Bool := false
  /-- R234: an R-tag to insert, and its removal, at egress. -/
  rtag    : Option Nat := none
  rstrip  : Bool := false
  /-- R53: the route entry and its number used for its whole life, and its copies after the authentication job (R290). -/
  route   : Nat := 0
  entry   : Nat := 0
  plan    : List Dest := []
  deriving DecidableEq, Repr

/-- R242, R249, R252: a frame in the cell buffer. -/
structure Stored where
  pkt      : Pkt
  n        : Nat
  owner    : Nat
  /-- Every queue with an admitted copy (D of R249). -/
  placed   : List Nat
  /-- Copies not yet left or dropped; copies whose commit notice has not come and that were not dropped (R397). -/
  left     : Nat
  open'    : Nat
  /-- R397: a mark has been taken since the admission. -/
  marked   : Bool
  /-- R267: a cell has an uncorrectable error. -/
  bad      : Bool
  /-- R256: ECN mark. -/
  ecn      : Bool
  /-- R266: the cell time of its admission, as `Lnd.cellTimes` counts them. -/
  at'      : Nat
  /-- Device time in ns at which a copy last left (R449). -/
  egress   : Option Nat
  deriving DecidableEq, Repr

/-- R245, R261: a copy in a staging lane, with the cells that have reached it. A streaming lane hands each cell on as it
arrives, so what it holds of the frame is the cells asked for and not arrived. -/
structure LaneItem where
  pkt  : Pkt
  dest : Dest
  n    : Nat
  got  : Nat
  /-- R182, R185: the tag of a frame displaced by a swap. -/
  tag  : Option Nat
  ecn  : Bool
  /-- R259: cells matched so far; `got` of them have reached the lane. -/
  asked : Nat
  /-- R219: its transmission has begun. -/
  sent : Bool
  deriving DecidableEq, Repr

/-- R257: a lane: staged copies, cell times since its last transfer. -/
structure Lane where
  items : List LaneItem := []
  age   : Nat := 0
  deriving DecidableEq, Repr

/-- R259, R260: a matched cell that waits for its input's read slot: frame, its number in the frame's chain, and lanes. -/
structure MatchCell where
  frame : Nat
  cell  : Nat
  lanes : List Nat
  deriving DecidableEq, Repr

/-- R290, R248: a decided frame that awaits admission: the copies left, and since which TIME cycle it waits (R251). -/
structure Decided where
  pkt   : Pkt
  dests : List Dest
  since : Option Nat
  deriving DecidableEq, Repr

/-- 09: the Landing. -/
structure Lnd where
  frames  : NMap Stored := []
  nextId  : Nat := 0
  queues  : NMap (List (Nat × Dest)) := []
  /-- Lanes by port * 16 + lane. -/
  lanes   : NMap Lane := []
  grant   : NMap Nat := []
  accept  : NMap Nat := []
  lanePtr : NMap Nat := []
  matched : NMap (List MatchCell) := []
  lfsr    : Nat := 0xACE1
  /-- Frames that await admission, by input port: oldest first. -/
  waiting : NMap (List Decided) := []
  /-- LND_STAT. -/
  cfgErr  : Bool := false
  reason  : Nat := 0
  errQ    : Nat := 0
  /-- R253, R272: losses of host queues not reported yet, and when the last report was. -/
  lossCnt : NMap Nat := []
  lossAt  : NMap Nat := []
  cellTimes : Nat := 0
  deriving DecidableEq, Repr

/-- An item in a grove's parse or lookup stage, or a host lookup that waits: the frame, the entry it names (R280), and
for ACF the messages of its frame (R277). -/
structure LookItem where
  pkt   : Pkt
  named : Option Nat
  /-- The frame asks for the Ethernet path (R274). -/
  eth   : Bool
  /-- PARSE type of R275. -/
  ptype : Nat
  deriving DecidableEq, Repr

/-- R286: a policer's state: tokens in 2^-16 units, TIME cycle of the last decision, of the last conforming frame, and
the counts. -/
structure Pol where
  tokens : Nat
  last   : Nat
  conf   : Option Nat
  nConf  : Nat
  nExc   : Nat
  deriving DecidableEq, Repr

/-- R232: a Qci stream: blocked, and its gate or meter state; R234: CB recovery. -/
structure Strm where
  blocked : Bool := false
  /-- R299: MAXSDU, gate and meter drops. -/
  dSdu    : Nat := 0
  dGate   : Nat := 0
  dMeter  : Nat := 0
  genSeq  : Nat := 0
  /-- Sequence recovery: initialised, highest number, history bits, TIME cycle of the last pass. -/
  recInit : Bool := false
  recHigh : Nat := 0
  recHist : Nat := 0
  recLast : Nat := 0
  nDup    : Nat := 0
  nReset  : Nat := 0
  deriving DecidableEq, Repr

/-- R295, R296: a diagnostic transfer in flight: target address, tester, and where its ISO 15765-2 transfer stands. -/
structure DiagReq where
  target : Nat
  tester : Nat
  func   : Bool
  /-- Frames of the request that have not been sent. -/
  rest   : List Bytes := []
  /-- 0 the response is awaited, 1 flow control of the target (N_Bs), 2 consecutive frames of the response (N_Cr), 3 the next
  frame of the request waits for STmin. -/
  phase  : Nat := 0
  /-- Frames that the block of the target's flow control still lets pass; none when it sets no limit. -/
  block  : Option Nat := none
  /-- STmin of the target in TIME cycles. -/
  gap    : Nat := 0
  /-- TIME cycle at which the running timer, or the latest gap, began. -/
  t0     : Nat := 0
  deriving DecidableEq, Repr

/-- 10: Route Engine and diagnostic gateway. -/
structure Rte where
  /-- Parse stage by source: grove 0 to 3, then HA 4, HB 5, SVC 6, MIL 9. -/
  parse   : NMap (List LookItem) := []
  lookup  : NMap (List LookItem) := []
  pols    : NMap Pol := []
  streams : NMap Strm := []
  tunSeq  : NMap Nat := []
  ternHit : NMap Nat := []
  polErr  : Bool := false
  lossCnt : NMap Nat := []
  lossAt  : NMap Nat := []
  lossWhy : NMap Nat := []
  authCnt : NMap Nat := []
  authAt  : NMap Nat := []
  /-- R290: the counter of each profile: frames that its failed jobs have dropped. -/
  authSum : NMap Nat := []
  twReady : Bool := false
  twData  : List Word := []
  /-- R295: testers by slot 0 to 3: connection's logical address. -/
  testers : NMap Nat := []
  /-- R301: the words of the RTE_DIAG entries as SC2 read them at the latest routing activation, 4 to an entry. -/
  diagTab : NMap Nat := []
  diag    : List DiagReq := []
  diagDisc : Nat := 0
  deriving DecidableEq, Repr

/-- R181: a frame in a transmit buffer. -/
structure XbFrame where
  frame  : CanFrame
  tag    : Nat
  /-- R41: flow: ingress, route entry, class. -/
  flow   : Nat × Nat × Nat
  pkt    : Option Pkt
  item   : Option LaneItem
  /-- Route entry of the schedule store, for a store frame. -/
  store  : Option Nat
  mbox   : Bool
  /-- R183: a first SOF has been sent. -/
  sof    : Bool
  onBus  : Bool
  failed : Bool
  cancel : Bool
  /-- R190: its window has ended while its attempt was on the bus. -/
  expired : Bool
  order  : Nat
  /-- R424: the attempt on the bus is its last. -/
  last   : Bool := false
  deriving DecidableEq, Repr

/-- R188: a frame in the schedule store. -/
structure StoreFrame where
  pkt   : Pkt
  dest  : Dest
  deriving DecidableEq, Repr

/-- R167: the words of CG_CANBT as latched. -/
structure CanBt where
  nbt : Nat := 0
  dbt : Nat := 0
  xbt : Nat := 0
  tdc : Nat := 0
  deriving DecidableEq, Repr

/-- R168, R180: what a channel latches before a frame's SOF: bit timing, FILTBASE, FILTCNT and FILTDEF. -/
structure CanLatch where
  bt   : CanBt := {}
  base : Nat := 0
  cnt  : Nat := 0
  rej  : Bool := false
  deriving DecidableEq, Repr

/-- R179, R180: a received frame in the receive stage, with the filter partition that it is evaluated against. -/
structure RxStage where
  frame : CanFrame
  base  : Nat
  cnt   : Nat
  rej   : Bool
  deriving DecidableEq, Repr

/-- 07: one CAN channel. -/
structure CanCh where
  /-- STATE of CAN_STAT: 0 INIT, 1 integrating, 2 error active, 3 error passive, 4 bus-off, 5 recovering. -/
  state    : Nat := 0
  tec      : Nat := 0
  rec'     : Nat := 0
  tdcv     : Nat := 0
  bterr    : Bool := false
  tdcErr   : Bool := false
  xb0      : Option XbFrame := none
  xb1      : Option XbFrame := none
  xb2      : Option XbFrame := none
  nextTag  : Nat := 0
  fills    : Nat := 0
  /-- NEXT of CAN_XBSTAT, and the buffer picked for the next SOF. -/
  next     : Option Nat := none
  /-- CAN_CANCELSTAT: BUF, RESULT, TAG. -/
  cBuf     : Nat := 0
  cRes     : Nat := 0
  cTag     : Nat := 0
  mbOwner  : Nat := 0
  mbDone   : Bool := false
  mbRef    : Bool := false
  mbReason : Nat := 0
  mbResult : Nat := 0
  mbTag    : Nat := 0
  /-- R181: MBEN as it acts (a change waits for XB2 to be empty). -/
  mbOn     : Bool := false
  bt       : CanBt := {}
  opmode   : Nat := 0
  /-- R168, R180: what was in force before each commit since the last frame on the bus ended or the last SOF was sent, newest first. -/
  past     : List CanLatch := []
  /-- R165: entry to INIT is due at the end of the frame in progress. -/
  initDue  : Bool := false
  /-- R165: a gating or Watch entry demands INIT. -/
  demand   : Bool := false
  stage    : List RxStage := []
  /-- R175: exceptions not reported, and the last report. -/
  pxCount  : Nat := 0
  pxLast   : Option Nat := none
  schRun   : Bool := false
  schCyc   : Nat := 0
  schCol   : Nat := 0
  schExcl  : Bool := false
  /-- R189: the route whose stored frame is to be loaded in this column once XB0 is free. -/
  schLoad  : Option Nat := none
  /-- R190: cycle and column of the last window that ended with a frame in XB0. -/
  missAt   : Nat × Nat := (0, 0)
  store    : NMap StoreFrame := []
  /-- R196: recovery was started by RECOVER. -/
  byReq    : Bool := false
  swkPat   : Nat := 0
  swkMatch : Bool := false
  swkFecW  : Bool := false
  swkFec   : Nat := 0
  deriving DecidableEq, Repr

end Sys2Proof.Machine
end

