-- ==== Sys2Proof/Machine/StatePort.lean ====
section
/-! DEFINITION. State of the Ethernet ports (08) and of the Signal Mill (11). Every field holds its value right after
reset as its default. -/

namespace Sys2Proof.Machine

/-- R228, R229: a gate list: entries (interval in ns, gates), base time in ns, cycle and extension in ns. -/
structure GateList where
  entries : List (Nat × Nat)
  base    : Nat
  cycle   : Nat
  ext     : Nat
  deriving DecidableEq, Repr

/-- 08: one Ethernet port (0 to 7, and 8 for ETHM). -/
structure EthP where
  /-- LINKST: 0 DISABLED, 1 DOWN, 2 DEBOUNCE, 3 LINK_UP, 4 SLEEP. -/
  st       : Nat := 0
  /-- R235: faults present: PCS, local, remote, in-band, PLL. -/
  pcs      : Bool := true
  lfault   : Bool := false
  rfault   : Bool := false
  inband   : Bool := false
  anmis    : Bool := false
  pll      : Bool := false
  /-- DEBOUNCE in force and the TIME cycle it started at. -/
  dbMs     : Nat := 0
  dbStart  : Nat := 0
  /-- R218: a pause is in force, when it ends, and when PAUSE_LIMIT was last raised, in ns of the TIME clock. -/
  paused   : Bool := false
  pauseEnd : Nat := 0
  capLast  : Option Nat := none
  oper     : Option GateList := none
  pend     : Option GateList := none
  /-- R229: change time of the pending list in ns, and the entry in force of the operational list. -/
  cct      : Nat := 0
  entry    : Nat := 0
  /-- R231: credit in units of 10^-6 bits by class. -/
  credit   : NMap Int := []
  cbsErr   : Nat := 0
  /-- R219, R261: the class of the staged frame (its copies are in the port's Landing lane), and its bytes without the FCS; when the
  frame on the wire started, and when it and its gap end, in ns of the TIME clock. -/
  stClass  : Nat := 0
  stBytes  : Option Bytes := none
  wireStart : Nat := 0
  wireEnd  : Nat := 0
  /-- The frame on the wire, without its FCS, whose last bit has not left. -/
  wire     : Option Bytes := none
  /-- R224: a cut-through frame that is leaving and whose end has not come. -/
  cutFrame : Option Nat := none
  /-- R223: the head of a frame has been taken and its rest has not come. -/
  headIn   : Bool := false
  /-- R236: a frame is being received. -/
  rxOn     : Bool := false
  sleepReq : Bool := false
  /-- R357: frames that MACSEC_TX protected for the wire. -/
  prot     : Option Bytes := none
  deriving DecidableEq, Repr

/-- R322: a cache line with two entries. -/
structure CacheLine where
  e0    : Nat
  e1    : Nat
  dirty : Bool
  used  : Nat
  deriving DecidableEq, Repr

/-- R305: a slice at work on a source PDU: copy, source record, next entry. -/
structure SliceJob where
  pkt    : Pkt
  src    : Nat
  pos    : Nat
  /-- Lines that it has asked for and not read yet. -/
  missed : List Nat
  /-- R305: lines still to be asked for, in order: 16 refills are outstanding. -/
  wait   : List Nat := []
  deriving DecidableEq, Repr

/-- R319: emission state of a destination PDU: start tick, last emission, pending trigger, repetitions left and the tick
of the next. -/
structure DestSt where
  start : Option Nat := none
  last  : Option Nat := none
  /-- The first tick at which a pending trigger can act. -/
  trig  : Option Nat := none
  reps  : Nat := 0
  repAt : Nat := 0
  oos   : Bool := false
  deriving DecidableEq, Repr

/-- 11: the Signal Mill. -/
structure Mil where
  /-- R313: source record state: EXPIRED, OOS, DEADLINE. -/
  expired  : List Nat := []
  oos      : List Nat := []
  /-- R325: source records in which an uncorrectable error stands that no read has found, or that is found already. -/
  srcErr   : List Nat := []
  deadline : NMap Nat := []
  /-- R324: the signal table on each DRAM channel. -/
  tab0     : NMap Nat := []
  tab1     : NMap Nat := []
  cache    : NMap CacheLine := []
  useSeq   : Nat := 0
  refills  : List Nat := []
  /-- R323: evicted dirty lines that await write-back. -/
  wback    : NMap CacheLine := []
  lost     : List Nat := []
  desc     : NMap Nat := []
  image    : NMap Bytes := []
  dst      : NMap DestSt := []
  due      : List Nat := []
  slices   : NMap SliceJob := []
  /-- R319: the last emission tick decided; TIME cycle of the last sweep. -/
  ticks    : Nat := 0
  sweepAt  : Nat := 0
  /-- R318: Mill time when PDUIMG was applied, and when each block became active. -/
  pduTick  : Nat := 0
  blkTick  : NMap Nat := []
  /-- R317: the PDUIMG section has failed. -/
  pduBad   : Bool := false
  split    : Bool := false
  cfgErr   : Bool := false
  late     : Bool := false
  wReady   : Bool := false
  wData    : List Word := []
  /-- R328: losses not reported yet, when the last report was, and PDU and reason of the last loss. -/
  lossCnt  : Nat := 0
  lossAt   : Option Nat := none
  lossPdu  : Nat := 0
  lossWhy  : Nat := 0
  deriving DecidableEq, Repr

end Sys2Proof.Machine
end

