-- ==== Sys2Proof/Machine/StateSec.lean ====
section
/-! DEFINITION. State of the Crypto Block (12) and of the Rolton Key Vault (13). Every field holds its value right after
reset as its default. -/

namespace Sys2Proof.Machine

/-- R343, R344: the job in hand of a page. -/
structure Job where
  d      : Nat
  op     : Nat
  hold   : Bool
  verify : Bool
  tlen   : Nat
  key    : Nat
  inoff  : Nat
  outoff : Nat
  len    : Nat
  iv     : Bytes
  /-- Counter block of the next block (CTRX). -/
  ctr    : Bytes
  done   : Nat
  /-- R370: the key material that it read at its start. -/
  mat    : Bytes
  /-- R345, R346: it ends at its next block boundary, with this status. -/
  ends   : Option Nat
  deriving DecidableEq, Repr

/-- R336 to R347: one page: 0 to 127 user, 128 + i internal page i. -/
structure Page where
  acc      : Bytes := []
  h        : Bytes := []
  k1       : Bytes := []
  k2       : Bytes := []
  /-- Descriptors and input area, by word offset / 4 from the page base. -/
  mem      : NMap Word := []
  out      : NMap Byte := []
  /-- R347: held bytes as (offset, length) of the output area. -/
  held     : List (Nat × Nat) := []
  jstat    : NMap Word := []
  head     : Nat := 0
  tail     : Nat := 0
  job      : Option Job := none
  /-- R345: jobs from HEAD on that an ABORT has ended. -/
  aborts   : Nat := 0
  donePend : Bool := false
  deriving DecidableEq, Repr

/-- R351 to R353: freshness state of a profile: CNT or L, stored checkpoint and the SEQ of its record, halted, refused,
accepted advances since the checkpoint. -/
structure Fresh where
  val      : Nat := 0
  ckpt     : Nat := 0
  halt     : Bool := false
  refused  : Bool := false
  seq      : Nat := 0
  advances : Nat := 0
  /-- R353: the shutdown checkpoint holds the current value. -/
  shut     : Bool := false
  deriving DecidableEq, Repr

/-- R355 to R358: a MACsec SA. `pn` is the next PN (transmit) or the lowest acceptable (receive). -/
structure Sa where
  key     : Nat
  an      : Nat
  sci     : Nat
  ssci    : Nat
  salt    : Bytes
  suite   : Nat
  pn      : Nat
  rekeyed : Bool
  stopped : Bool
  deriving DecidableEq, Repr

/-- 12: the Crypto Block. -/
structure Cry where
  locked : Bool := false
  progs  : Bool := false
  pages  : NMap Page := []
  /-- R344: the page each sequencer serves. -/
  cur    : NMap Nat := []
  /-- R344: sequencers whose page has had its block and that are to move on at the next block boundary. -/
  served : List Nat := []
  fresh  : NMap Fresh := []
  /-- Transmit SAs by port * 2 + AN bit; receive SAs by port * 32 + SC * 4 + AN. -/
  txSa   : NMap Sa := []
  rxSa   : NMap Sa := []
  /-- CRY_MSPORT: SUITE and TXAN by port. -/
  suite  : NMap Nat := []
  txAn   : NMap Nat := []
  wReady : Bool := false
  wData  : List Word := []
  /-- R346: user pages end their jobs with SAFEHOLD. -/
  hold   : Bool := false
  deriving DecidableEq, Repr

/-- R368, R369: a key slot. -/
structure KSlot where
  full    : Bool := false
  mat     : Bytes := []
  ktype   : Nat := 0
  usage   : Nat := 0
  domain  : Nat := 0
  parent  : Nat := 0
  level   : Nat := 0
  pers    : Option (Nat × Nat) := none
  gen     : Nat := 1
  retired : Bool := false
  deriving DecidableEq, Repr

/-- R376: a REPLACE between its completion and the swap at the wheel boundary. -/
structure Swap where
  who    : Initiator
  id     : Nat
  slot   : Nat
  seq    : Nat
  mat    : Bytes
  ktype  : Nat
  pos    : Nat
  deriving DecidableEq, Repr

/-- R374: a command that waits while the REPLACE of another issuer runs: its OP, and what its row carries. -/
structure KvtWait where
  who     : Initiator
  op      : Nat
  res     : List FlashRes
  entropy : Bytes
  deriving DecidableEq, Repr

/-- 13: the Key Vault. -/
structure Kvt where
  root     : Option Bytes := none
  pufFail  : Bool := false
  ma0      : Bytes := List.replicate 48 0
  ma1      : Bytes := List.replicate 48 0
  ma2      : Bytes := List.replicate 48 0
  ma3      : Bytes := List.replicate 48 0
  sealed   : Bool := false
  slots    : NMap KSlot := []
  locked   : Bool := false
  /-- R380: KVT_ALARMREC and KVT_ALARMTIME, in AON. -/
  alarmRec : Option (Nat × Nat) := none
  /-- R383: debug armed with SCOPE (AON), debug open with SCOPE, the current challenge. -/
  armed    : Option Nat := none
  openScope : Option Nat := none
  chal     : Option Bytes := none
  /-- R382: a lifecycle state blown and not in force before the next reset. -/
  lcNext   : Option Nat := none
  /-- KVT_CMDSTAT and KVT_RESULT by issuer. -/
  status   : NMap Nat := []
  result   : NMap Nat := []
  swap     : Option Swap := none
  wait     : List KvtWait := []
  dynBase  : Nat := 0
  dynLim   : Nat := 0
  alarmMask : Nat := 0
  deriving DecidableEq, Repr

end Sys2Proof.Machine
end

