-- ==== Sys2Proof/Machine/StateMgmt.lean ====
section
/-! DEFINITION. State of the twins and the Fault Manager (14), of network management (15) and of the Trace Recorder
(17). Every field holds its value right after reset as its default. -/

namespace Sys2Proof.Machine

/-- R407: one mismatch of the window: TIME cycle, rail flag, evidence against main and checker. -/
structure Miss where
  at'   : Nat
  rail  : Bool
  main  : Bool
  check : Bool
  deriving DecidableEq, Repr

/-- R386 to R413: one twin. -/
structure Twin where
  /-- 0 running, 1 frozen and rewound, 2 replaying. -/
  phase   : Nat := 0
  misses  : List Miss := []
  /-- R405: no mark has been taken since the resume. -/
  unmarked : Bool := false
  /-- Freeze instant: device time in ns, TIME cycle. -/
  freezeNs : Nat := 0
  freezeT : Nat := 0
  rail    : Bool := false
  again   : Bool := false
  recopy  : Nat := 0
  /-- R402 step 6, R404: the replay runs on one copy alone after classification. -/
  fill    : Nat := 0
  levelUp : Bool := false
  /-- R400, R401: the next egress commit sequence, those committed whose notice is on its way, and the commit log. -/
  ecs     : Nat := 0
  flight  : List Nat := []
  log     : List Nat := []
  /-- R396, R401: the next egress commit sequence at the last mark. -/
  markEcs : Nat := 0
  deriving DecidableEq, Repr

/-- 14: the Fault Manager. -/
structure Flt where
  twins    : NMap Twin := []
  /-- R407, R408: the degraded twin, its healthy copy (0 main, 1 checker) and basis. -/
  degraded : Option (Nat × Nat × Nat) := none
  /-- R410: the fault record in AON with CKP_RTC. -/
  record   : Option (Nat × Nat × Nat × Nat) := none
  f3       : Bool := false
  f4       : Bool := false
  worst    : Nat := 0
  recMax   : Nat := 0
  /-- R54, R386: commits journalled by twin 0 since its last mark. -/
  commits  : Nat := 0
  /-- R414: service core pairs held in reset; FM rail disagreement. -/
  scDown   : List Nat := []
  rail     : Bool := false
  /-- R414: corrected errors as (memory, row, TIME cycle), uncorrectable errors in the same form. -/
  corr     : List (Nat × Nat × Nat) := []
  unc      : List (Nat × Nat × Nat) := []
  deriving DecidableEq, Repr

/-- R434: an entry of the offender log. -/
structure Offender where
  cluster : Nat
  isOpen  : Bool
  eth     : Bool
  port    : Nat
  node    : Nat
  cbv     : Nat
  /-- CKP_RTC at entry; its low 32 bits show. -/
  first   : Nat
  secs    : Nat
  pdus    : Nat
  deriving DecidableEq, Repr

/-- R434: a node charged in the running interval. -/
structure Charge where
  eth  : Bool
  port : Nat
  node : Nat
  cbv  : Nat
  pdus : Nat
  deriving DecidableEq, Repr

/-- R422: one NM cluster. -/
structure Cluster where
  /-- STATE: 0 ASLEEP, 1 LISTEN, 2 REPEAT, 3 AWAKE, 4 READY, 5 DRAIN, 6 SLEEPING. -/
  st      : Nat := 0
  /-- TIME cycle at which the running timer started, and its length in ms. -/
  t0      : Nat := 0
  len     : Nat := 0
  /-- R421: TIME cycle of the last keep-alive while they are sent, and TMSG as it ran from there. -/
  kaT0    : Option Nat := none
  kaLen   : Nat := 0
  /-- R433: the source of the wake that LISTEN checks. -/
  src     : Nat := 0
  /-- R421: REPEAT entered through NMC_CREQ with RMR; started by a local need. -/
  rmr     : Bool := false
  aw      : Bool := false
  /-- TWAIT has elapsed in DRAIN. -/
  waited  : Bool := false
  /-- R424: the commit point has passed and the cluster has not woken: egress admission is closed. -/
  closed  : Bool := false
  /-- R425: wake request in SLEEPING, with its TIME cycle and source. -/
  rewake  : Option (Nat × Nat) := none
  /-- R434: TIME cycle at which the running OFFTIME interval of READY or DRAIN began, and the nodes charged in it. -/
  offT0   : Option Nat := none
  charges : List Charge := []
  deriving DecidableEq, Repr

/-- 15: the NMC block. -/
structure Nmc where
  clusters : NMap Cluster := []
  cfgErr   : Bool := false
  /-- R429: TIME cycle at which a PNC was last set in a relevant NM PDU of a cluster, by pnc * 32 + cluster. -/
  seen     : NMap Nat := []
  /-- R430: PNCs active for the gate decisions in force. -/
  gate     : Nat := 0
  log      : List (Option Offender) := []
  pncLost  : NMap Nat := []
  pncAt    : NMap Nat := []
  /-- R436: INH_OUT active, and since which TIME cycle one that is falling is held. -/
  inh      : Nat := 0
  inhHold  : NMap Nat := []
  shut     : Bool := false
  deriving DecidableEq, Repr

/-- R493: the readout. -/
structure Readout where
  busy   : Bool := false
  e      : Nat := 0
  src    : Nat := 0
  dst    : Nat := 0
  len    : Nat := 0
  result : Nat := 0
  done   : Bool := false
  deriving DecidableEq, Repr

/-- R488: a trigger that waits for the record boundary: source, stamp in ns, code, LATE, UNSYNC. -/
structure Trig where
  src    : Nat
  stamp  : Nat
  code   : Nat
  late   : Bool
  unsync : Bool
  deriving DecidableEq, Repr

/-- 17: the Trace Recorder and the DRAM found. -/
structure Rec where
  /-- 0 OFF, 1 RUNNING, 2 POST, 3 FROZEN. -/
  st       : Nat := 0
  retained : Bool := false
  why      : Nat := 0
  wrap     : Bool := false
  src      : Nat := 0
  wptr     : Nat := 0
  trigPtr  : Nat := 0
  /-- R488: the trigger instant in ns. -/
  trigTime : Nat := 0
  seq      : Nat := 0
  relErr   : Bool := false
  /-- Segments completed after the trigger segment; POSTMS has run out. -/
  segsDone : Nat := 0
  msDone   : Bool := false
  /-- Records in the region by offset. -/
  mem      : NMap Bytes := []
  trigs    : List Trig := []
  drops    : NMap Nat := []
  readout  : Readout := {}
  relDue   : Bool := false
  badEvt   : Bool := false
  dens     : Nat := 0
  rate     : Nat := 0
  sr       : Bool := false
  deriving DecidableEq, Repr

end Sys2Proof.Machine
end

