-- ==== Sys2Proof/Machine/State.lean ====
section
/-! DEFINITION. The state of the device: everything the spec gives it, the model's observation log, and the queue of
commands that wait. -/

namespace Sys2Proof.Machine

/-- No command of this block faults: every row of the table has an effect the spec gives (DESIGN CHOICE, log entry 1). The one
constructor is for a table without any such stop. -/
inductive Fault where
  /-- Raised by no command. Safe: it would only stop the model. -/
  | none
  deriving DecidableEq, Repr

/-- Why the model gives a command no meaning. -/
inductive Refusal where
  /-- Raised by exec's arm of a command whose meaning is not written yet. Safe: the model stops. -/
  | notModelled (mnemonic : String)
  deriving DecidableEq, Repr

/-- The device: one field per block. -/
structure Dev where
  clk     : Clk := {}
  whl     : Whl := {}
  img     : Img := {}
  com     : Commit := {}
  fuses   : Fuses := {}
  store   : Store := {}
  upd     : Upd := {}
  /-- R496: boot flash contents; unlisted bytes are erased (DESIGN CHOICE, log entry 6). -/
  flash   : NMap Byte := []
  /-- Register fields that software or REGINIT wrote: word by BAR0 offset + bank * 2^24; unlisted words hold the Reset
  column's value (R13). Canonical. -/
  regs    : NMap Word := []
  /-- R14: RWS shadows that differ from the value in force. Canonical against `regs`. -/
  shadow  : NMap Word := []
  /-- R16: Tally counters by offset of their low word + instance * 2^24, and clears that wait for the boundary. -/
  tally   : NMap Nat := []
  clears  : List TClear := []
  /-- R15: latch and hold per initiator (0 to 4 in the order of `Initiator`). -/
  pairs   : NMap PairBuf := []
  acc     : NMap AccLog := []
  /-- R458: events stamped and not written; events stored in AON. -/
  evs     : List Ev := []
  aonEvs  : List Ev := []
  fifos   : NMap Fifo := []
  eps     : NMap Ep := []
  hspi    : Hspi := {}
  brg     : Brg := {}
  can     : NMap CanCh := []
  eth     : NMap EthP := []
  lnd     : Lnd := {}
  rte     : Rte := {}
  mil     : Mil := {}
  cry     : Cry := {}
  kvt     : Kvt := {}
  flt     : Flt := {}
  nmc     : Nmc := {}
  rcd     : Rec := {}
  /-- Outputs that left the device, newest first: the model's own (DESIGN CHOICE, log entry 7). -/
  out     : List Output := []
  deriving DecidableEq, Repr

/-- The machine: the device and the commands that wait, first in, first out. -/
structure State where
  dev     : Dev
  pending : List Instr
  deriving DecidableEq, Repr

/-- Right after reset: PORST_N is low, every field at its reset value, no command waits. -/
def State.reset : State := { dev := {}, pending := [] }

end Sys2Proof.Machine
end

