-- ==== Sys2Proof/Config.lean ====
section
/-! DEFINITION. What an implementation fixes and what the spec leaves open: the free values (opaque, no body can be
seen by a proof) and the fixed numbers of the device. -/

namespace Sys2Proof.Config

/-- R363: the message bits that the BCH(255, 131) decoder recovers from the voted array, of which it takes 4,080 bits, and
the 510 bytes of code offset; `none` where correction fails. The spec names the code's length, dimension and power, not its
generator: a FREE VALUE (DESIGN CHOICE, log entry 8). -/
opaque bchMessage : Bytes → Bytes → Option Bytes

/-- R364: the code offset that enrolment stores for majority-voted bits and drawn message bits (DESIGN CHOICE, log entry 8). -/
opaque bchOffset : Bytes → Bytes → Bytes

/-- R341: what a mode program reads from the input area, "in the layout that the Eopod release defines": the byte
string of one numbered parameter of an operation, from the 1,024 input bytes. A FREE VALUE (DESIGN CHOICE, log entry 9).
Parameters: 0 IV or counter block, 1 additional data, 2 text, 3 tag. -/
opaque modeParam : (op : Nat) → (input : Bytes) → (param : Nat) → Bytes

/-- R339: the output bytes placed at `OUTOFF` for a whole mode are the text, then the tag where it makes one: the
order is the Eopod release's (DESIGN CHOICE, log entry 9): a FREE VALUE that lays out text and tag. -/
opaque modeOutput : (op : Nat) → (text tag : Bytes) → Bytes

/-- R83, R505: silicon revision against MINREV (R129 code 0x02). The spec gives no number: a FREE VALUE
(DESIGN CHOICE, log entry 10). -/
opaque siliconRev : Nat

/-- R295: the bytes of a DoIP answer (ISO 13400-2) that Eopod builds for a kind of answer, a logical address and a
payload. The encoding is the standard's, not the spec's: a FREE VALUE (DESIGN CHOICE, log entry 11). -/
opaque doipMessage : (kind addr : Nat) → (payload : Bytes) → Bytes

/-- R295: the ISO 15765-2 frames of a request, in order, for a payload and whether FD frames may be used. The
segmentation is the standard's: a FREE VALUE (DESIGN CHOICE, log entry 11). -/
opaque isoTpFrames : (payload : Bytes) → (fd : Bool) → List Bytes

/-- R394, R399: the words that one input item of so many bytes takes in a twin's input journal. The spec gives the
journals' sizes in words and not the words of an item: a FREE VALUE (DESIGN CHOICE, log entry 17). -/
opaque journalWords : (twin size : Nat) → Nat

/-- R152, R179: the 64-bit words that a received CAN frame of so many data bytes takes in its crossing. The spec states no word
format: a FREE VALUE (DESIGN CHOICE, log entry 151). -/
opaque canWords : (bytes : Nat) → Nat

/-- R300: the reason that RTE_HOST_LOSS carries for a copy dropped by a stream function, which no RTE Tally counter
counts: the spec states no value: a FREE VALUE (DESIGN CHOICE, log entry 24). -/
opaque streamLossReason : Nat

/-- R193: the value that REC takes after a good reception above 127: ISO 11898-1 gives a range, 119 to 127. A FREE VALUE
within that range (DEDUCED, log entry 28). -/
opaque recAfterGood : Nat

/-- R421: the bytes before UDPOFF of an Ethernet keep-alive, "which the image builds around the PDU": the spec names no
record that holds them: a FREE VALUE (DESIGN CHOICE, log entry 38). -/
opaque nmHeader : (cluster : Nat) → Bytes

/-- R419, R434: the source node of an Ethernet NM PDU whose NIDPOS is absent: it has no identifier, and the spec states
no value: a FREE VALUE (DESIGN CHOICE, log entry 38). -/
opaque nmEthNode : (cluster : Nat) → Nat

/-- R355: the replay window of a receive SC, 0 to 2^32 − 1: the spec names the range and no place that sets it: a FREE
VALUE (DESIGN CHOICE, log entry 49). -/
opaque msWindow : (port sc : Nat) → Nat

/-- R396: under pressure of the undo store a mark is taken at a wheel boundary that is no multiple of 8 turns; the spec
gives neither the store's entries nor what an input takes of it: a FREE VALUE by turn (DESIGN CHOICE, log entry 52). -/
opaque undoPressure : Nat → Bool

/-- R484, R493: what a byte of the recorder region holds outside the records since the region was last emptied: the spec
states no value: a FREE VALUE by region offset (DESIGN CHOICE, log entry 53). -/
opaque dramByte : Nat → BitVec 8

/-- R364: the format byte of a helper record: the spec names the field and no value: a FREE VALUE (DESIGN CHOICE, log entry 58). -/
opaque helperFormat : BitVec 8

/-- R501: the rejection code of an image that passes R129 and whose digest differs from IMGDIG: the row of R501 gives the
codes of R129 and none for this check: a FREE VALUE (DESIGN CHOICE, log entry 60). -/
opaque imgDigCode : BitVec 8

/-- R140: the fast-part load time in µs that IMAGE_LOADED carries. The model has no clock while it boots: a FREE VALUE
(DESIGN CHOICE, log entry 62). -/
opaque loadTime : Nat

/-- R104: the wake source that WATCH_ENTRY_ABORT carries when the entry is abandoned for a cluster that its own local need
has woken: none of the numbered sources: a FREE VALUE (DESIGN CHOICE, log entry 78). -/
opaque abortSource : BitVec 8

/-- R479: the levels at the GPIO balls of role 0x03 when BRG_GPIOIN is read: they come from outside, and no command of the
table carries them: a FREE VALUE by TIME cycle (DESIGN CHOICE, log entry 85). -/
opaque gpioIn : Nat → BitVec 24

/-- R466: the wait bytes before 0xA5 of a read through the host SPI port: at most 7, since 0xA5 comes within 8 bytes of N. The
number is the device's: a FREE VALUE by TIME cycle within that bound (DEDUCED, log entry 86). -/
opaque hspiWait : Nat → Nat

end Sys2Proof.Config
end

