-- ==== Sys2Proof/Machine/RegTable.lean ====
section
/-! DEFINITION. The register map of BAR0 (R9, R442, R443) and the table of the registers whose fields are stored: which
bits software writes, which the image sets, which live in AON, and what they hold at reset (R12, R13, R118). A field
that shows the state of a block is no stored field: it is a view (Machine/RegRead.lean). -/

namespace Sys2Proof.Machine

/-- R442, R443: the blocks and windows of BAR0. -/
inductive Blk where
  | glb | ckp | flt | swh | grv | can | filt | eth | lnd | rte | mil | page | cry | kvt | nmc
  | hif | msix | pba | evq | rq | rqBuf | tq | txWin | brg | brgWin | rec' | upd | tbs
  deriving DecidableEq, Repr

/-- A place in BAR0: the block, its instance, and the offset in that instance. -/
structure Loc where
  blk  : Blk
  inst : Nat
  rel  : Nat
  deriving DecidableEq, Repr

/-- R443: the sub-blocks of a grove range. -/
def locateGrove (g r : Nat) : Option Loc :=
  if r < 0x10000 then some ⟨.grv, g, r⟩
  else if r < 0x16000 then some ⟨.can, 6 * g + (r - 0x10000) / 0x1000, r % 0x1000⟩
  else if r < 0x20000 then none
  else if r < 0x30000 then some ⟨.filt, g, r - 0x20000⟩
  else if r < 0x40000 then none
  else if r < 0x60000 then some ⟨.eth, 2 * g + (r - 0x40000) / 0x10000, r % 0x10000⟩
  else none

/-- R442: the division of the HIF range, `r` from 0x80_0000. -/
def locateHif (r : Nat) : Loc :=
  if r < 0x1000 then ⟨.hif, 0, r⟩
  else if r < 0x1800 then ⟨.msix, 0, r - 0x1000⟩
  else if r < 0x1808 then ⟨.pba, 0, r - 0x1800⟩
  else if 0x2000 ≤ r && r < 0x2800 then ⟨.evq, (r - 0x2000) / 0x100, r % 0x100⟩
  else if 0x10000 ≤ r && r < 0x11000 then ⟨.rq, (r - 0x10000) / 0x40, r % 0x40⟩
  else if 0x20000 ≤ r && r < 0x40000 then ⟨.rqBuf, (r - 0x20000) / 0x800, r % 0x800⟩
  else if 0x40000 ≤ r && r < 0x40400 then ⟨.tq, (r - 0x40000) / 0x40, r % 0x40⟩
  else if 0x80000 ≤ r && r < 0x100000 then ⟨.txWin, (r - 0x80000) / 0x8000, r % 0x8000⟩
  else ⟨.hif, 0, r⟩

/-- R443: the block that holds a BAR0 offset; `none` outside every block. -/
def locate (off : Nat) : Option Loc :=
  if off < 0x10000 then some ⟨.glb, 0, off⟩
  else if off < 0x20000 then some ⟨.ckp, 0, off - 0x10000⟩
  else if off < 0x30000 then some ⟨.flt, 0, off - 0x20000⟩
  else if off < 0x40000 then some ⟨.swh, 0, off - 0x30000⟩
  else if off < 0x100000 then none
  else if off < 0x500000 then locateGrove ((off - 0x100000) / 0x100000) (off % 0x100000)
  else if off < 0x580000 then some ⟨.lnd, 0, off - 0x500000⟩
  else if off < 0x600000 then some ⟨.rte, 0, off - 0x580000⟩
  else if off < 0x700000 then some ⟨.mil, 0, off - 0x600000⟩
  else if off < 0x780000 then some ⟨.page, (off - 0x700000) / 0x1000, off % 0x1000⟩
  else if off < 0x7C0000 then some ⟨.cry, 0, off - 0x780000⟩
  else if off < 0x7E0000 then some ⟨.kvt, 0, off - 0x7C0000⟩
  else if off < 0x800000 then some ⟨.nmc, 0, off - 0x7E0000⟩
  else if off < 0x900000 then some (locateHif (off - 0x800000))
  else if off < 0x910000 then some ⟨.brg, 0, off - 0x900000⟩
  else if off < 0xA00000 then some ⟨.brgWin, 0, off - 0x900000⟩
  else if off < 0xB00000 then some ⟨.rec', 0, off - 0xA00000⟩
  else if off < 0xC00000 then some ⟨.upd, 0, off - 0xB00000⟩
  else if off < 0xC80000 then some ⟨.eth, 8, off - 0xC00000⟩
  else if off < 0xD00000 then some ⟨.tbs, 0, off - 0xC80000⟩
  else none

/-- One row of the table of stored registers: `n` words from `lo` at `stride`, with masks of their fields. -/
structure RegRow where
  lo     : Nat
  n      : Nat := 1
  stride : Nat := 4
  /-- Bits that a write sets (RW), that a write stages (RWS), and that a 1 clears (W1C). -/
  rw     : Nat := 0
  rws    : Nat := 0
  w1c    : Nat := 0
  /-- Bits marked IMG and bits kept in AON. -/
  img    : Nat := 0
  aon    : Nat := 0
  /-- R15: 0 a lone word, 1 the low and 2 the high word of a writable pair. -/
  pair   : Nat := 0
  deriving DecidableEq, Repr

/-- An RW register whose written fields are all marked IMG. -/
def rwImg (lo m : Nat) : RegRow := { lo := lo, rw := m, img := m }
/-- `n` of them. -/
def rwImgs (lo n stride m : Nat) : RegRow := { lo := lo, n := n, stride := stride, rw := m, img := m }
/-- An RWS register whose fields are all marked IMG. -/
def rwsImg (lo m : Nat) : RegRow := { lo := lo, rws := m, img := m }
/-- `n` of them. -/
def rwsImgs (lo n stride m : Nat) : RegRow := { lo := lo, n := n, stride := stride, rws := m, img := m }
/-- `n` read-only registers whose fields are marked IMG. -/
def roImgs (lo n stride m : Nat) : RegRow := { lo := lo, n := n, stride := stride, img := m }
/-- An RW register with no field marked IMG. -/
def rwOnly (lo m : Nat) : RegRow := { lo := lo, rw := m }
/-- `n` of them. -/
def rwOnlys (lo n stride m : Nat) : RegRow := { lo := lo, n := n, stride := stride, rw := m }
/-- The two rows of `n` writable pairs marked IMG. -/
def pairImgs (lo n stride ml mh : Nat) : List RegRow :=
  [{ lo := lo, n := n, stride := stride, rw := ml, img := ml, pair := 1 },
   { lo := lo + 4, n := n, stride := stride, rw := mh, img := mh, pair := 2 }]
/-- The two rows of `n` writable pairs with no field marked IMG. -/
def pairRws (lo n stride ml mh : Nat) : List RegRow :=
  [{ lo := lo, n := n, stride := stride, rw := ml, pair := 1 },
   { lo := lo + 4, n := n, stride := stride, rw := mh, pair := 2 }]

/-- All 32 bits. -/
def full : Nat := 0xFFFFFFFF

/-- R105, R141. -/
def glbRows : List RegRow := [rwOnly 0x10 0x700]
def ckpRows : List RegRow :=
  [rwImg 0x08 0xF, { lo := 0x10, rw := 0xBFFF0007, img := 0x3FFF0007 },
   { lo := 0x38, rw := full, aon := full, pair := 1 }, { lo := 0x3C, rw := full, aon := full, pair := 2 },
   { lo := 0x40, w1c := 0xFFF, aon := 0xFFF },
   { lo := 0x50, rw := full, img := full, aon := full }]
/-- R417. -/
def fltRows : List RegRow := [rwOnly 0x10 0x1F, rwImgs 0x100 31 4 0x7FFFF]
/-- R161. -/
def swhRows : List RegRow := [rwOnly 0x10 0x01FFFF07, rwOnly 0x20 0x7F]
/-- R208. -/
def canRows : List RegRow :=
  [{ lo := 0, rw := 0x3FFEEF, img := 0x3FF2EE },
   rwsImg 0x10 0x07FFFFFF, rwsImg 0x14 0xFFFFFF, rwsImg 0x18 full, rwsImg 0x1C 0x03FFFFFF,
   rwsImg 0x20 0x1FFF, rwsImg 0x24 0x3FFF, rwsImg 0x28 1,
   rwImg 0x70 0xFFF, rwImg 0x74 0x3FFF,
   rwImgs 0x80 4 0x20 0x3FFFFFFF, rwImgs 0x84 4 0x20 0x1FFFFFFF, rwImgs 0x88 4 0x20 0x7F] ++
  pairImgs 0x90 4 0x20 full full ++ pairImgs 0x98 4 0x20 full full ++
  [rwOnly 0x800 0x7FFFFFFF, rwOnly 0x804 0x37F, rwOnlys 0x810 16 4 full]
/-- R240. -/
def ethRows : List RegRow :=
  [{ lo := 0, rw := 3, img := 1 }, rwsImg 0x8 0x3FFF, rwsImg 0xC 0x1FFF,
   rwImg 0x10 0x3FF, rwImg 0x14 0xFFFF0001, rwImg 0x18 0xFF, rwImg 0x20 0xFFFF0FFF, rwImg 0x24 full, rwImg 0x28 0xFFFFF,
   rwImg 0x40 0x01FF0001, rwImg 0x48 full, rwImg 0x4C 0x3FFFF] ++
  pairImgs 0x50 1 8 full 0x3FFFFFFF ++ [rwsImgs 0x400 32 4 0xFFFFFF] ++ pairImgs 0x1000 256 8 full 0xFF
/-- R273. -/
def lndRows : List RegRow :=
  [rwImg 0 0x03FF00FF, rwsImg 0x10 0x7FFFF, rwsImg 0x14 0x7FFFF, roImgs 0x20 1 4 0x7FFFF, rwOnly 0x30 0x1FF, rwOnly 0x34 0xF,
   rwsImgs 0x1000 512 0x20 0x7FFFF, rwsImgs 0x1004 512 0x20 0x7FFFF, rwsImgs 0x1008 512 0x20 0x7FFFF,
   rwsImgs 0x100C 512 0x20 0x7FFFF, rwImgs 0x1018 512 0x20 1]
/-- R301. -/
def rteRows : List RegRow :=
  [rwImg 0 7, rwImgs 0x10 4 4 0xFFFF, rwImgs 0x20 2 8 0x1FFFF, rwImgs 0x24 2 8 0x1FFFF,
   { lo := 0x30, rws := 0xFFFF }, { lo := 0x34, rws := full }, { lo := 0x38, rws := full }, { lo := 0x3C, rws := 0xF },
   rwOnly 0x44 7, rwOnly 0x50 0x1FFFF7] ++
  pairImgs 0x100 8 0x20 full 0x007FFFFF ++ pairImgs 0x108 8 0x20 full 0xFFFF ++ pairImgs 0x110 8 0x20 full full ++
  [rwImgs 0x400 64 0x10 0x3FFFF, rwImgs 0x404 64 0x10 0x1FFFF, rwImgs 0x408 64 0x10 0x3FFFFFFF,
   rwImgs 0x40C 64 0x10 0x1FFFFFFF]
/-- R332. -/
def milRows : List RegRow :=
  [roImgs 0x4 1 4 0xFFFF, rwImg 0x8 1, rwsImg 0x10 0x3FFF, rwsImg 0x14 0x1FFFF, rwOnly 0x20 0x3FFFFFFF]
/-- R362. -/
def pageRows : List RegRow := [rwOnly 0 1]
def cryRows : List RegRow :=
  pairImgs 0x10 1 8 full full ++
  [rwImg 0x18 full, rwOnly 0x20 7, rwOnly 0x40 0x7FFF, roImgs 0x100 128 4 0xF, roImgs 0x300 32 4 0xF,
   roImgs 0x400 8 4 0xFF01]
/-- R385: KVT_ARG and KVT_BUF, each with a copy for every issuer. -/
def kvtRows : List RegRow := [rwOnlys 0x10 6 4 full, rwOnly 0x30 0xFFF, rwOnlys 0x800 64 4 full]
/-- R438. -/
def nmcRows : List RegRow :=
  [rwImg 0x8 full] ++ pairImgs 0x18 1 8 full full ++
  [rwOnly 0x20 0x1F, rwOnly 0x24 0x3F,
   { lo := 0x100, n := 8, stride := 8, rw := 0x7FF, img := 0x7FF, aon := 0x7FF },
   { lo := 0x104, n := 8, stride := 8, rw := full, img := full, aon := full },
   { lo := 0x200, n := 4, stride := 8, rw := 0xFFFF0001, img := 0xFFFF0001, aon := 0xFFFF0001 },
   { lo := 0x204, n := 4, stride := 8, rw := full, img := full, aon := full },
   rwImgs 0x400 64 0x10 full, rwImgs 0x404 64 0x10 0x8001FFFF, rwImgs 0x408 64 0x10 0x1FFFF,
   rwOnlys 0x1004 32 0x40 3, roImgs 0x1008 32 0x40 0xFFFFFF, roImgs 0x100C 32 0x40 0x1FFF01FF,
   rwsImgs 0x1010 32 0x40 0xFFFF, rwsImgs 0x1014 32 0x40 0xFFFF, rwsImgs 0x1018 32 0x40 0xFFFF,
   rwsImgs 0x101C 32 0x40 0xFFFF, rwImgs 0x1020 32 0x40 0xFFFF7FFF, rwImgs 0x1024 32 0x40 0x07F1FFFF,
   rwImgs 0x1028 32 0x40 0xFFFF]
/-- R479. -/
def hifRows : List RegRow :=
  [roImgs 0x10 2 4 0xFFFE, rwImgs 0x200 20 4 0xFF, { lo := 0x400, n := 128, img := 0xF3, w1c := 0x100 }]
def evqRows : List RegRow := [rwImg 0 0x003F0300, roImgs 0x4 1 4 0x300000, rwImg 0x8 0x1FFF]
def rqRows : List RegRow :=
  [rwOnly 0 0x3F7F01, rwOnly 0x4 0xFF] ++ pairRws 0x10 1 8 0xFFFFFFC0 full ++
  [rwOnly 0x18 0x1FFF, rwOnly 0x1C 0xFFFF, rwOnly 0x20 0x03FF03FF]
def tqRows : List RegRow :=
  [rwOnly 0 0x3F0001, rwOnly 0x4 0x7FFF] ++ pairRws 0x10 1 8 0xFFFFFFC0 full ++
  [rwOnly 0x18 0x1FFF, rwOnly 0x1C 0xFFFF, rwOnly 0x20 0x03FF03FF]
def brgRows : List RegRow :=
  [rwImg 0x8 0x03FFFF07, rwOnlys 0x10 2 4 0x3FF, rwImgs 0x20 8 4 0xFF07FF, rwImg 0x50 0xFFFFFC,
   rwImgs 0x100 16 0xC 0xFFFFFF0F, rwImgs 0x104 16 0xC 0x3FFFFFFF]
/-- R495. -/
def recRows : List RegRow :=
  [rwImg 0 0x3F01, roImgs 0x8 1 4 0x3FFF003F, rwImg 0xC 0xFFFF3FFF, rwImg 0x10 0xFFFF, rwImgs 0x18 4 4 0x3FFF] ++
  pairRws 0x50 1 8 0xFFFFFFC0 full ++ pairRws 0x58 1 8 0xFFFFFFC0 full ++ [rwOnly 0x60 0x0FFFFFFF]
/-- R527. -/
def updRows : List RegRow :=
  [rwOnly 0x8 0x3FFFFFF, rwOnly 0xC 0x3FFFFFF, rwOnly 0x10 0x1FFF, rwOnly 0x14 full, rwOnly 0x1C 0xFFFF0007,
   rwOnlys 0x1000 1024 4 full]
/-- R241. -/
def tbsRows : List RegRow := [rwOnly 0x10 full, { lo := 0x20, rw := 3, img := 2 }]

/-- The stored registers of a block. -/
def rowsOf : Blk → List RegRow
  | .glb => glbRows | .ckp => ckpRows | .flt => fltRows | .swh => swhRows | .grv => [] | .can => canRows
  | .filt => [] | .eth => ethRows | .lnd => lndRows | .rte => rteRows | .mil => milRows | .page => pageRows
  | .cry => cryRows | .kvt => kvtRows | .nmc => nmcRows | .hif => hifRows | .msix => [] | .pba => []
  | .evq => evqRows | .rq => rqRows | .rqBuf => [] | .tq => tqRows | .txWin => [] | .brg => brgRows
  | .brgWin => [] | .rec' => recRows | .upd => updRows | .tbs => tbsRows

/-- Whether a row covers an offset of its block. -/
def RegRow.covers (r : RegRow) (rel : Nat) : Bool :=
  decide (r.lo ≤ rel) && (rel - r.lo) % r.stride == 0 && decide ((rel - r.lo) / r.stride < r.n)

/-- The row of a place. -/
def rowAt (l : Loc) : Option RegRow := (rowsOf l.blk).find? (fun r => r.covers l.rel)

/-- The row of a BAR0 offset. -/
def rowOf (off : Nat) : Option RegRow :=
  match locate off with
  | some l => rowAt l
  | none => none

/-- R13: what a stored word holds at reset where the Reset column is not zero: REQ of GLB_MODE 3, PORST of CKP_WAKESRC,
K of SWH_GAPSEL, BUFSZ of RQ_CTL, CSIZE. -/
def resetWord (off : Nat) : Nat :=
  if off = 0x10 then 0x300
  else if off = 0x10040 then 0x400
  else if off = 0x30010 then 0x10000
  else if 0x810000 ≤ off && off < 0x811000 then
    (if off % 0x40 = 0 then 0x800 else if off % 0x40 = 0x18 then 0x10 else 0)
  else if 0x840000 ≤ off && off < 0x840400 && off % 0x40 = 0x18 then 0x10
  else 0

/-- R14, R133: the commit groups. -/
inductive GroupKind where
  | canBt | canFilt | ethFrame | ethCbs | lndQ | lndPool | polWin | nmTimer | milTo
  deriving DecidableEq, Repr

/-- The number of a kind of group. -/
def GroupKind.code : GroupKind → Nat
  | .canBt => 0 | .canFilt => 1 | .ethFrame => 2 | .ethCbs => 3 | .lndQ => 4 | .lndPool => 5 | .polWin => 6
  | .nmTimer => 7 | .milTo => 8

/-- A group as it is held in `Commit.dirty`: kind * 2^16 + instance. -/
def groupId (k : GroupKind) (i : Nat) : Nat := k.code * 65536 + i

/-- R133: the group of an RWS register. -/
def groupOf (l : Loc) : Option Nat :=
  match l.blk with
  | .can => if l.rel < 0x20 then some (groupId .canBt l.inst) else some (groupId .canFilt l.inst)
  | .eth => if l.rel < 0x400 then some (groupId .ethFrame l.inst)
            else some (groupId .ethCbs (l.inst * 8 + (l.rel - 0x400) / 0x10))
  | .lnd => if l.rel < 0x1000 then some (groupId .lndPool 0) else some (groupId .lndQ ((l.rel - 0x1000) / 0x20))
  | .rte => some (groupId .polWin 0)
  | .nmc => some (groupId .nmTimer ((l.rel - 0x1000) / 0x40))
  | .mil => some (groupId .milTo 0)
  | _ => none

/-- R9: BAR0 base of CAN channel n. -/
def canBase (n : Nat) : Nat := 0x110000 + (n / 6) * 0x100000 + (n % 6) * 0x1000
/-- R9: BAR0 base of Ethernet port n; 8 is ETHM. -/
def ethBase (n : Nat) : Nat := if n < 8 then 0x140000 + (n / 2) * 0x100000 + (n % 2) * 0x10000 else 0xC00000
/-- Base of the Landing queue registers of a queue (R273). -/
def lndqBase (q : Nat) : Nat := 0x501000 + 0x20 * q
/-- Base of the NM cluster registers (R438). -/
def nmcBase (c : Nat) : Nat := 0x7E1000 + 0x40 * c

/-- R133: the member registers of a group, by BAR0 offset. -/
def groupRegs (g : Nat) : List Nat :=
  let i := g % 65536
  match g / 65536 with
  | 0 => (List.range 4).map (fun k => canBase i + 0x10 + 4 * k)
  | 1 => (List.range 3).map (fun k => canBase i + 0x20 + 4 * k)
  | 2 => [ethBase i + 0x8, ethBase i + 0xC]
  | 3 => (List.range 4).map (fun k => ethBase (i / 8) + 0x400 + 0x10 * (i % 8) + 4 * k)
  | 4 => (List.range 4).map (fun k => lndqBase i + 4 * k)
  | 5 => [0x500010, 0x500014]
  | 6 => (List.range 4).map (fun k => 0x580030 + 4 * k)
  | 7 => (List.range 4).map (fun k => nmcBase i + 0x10 + 4 * k)
  | 8 => [0x600010, 0x600014]
  | _ => []

end Sys2Proof.Machine
end

