-- ==== Sys2Proof/Machine/Ops.lean ====
section
/-! DEFINITION. The operations that every command is built from: one effect on the device, registers in force and their
shadows (R12 to R14), Tally counters (R16), device time (R225), events (R456, R458) and outputs. -/

namespace Sys2Proof.Machine

/-- The number of an initiator in tables banked by initiator (R15). -/
def initIx : Initiator → Nat
  | .pcie0 => 0 | .pcie1 => 1 | .hspi => 2 | .eopod => 3 | .jtag => 4

/-- The endpoint of an initiator: PCIE0 0, PCIE1 1; the others have none. -/
def endpointOf : Initiator → Option Nat
  | .pcie0 => some 0 | .pcie1 => some 1 | .hspi => none | .eopod => none | .jtag => none

/-! ## Registers -/

/-- The key of a word in `Dev.regs`: offset and bank. -/
def regKey (off bank : Nat) : Nat := off + bank * 16777216

/-- The word in force at a key. -/
def regK (d : Dev) (key : Nat) : Nat :=
  match mapGet? d.regs key with
  | some w => w.toNat
  | none => resetWord (key % 16777216)

/-- The word in force at an offset. -/
def reg (d : Dev) (off : Nat) : Nat := regK d off

/-- A field of the word in force. -/
def fld (d : Dev) (off lo w : Nat) : Nat := bits (reg d off) lo w

/-- A bit of the word in force. -/
def flag (d : Dev) (off i : Nat) : Bool := bit (reg d off) i

/-- Set the word in force at a key, in canonical form. -/
def putK (d : Dev) (key v : Nat) : Dev :=
  { d with regs := mapStore (BitVec.ofNat 32 (resetWord (key % 16777216))) d.regs key (BitVec.ofNat 32 v) }

/-- Set the word in force at an offset. -/
def putReg (d : Dev) (off v : Nat) : Dev := putK d off v

/-- Set a field of the word in force. -/
def putFld (d : Dev) (off lo w v : Nat) : Dev := putReg d off (setBits (reg d off) lo w v)

/-- R14: the shadow of an RWS word: what was staged, else the value in force. -/
def shadowWord (d : Dev) (off : Nat) : Nat :=
  match mapGet? d.shadow off with
  | some w => w.toNat
  | none => reg d off

/-- R12: `old` with the bits of `mask` taken from `new`. -/
def mergeMask (old new mask : Nat) : Nat := (old &&& (full ^^^ (mask &&& full))) ||| (new &&& mask)

/-- R134: a group becomes dirty. -/
def markDirty (d : Dev) (g : Nat) : Dev :=
  if d.com.dirty.contains g then d else { d with com := { d.com with dirty := d.com.dirty ++ [g] } }

/-- R14: stage an RWS word and mark its group dirty. -/
def putShadow (d : Dev) (off v : Nat) (g : Nat) : Dev :=
  markDirty { d with shadow := mapPut d.shadow off (BitVec.ofNat 32 v) } g

/-! ## Tally counters -/

/-- R16: the largest count. -/
def tallyMax : Nat := 0xFFFFFFFFFFFF

/-- The count of a Tally counter. -/
def tallyOf (d : Dev) (off inst : Nat) : Nat := mapGet 0 d.tally (regKey off inst)

/-- R16: count `n` more, and stay at the largest count. -/
def bumpBy (d : Dev) (off inst n : Nat) : Dev :=
  { d with tally := mapStore 0 d.tally (regKey off inst) (min (tallyOf d off inst + n) tallyMax) }

/-- Count one more. -/
def bump (d : Dev) (off inst : Nat) : Dev := bumpBy d off inst 1

/-- R16: ask for a clear at the next wheel boundary. -/
def askClear (d : Dev) (lo hi : Nat) (inst : Option Nat) : Dev := { d with clears := d.clears ++ [⟨lo, hi, inst⟩] }

/-- R16: whether a request clears the counter of a key. -/
def TClear.covers (c : TClear) (key : Nat) : Bool :=
  decide (c.lo ≤ key % 16777216) && decide (key % 16777216 ≤ c.hi) &&
    (match c.inst with | none => true | some i => key / 16777216 == i)

/-- R301: the place that a clear of every Tally counter of the RTE block covers besides the counters with an offset: the
policer, rule and stream counters, which have none. -/
def rteAllMark : Nat := 0x5800F4

/-- R301: the policer, rule and stream counters are cleared. -/
def clearRteTables (r : Rte) : Rte :=
  { r with ternHit := [], pols := r.pols.map (fun e => (e.1, { e.2 with nConf := 0, nExc := 0 })),
           streams := r.streams.map (fun e =>
             (e.1, { e.2 with dSdu := 0, dGate := 0, dMeter := 0, nDup := 0, nReset := 0 })) }

/-- R16: the clears take effect. -/
def applyClears (d : Dev) : Dev :=
  { d with tally := mapDrop d.tally (fun k => d.clears.any (fun c => c.covers k)), clears := [],
           rte := if d.clears.any (fun c => c.covers rteAllMark) then clearRteTables d.rte else d.rte }

/-- R16: a Tally counter as its register pair shows it, with the saturated flag in bit 63. -/
def tallyPair (n : Nat) : Nat := if n = tallyMax then n + 2 ^ 63 else n

/-! ## Time -/

/-- R225: device time in whole ns. -/
def nowNs (d : Dev) : Nat := d.clk.dtime / 2 ^ 39

/-- ns that the TIME clock has counted: what a duration is measured in, which no step of device time moves (R227). -/
def runNs (d : Dev) : Nat := 2 * d.clk.tclk

/-- Device time in whole µs. -/
def nowUs (d : Dev) : Nat := nowNs d / 1000

/-- A time in ns laid out as R456 lays out a stamp: [29:0] ns, then the low 34 bits of the seconds. -/
def stampWord (ns : Nat) : Nat := ns % 1000000000 + (ns / 1000000000 % 2 ^ 34) * 2 ^ 30

/-- R226: device time is synchronised (SYNC of TBS_STAT). -/
def synced (d : Dev) : Bool := flag d 0xC80020 0

/-- TIME clock cycles in `n` µs (R225: 500 MHz). -/
def usCycles (n : Nat) : Nat := 500 * n

/-! ## Register pairs (R15) -/

/-- The latch and the hold of an initiator. -/
def pairOf (d : Dev) (who : Initiator) : PairBuf := mapGet {} d.pairs (initIx who)

/-- R15: the low word that an initiator holds for the pair at `off`. -/
def heldLow (d : Dev) (who : Initiator) (off : Nat) : Option Nat :=
  match (pairOf d who).hold with
  | some (o, w) => if o = off then some w.toNat else none
  | none => none

/-- R15: a write to the low word is held. -/
def holdLow (d : Dev) (who : Initiator) (off : Nat) (w : Word) : Dev :=
  { d with pairs := mapPut d.pairs (initIx who) { pairOf d who with hold := some (off, w) } }

/-- The hold is used up. -/
def dropHold (d : Dev) (who : Initiator) : Dev :=
  { d with pairs := mapPut d.pairs (initIx who) { pairOf d who with hold := none } }

/-! ## Modes -/

/-- R86: the number of a mode. -/
def Mode.num : Mode → Nat
  | .m0 => 0 | .m1 => 1 | .m2 => 2 | .m3 => 3 | .m4 => 4 | .m5 => 5 | .m6 => 6 | .m7 => 7

/-- The mode of a number. -/
def Mode.ofNum : Nat → Mode
  | 0 => .m0 | 1 => .m1 | 2 => .m2 | 3 => .m3 | 4 => .m4 | 5 => .m5 | 6 => .m6 | _ => .m7

/-- Neither reset pin holds the device. -/
def outOfReset (d : Dev) : Bool := !d.clk.porstLow && !d.clk.wrstLow && !d.clk.selfReset

/-- The device runs its clocks: out of reset, and in M2 to M7. -/
def running (d : Dev) : Bool := outOfReset d && decide (2 ≤ d.clk.mode.num)

/-- R96: a wake is past power-good, and routing is not open yet. -/
def waking (d : Dev) : Bool := (match d.clk.trans with | .wake _ => true | _ => false) && d.clk.xtalOk

/-- Only hold routes forward (M6, M7; R127). -/
def holdMode (d : Dev) : Bool := d.clk.mode == .m6 || d.clk.mode == .m7

/-- R19: compatibility mode: the strap, or COMPAT of the image. -/
def compat (d : Dev) : Bool := d.clk.cmpt || d.img.compat

/-- R35: grove `g` is powered. -/
def groveOn (d : Dev) (g : Nat) : Bool := bit d.clk.islands (1 + g)

/-! ## Events and outputs -/

/-- R456: a field of DATA of 1, 2, 4 or 8 bytes. -/
def e1 (n : Nat) : Bytes := leBytes 1 n
def e2 (n : Nat) : Bytes := leBytes 2 n
def e4 (n : Nat) : Bytes := leBytes 4 n
def e8 (n : Nat) : Bytes := leBytes 8 n
/-- R456: a count takes 4 bytes and saturates. -/
def eCount (n : Nat) : Bytes := leBytes 4 (min n full)
/-- R456: a flag takes 1 byte. -/
def eFlag (b : Bool) : Bytes := leBytes 1 b.toNat

/-- R488: a trigger joins those that wait for the record boundary: of triggers of one instant the lower source stands
first, and every one but the trigger that left RUNNING is LATE. -/
def joinTrig (t : Trig) : List Trig → List Trig
  | [] => [t]
  | u :: r =>
    if u.stamp == t.stamp && decide (t.src < u.src) then { t with late := u.late } :: { u with late := true } :: r
    else u :: joinTrig t r

/-- R488: a trigger source fires at its trigger instant: recorded, LATE, or counted. -/
def recTrig (d : Dev) (src stamp code : Nat) : Dev :=
  let r := d.rcd
  let t : Trig := { src := src, stamp := stamp, code := code, late := r.st == 2, unsync := !synced d }
  if !flag d 0xA00000 (8 + src) then d
  else if r.st = 1 then
    { d with rcd := { r with st := 2, trigs := [t], src := src, trigTime := stamp, segsDone := 0 } }
  else if r.st = 2 then
    let l := joinTrig t r.trigs
    { d with rcd := { r with trigs := l, src := (match l.find? (fun u => !u.late) with | some u => u.src | none => r.src) } }
  else bump d 0xA00120 0

/-- R488: the triggers that an event is: F3, F4, its CODE. -/
def evTrig (d : Dev) (stamp code cls : Nat) : Dev :=
  let d := if cls = 3 then recTrig d 2 stamp 0 else if cls = 4 then recTrig d 3 stamp 0 else d
  if reg d 0xA00010 % 0x10000 = code then recTrig d 4 stamp code else d

/-- R458: an event with a stamp of its own. In M0 and M1 it is stored in AON. -/
def raiseAt (d : Dev) (stamp code cls : Nat) (data : Bytes) : Dev :=
  let ev : Ev := { stamp := stamp, born := d.clk.tclk, code := code, cls := cls, data := data.take 16, unsync := !synced d }
  if decide (2 ≤ d.clk.mode.num) then { evTrig d stamp code cls with evs := d.evs ++ [ev] }
  else { d with aonEvs := d.aonEvs ++ [ev] }

/-- R458: an event is stamped with device time at its source. -/
def raise (d : Dev) (code cls : Nat) (data : Bytes) : Dev := raiseAt d (nowNs d) code cls data

/-- Something leaves the device (DESIGN CHOICE, log entry 7). -/
def emit (d : Dev) (o : Output) : Dev := { d with out := o :: d.out }

/-! ## Balls under the pin section (R61, R64, R111 to R113) -/

/-- R61: COL and ROW, as a kind-0 record holds them, of the ball of a line; 1023, which no record names, for a line of the boot
path. -/
def lineBall (n : Nat) : Nat :=
  if n = 0 then 290 else if n = 2 then 291 else if n = 3 then 322 else if n = 4 then 96 else if n = 5 then 97
  else if n = 6 then 289 else if 16 ≤ n ∧ n < 20 then 24 + (n - 16)
  else if 32 ≤ n ∧ n < 56 then (n - 32) % 4 + 32 * (3 + (n - 32) / 4)
  else if 64 ≤ n ∧ n < 88 then n - 64 else 1023

/-- R111: the kind-0 record of a line's ball. -/
def pinRecOf (d : Dev) (n : Nat) : Option Nat :=
  d.img.pins.find? (fun r => bits r 62 2 == 0 && bits r 0 10 == lineBall n)

/-- R64, R112: the pin section leaves the ball unassigned (FUNC 0x00): it stays high-impedance. -/
def pinOff (d : Dev) (n : Nat) : Bool := match pinRecOf d n with | some r => bits r 10 6 == 0 | none => false

/-- R111: INV of the ball. -/
def pinInv (d : Dev) (n : Nat) : Bool := match pinRecOf d n with | some r => bit r 22 | none => false

/-- R64, R111, R112: a function drives its ball to a logical level: INV inverts it, and an unassigned ball stays Z. -/
def drive (d : Dev) (n : Nat) (high : Bool) : Dev := if pinOff d n then d else emit d (.line n (high != pinInv d n))

/-! ## Access errors -/

/-- The place of the counters of HIF that have no offset in R479 (DESIGN CHOICE, log entry 56): instance 0 HSPI_BADCMD, 1 HSPI_ABORT,
2 HSPI_CRCERR, 8 + i HIF_ACCERR of initiator i. -/
def hifCount : Nat := 0x8000F0

/-- R444: an access error of an initiator: counted, the first one logged, reported at once and then at most once per
100 µs with the count. The host SPI port shows it in its next status byte (R467). -/
def accErr (d : Dev) (who : Initiator) (off kind : Nat) : Dev :=
  let i := initIx who
  let a := mapGet {} d.acc i
  let d := bump d hifCount (8 + i)
  let d := if who = .hspi then { d with hspi := { d.hspi with acc := true } } else d
  let a := { a with count := a.count + 1 }
  let a := if a.err then a else { a with err := true, off := off, kind := kind }
  let late := match a.last with | none => true | some t => decide (t + 100000 ≤ runNs d)
  if late then
    raise { d with acc := mapPut d.acc i { a with count := 0, last := some (runNs d) } } 0x1002 0
      (e1 i ++ e1 kind ++ e4 off ++ eCount a.count)
  else { d with acc := mapPut d.acc i a }

/-- R442, R383: what an initiator sees. The host SPI port sees GLB, CKP, FLT, NMC, the event FIFO block, UPD and HIF_STAT;
the JTAG TAP the challenge, the buffer and the command registers of the vault, and more once debug is open (log entry
50). -/
def sees (d : Dev) (who : Initiator) (l : Loc) : Bool :=
  match who with
  | .hspi =>
    (match l.blk with
     | .glb | .ckp | .flt | .nmc | .evq | .upd => true
     | .hif => l.rel == 0
     | _ => false)
  | .pcie0 | .pcie1 | .eopod => true
  | .jtag => d.kvt.openScope.isSome || (l.blk == .kvt && (l.rel == 4 || l.rel == 8 || decide (0x60 ≤ l.rel) && decide (l.rel < 0x70) ||
      decide (0x800 ≤ l.rel) && decide (l.rel < 0x900)))

/-- The initiator that OWNER of EVQ_STAT names (R479). -/
def ownerNum : Initiator → Nat
  | .pcie0 => 0 | .pcie1 => 1 | .hspi => 2 | .eopod => 3 | .jtag => 4

/-- OWNER of event FIFO `f`. -/
def evqOwner (d : Dev) (f : Nat) : Nat := fld d (0x802004 + 0x100 * f) 20 2

/-- R336: EP of HIF_PAGE: the endpoint that owns a user page, as 0 none, 1 PCIE0, 2 PCIE1. -/
def pageEp (d : Dev) (p : Nat) : Nat := fld d (0x800400 + 4 * p) 0 2

/-- R444, R455: the KIND of the access error that an access meets, or 0. -/
def accKind (d : Dev) (who : Initiator) (off size : Nat) : Nat :=
  if size ≠ 4 ∨ off % 4 ≠ 0 then 1
  else match locate off with
    | none => 4
    | some l =>
      if !sees d who l then 2
      else if l.blk = .page && (who = .pcie0 || who = .pcie1) && pageEp d l.inst ≠ initIx who + 1 then 3
      else if l.blk = .evq && d.img.fast && evqOwner d l.inst ≠ ownerNum who then 2
      else if l.blk = .evq && !d.img.fast && l.inst ≠ 0 then 2
      else 0

/-- The initiator can make an access: the device runs, and an endpoint's link is up (R441). -/
def canAccess (d : Dev) (who : Initiator) : Bool :=
  running d && (match endpointOf who with | some e => (mapGet {} d.eps e).up | none => true)

/-- R444: a word write by an initiator with the effect `f`, or the access error that it meets. -/
def regWr (d : Dev) (who : Initiator) (off : Nat) (f : Dev → Dev) : Dev :=
  if !canAccess d who then d
  else if accKind d who off 4 ≠ 0 then accErr d who off (accKind d who off 4)
  else f d

/-- R13, R15, R479: the bank of a place that every initiator or endpoint has a copy of. -/
def bankOf (who : Initiator) (l : Loc) : Nat :=
  match l.blk with
  | .rq | .tq | .rqBuf | .txWin | .msix | .pba => initIx who
  | .kvt => if (decide (0x10 ≤ l.rel) && decide (l.rel < 0x28)) || decide (0x800 ≤ l.rel) then initIx who else 0
  | .brg => if decide (0x10 ≤ l.rel) && decide (l.rel < 0x18) then initIx who else 0
  | _ => 0

/-- R443: an offset that two endpoints share a word of only where the register is not banked. -/
def placeKey (who : Initiator) (off : Nat) (l : Loc) : Nat := regKey off (bankOf who l)

/-! ## The lines that follow the state (R415, R455, R464), and the effect of a command -/

/-- An event FIFO. -/
def fifoOf (d : Dev) (f : Nat) : Fifo := mapGet {} d.fifos f

/-- R464: IRQ_N is asserted. -/
def irqOn (d : Dev) : Bool := (List.range 8).any (fun f => (fifoOf d f).levelHit && flag d (0x802000 + 0x100 * f) 9)

/-- R66, R111, R464: the ball of IRQ_N is driven low, once the pin section is in force and assigns it; it is released in M0
and M1. -/
def irqLow (d : Dev) : Bool :=
  d.clk.pinsOn && !pinOff d 0 && decide (2 ≤ d.clk.mode.num) && (irqOn d != pinInv d 0)

/-- R62, R455, R464: HSPI_IRQ_N is asserted; while VDDIO_B is off its ball is high-impedance. -/
def hspiLow (d : Dev) : Bool :=
  if d.clk.mode.num < 2 || !d.clk.switched then false
  else if d.img.fast then
    (List.range 8).any (fun f => (fifoOf d f).levelHit && evqOwner d f == 2 && flag d (0x802000 + 0x100 * f) 8)
  else (fifoOf d 0).levelHit

/-- R415: FAULT_N is high: no F3 or F4 fault is latched. -/
def faultHigh (d : Dev) : Bool := !d.flt.f3 && !d.flt.f4

/-- R111, R415: the level at the ball of FAULT_N. -/
def faultBall (d : Dev) : Bool := faultHigh d != pinInv d 2

/-- The level that the device drives on a line, by its outputs, newest first; none while it drives none. -/
def lineOf : List Output → Nat → Option Bool
  | [], _ => none
  | .line m h :: r, n => if m = n then some h else lineOf r n
  | .lineZ m :: r, n => if m = n then none else lineOf r n
  | .ballsZ :: _, _ => none
  | _ :: r, n => lineOf r n

/-- R464: an open-drain line follows its condition: driven low while it holds, and else released. -/
def drainLine (n : Nat) (low : Bool) (d : Dev) : Dev :=
  if low != (lineOf d.out n == some false) then emit d (.line n (!low)) else d

/-- R64, R415: from the application of the pin section FAULT_N follows the latches, where the section assigns its ball. -/
def faultLine (d : Dev) : Dev :=
  if d.clk.pinsOn && !pinOff d 2 && lineOf d.out 2 != some (faultBall d) then emit d (.line 2 (faultBall d)) else d

/-- R415, R464: IRQ_N, HSPI_IRQ_N and FAULT_N follow what a command has changed. -/
def settle (d : Dev) : Dev := faultLine (drainLine 1 (hspiLow d) (drainLine 0 (irqLow d) d))

/-- The outcome of a command whose effect on the device is `f`: the lines follow, and the queue stays. -/
def act (f : Dev → Dev) (s : State) : Host.Outcome State Fault Refusal := .next { s with dev := settle (f s.dev) }

/-! ## Register accesses in issue order (R45, R451, R471) -/

/-- R45: an earlier access of the initiator has not taken effect. -/
def waitsBehind (d : Dev) (who : Initiator) : Bool := d.brg.wait.any (fun x => x.who == who)

/-- R45, R471: an access waits, behind every earlier one. -/
def holdAccess (d : Dev) (who : Initiator) (cmd : Instr) : Dev :=
  { d with brg := { d.brg with wait := d.brg.wait ++ [⟨who, cmd, false⟩] } }

/-- R45, R451, R471: a command that is a register access with the effect `f`: it waits behind an earlier access of its initiator
that waits, or where `full` finds no place for it. -/
def accessWhen (who : Initiator) (cmd : Instr) (full : Dev → Bool) (f : Dev → Dev) : State → Host.Outcome State Fault Refusal :=
  act (fun d => if canAccess d who && (waitsBehind d who || full d) then holdAccess d who cmd else f d)

/-- R45: a register access that needs no place of its own. -/
def access (who : Initiator) (cmd : Instr) (f : Dev → Dev) : State → Host.Outcome State Fault Refusal :=
  accessWhen who cmd (fun _ => false) f

end Sys2Proof.Machine
end

