-- ==== Sys2Proof/Machine/Operands.lean ====
section
/-! DEFINITION. The named fields of the records that commands work on: route entries (R119, R120), ternary rules,
policers, multicast members, grove and other image records, each held as the little-endian number of its bytes. -/

namespace Sys2Proof.Machine

/-! ## The route entry (R120), from bit 0 of the 128-bit entry -/

def rtMcast (r : Nat) : Bool := bit r 0
def rtGroup (r : Nat) : Nat := bits r 1 12
def rtLport (r : Nat) : Nat := bits r 1 4
def rtTarget (r : Nat) : Nat := bits r 5 8
def rtTc (r : Nat) : Nat := bits r 13 3
def rtPolicer (r : Nat) : Nat := bits r 16 16
def rtPolEn (r : Nat) : Bool := bit r 32
def rtVerdict (r : Nat) : Nat := bits r 33 2
def rtAuth (r : Nat) : Nat := bits r 35 3
def rtAuthProf (r : Nat) : Nat := bits r 38 12
def rtRec (r : Nat) : Bool := bit r 50
def rtRecq (r : Nat) : Nat := bits r 51 2
def rtMill (r : Nat) : Bool := bit r 53
def rtCut (r : Nat) : Bool := bit r 54
def rtAltXl (r : Nat) : Bool := bit r 55
def rtNext (r : Nat) : Nat := bits r 56 17
def rtPremill (r : Nat) : Bool := bit r 73
def rtSrcPdu (r : Nat) : Nat := bits r 74 16
def rtVlanAct (r : Nat) : Nat := bits r 90 2
def rtVid (r : Nat) : Nat := bits r 92 12
def rtPcp (r : Nat) : Nat := bits r 104 3
def rtValid (r : Nat) : Bool := bit r 127

/-! ## The key part of a ROUTE record (R119), from bit 0 of the 256-bit record -/

def rkIndex (r : Nat) : Nat := bits r 0 17
def rkKind (r : Nat) : Nat := bits r 17 3
def rkFmt (r : Nat) : Nat := bits r 20 4
def rkIngress (r : Nat) : Nat := bits r 24 8
def rkId (r : Nat) : Nat := bits r 32 29
def rkVcid (r : Nat) : Nat := bits r 61 8
def rkSdt (r : Nat) : Nat := bits r 69 8
def rkAf (r : Nat) : Nat := bits r 77 32
/-- R119: the 49 bits of a stream ID in a record of KIND 3. -/
def rkStream (r : Nat) : Nat := bits r 77 49
def rkGrove (r : Nat) : Nat := bits r 126 2
/-- The route entry half of the record. -/
def rkEntry (r : Nat) : Nat := r / 2 ^ 128

/-! ## Ternary rules (R121), policers (R122), multicast members (R270) -/

def tnIndex (r : Nat) : Nat := bits r 0 16
def tnKey (r : Nat) : Nat := bits r 32 320
def tnMask (r : Nat) : Nat := bits r 352 320
def tnRoute (r : Nat) : Nat := bits r 672 17
def tnAction (r : Nat) : Nat := bits r 689 2

def plIndex (r : Nat) : Nat := bits r 0 16
def plMode (r : Nat) : Nat := bits r 16 2
def plExceed (r : Nat) : Nat := bits r 18 2
def plRate (r : Nat) : Nat := bits r 32 32
def plBurst (r : Nat) : Nat := bits r 64 32

def mcGroup (r : Nat) : Nat := bits r 0 12
def mcLport (r : Nat) : Nat := bits r 12 4
def mcTarget (r : Nat) : Nat := bits r 16 8
def mcTc (r : Nat) : Nat := bits r 24 3
def mcOvr (r : Nat) : Bool := bit r 27
def mcVlanAct (r : Nat) : Nat := bits r 28 2
def mcVid (r : Nat) : Nat := bits r 30 12
def mcPcp (r : Nat) : Nat := bits r 42 3

/-! ## GROVE records (R114), from bit 0 of the 512-bit record -/

/-- The GROVE record of grove `g` in force. -/
def groveRec (d : Dev) (g : Nat) : Nat := mapGet 0 d.img.grove g
def gvMillUse (r : Nat) : Bool := bit r 2
def gvCanEn (r : Nat) : Nat := bits r 8 6
def gvXlEn (r : Nat) : Nat := bits r 16 6
def gvEthEn (r : Nat) : Nat := bits r 24 2
def gvLaneMode (r p : Nat) : Nat := bits r (32 + 4 * p) 4
def gvParse (r e : Nat) : Nat := bits r (40 + 3 * e) 3
def gvShaper (r e : Nat) : Nat := bits r (64 + 4 * e) 4
def gvShaperEn (r : Nat) : Nat := bits r 96 8
def gvCutThru (r p : Nat) : Bool := bit r (104 + p)
def gvFiltFirst (r c : Nat) : Nat := bits r (128 + 32 * c) 13
def gvFiltCount (r c : Nat) : Nat := bits r (128 + 32 * c + 13) 14

/-- R114: CAN channel n is in the image. -/
def canInImage (d : Dev) (n : Nat) : Bool := bit (gvCanEn (groveRec d (n / 6))) (n % 6)
/-- R114: Ethernet port n is in the image; ETHM always is (R211). -/
def ethInImage (d : Dev) (n : Nat) : Bool := n == 8 || bit (gvEthEn (groveRec d (n / 2))) (n % 2)
/-- R114: a shaper engine serves class `t` of Ethernet port `n`. -/
def hasShaper (d : Dev) (n t : Nat) : Bool :=
  n != 8 && (List.range 8).any (fun e =>
    bit (gvShaperEn (groveRec d (n / 2))) e && gvShaper (groveRec d (n / 2)) e == 8 * (n % 2) + t)
/-- R114: engines of a PARSE type in grove `g`. -/
def parseEngines (d : Dev) (g ty : Nat) : Nat :=
  ((List.range 8).filter (fun e => gvParse (groveRec d g) e == ty)).length

/-! ## Tables in force -/

/-- R139: a record of the graft in force, by section TYPE and index; of two records of one index the later stands, as it does
after fold-in (DEDUCED, log entry 57). -/
def graftRec (d : Dev) (ty ix : Nat) : Option Nat :=
  (d.com.live.reverse.find? (fun g => g.type == ty && g.index == ix)).map Graft.val

/-- The route table entry in force (R139: a graft record replaces the main entry). A graft record is the whole ROUTE
record; the main table holds the entry half. -/
def routeEntry (d : Dev) (ix : Nat) : Nat :=
  match graftRec d 6 ix with
  | some r => rkEntry r
  | none => mapGet 0 d.img.route ix

/-- A policer record in force. -/
def polRec (d : Dev) (ix : Nat) : Option Nat :=
  match graftRec d 9 ix with
  | some r => some r
  | none => mapGet? d.img.pol ix

/-- A table's record with the graft laid over it. -/
def tableRec (d : Dev) (ty : Nat) (m : NMap Nat) (ix : Nat) : Option Nat :=
  match graftRec d ty ix with
  | some r => some r
  | none => mapGet? m ix

/-- R102, R127: `ix` is a hold route that forwards in the mode in force; none does after a loss of the crystal. -/
def holdRoute (d : Dev) (ix : Nat) : Bool :=
  match mapGet? d.img.hold ix with
  | some m7 => !d.clk.noHold && (d.clk.mode == .m6 || m7)
  | none => false

/-! ## Queues (R244) -/

/-- The queues of Landing ports, by kind. -/
def qCan (ch tc : Nat) : Nat := 64 * (ch / 6) + 4 * (ch % 6) + tc
def qEth (port tc : Nat) : Nat := 64 * (port / 2) + 24 + 8 * (port % 2) + tc
def qHost (e r : Nat) : Nat := 256 + 64 * e + r
def qSvc (tc : Nat) : Nat := 384 + tc
def qRec (q : Nat) : Nat := 392 + q
def qCry (s : Nat) : Nat := 400 + s
def qMil (tc : Nat) : Nat := 416 + tc

/-- R244: the queue index exists. -/
def qExists (q : Nat) : Bool := decide (q < 256 && q % 64 < 40) || (decide (256 ≤ q) && decide (q < 396)) ||
  (decide (400 ≤ q) && decide (q < 424))

/-- R9, R244: the Landing port of a queue. -/
def qPort (q : Nat) : Nat :=
  if q < 256 then q / 64 else if q < 320 then 4 else if q < 384 then 5 else if q < 392 then 6
  else if q < 400 then 7 else if q < 416 then 8 else 9

/-- A queue of HA or HB. -/
def qIsHost (q : Nat) : Bool := decide (256 ≤ q) && decide (q < 384)
/-- The CAN channel of a queue. -/
def qChannel (q : Nat) : Option Nat := if q < 256 && q % 64 < 24 then some (6 * (q / 64) + q % 64 / 4) else none
/-- The Ethernet port of a queue. -/
def qEthPort (q : Nat) : Option Nat :=
  if q < 256 && 24 ≤ q % 64 && q % 64 < 40 then some (2 * (q / 64) + (q % 64 - 24) / 8) else none

/-- R120, R244: the queue that a unicast destination names. -/
def qOf (lport target tc : Nat) : Nat :=
  if lport < 4 then (if target < 6 then qCan (6 * lport + target) (tc % 4) else qEth (2 * lport + (target - 6) % 2) tc)
  else if lport = 4 then qHost 0 (target % 64) else if lport = 5 then qHost 1 (target % 64)
  else if lport = 6 then qSvc tc else if lport = 7 then qRec (target % 4) else if lport = 8 then qCry (target % 16)
  else qMil tc

/-- The number of a CAN format as R453's KIND counts them. -/
def fmtKind : CanFmt → Nat
  | .classical => 1 | .fd => 2 | .fdBrs => 2 | .xl => 3

/-! ## Slots of the wheel (R30, R142, R143, R151) -/

/-- R143, R151: a slot of a resource that grants: no kerf slot, and not damaged. -/
def slotGrants (d : Dev) (res s : Nat) : Bool := s % 32 != 31 && !d.whl.damaged.contains (256 * res + s)

/-- R30, R142, R145: the client with an owner code may use a resource in the slot that runs. Before the owner tables are loaded
every slot passes: no traffic runs then (DEDUCED, log entry 80). -/
def slotOwned (d : Dev) (res code : Nat) : Bool :=
  match mapGet? d.whl.owners res with
  | none => true
  | some l => nth 0xFE l d.whl.slot == code && slotGrants d res d.whl.slot

/-- R30, R151: the client holds a slot of the resource that grants: what spans several slots needs one (DEDUCED, log entry 80). -/
def slotHeld (d : Dev) (res code : Nat) : Bool :=
  match mapGet? d.whl.owners res with
  | none => true
  | some l => l.zipIdx.any (fun x => x.1 == code && slotGrants d res x.2)

end Sys2Proof.Machine
end

