-- ==== Sys2Proof/Machine/FltOps.lean ====
section
/-! DEFINITION. Shared operations of chapter 14: fault classes and their latches (R18, R91, R414, R415), the fill of
the input journals (R394, R397, R399), egress commits and commit logs (R400, R401). -/

namespace Sys2Proof.Machine

/-- The state of a twin. -/
def twinOf (d : Dev) (t : Nat) : Twin := mapGet {} d.flt.twins t

/-- Change a twin. -/
def modTwin (d : Dev) (t : Nat) (f : Twin → Twin) : Dev :=
  { d with flt := { d.flt with twins := mapMod {} d.flt.twins t f } }

/-- R417: WORST keeps the highest class latched. -/
def noteClass (d : Dev) (cls : Nat) : Dev := { d with flt := { d.flt with worst := max d.flt.worst cls } }

/-- R91, R415: an F4 fault is latched; M6 entry begins at the next wheel boundary. -/
def raiseF4 (d : Dev) (code : Nat) (data : Bytes) : Dev :=
  let d := raise d code 4 data
  let d := noteClass d 4
  { d with flt := { d.flt with f4 := true }, clk := { d.clk with f4Pend := true } }

/-- R91, R415: an F3 fault is latched; M5 entry begins at the next wheel boundary that the transitions allow. -/
def raiseF3 (d : Dev) (code : Nat) (data : Bytes) : Dev :=
  let d := raise d code 3 data
  let d := noteClass d 3
  { d with flt := { d.flt with f3 := true }, clk := { d.clk with f3Pend := true } }

/-- An F1 or F2 event. -/
def raiseF (d : Dev) (code cls : Nat) (data : Bytes) : Dev := noteClass (raise d code cls data) cls

/-- R386: journal depth in FIFO words. -/
def journalDepth (t : Nat) : Nat :=
  if t = 0 then 393216 else if t = 1 then 32768 else if t ≤ 5 then 4096 else if t ≤ 9 then 8192
  else if t = 10 then 65536 else if t ≤ 14 then 16384 else if t ≤ 30 then 8192 else 0

/-- R399: the level of a twin's journal. -/
def journalLevel (d : Dev) (t : Nat) : Nat := fld d (0x20100 + 4 * t) 0 19

/-- R394, R399: an input item of `size` bytes is journalled. JOURNAL_LEVEL is raised at the upward crossing of a level
other than 0, JOURNAL_FULL at the last word. -/
def journalAdd (d : Dev) (t size : Nat) : Dev :=
  let w := twinOf d t
  let fill := min (w.fill + Config.journalWords t size) (journalDepth t)
  let lvl := journalLevel d t
  let d := modTwin d t (fun w => { w with fill := fill })
  let d := if 0 < lvl && w.fill < lvl && lvl ≤ fill then raise d 0x0E06 0 (e1 t ++ e4 fill) else d
  if w.fill < journalDepth t && fill = journalDepth t then raiseF4 d 0x0E07 (e1 t) else d

/-- R397: an item of `size` bytes is released. -/
def journalFree (d : Dev) (t size : Nat) : Dev :=
  modTwin d t (fun w => { w with fill := w.fill - Config.journalWords t size })

/-- R395: the end of a cut-through frame settles the size of its item. -/
def journalResize (d : Dev) (t old size : Nat) : Dev :=
  modTwin d t (fun w =>
    { w with fill := min (w.fill - Config.journalWords t old + Config.journalWords t size) (journalDepth t) })

/-- R400: an output commits at its egress point, and its commit notice sets out. -/
def commitOut (d : Dev) (t seq : Nat) : Dev := modTwin d t (fun w => { w with flight := w.flight ++ [seq] })

/-- R400: the next egress commit sequence of a twin: 32 bits. -/
def nextEcs (d : Dev) (t : Nat) : Nat := (twinOf d t).ecs

/-- R400: a sequence has been given out. -/
def stepEcs (d : Dev) (t : Nat) : Dev := modTwin d t (fun w => { w with ecs := (w.ecs + 1) % 2 ^ 32 })

/-- R402: some twin is frozen or replaying; the earliest freeze instant in ns. -/
def freezeNs (d : Dev) : Option Nat :=
  (d.flt.twins.filter (fun e => e.2.phase != 0)).foldl
    (fun a e => match a with | none => some e.2.freezeNs | some x => some (min x e.2.freezeNs)) none

/-- R402: a twin takes no input from freeze to resume. -/
def frozen (d : Dev) (t : Nat) : Bool := (twinOf d t).phase != 0

/-- R403: the Landing, or the egress scheduler `t` behind it, is frozen: its outputs that have not committed wait for the
replay. -/
def outFrozen (d : Dev) (t : Nat) : Bool := (twinOf d 0).phase == 1 || (twinOf d t).phase == 1

/-! ## Service core pairs (R33, R128, R414) -/

/-- R33: the default pair of a service: 0 network management, 1 freshness, 2 MKA, 3 key tree, 4 diagnostic transport,
5 time synchronisation, 6 incident control, 7 update, 8 health monitoring. -/
def svcDefault (s : Nat) : Nat := if s = 0 then 0 else if s ≤ 3 then 1 else if s = 4 then 2 else 3

/-- R128: the pair that runs a service. -/
def svcPair (d : Dev) (s : Nat) : Nat := mapGet (svcDefault s) d.img.svc s

/-- R414: the pair of a service is not held in reset. -/
def svcUp (d : Dev) (s : Nat) : Bool := !d.flt.scDown.contains (svcPair d s)

/-! ## Memory errors (R414) -/

/-- TIME cycles of 1 s. -/
def secCycles : Nat := 500000000

/-- R414: a corrected error at a row: F1, and the third in one row within 1 s raises MEM_ROW_WEAK. -/
def memCorr (d : Dev) (mem row : Nat) : Dev :=
  let d := noteClass d 1
  let l := d.flt.corr.filter (fun e => decide (d.clk.tclk < e.2.2 + secCycles))
  let n := (l.filter (fun e => e.1 == mem && e.2.1 == row)).length + 1
  if n = 3 then
    raise { d with flt := { d.flt with corr := l.filter (fun e => !(e.1 == mem && e.2.1 == row)) } } 0x0E08 0
      (e1 mem ++ e4 row)
  else { d with flt := { d.flt with corr := l ++ [(mem, row, d.clk.tclk)] } }

/-- R481, R493, R495: errors that inline ECC corrects on reads of the DRAM: F1, counted for all clients. -/
def dramCorr (d : Dev) (n : Nat) : Dev := if n = 0 then d else noteClass (bumpBy d 0xA00130 0 n) 1

/-- R414: an uncorrectable error: more than 16 in one memory within 1 s, or 2 in one row, raise MEM_ERROR_LIMIT. -/
def memUnc (d : Dev) (mem row : Nat) : Dev :=
  let l := d.flt.unc.filter (fun e => decide (d.clk.tclk < e.2.2 + secCycles))
  let l2 := l ++ [(mem, row, d.clk.tclk)]
  let d := { d with flt := { d.flt with unc := l2 } }
  if 16 < (l2.filter (fun e => e.1 == mem)).length || 2 ≤ (l2.filter (fun e => e.1 == mem && e.2.1 == row)).length then
    raiseF4 d 0x0E09 (e1 mem)
  else d

end Sys2Proof.Machine
end

