-- ==== Sys2Proof/Machine/Prim.lean ====
section
/-! DEFINITION. The cryptographic and checking primitives that the spec names by their standards (R107, R333, R341,
R363, R367, R465, R502; PRESUMED, log entry 18): AES, GHASH multiplication, CMAC, GCM, RFC 3394 unwrap, the SP 800-108 KDF,
SHA-256 and SHA-384, ECDSA P-384, CRC-32 and CRC-8. -/

namespace Sys2Proof.Machine

/-! ### AES (FIPS 197) -/

/-- Multiplication by x in GF(2^8). -/
def gfX (a : Nat) : Nat := if a < 128 then 2 * a else (2 * a - 256) ^^^ 0x1B

/-- Multiplication in GF(2^8), over the bits of the second factor. -/
def gfMul (a b : Nat) : Nat :=
  ((List.range 8).foldl (fun (s : Nat × Nat) i => (if bit b i then s.1 ^^^ s.2 else s.1, gfX s.2)) (0, a)).1

/-- The inverse in GF(2^8), as the 254th power; 0 stays 0. -/
def gfInv (a : Nat) : Nat :=
  let a2 := gfMul a a
  let a4 := gfMul a2 a2
  let a8 := gfMul a4 a4
  let a16 := gfMul a8 a8
  let a32 := gfMul a16 a16
  let a64 := gfMul a32 a32
  let a128 := gfMul a64 a64
  gfMul a128 (gfMul a64 (gfMul a32 (gfMul a16 (gfMul a8 (gfMul a4 a2)))))

/-- Rotation of a byte to the left. -/
def rotl8 (a n : Nat) : Nat := (a * 2 ^ n + a / 2 ^ (8 - n)) % 256

/-- The AES substitution of a byte. -/
def aesSub (a : Nat) : Nat :=
  let b := gfInv a
  b ^^^ rotl8 b 1 ^^^ rotl8 b 2 ^^^ rotl8 b 3 ^^^ rotl8 b 4 ^^^ 0x63

/-- The substitution table and its inverse. -/
def aesBox : List Nat := (List.range 256).map aesSub
def aesBoxInv : List Nat := (List.range 256).map (fun x => (findIdx (fun y => y == x) aesBox 0).getD 0)

/-- A word of the key schedule through the substitution. -/
def subWord (w : List Nat) : List Nat := w.map (nth 0 aesBox)

/-- Bytewise exclusive or of lists of numbers. -/
def xorNat (a b : List Nat) : List Nat := List.zipWith (· ^^^ ·) a b

/-- The round constants, as powers of x. -/
def rcon : Nat → Nat
  | 0 => 1
  | i + 1 => gfX (rcon i)

/-- The key schedule: words so far (newest first), index of the next, words still to make. -/
def expandKey (nk : Nat) : Nat → Nat → List (List Nat) → List (List Nat)
  | 0, _, ws => ws
  | k + 1, i, ws =>
    let prev := nth [] ws 0
    let t :=
      if i % nk == 0 then xorNat (subWord (prev.drop 1 ++ prev.take 1)) [rcon (i / nk - 1), 0, 0, 0]
      else if 6 < nk && i % nk == 4 then subWord prev
      else prev
    expandKey nk k (i + 1) (xorNat (nth [] ws (nk - 1)) t :: ws)

/-- Lists of four. -/
def quads : Nat → List Nat → List (List Nat)
  | 0, _ => []
  | n + 1, l => l.take 4 :: quads n (l.drop 4)

/-- The round keys of a key of 16, 24 or 32 bytes, 16 bytes each. -/
def roundKeys (key : Bytes) : List (List Nat) :=
  let nk := key.length / 4
  let ws := (expandKey nk (4 * (nk + 7) - nk) nk (quads nk (key.map BitVec.toNat)).reverse).reverse
  (List.range (nk + 7)).map (fun r => ((ws.drop (4 * r)).take 4).flatten)

/-- ShiftRows on the column-major state, and its inverse. -/
def shiftRows (s : List Nat) : List Nat := (List.range 16).map (fun i => nth 0 s ((i + 4 * (i % 4)) % 16))
def unshiftRows (s : List Nat) : List Nat := (List.range 16).map (fun i => nth 0 s ((i + 16 - 4 * (i % 4)) % 16))

/-- MixColumns with the given coefficients of one column. -/
def mixWith (c : List Nat) (s : List Nat) : List Nat :=
  (List.range 16).map (fun i =>
    (List.range 4).foldl (fun a k => a ^^^ gfMul (nth 0 c ((k + 4 - i % 4) % 4)) (nth 0 s (4 * (i / 4) + k))) 0)

/-- The forward cipher of one block. -/
def aesEnc (key blk : Bytes) : Bytes :=
  match roundKeys key with
  | [] => blk
  | k0 :: ks =>
    let st0 := xorNat ((fit 16 blk).map BitVec.toNat) k0
    let n := ks.length
    let fin := (ks.zipIdx).foldl (fun st (kr : List Nat × Nat) =>
      let sb := shiftRows (st.map (nth 0 aesBox))
      xorNat (if kr.2 + 1 == n then sb else mixWith [2, 3, 1, 1] sb) kr.1) st0
    fin.map (BitVec.ofNat 8)

/-- The inverse cipher of one block. -/
def aesDec (key blk : Bytes) : Bytes :=
  match (roundKeys key).reverse with
  | [] => blk
  | kn :: ks =>
    let st0 := xorNat ((fit 16 blk).map BitVec.toNat) kn
    let n := ks.length
    let fin := (ks.zipIdx).foldl (fun st (kr : List Nat × Nat) =>
      let sb := xorNat ((unshiftRows st).map (nth 0 aesBoxInv)) kr.1
      if kr.2 + 1 == n then sb else mixWith [14, 11, 13, 9] sb) st0
    fin.map (BitVec.ofNat 8)

/-! ### GCM and CMAC (SP 800-38D, SP 800-38B) -/

/-- Multiplication in GF(2^128) with the GCM polynomial and bit order (R333): the first bit of a block is its most
significant one. -/
def gcmMul (x y : Bytes) : Bytes :=
  let xn := beNat (fit 16 x)
  let r := (List.range 128).foldl (fun (s : Nat × Nat) i =>
    (if bit xn (127 - i) then s.1 ^^^ s.2 else s.1,
     if bit s.2 0 then (s.2 / 2) ^^^ (0xE1 * 2 ^ 120) else s.2 / 2)) (0, beNat (fit 16 y))
  beBytes 16 r.1

/-- One GHASH step: (ACC XOR block) times H, the block padded with zeros (R341). -/
def ghashStep (h acc blk : Bytes) : Bytes := gcmMul (xorBytes (fit 16 acc) (fit 16 blk)) h

/-- GHASH over a byte string padded with zeros to whole blocks. -/
def ghash (h acc bs : Bytes) : Bytes := (blocks16 (bs.length / 16 + 1) bs).foldl (ghashStep h) acc

/-- A counter block plus one modulo 2^32 in its last four bytes (R341). -/
def inc32 (c : Bytes) : Bytes := (fit 16 c).take 12 ++ beBytes 4 ((beNat ((fit 16 c).drop 12) + 1) % 2 ^ 32)

/-- CTR keystream applied to a byte string from a counter block on; and the counter after it. -/
def ctrRun (key ctr bs : Bytes) : Bytes × Bytes :=
  (blocks16 (bs.length / 16 + 1) bs).foldl
    (fun (s : Bytes × Bytes) b => (s.1 ++ xorBytes b (aesEnc key s.2), inc32 s.2)) ([], ctr)

/-- The J0 block of an IV: the IV and a one for 96 bits, else its GHASH. -/
def gcmJ0 (h iv : Bytes) : Bytes :=
  if iv.length == 12 then iv ++ beBytes 4 1
  else ghashStep h (ghash h (zeros 16) iv) (zeros 8 ++ beBytes 8 (8 * iv.length))

/-- The GCM tag of ciphertext and additional data. -/
def gcmTag (key iv aad ct : Bytes) : Bytes :=
  let h := aesEnc key (zeros 16)
  let s := ghashStep h (ghash h (ghash h (zeros 16) aad) ct) (beBytes 8 (8 * aad.length) ++ beBytes 8 (8 * ct.length))
  xorBytes s (aesEnc key (gcmJ0 h iv))

/-- GCM encryption: ciphertext and tag. -/
def gcmSeal (key iv aad pt : Bytes) : Bytes × Bytes :=
  let ct := (ctrRun key (inc32 (gcmJ0 (aesEnc key (zeros 16)) iv)) pt).1
  (ct, gcmTag key iv aad ct)

/-- GCM decryption: plaintext, or none where the tag differs. -/
def gcmOpen (key iv aad ct tag : Bytes) : Option Bytes :=
  if (gcmTag key iv aad ct).take tag.length == tag then
    some (ctrRun key (inc32 (gcmJ0 (aesEnc key (zeros 16)) iv)) ct).1
  else none

/-- Doubling in GF(2^128) of the CMAC subkeys. -/
def cmacDbl (x : Bytes) : Bytes :=
  let n := beNat (fit 16 x)
  beBytes 16 (if bit n 127 then ((2 * n) % 2 ^ 128) ^^^ 0x87 else 2 * n)

/-- K1 and K2 of a key (SP 800-38B). -/
def cmacK1 (key : Bytes) : Bytes := cmacDbl (aesEnc key (zeros 16))
def cmacK2 (key : Bytes) : Bytes := cmacDbl (cmacK1 key)

/-- The last block of CMAC: masked whole, or padded and masked (R341, MFINAL). -/
def cmacLast (k1 k2 m : Bytes) : Bytes :=
  if m.length == 16 then xorBytes m k1 else xorBytes (fit 16 (m ++ [0x80])) k2

/-- AES-CMAC of a byte string. -/
def cmac (key m : Bytes) : Bytes :=
  let n := if m.length == 0 then 0 else (m.length - 1) / 16
  let acc := (blocks16 n (m.take (16 * n))).foldl (fun a b => aesEnc key (xorBytes a b)) (zeros 16)
  aesEnc key (xorBytes acc (cmacLast (cmacK1 key) (cmacK2 key) (m.drop (16 * n))))

/-! ### Key derivation and key wrap (R367, R371, R374) -/

/-- A label of 16 bytes: ASCII padded with zero bytes (R367). -/
def label (s : String) : Bytes := fit 16 (s.toList.map (fun c => BitVec.ofNat 8 c.toNat))

/-- The SP 800-108 counter-mode KDF with AES-CMAC as its PRF, for `n` bytes; counter and length of 32 bits (R367). -/
def kdf (key lab ctx : Bytes) (n : Nat) : Bytes :=
  (((List.range (ceilDiv n 16)).map (fun i =>
    cmac key (beBytes 4 (i + 1) ++ lab ++ [0] ++ ctx ++ beBytes 4 (8 * n)))).flatten).take n

/-- One step of the RFC 3394 unwrap, from the last to the first. -/
def kwStep (key : Bytes) (n : Nat) (s : Bytes × List Bytes) (t : Nat) : Bytes × List Bytes :=
  let i := (t - 1) % n
  let b := aesDec key (xorBytes s.1 (beBytes 8 t) ++ nth [] s.2 i)
  (b.take 8, setNth s.2 i (b.drop 8))

/-- Lists of eight bytes. -/
def eights : Nat → Bytes → List Bytes
  | 0, _ => []
  | n + 1, l => l.take 8 :: eights n (l.drop 8)

/-- RFC 3394 unwrap of a blob of 8 (n + 1) bytes; none where the integrity value differs. -/
def keyUnwrap (key blob : Bytes) : Option Bytes :=
  let n := blob.length / 8 - 1
  let r := ((List.range (6 * n)).map (fun k => 6 * n - k)).foldl (kwStep key n) (blob.take 8, eights n (blob.drop 8))
  if r.1 == List.replicate 8 0xA6 then some r.2.flatten else none

/-- RFC 3394 wrap, for records that the vault writes (R375). -/
def keyWrap (key m : Bytes) : Bytes :=
  let n := m.length / 8
  let r := ((List.range (6 * n)).map (· + 1)).foldl (fun (s : Bytes × List Bytes) t =>
    let i := (t - 1) % n
    let b := aesEnc key (s.1 ++ nth [] s.2 i)
    (xorBytes (b.take 8) (beBytes 8 t), setNth s.2 i (b.drop 8))) (List.replicate 8 0xA6, eights n m)
  r.1 ++ r.2.flatten

/-! ### SHA-256 and SHA-384 (FIPS 180-4) -/

/-- The first primes, at most `n` of them up to the bound. -/
def primes (n : Nat) : List Nat :=
  ((List.range 410).filter (fun p => 2 ≤ p && ((List.range p).all (fun q => q < 2 || p % q != 0)))).take n

/-- The integer k-th root of `x`, over `w` bits of the answer. -/
def iroot (k x w : Nat) : Nat :=
  (List.range w).foldl (fun r i => let c := r + 2 ^ (w - 1 - i); if c ^ k ≤ x then c else r) 0

/-- The fraction bits of a k-th root: `w` of them. -/
def rootFrac (k w p : Nat) : Nat := iroot k (p * 2 ^ (k * w)) (w + 10) % 2 ^ w

/-- A SHA-2 variant by its word: rotation amounts, constants. -/
structure ShaParam where
  w    : Nat
  rnds : Nat
  s0   : Nat × Nat × Nat
  s1   : Nat × Nat × Nat
  b0   : Nat × Nat × Nat
  b1   : Nat × Nat × Nat
  k    : List Nat

def sha256P : ShaParam :=
  { w := 32, rnds := 64, s0 := (7, 18, 3), s1 := (17, 19, 10), b0 := (2, 13, 22), b1 := (6, 11, 25),
    k := (primes 64).map (rootFrac 3 32) }
def sha512P : ShaParam :=
  { w := 64, rnds := 80, s0 := (1, 8, 7), s1 := (19, 61, 6), b0 := (28, 34, 39), b1 := (14, 18, 41),
    k := (primes 80).map (rootFrac 3 64) }

def rotr (w x n : Nat) : Nat := x >>> n ||| (x * 2 ^ (w - n)) % 2 ^ w
def sig3 (w : Nat) (r : Nat × Nat × Nat) (x : Nat) : Nat := rotr w x r.1 ^^^ rotr w x r.2.1 ^^^ rotr w x r.2.2
def sigS (w : Nat) (r : Nat × Nat × Nat) (x : Nat) : Nat := rotr w x r.1 ^^^ rotr w x r.2.1 ^^^ (x >>> r.2.2)

/-- The message schedule, newest word first. -/
def shaSched (P : ShaParam) : Nat → List Nat → List Nat
  | 0, ws => ws
  | n + 1, ws =>
    shaSched P n ((sigS P.w P.s1 (nth 0 ws 1) + nth 0 ws 6 + sigS P.w P.s0 (nth 0 ws 14) + nth 0 ws 15) % 2 ^ P.w :: ws)

/-- One round on the eight working words. -/
def shaRound (P : ShaParam) (s : List Nat) (kw : Nat × Nat) : List Nat :=
  match s with
  | [a, b, c, d, e, f, g, h] =>
    let t1 := h + sig3 P.w P.b1 e + ((e &&& f) ^^^ ((2 ^ P.w - 1 - e) &&& g)) + kw.1 + kw.2
    let t2 := sig3 P.w P.b0 a + ((a &&& b) ^^^ (a &&& c) ^^^ (b &&& c))
    [(t1 + t2) % 2 ^ P.w, a, b, c, (d + t1) % 2 ^ P.w, e, f, g]
  | o => o

/-- One block. -/
def shaBlock (P : ShaParam) (h : List Nat) (blk : Bytes) : List Nat :=
  let bw := P.w / 8
  let w0 := (List.range 16).map (fun i => beNat (slice blk (bw * i) bw))
  let ws := (shaSched P (P.rnds - 16) w0.reverse).reverse
  List.zipWith (fun a b => (a + b) % 2 ^ P.w) h ((P.k.zip ws).foldl (shaRound P) h)

/-- The padded message in blocks. -/
def shaFold (P : ShaParam) : Nat → List Nat → Bytes → List Nat
  | 0, h, _ => h
  | n + 1, h, bs => shaFold P n (shaBlock P h (bs.take (2 * P.w))) (bs.drop (2 * P.w))

def shaRun (P : ShaParam) (h : List Nat) (m : Bytes) : Bytes :=
  let bl := 2 * P.w
  let lw := P.w / 4
  let n := (m.length + 1 + lw + bl - 1) / bl
  let padded := fit (n * bl - lw) (m ++ [0x80]) ++ beBytes lw (8 * m.length)
  ((shaFold P n h padded).map (beBytes (P.w / 8))).flatten

/-- SHA-256. -/
def sha256 (m : Bytes) : Bytes := shaRun sha256P ((primes 8).map (rootFrac 2 32)) m

/-- SHA-384. -/
def sha384 (m : Bytes) : Bytes := (shaRun sha512P (((primes 16).drop 8).map (rootFrac 2 64)) m).take 48

/-! ### ECDSA P-256 and P-384 (R333; FIPS 186-5, SP 800-186) -/

/-- A curve y² = x³ − 3x + b over the prime p, with a base point of prime order n; `len` bytes hold a coordinate. -/
structure Curve where
  len : Nat
  p   : Nat
  b   : Nat
  n   : Nat
  gx  : Nat
  gy  : Nat
  deriving DecidableEq, Repr

def p256 : Curve where
  len := 32
  p   := 2 ^ 256 - 2 ^ 224 + 2 ^ 192 + 2 ^ 96 - 1
  b   := 0x5ac635d8aa3a93e7b3ebbd55769886bc651d06b0cc53b0f63bce3c3e27d2604b
  n   := 0xffffffff00000000ffffffffffffffffbce6faada7179e84f3b9cac2fc632551
  gx  := 0x6b17d1f2e12c4247f8bce6e563a440f277037d812deb33a0f4a13945d898c296
  gy  := 0x4fe342e2fe1a7f9b8ee7eb4a7c0f9e162bce33576b315ececbb6406837bf51f5

def p384 : Curve where
  len := 48
  p   := 2 ^ 384 - 2 ^ 128 - 2 ^ 96 + 2 ^ 32 - 1
  b   := 0xb3312fa7e23ee7e4988e056be3f82d19181d9c6efe8141120314088f5013875ac656398d8a2ed19d2a85c8edd3ec2aef
  n   := 0xffffffffffffffffffffffffffffffffffffffffffffffffc7634d81f4372ddf581a0db248b0a77aecec196accc52973
  gx  := 0xaa87ca22be8b05378eb1c71ef320ad746e1d3b628ba79b9859f741e082542a385502f25dbf55296c3a545e3872760ab7
  gy  := 0x3617de4a96262c6f5d9e98bf9292dc29f8f41dbd289a147ce9da3113b5f0b8c00a60b1ce1d7e819d7a431d7c90ea0e5f

/-- Power modulo `m`, over the 384 bits of the exponent. -/
def powMod (m b e : Nat) : Nat :=
  (List.range 384).foldl (fun r i => let r2 := r * r % m; if bit e (383 - i) then r2 * b % m else r2) 1

/-- The inverse modulo a prime. -/
def invMod (m a : Nat) : Nat := powMod m (a % m) (m - 2)

/-- A point of a curve; none is the point at infinity. -/
abbrev EcPt := Option (Nat × Nat)

/-- Point addition. -/
def ecAdd (C : Curve) (P Q : EcPt) : EcPt :=
  match P, Q with
  | none, q => q
  | p, none => p
  | some (x1, y1), some (x2, y2) =>
    if x1 == x2 && (y1 + y2) % C.p == 0 then none
    else
      let l := if x1 == x2 then (3 * x1 * x1 + C.p - 3) * invMod C.p (2 * y1) % C.p
        else (y2 + C.p - y1) * invMod C.p (x2 + C.p - x1) % C.p
      let x3 := (l * l + 2 * C.p - x1 - x2) % C.p
      some (x3, (l * (x1 + C.p - x3) + C.p - y1) % C.p)

/-- Scalar multiplication, over the bits of the scalar. -/
def ecMul (C : Curve) (k : Nat) (P : EcPt) : EcPt :=
  let top := 8 * C.len - 1
  (List.range (8 * C.len)).foldl (fun r i => let r2 := ecAdd C r r; if bit k (top - i) then ecAdd C r2 P else r2) none

/-- A public key in the uncompressed form: 0x04, x, y, big-endian; a point of the curve. -/
def ecKey (C : Curve) (k : Bytes) : EcPt :=
  let x := beNat (slice k 1 C.len)
  let y := beNat (slice k (1 + C.len) C.len)
  if k.length == 1 + 2 * C.len && k.take 1 == [0x04] && decide (x < C.p) && decide (y < C.p)
      && y * y % C.p == (x * x * x + (C.p - 3) * x + C.b) % C.p
  then some (x, y) else none

/-- R333: ECDSA verification of a digest under a curve: signature r then s, big-endian. -/
def ecdsaCheck (C : Curve) (key digest sig : Bytes) : Bool :=
  let r := beNat (slice sig 0 C.len)
  let s := beNat (slice sig C.len C.len)
  match ecKey C key with
  | none => false
  | some q =>
    if r == 0 || s == 0 || decide (C.n ≤ r) || decide (C.n ≤ s) then false
    else
      let w := invMod C.n s
      let u1 := beNat (digest.take C.len) * w % C.n
      let u2 := r * w % C.n
      match ecAdd C (ecMul C u1 (some (C.gx, C.gy))) (ecMul C u2 (some q)) with
      | none => false
      | some (x, _) => x % C.n == r

/-- R333: the ECDSA signature of a digest by a private key under a nonce: r then s, big-endian; none for a nonce that gives no
signature, which another replaces. No command of the table signs: measurement and MKA, which sign, are Eopod's. -/
def ecdsaSign (C : Curve) (priv nonce : Nat) (digest : Bytes) : Option Bytes :=
  match ecMul C nonce (some (C.gx, C.gy)) with
  | none => none
  | some (x, _) =>
    let r := x % C.n
    let s := invMod C.n nonce * (beNat (digest.take C.len) + r * priv) % C.n
    if r == 0 || s == 0 then none else some (beBytes C.len r ++ beBytes C.len s)

/-- ECDSA P-384 verification of a digest, as boot, updates and debug unlock use it. -/
def ecdsaVerify (key digest sig : Bytes) : Bool := ecdsaCheck p384 key digest sig

/-! ### Checks -/

/-- CRC-32 with the IEEE 802.3 polynomial (reflected, inverted). -/
def crc32 (bs : Bytes) : Nat :=
  (bs.foldl (fun c b =>
    (List.range 8).foldl (fun c _ => if bit c 0 then (c / 2) ^^^ 0xEDB88320 else c / 2) (c ^^^ b.toNat)) 0xFFFFFFFF)
    ^^^ 0xFFFFFFFF

/-- R465: CRC-8 with polynomial 0x2F, initial value 0, no reflection, no final XOR. -/
def crc8 (bs : Bytes) : Nat :=
  bs.foldl (fun c b =>
    (List.range 8).foldl (fun c _ => if bit c 7 then ((2 * c) % 256) ^^^ 0x2F else 2 * c) (c ^^^ b.toNat)) 0

end Sys2Proof.Machine
end

