-- ==== Sys2Proof/Machine/FlashOps.lean ====
section
/-! DEFINITION. Shared operations of the boot flash (chapter 18): bytes of the flash (R496), the boot record (R502,
R503), the flash store and its map (R520, R521, R524, R525). -/

namespace Sys2Proof.Machine

/-! ## Bytes -/

/-- A byte of the flash; erased where nothing is listed (DESIGN CHOICE, log entry 6). -/
def flByte (d : Dev) (a : Nat) : Byte := mapGet 0xFF d.flash a

/-- `n` bytes from an address. -/
def flRead (d : Dev) (a n : Nat) : Bytes := (List.range n).map (fun i => flByte d (a + i))

/-- An erase of `n` bytes. -/
def flErase (d : Dev) (a n : Nat) : Dev :=
  { d with flash := mapDrop d.flash (fun k => decide (a ≤ k) && decide (k < a + n)) }

/-- A program of bytes. -/
def flProg (d : Dev) (a : Nat) (bs : Bytes) : Dev :=
  { d with flash := (bs.zipIdx).foldl (fun m b => mapStore 0xFF m (a + b.2) b.1) d.flash }

/-- Some byte of a range has been programmed. -/
def flUsed (d : Dev) (a n : Nat) : Bool := d.flash.any (fun e => decide (a ≤ e.1) && decide (e.1 < a + n))

/-! ## The boot record (R502, R503) -/

/-- The first 60 bytes of a boot record. -/
def brecBody (b : BootRec) : Bytes :=
  [0x55, 0x42, 0x52, 0x44] ++ leBytes 4 b.seq ++ leBytes 1 b.active ++ leBytes 1 b.stateA ++ leBytes 1 b.stateB ++
    leBytes 1 b.left ++ leBytes 2 b.secs ++ leBytes 2 b.xspi ++ leBytes 2 b.fwSecA ++ leBytes 2 b.fwSecB ++
    leBytes 2 b.imgSecA ++ leBytes 2 b.imgSecB ++ leBytes 1 b.lastFb ++ zeros 35

/-- A boot record as it is written. -/
def brecBytes (b : BootRec) : Bytes := brecBody b ++ leBytes 4 (crc32 (brecBody b))

/-- R503: a complete copy of the boot record. -/
def brecParse (bs : Bytes) (copy : Nat) : Option BootRec :=
  if bs.take 4 == [0x55, 0x42, 0x52, 0x44] && leAt bs 60 4 == crc32 (bs.take 60) then
    some { valid := true, seq := leAt bs 4 4, copy := copy, active := leAt bs 8 1 % 2, stateA := leAt bs 9 1,
           stateB := leAt bs 10 1, left := leAt bs 11 1, secs := leAt bs 12 2, xspi := leAt bs 14 2,
           fwSecA := leAt bs 16 2, fwSecB := leAt bs 18 2, imgSecA := leAt bs 20 2, imgSecB := leAt bs 22 2,
           lastFb := leAt bs 24 1 }
  else none

/-- Of two complete copies the one with the higher SEQ. -/
def newer {α : Type} (seq : α → Nat) (a b : Option α) : Option α :=
  match a, b with
  | some x, some y => if seq x < seq y then some y else some x
  | some x, none => some x
  | none, y => y

/-- R503: the boot record in flash. -/
def brecRead (d : Dev) : BootRec :=
  (newer BootRec.seq (brecParse (flRead d 0 64) 0) (brecParse (flRead d 0x1000 64) 1)).getD {}

/-- R503: a new boot record is written to the other copy and is in force at the end of its read-back. -/
def brecWrite (d : Dev) (f : BootRec → BootRec) : Dev :=
  let o := d.upd.brec
  let c := if o.valid then 1 - o.copy else 0
  let b := { f o with valid := true, seq := o.seq + 1, copy := c }
  let d := flProg (flErase d (0x1000 * c) 4096) (0x1000 * c) (brecBytes b)
  { d with upd := { d.upd with brec := b } }

/-- The state of a slot in the record, and the record with it changed. -/
def slotState (b : BootRec) (s : Nat) : Nat := if s = 0 then b.stateA else b.stateB
def setSlotState (b : BootRec) (s v : Nat) : BootRec := if s = 0 then { b with stateA := v } else { b with stateB := v }

/-- R497: base of a slot. -/
def slotBase (s : Nat) : Nat := if s = 0 then 0x400000 else 0x3400000

/-! ## The store map (R520, R521) -/

/-- The bytes of a store map copy. -/
def smapBytes (s : Store) : Bytes :=
  let phys := ((List.range 576).map (fun l => leBytes 2 (mapGet l s.map l))).flatten
  let bitmap : Bytes := (List.range ((s.n + 7) / 8)).map (fun i =>
    BitVec.ofNat 8 ((List.range 8).foldl (fun a b => if s.retired.contains (8 * i + b) then a + 2 ^ b else a) 0))
  let body := fit 12284 ([0x55, 0x53, 0x4D, 0x50] ++ leBytes 4 s.seq ++ leBytes 2 s.n ++ phys ++ bitmap)
  body ++ leBytes 4 (crc32 body)

/-- A complete copy of the store map; the logical sectors that stand at their own number are not listed. -/
def smapParse (bs : Bytes) (copy : Nat) : Option Store :=
  if bs.take 4 == [0x55, 0x53, 0x4D, 0x50] && leAt bs 12284 4 == crc32 (bs.take 12284) then
    let n := leAt bs 8 2
    let pairs := (List.range 576).filterMap (fun l => let p := leAt bs (10 + 2 * l) 2; if p = l then none else some (l, p))
    let ret := (List.range n).filter (fun k => bit (byteNum bs (1162 + k / 8)) (k % 8))
    some { seq := leAt bs 4 4, copy := copy, n := n, map := pairs, retired := ret }
  else none
where
  /-- A byte as a number. -/
  byteNum (bs : Bytes) (i : Nat) : Nat := ((bs[i]?).getD 0).toNat

/-- The store map in flash; with no complete copy every logical sector stands at its own number, in a store of 7,168
sectors (DESIGN CHOICE, log entry 46). -/
def smapRead (d : Dev) : Store :=
  let at' := fun a c => if flUsed d a 12288 then smapParse (flRead d a 12288) c else none
  (newer Store.seq (at' 0x4000 0) (at' 0x7000 1)).getD { n := 7168, copy := 1 }

/-- R521: the map in force is written to the other copy. -/
def smapWrite (d : Dev) : Dev :=
  let c := 1 - d.store.copy
  let a := 0x4000 + 0x3000 * c
  let s := { d.store with seq := d.store.seq + 1, copy := c }
  flProg (flErase { d with store := s } a 12288) a (smapBytes s)

/-- The physical sector of a logical one, and its address. -/
def secPhys (d : Dev) (l : Nat) : Nat := mapGet l d.store.map l
def secAddr (d : Dev) (l : Nat) : Nat := 0x6400000 + 4096 * secPhys d l

/-- R520: the spares: neither assigned nor retired. -/
def spares (d : Dev) : Nat := d.store.n - 576 - d.store.retired.length

/-- The first spare. -/
def firstSpare (d : Dev) : Option Nat :=
  let used := (List.range 576).map (secPhys d)
  (List.range (min d.store.n 66000)).find? (fun k => !used.contains k && !d.store.retired.contains k)

/-- R520: the region of a logical sector. -/
def secRegion (l : Nat) : Nat := if l < 512 then 0 else 1

/-- R525: a region becomes read-only; region 2 makes the whole store so. -/
def storeRo (d : Dev) (region : Nat) : Dev :=
  let s := d.store
  let s := if region = 0 then { s with keyRo := true } else if region = 1 then { s with freshRo := true }
    else { s with keyRo := true, freshRo := true, mapRo := true }
  raise { d with store := s } 0x1207 0 (e1 region)

/-- The region of a logical sector takes no more writes. -/
def secRo (d : Dev) (l : Nat) : Bool := if l < 512 then d.store.keyRo else d.store.freshRo

/-- R524, R525: a sector is retired: a spare takes its place in a new store map, or its region becomes read-only.
`mapOk` says that the map was written. -/
def retire (d : Dev) (l : Nat) (mapOk : Bool) : Dev :=
  let d := bump d 0xB00050 0
  match firstSpare d with
  | none => storeRo d (secRegion l)
  | some k =>
    let old := secPhys d l
    let s := { d.store with map := mapStore l d.store.map l k, retired := d.store.retired ++ [old] }
    if !mapOk then storeRo d 2
    else
      let d := smapWrite { d with store := s }
      if spares d = 16 then raise d 0x1206 0 (e2 16) else d

/-- R524: a write of bytes at the start of a logical sector plus an offset: results of the programs and of the map
writes between them; the last program that is asked for succeeds. A read-only region takes nothing. -/
def secProg (d : Dev) (l off : Nat) (bs : Bytes) : List FlashRes → Dev
  | [] => if secRo d l then d else flProg d (secAddr d l + off) bs
  | r :: rest =>
    if secRo d l then d
    else if r = .ok then flProg d (secAddr d l + off) bs
    else match rest with
      | [] => let d := retire d l true; if secRo d l then d else flProg d (secAddr d l + off) bs
      | m :: rest => secProg (retire d l (m == .ok)) l off bs rest

end Sys2Proof.Machine
end

