-- ==== Sys2Proof/Machine/LandOps.lean ====
section
/-! DEFINITION. Shared operations of the Landing (chapter 09): accounts and admission (R242 to R254), losses and host
reports (R253), ECN (R255), flushes (R265), and the life of a stored frame until its cells are freed (R252). -/

namespace Sys2Proof.Machine

/-- R242: the cells of a stored size. -/
def cells (size : Nat) : Nat := (size + 32 + 63) / 64

/-! ## Accounts (R249) -/

def qMin (d : Dev) (q : Nat) : Nat := reg d (lndqBase q) % 2 ^ 19
def qMax (d : Dev) (q : Nat) : Nat := reg d (lndqBase q + 4) % 2 ^ 19
def ecnLo (d : Dev) (q : Nat) : Nat := reg d (lndqBase q + 8) % 2 ^ 19
def ecnHi (d : Dev) (q : Nat) : Nat := reg d (lndqBase q + 12) % 2 ^ 19
def poolSize (d : Dev) : Nat := fld d 0x500010 0 19
def poolRsv (d : Dev) : Nat := fld d 0x500014 0 19

/-- O_q: cells charged to `q` as owner. -/
def ownCells (d : Dev) (q : Nat) : Nat :=
  d.lnd.frames.foldl (fun a f => if f.2.owner = q then a + f.2.n else a) 0

/-- D_q: cells of every frame that has an admitted copy to `q` and is not freed. -/
def depthCells (d : Dev) (q : Nat) : Nat :=
  d.lnd.frames.foldl (fun a f => if f.2.placed.contains q then a + f.2.n else a) 0

/-- Every owner queue of a stored frame, once. -/
def ownerQs (d : Dev) : List Nat := (d.lnd.frames.map (fun f => f.2.owner)).eraseDups

/-- P_used: the pool cells taken. -/
def poolUsed (d : Dev) : Nat := (ownerQs d).foldl (fun a q => a + (ownCells d q - qMin d q)) 0

/-- Δ: the pool cells that `n` more cells of owner `q` take. -/
def poolDelta (d : Dev) (q n : Nat) : Nat := (ownCells d q + n - qMin d q) - (ownCells d q - qMin d q)

/-- R249, R254, R269: the pool condition of a frame of `n` cells for owner `q`. A frame that takes no pool cell meets it
however little the pool has left: R254 admits a frame within its queue's stored limit to an empty queue always (DEDUCED, log
entry 147). -/
def poolOk (d : Dev) (q n : Nat) (de : Bool) : Bool :=
  poolDelta d q n == 0 || decide (poolUsed d + poolDelta d q n + (if de then poolRsv d else 0) ≤ poolSize d)

/-- R249: the depth condition. -/
def depthOk (d : Dev) (q n : Nat) : Bool := decide (depthCells d q + n ≤ qMax d q)

/-! ## Arrival reserves (R246, R247) -/

/-- R246: the arrival reserve of an input. -/
def arrivalMax (input : Nat) : Nat := if input < 4 then 1024 else if input = 7 then 0 else 256

/-- The cells of the frames of an input that are decided and await admission. -/
def waitCells (d : Dev) (input : Nat) : Nat := (mapGet [] d.lnd.waiting input).foldl (fun a w => a + cells w.pkt.size) 0

/-- The cells of a list of lookups. -/
def lookCells (l : List LookItem) : Nat := l.foldl (fun a it => a + cells it.pkt.size) 0

/-- The cells of every frame that an input has taken and that is not admitted or dropped. -/
def arrivalAll (d : Dev) (input : Nat) : Nat :=
  waitCells d input + lookCells (mapGet [] d.rte.lookup input) + lookCells (mapGet [] d.rte.parse input)

/-- R247: the cells that lie in an input's arrival reserve. What does not fit of the frame that arrives is still at its
source. -/
def arrivalCells (d : Dev) (input : Nat) : Nat := min (arrivalAll d input) (arrivalMax input)

/-- R247, R451: the arrival reserve of an input is full: its source waits. -/
def arrivalFull (d : Dev) (input : Nat) : Bool := decide (arrivalMax input ≤ arrivalAll d input)

/-! ## Losses (R253, R272) -/

/-- The tally of a Landing queue. -/
def bumpQ (d : Dev) (off q : Nat) : Dev := bump d off q

/-- R485: a copy bound for a recorder queue is lost: DROPS of the queue's next record counts it. -/
def recLoss (d : Dev) (q : Nat) : Dev :=
  if decide (392 ≤ q) && decide (q < 396) then
    { d with rcd := { d.rcd with drops := mapMod 0 d.rcd.drops (q - 392) (fun n => min (n + 1) 0x3FFF) } }
  else d

/-- R253: a copy bound for HA or HB is lost: LND_HOST_LOSS at once, then at most once per 100 µs per queue. -/
def hostLoss (d : Dev) (q : Nat) : Dev :=
  if !qIsHost q then recLoss d q
  else
    let n := mapGet 0 d.lnd.lossCnt q + 1
    let late := match mapGet? d.lnd.lossAt q with | none => true | some t => decide (t + 100000 ≤ runNs d)
    let d :=
      if late then
        raise { d with lnd := { d.lnd with lossCnt := mapDel d.lnd.lossCnt q,
                                           lossAt := mapPut d.lnd.lossAt q (runNs d) } } 0x0902 0 (e2 q ++ eCount n)
      else { d with lnd := { d.lnd with lossCnt := mapPut d.lnd.lossCnt q n } }
    let e := if q < 320 then 0 else 1
    { d with eps := mapMod {} d.eps e (fun ep =>
        { ep with rx := mapMod {} ep.rx (q % 64) (fun r => { r with drops := min (r.drops + 1) 0xFFFF }) }) }

/-- R253: the losses of host queues that have waited out their 100 µs are reported. -/
def hostLossDue (d : Dev) : Dev :=
  d.lnd.lossCnt.foldl (fun d e =>
    if mapGet 0 d.lnd.lossAt e.1 + 100000 ≤ runNs d then
      raise { d with lnd := { d.lnd with lossCnt := mapDel d.lnd.lossCnt e.1,
                                         lossAt := mapPut d.lnd.lossAt e.1 (runNs d) } } 0x0902 0
        (e2 e.1 ++ eCount e.2)
    else d) d

/-- R265: the own counter of the port or channel of a queue: CAN_FLUSH, ETH_TXFLUSH. -/
def portFlushCount (d : Dev) (q : Nat) : Dev :=
  match qChannel q with
  | some ch => bump d (canBase ch + 0x148) 0
  | none => match qEthPort q with
    | some p => bump d (ethBase p + 0x160) 0
    | none => d

/-! ## Transmit completions of a host frame (R449, R450) -/

/-- Change an endpoint. -/
def modEp (d : Dev) (e : Nat) (f : Ep → Ep) : Dev := { d with eps := mapMod {} d.eps e f }
/-- Change a transmit queue. -/
def modTx (d : Dev) (e t : Nat) (f : TxQ → TxQ) : Dev :=
  modEp d e (fun ep => { ep with tx := mapMod {} ep.tx t f })
/-- Change a receive queue. -/
def modRx (d : Dev) (e r : Nat) (f : RxQ → RxQ) : Dev :=
  modEp d e (fun ep => { ep with rx := mapMod {} ep.rx r f })
def epOf (d : Dev) (e : Nat) : Ep := mapGet {} d.eps e
def txOf (d : Dev) (e t : Nat) : TxQ := mapGet {} (epOf d e).tx t
def rxOf (d : Dev) (e r : Nat) : RxQ := mapGet {} (epOf d e).rx r

/-- R449: the last copy of a frame has left or gone: a completion that waits for its timestamp is complete, with
LATEDROP when no copy left. -/
def txStamp (d : Dev) (tx : TxRef) (id : Nat) (egress : Option Nat) : Dev :=
  modTx d tx.e tx.t (fun q => { q with comps := q.comps.map (fun c =>
    if c.frame == some id then
      (match egress with
       | some ns => { c with frame := none, stamp := ns }
       | none => { c with frame := none, status := 8 })
    else c) })

/-! ## The life of a stored frame (R252, R397) -/

/-- R252, R397: the cells of frames whose every copy is gone, committed with its notice back, and marked past, are
freed and their journal items released. -/
def freeCells (d : Dev) : Dev :=
  let gone := d.lnd.frames.filter (fun f => f.2.marked && f.2.left == 0 && f.2.open' == 0)
  let d := gone.foldl (fun d f => journalFree d 0 f.2.pkt.size) d
  let rest := d.lnd.frames.filter (fun f => !(f.2.marked && f.2.left == 0 && f.2.open' == 0))
  { d with lnd := { d.lnd with frames := rest } }

/-- A copy of a frame is gone: it left at its egress commit, with the egress timestamp `stamp` (R225), or it was dropped. -/
def copyGone (d : Dev) (id : Nat) (committed : Bool) (stamp : Nat) : Dev :=
  match mapGet? d.lnd.frames id with
  | none => d
  | some f =>
    let eg := if committed then some stamp else f.egress
    let f' := { f with left := f.left - 1, open' := if committed then f.open' else f.open' - 1, egress := eg }
    let d := { d with lnd := { d.lnd with frames := mapPut d.lnd.frames id f' } }
    let d := if committed then commitOut d 0 id else d
    let d := match f.pkt.tx with
      | some tx => if f'.left = 0 && tx.tsreq then txStamp d tx id f'.egress else d
      | none => d
    freeCells d

/-- R400: a copy commits at its egress point. -/
def copyCommit (d : Dev) (id : Nat) : Dev := copyGone d id true (nowNs d)
/-- A copy is dropped after its admission. -/
def copyDrop (d : Dev) (id : Nat) : Dev := copyGone d id false 0

/-- Change a queue. -/
def setQueue (d : Dev) (q : Nat) (l : List (Nat × Dest)) : Dev :=
  { d with lnd := { d.lnd with queues := if l.isEmpty then mapDel d.lnd.queues q else mapPut d.lnd.queues q l } }
def queueOf (d : Dev) (q : Nat) : List (Nat × Dest) := mapGet [] d.lnd.queues q

/-- Take the copy of a frame out of its queue. -/
def unqueue (d : Dev) (q id : Nat) : Dev := setQueue d q ((queueOf d q).filter (fun c => c.1 != id))

/-- R23, R53: the route entry that decides a copy for its whole life: the one that its frame's lookup found. -/
def heldEntry (d : Dev) (p : Pkt) (x : Dest) : Nat := if p.route = x.route then p.entry else routeEntry d x.route

/-- The lane of a queue at its Landing port (R245), as port * 16 + lane. Classes of SVC go to core pair class mod 4
(DEDUCED, log entry 19); a Mill lane is the slice that the source PDU's record names (R302), for a copy of entry `entry`. -/
def laneKey (d : Dev) (q : Nat) (entry : Nat) : Nat :=
  if q < 256 then
    (match qChannel q with
     | some ch => 16 * (q / 64) + ch % 6
     | none => 16 * (q / 64) + 6 + (q % 64 - 24) / 8)
  else if q < 320 then 64 + q % 4
  else if q < 384 then 80 + q % 4
  else if q < 392 then 96 + q % 4
  else if q < 400 then 112
  else if q < 416 then 128 + (q - 400)
  else 144 + bits ((tableRec d 0x20 d.img.sigIdx (rtSrcPdu entry)).getD 0) 58 3

/-- R259: a staged copy awaits cell `cell` of its frame. -/
def LaneItem.awaits (it : LaneItem) (frame cell : Nat) : Bool :=
  it.pkt.id == frame && decide (it.got ≤ cell) && decide (cell < it.asked)

/-- R265: matched cells that no staged copy of a lane awaits any more lose the lane, and their read place with the last. -/
def dropCells (lanes : NMap Lane) (l : List MatchCell) : List MatchCell :=
  (l.map (fun c => { c with lanes := c.lanes.filter (fun k =>
    (mapGet {} lanes k).items.any (fun it => it.awaits c.frame c.cell)) })).filter (fun c => !c.lanes.isEmpty)

/-- Discard the staged copies and matched cells of one copy (R265): the cells that another copy of the frame awaits in the
same lane stay. -/
def unstage (d : Dev) (q id : Nat) : Dev :=
  let keep : LaneItem → Bool := fun it => !(it.pkt.id == id && it.dest.q == q)
  let lanes := d.lnd.lanes.map (fun l => (l.1, { l.2 with items := l.2.items.filter keep }))
  let strip : List MatchCell → List MatchCell := fun l =>
    l.flatMap (fun c => if c.frame == id then dropCells lanes [c] else [c])
  { d with lnd := { d.lnd with lanes := lanes, matched := d.lnd.matched.map (fun m => (m.1, strip m.2)) } }

/-- R265: one copy is flushed: removed, counted, and freed under R252. -/
def flushCopy (d : Dev) (q id : Nat) : Dev :=
  let d := unstage (unqueue d q id) q id
  copyDrop (hostLoss (portFlushCount (bumpQ d 0x500068 q) q) q) id

/-- R265: the copies of a queue that `p` picks are flushed; LND_QFLUSH_DONE reports a queue that lost frames. -/
def flushQueue (d : Dev) (q : Nat) (p : Nat × Dest → Bool) : Dev :=
  let hit := (queueOf d q).filter p
  if hit.isEmpty then d
  else raise (hit.foldl (fun d c => flushCopy d q c.1) d) 0x0903 0 (e2 q ++ eCount hit.length ++ e1 1)

/-- R265: several queues are flushed whole. -/
def flushQueues (d : Dev) (qs : List Nat) : Dev := qs.foldl (fun d q => flushQueue d q (fun _ => true)) d

/-- R246: the cells that the minimums and the pool may take. -/
def lndCells : Nat := 256768

/-- The queues that exist. -/
def allQueues : List Nat := (List.range 424).filter qExists

/-- Every queue that holds a frame. -/
def liveQueues (d : Dev) : List Nat := d.lnd.queues.map (fun e => e.1)

/-- The queues of a channel, of a port, of a grove. -/
def canQueues (ch : Nat) : List Nat := (List.range 4).map (qCan ch)
def ethQueues (p : Nat) : List Nat := (List.range 8).map (qEth p)
def groveQueues (g : Nat) : List Nat := (List.range 40).map (fun i => 64 * g + i)

/-- Frames that a list of queues holds. -/
def queuedIn (d : Dev) (qs : List Nat) : Nat := qs.foldl (fun a q => a + (queueOf d q).length) 0

/-! ## Admission (R249 to R251, R265) -/

/-- The state of a channel and of an Ethernet port. -/
def canOf (d : Dev) (ch : Nat) : CanCh := mapGet {} d.can ch
def ethOf (d : Dev) (p : Nat) : EthP := mapGet {} d.eth p

/-- R418: a cluster that takes part: it has a member and an NMLAYOUT record. -/
def nmTakesPart (d : Dev) (c : Nat) : Bool :=
  (mapGet? d.img.nml c).isSome && (fld d (nmcBase c + 8) 0 24 != 0 || fld d (nmcBase c + 12) 0 8 != 0)

/-- R418: the cluster of a CAN channel and of an Ethernet port. -/
def canCluster (d : Dev) (ch : Nat) : Option Nat :=
  (List.range 32).find? (fun c => nmTakesPart d c && flag d (nmcBase c + 8) ch)
def ethCluster (d : Dev) (p : Nat) : Option Nat :=
  (List.range 32).find? (fun c => nmTakesPart d c && decide (p < 8) && flag d (nmcBase c + 12) p)

/-- R424: the state of a cluster is SLEEPING or ASLEEP. -/
def nmSleeps (d : Dev) (c : Nat) : Bool :=
  let st := (mapGet {} d.nmc.clusters c).st
  st == 0 || st == 6

/-- R424, R433: a member channel sends nothing: its cluster is SLEEPING, ASLEEP or in LISTEN. -/
def nmSilent (d : Dev) (c : Nat) : Bool := nmSleeps d c || (mapGet {} d.nmc.clusters c).st == 1

/-- R424, R433: the channel's cluster is silent: it takes no copies and sends nothing. -/
def canAsleep (d : Dev) (ch : Nat) : Bool := match canCluster d ch with | some c => nmSilent d c | none => false

/-- R238, R424: the port's egress admission drops: from its sleep request on, or from its cluster's commit point until it
wakes with TC10EN 0. -/
def ethAsleep (d : Dev) (p : Nat) : Bool :=
  (ethOf d p).sleepReq ||
    (!flag d (ethBase p + 0x20) 0 &&
      (match ethCluster d p with | some c => (mapGet {} d.nmc.clusters c).closed | none => false))

/-- R36: the queue's grove is gated. -/
def qGated (d : Dev) (q : Nat) : Bool := decide (q < 256) && (!groveOn d (q / 64) || bit d.clk.gating (q / 64))

/-- R265, R441: the queue's port, channel or endpoint takes no copies. -/
def qDown (d : Dev) (q : Nat) : Bool :=
  match qChannel q with
  | some ch => (canOf d ch).state == 0 || (canOf d ch).state == 4 || (canOf d ch).state == 5 || canAsleep d ch
  | none => match qEthPort q with
    | some p => (ethOf d p).st != 3 || ethAsleep d p
    | none => qIsHost q && !(epOf d (if q < 320 then 0 else 1)).up

/-- R251: whatever the buffer holds, the destination cannot take the copy. -/
def qClosed (d : Dev) (q : Nat) : Bool := qGated d q || qDown d q

/-- R253, R265: a copy is dropped at admission because its destination is closed. -/
def dropClosed (d : Dev) (q : Nat) : Dev :=
  hostLoss (if qGated d q then bumpQ d 0x500070 q else if qIsHost q then bumpQ d 0x500068 q else portFlushCount d q) q

/-- R253: a copy that R249 fails is dropped and counted. A later copy of a multicast frame meets the depth condition
alone. -/
def dropFull (d : Dev) (q n : Nat) (de : Bool) : Dev :=
  hostLoss (if !depthOk d q n then bumpQ d 0x500058 q else if de then bumpQ d 0x500050 q else bumpQ d 0x500048 q) q

/-- R250: whether a copy passes, given whether the frame has an owner already. -/
def copyPasses (d : Dev) (q n : Nat) (de owned : Bool) : Bool :=
  depthOk d q n && (owned || poolOk d q n de)

/-- R255: one advance of the LFSR. -/
def lfsrNext (v : Nat) : Nat :=
  v / 2 + (if (bit v 0 ^^ bit v 2 ^^ bit v 3 ^^ bit v 5) then 0x8000 else 0)

/-- R255: the ECN decision of a frame of depth `dq` against the queue's band. -/
def ecnMarked (v dq lo hi : Nat) : Bool :=
  if dq < lo then false else if dq < hi then decide (v * (hi - lo) < (dq - lo) * 65536) else true

end Sys2Proof.Machine
end

