-- ==== Sys2Proof/Machine/RteOps.lean ====
section
/-! DEFINITION. Shared operations of the Route Engine (chapter 10): parsing (R276), keys (R274, R278, R284), finding an
entry (R279, R280), destinations (R282), policers (R286), streams (R233, R234) and the lookup decision (R281). -/

namespace Sys2Proof.Machine

/-! ## Ethernet headers -/

/-- Byte `i`, zero beyond the end. -/
def byteAt (d : Bytes) (i : Nat) : Nat := match d[i]? with | some b => b.toNat | none => 0
/-- Two bytes in wire order. -/
def be16At (d : Bytes) (i : Nat) : Nat := 256 * byteAt d i + byteAt d (i + 1)

/-- R212: a TPID of a tag. -/
def isTpid (v : Nat) : Bool := v == 0x8100 || v == 0x88A8

/-- R212: the leading tags (at most two), as TCIs, and the offset after them. -/
def leadTags (d : Bytes) : List Nat × Nat :=
  if isTpid (be16At d 12) then
    if isTpid (be16At d 16) then ([be16At d 14, be16At d 18], 20) else ([be16At d 14], 16)
  else ([], 12)

/-- R213, R234: the sequence number of an R-tag at an offset. -/
def rtagAt (d : Bytes) (off : Nat) : Option Nat := if be16At d off = 0xF1C1 then some (be16At d (off + 4)) else none

/-- The parts of an Ethernet header that every user needs. -/
structure EthHdr where
  tags : List Nat
  rtag : Option Nat
  /-- Offset of the EtherType after the tags and the R-tag. -/
  off  : Nat
  et   : Nat
  deriving DecidableEq, Repr

/-- R276: tags, R-tag and EtherType. -/
def ethHdr (d : Bytes) : EthHdr :=
  let t := leadTags d
  let r := rtagAt d t.2
  let off := if r.isSome then t.2 + 6 else t.2
  { tags := t.1, rtag := r, off := off, et := be16At d off }

/-- R216: a destination address 01-80-C2-00-00-0x. -/
def isReserved (d : Bytes) : Bool := beNat (d.take 5) == 0x0180C20000 && decide (byteAt d 5 ≤ 0x0F)

/-- R276: an IPv6 extension header that the parser passes. -/
def isExt6 (n : Nat) : Bool := n == 0 || n == 43 || n == 60 || n == 44

/-- R276: pass at most `n` extension headers, of which each field counts that lies within the limit. Answers the last next header
read (DESIGN CHOICE, log entry 149), the offset it starts at (`none` behind one header more, where a field that leads there is
past the limit, and in a non-first fragment) and whether a Fragment header was seen. -/
def ext6 (d : Bytes) (lim : Nat) : Nat → Nat → Nat → Bool → Nat × Option Nat × Bool
  | 0, nh, off, fr => (nh, if isExt6 nh then none else some off, fr)
  | n + 1, nh, off, fr =>
    if !isExt6 nh then (nh, some off, fr)
    else if lim ≤ off then (nh, none, fr)
    else if nh = 44 then
      if lim < off + 4 || be16At d (off + 2) / 8 ≠ 0 then (byteAt d off, none, true)
      else ext6 d lim n (byteAt d off) (off + 8) true
    else if lim < off + 2 then (byteAt d off, none, fr)
    else ext6 d lim n (byteAt d off) (off + 8 * (byteAt d (off + 1) + 1)) fr

/-- A field of `n` bytes, zero where any of it lies beyond the limit. -/
def keyed (d : Bytes) (lim off n : Nat) : Bytes := if off + n ≤ lim then fit n (slice d off n) else zeros n

/-- R276, R284: bytes 18 to 32 of the ternary key and flags [3:0] of byte 34. -/
def l3Key (d : Bytes) (h : EthHdr) : Bytes × Nat :=
  let lim := min 128 d.length
  let o := h.off + 2
  if h.et = 0x0800 then
    let fr := beNat (keyed d lim (o + 6) 2)
    let proto := keyed d lim (o + 9) 1
    let l4 := if fr % 0x2000 = 0 && decide (o < lim) then some (o + (byteAt d o % 16) * 4) else none
    l4Key d lim (proto ++ keyed d lim (o + 1) 1 ++ keyed d lim (o + 12) 4 ++ keyed d lim (o + 16) 4)
      (1 + (if fr % 0x4000 = 0 then 0 else 4)) (beNat proto) l4
  else if h.et = 0x86DD then
    let w := beNat (keyed d lim o 2)
    let x := ext6 d lim 3 (beNat (keyed d lim (o + 6) 1)) (o + 40) false
    l4Key d lim (beBytes 1 x.1 ++ beBytes 1 (w / 16) ++ keyed d lim (o + 20) 4 ++ keyed d lim (o + 36) 4)
      (2 + (if x.2.2 then 4 else 0)) x.1 x.2.1
  else (zeros 15, 0)
where
  /-- The ports of TCP and UDP, the TCP flags, and the L4-parsed flag. -/
  l4Key (d : Bytes) (lim : Nat) (pre : Bytes) (flags proto : Nat) (l4 : Option Nat) : Bytes × Nat :=
    match l4 with
    | some p =>
      let ports := keyed d lim p 2 ++ keyed d lim (p + 2) 2
      if proto = 17 then (pre ++ ports ++ zeros 1, flags + 8 * (decide (p + 4 ≤ lim)).toNat)
      else if proto = 6 then (pre ++ ports ++ keyed d lim (p + 13) 1, flags + 8 * (decide (p + 14 ≤ lim)).toNat)
      else (pre ++ zeros 5, flags)
    | none => (pre ++ zeros 5, flags)

/-- R276: L3 and L4 are parsed: always for HA, HB and SVC, in a grove only with a type 4 engine. -/
def parsesL3 (d : Dev) (input : Nat) : Bool := decide (4 ≤ input) || decide (0 < parseEngines d input 4)

/-- R214: PVID of an ingress code: of the port for ETH n, 0 otherwise. -/
def pvidOf (d : Dev) (ingress : Nat) : Nat :=
  if 0x40 ≤ ingress && ingress < 0x48 then fld d (ethBase (ingress - 0x40) + 0xC) 0 12 else 0

/-- R284: the 40-byte ternary key. -/
def ternKey (d : Dev) (p : Pkt) : Bytes :=
  let h := ethHdr p.data
  let tci := match h.tags with
    | [] => pvidOf d p.ingress
    | t :: _ => if t % 4096 = 0 then pvidOf d p.ingress else t
  let tci2 := match h.tags with | [_, t] => t | _ => 0
  let l3 := if parsesL3 d p.input then l3Key p.data h else (zeros 15, 0)
  let fl := l3.2 + (if h.tags.isEmpty then 0 else 16) + (if h.tags.length = 2 then 32 else 0) +
    (if h.rtag.isSome then 64 else 0)
  fit 12 p.data ++ beBytes 2 tci ++ beBytes 2 tci2 ++ beBytes 2 h.et ++ l3.1 ++ beBytes 1 p.ingress ++
    beBytes 1 fl ++ zeros 5

/-- R255: the frame's IP header was parsed and its ECN field is ECT(0) or ECT(1). -/
def isEct (key : Bytes) : Bool :=
  byteAt key 34 % 4 != 0 && (byteAt key 19 % 4 == 1 || byteAt key 19 % 4 == 2)

/-! ## Finding the entry -/

/-- R139: the records of a section with the graft in force laid over them. -/
def overlay (d : Dev) (ty : Nat) (m : NMap Nat) : NMap Nat :=
  (d.com.live.filter (fun g => g.type == ty)).foldl (fun m g => mapPut m g.index g.val) m

/-- R298: the key parts in force: a delta ROUTE record removes the old key of its entry. -/
def keyParts (d : Dev) : List Nat :=
  let live := (d.com.live.filter (fun g => g.type == 6)).map Graft.val
  d.img.routeKeys.filter (fun r => !live.any (fun g => rkIndex g == rkIndex r)) ++ live

/-- R278: the format bits of a key against a CAN format. -/
def fmtHits (fmtBits : Nat) : CanFmt → Bool
  | .classical => bit fmtBits 0
  | .fd => bit fmtBits 1
  | .fdBrs => bit fmtBits 1 || bit fmtBits 2
  | .xl => false

/-- R274, R278: a key part matches a PDU under one ingress probe. -/
def keyHits (r : Nat) (p : Pkt) (grove : Bool) : Bool :=
  let ing := if grove then rkIngress r == 0xFF && rkGrove r == p.input else rkIngress r == p.ingress
  let c := p.can
  ing && rkId r == c.id &&
    (if p.acf then rkKind r == 3 && fmtHits (rkFmt r) c.fmt && rkStream r == c.af
     else match c.fmt with
      | .xl => rkKind r == 2 && rkVcid r == c.vcid && rkSdt r == c.sdt && rkAf r == c.af
      | _ => rkKind r == (if c.xtd then 1 else 0) && fmtHits (rkFmt r) c.fmt)

/-- R278: the key store: the frame's own INGRESS code first, then INGRESS 0xFF of its grove. -/
def keyStore (d : Dev) (p : Pkt) : Option Nat :=
  match (keyParts d).find? (fun r => keyHits r p false) with
  | some r => some (rkIndex r)
  | none => ((keyParts d).find? (fun r => keyHits r p true)).map rkIndex

/-- R285: fields of an FDB record. -/
def fdbHits (r : Nat) (mac vid : Nat) (port : Option Nat) : Bool :=
  bit r 105 && bits r 0 48 == mac && bits r 48 12 == vid &&
    (match port with | some n => bits r 81 8 == 0 || bit r (81 + n) | none => bit r 89)

/-- What the search for an entry gives: an entry number, whether a ternary rule with action 0 or 2 matched (R283), and
whether a rule with action 1 dropped the frame. -/
structure Found where
  ix   : Option Nat
  tern : Bool
  drop : Bool
  deriving DecidableEq, Repr

/-- R279: the first ternary rule in ascending index that matches. -/
def ternFirst (d : Dev) (key : Bytes) : Option (Nat × Nat) :=
  (overlay d 8 d.img.tern).find? (fun r => ((leNat key) ^^^ (tnKey r.2)) &&& (tnMask r.2) == 0)

/-- R284: the bits of the ternary key that L3 and L4 fields fill: bytes 18 to 32, and flags [3:0] of byte 34. -/
def l3Bits : Nat := (2 ^ 120 - 1) * 2 ^ 144 + 15 * 2 ^ 272

/-- R223: the route of a frame is keyed on L3 or L4 fields: they decide at the first ternary rule that its other fields match. -/
def keyedL3 (d : Dev) (p : Pkt) : Bool :=
  let key := leNat (ternKey d p)
  match (overlay d 8 d.img.tern).find? (fun r => (key ^^^ tnKey r.2) &&& (tnMask r.2 - (tnMask r.2 &&& l3Bits)) == 0) with
  | some r => parsesL3 d p.input && tnMask r.2 &&& l3Bits != 0
  | none => false

/-- R279, R280: the Ethernet path: ternary rules, then the forwarding database. A matching rule of action 1 or 2 counts its
hit. -/
def ethFind (d : Dev) (p : Pkt) : Dev × Found :=
  let key := ternKey d p
  let port := if 0x40 ≤ p.ingress && p.ingress < 0x48 then some (p.ingress - 0x40) else none
  let fdb := ((overlay d 13 d.img.fdb).find? (fun r =>
    fdbHits r.2 (leNat (fit 6 p.data)) (beNat (slice key 12 2) % 4096) port)).map (fun r => bits r.2 64 17)
  match ternFirst d key with
  | none => (d, ⟨fdb, false, false⟩)
  | some r =>
    let hit := { d with rte := { d.rte with ternHit := mapMod 0 d.rte.ternHit r.1 (fun n => min (n + 1) tallyMax) } }
    if tnAction r.2 = 0 then (d, ⟨some (tnRoute r.2), true, false⟩)
    else if tnAction r.2 = 1 then (hit, ⟨none, false, true⟩)
    else (hit, ⟨fdb, true, false⟩)

/-! ## Losses and counters -/

/-- R301: the counter source of a Landing port: groves 0 to 3, HA 4, HB 5, SVC 6, MIL 7. -/
def srcOf (input : Nat) : Nat := if input ≤ 6 then input else 7

/-- An RTE Tally counter by its index (offset − 0x58_0300) / 8. -/
def bumpR (d : Dev) (ix input : Nat) : Dev := bump d (0x580300 + 8 * ix) (srcOf input)

/-- R300: a copy bound for HA or HB is lost in steps 2 to 5: RTE_HOST_LOSS at once, then at most once per 100 µs per
queue, with the last reason. -/
def rteLoss (d : Dev) (q why : Nat) : Dev :=
  if !qIsHost q then d
  else
    let n := mapGet 0 d.rte.lossCnt q + 1
    let late := match mapGet? d.rte.lossAt q with | none => true | some t => decide (t + 100000 ≤ runNs d)
    if late then
      raise { d with rte := { d.rte with lossCnt := mapDel d.rte.lossCnt q, lossAt := mapPut d.rte.lossAt q (runNs d) } }
        0x0A01 0 (e2 q ++ e1 why ++ eCount n)
    else { d with rte := { d.rte with lossCnt := mapPut d.rte.lossCnt q n, lossWhy := mapPut d.rte.lossWhy q why } }

/-- R300: the losses that have waited out their 100 µs are reported. -/
def rteLossDue (d : Dev) : Dev :=
  d.rte.lossCnt.foldl (fun d e =>
    if mapGet 0 d.rte.lossAt e.1 + 100000 ≤ runNs d then
      raise { d with rte := { d.rte with lossCnt := mapDel d.rte.lossCnt e.1,
                                         lossAt := mapPut d.rte.lossAt e.1 (runNs d) } } 0x0A01 0
        (e2 e.1 ++ e1 (mapGet 0 d.rte.lossWhy e.1) ++ eCount e.2)
    else d) d

/-- A dropped copy of steps 2 to 4: counted, and reported when it was bound for a host. -/
def dropR (d : Dev) (ix input q : Nat) : Dev := rteLoss (bumpR d ix input) q ix

/-! ## Policers (R286, R287) -/

/-- The state of a policer before its first decision: full tokens. -/
def polFresh (rec' : Nat) (now : Nat) : Pol :=
  { tokens := plBurst rec' * 65536, last := now, conf := none, nConf := 0, nExc := 0 }

/-- R286: tokens in 2^-16 units that `dt` TIME cycles add. -/
def polFill (rec' dt : Nat) : Nat :=
  (if plMode rec' = 0 then plRate rec' * 125 else plRate rec') * 65536 * 2 * dt / 1000000000

/-- R286, R299: the tokens of a policer at a time, as a lookup then sees them. -/
def polTokens (rec' : Nat) (s : Pol) (now : Nat) : Nat :=
  min (s.tokens + polFill rec' (now - s.last)) (plBurst rec' * 65536)

/-- R286: one decision: whether the frame of stored size `size` conforms, and the state after it. -/
def polDecide (rec' : Nat) (s : Pol) (now size : Nat) : Bool × Pol :=
  if plMode rec' = 2 then
    let ok := match s.conf with | none => true | some t => decide (t + usCycles (plRate rec') ≤ now)
    if ok then (true, { s with conf := some now, last := now, nConf := min (s.nConf + 1) tallyMax })
    else (false, { s with last := now, nExc := min (s.nExc + 1) tallyMax })
  else
    let tok := polTokens rec' s now
    let cost := (if plMode rec' = 0 then size else 1) * 65536
    if cost ≤ tok then
      (true, { s with tokens := tok - cost, last := now, conf := some now, nConf := min (s.nConf + 1) tallyMax })
    else (false, { s with tokens := tok, last := now, nExc := min (s.nExc + 1) tallyMax })

/-- R288: a policer's state is reset; its counts stay. -/
def polReset (d : Dev) (ix rec' : Nat) : Dev :=
  match mapGet? d.rte.pols ix with
  | none => d
  | some s =>
    let fresh := { polFresh rec' d.clk.tclk with nConf := s.nConf, nExc := s.nExc }
    { d with rte := { d.rte with pols := mapPut d.rte.pols ix fresh } }

/-- A policer decides a frame. An undefined policer lets it pass. -/
def police (d : Dev) (ix size : Nat) : Dev × Bool :=
  match polRec d ix with
  | none => (d, true)
  | some r =>
    let s := (mapGet? d.rte.pols ix).getD (polFresh r d.clk.tclk)
    let o := polDecide r s d.clk.tclk size
    ({ d with rte := { d.rte with pols := mapPut d.rte.pols ix o.2 } }, o.1)

/-! ## Streams (R232 to R234) -/

/-- The stream table's number of a record: Qci streams by INDEX, CB streams by 4,096 + INDEX. -/
def stKey (r : Nat) : Nat := if bits r 12 2 = 0 then bits r 0 12 else 4096 + bits r 0 12
def stKind (r : Nat) : Nat := bits r 12 2
def stRoute (r : Nat) : Nat := bits r 32 17
def stParam (r : Nat) : Nat := bits r 64 64

/-- R232: the stream record of a kind that a route entry identifies. -/
def streamOf (d : Dev) (route kind : Nat) : Option Nat :=
  ((overlay d 14 d.img.stream).find? (fun r => stKind r.2 == kind && stRoute r.2 == route)).map (fun r => r.2)

def strmOf (d : Dev) (k : Nat) : Strm := mapGet {} d.rte.streams k
def modStrm (d : Dev) (k : Nat) (f : Strm → Strm) : Dev :=
  { d with rte := { d.rte with streams := mapMod {} d.rte.streams k f } }

/-- R233: bytes of the SDU: the payload after the tags and the EtherType (DEDUCED, log entry 22). -/
def sduLen (p : Pkt) : Nat := if p.kind = 0 then p.data.length - ((ethHdr p.data).off + 2) else p.data.length

/-- R233: a frame of a stream exceeds MAXSDU: counted, and the stream blocked and reported with BLOCKOVS. -/
def sduDrop (d : Dev) (r port : Nat) : Dev :=
  let b := bit (stParam r) 17
  let d := modStrm d (stKey r) (fun s => { s with dSdu := min (s.dSdu + 1) tallyMax, blocked := b })
  if b then raise d 0x0807 0 (e1 port ++ e2 (bits r 0 12)) else d

/-- R233: Qci. Answers whether the frame passes, and whether its meter marks it drop-eligible. -/
def qci (d : Dev) (route : Nat) (p : Pkt) : Dev × Bool × Bool :=
  match streamOf d route 0 with
  | none => (d, true, false)
  | some r =>
    let k := stKey r
    let m := stParam r
    let s := strmOf d k
    if s.blocked then (modStrm d k (fun s => { s with dSdu := min (s.dSdu + 1) tallyMax }), false, false)
    else if bits m 0 16 ≠ 0 && bits m 0 16 < sduLen p then (sduDrop d r ((p.ingress - 0x40) % 256), false, false)
    else if !bit m 16 then (modStrm d k (fun s => { s with dGate := min (s.dGate + 1) tallyMax }), false, false)
    else if bit m 18 then
      let o := police d (bits m 19 16) p.size
      let ex := match polRec d (bits m 19 16) with | some r => plExceed r | none => 2
      if o.2 then (o.1, true, false)
      else if ex = 0 then (modStrm o.1 k (fun s => { s with dMeter := min (s.dMeter + 1) tallyMax }), false, false)
      else (o.1, true, ex == 1)
    else (d, true, false)

/-- R234: the vector recovery algorithm on one sequence number: whether it passes, and the state after it. History bit
i stands for the number `recHigh` − i. -/
def vectorRecover (s : Strm) (hist seq now : Nat) : Bool × Strm :=
  if !s.recInit then (true, { s with recInit := true, recHigh := seq, recHist := 1, recLast := now })
  else
    let fwd := (seq + 65536 - s.recHigh) % 65536
    if fwd < 32768 then
      if fwd = 0 then (false, { s with nDup := min (s.nDup + 1) tallyMax })
      else if hist ≤ fwd then (false, { s with nDup := min (s.nDup + 1) tallyMax })
      else (true, { s with recHigh := seq, recHist := (s.recHist * 2 ^ fwd + 1) % 2 ^ hist, recLast := now })
    else
      let back := 65536 - fwd
      if hist ≤ back || bit s.recHist back then (false, { s with nDup := min (s.nDup + 1) tallyMax })
      else (true, { s with recHist := s.recHist + 2 ^ back, recLast := now })

/-- R234: CB recovery. Answers whether the frame passes and whether its R-tag is stripped at egress. -/
def cbRecover (d : Dev) (route : Nat) (p : Pkt) : Dev × Bool × Bool :=
  match streamOf d route 2 with
  | none => (d, true, false)
  | some r =>
    let m := stParam r
    match (ethHdr p.data).rtag with
    | none =>
      if bit m 22 then (modStrm d (stKey r) (fun s => { s with recLast := d.clk.tclk }), true, false)
      else (modStrm d (stKey r) (fun s => { s with nDup := min (s.nDup + 1) tallyMax }), false, false)
    | some seq =>
      let o := vectorRecover (strmOf d (stKey r)) (bits m 0 6) seq d.clk.tclk
      (modStrm d (stKey r) (fun _ => o.2), o.1, bit m 23)

/-- R234: sequence generation: the number that a forwarded frame carries. -/
def cbGenerate (d : Dev) (route : Nat) : Dev × Option Nat :=
  match streamOf d route 1 with
  | none => (d, none)
  | some r =>
    let n := (strmOf d (stKey r)).genSeq
    (modStrm d (stKey r) (fun s => { s with genSeq := (n + 1) % 65536 }), some n)

/-! ## Destinations (R172, R174, R282) -/

def canCtl (d : Dev) (ch : Nat) : Nat := reg d (canBase ch)
def fdEn (d : Dev) (ch : Nat) : Bool := bit (canCtl d ch) 3
/-- XLEN of CAN_CTL: XLEN of the GROVE record (R208). -/
def xlEn (d : Dev) (ch : Nat) : Bool := bit (gvXlEn (groveRec d (ch / 6))) (ch % 6)

/-- R172: ETHFMT of a channel. -/
def ethFmt (d : Dev) (ch : Nat) : CanFmt :=
  match bits (canCtl d ch) 12 2 with | 0 => .fdBrs | 1 => .fd | 2 => .xl | _ => .classical

/-- R316: what is held is an Ethernet frame: from a port or a host, or a Mill PDU of FORM 4. -/
def ethForm (p : Pkt) : Bool := p.kind == 0 || p.form4

/-- R170: a channel with PWMEN carries Classical CAN and CAN XL only. -/
def pwmEn (d : Dev) (ch : Nat) : Bool := bit (reg d (canBase ch + 0x18)) 19
def fdSends (d : Dev) (ch : Nat) : Bool := fdEn d ch && !pwmEn d ch

/-- R170, R172, R282: the format that a channel sends a PDU in. -/
def sendFmt (d : Dev) (ch : Nat) (p : Pkt) : CanFmt :=
  match (if ethForm p then ethFmt d ch else p.can.fmt) with
  | .xl => if xlEn d ch then .xl else if fdSends d ch then .fdBrs else .classical
  | .fd => if fdSends d ch then .fd else .classical
  | .fdBrs => if fdSends d ch then .fdBrs else .classical
  | .classical => .classical

/-- R174: the longest PDU of a format. -/
def fmtMax : CanFmt → Nat
  | .classical => 8 | .fd => 64 | .fdBrs => 64 | .xl => 2048

/-- R349, R350: fields of an AUTHPROF record and the overhead O of its profile. -/
def apDir (r : Nat) : Nat := bits r 12 2
def apSeq (r : Nat) : Nat := bits r 16 4
def apHdr (r : Nat) : Nat := bits r 20 2
def apDataId (r : Nat) : Nat := bits r 32 16
def apFvLen (r : Nat) : Nat := bits r 48 8
def apMacLen (r : Nat) : Nat := bits r 56 8
def apPair (r : Nat) : Nat := bits r 64 12
def apPlen (r : Nat) : Nat := bits r 80 12
def apWindow (r : Nat) : Nat := bits r 96 32
def apKey (r : Nat) : Nat := bits r 128 32
def apOver (r : Nat) : Nat := apHdr r + (apFvLen r + apMacLen r + 7) / 8

/-- R350: the payload of a secured PDU under a profile; none where its length does not fit the PDU. -/
def secPayload (r : Nat) (data : Bytes) : Option Bytes :=
  let n := if apHdr r = 1 then byteAt data 0 else if apHdr r = 2 then be16At data 0
    else if apPlen r ≠ 0 then apPlen r else data.length - apOver r
  if n + apOver r ≤ data.length then some (slice data (apHdr r) n) else none

/-- The AUTHPROF record in force. -/
def authRec (d : Dev) (ix : Nat) : Nat := (tableRec d 0x11 d.img.auth ix).getD 0

/-- R289: the length that R174 checks. -/
def authLen (d : Dev) (entry len : Nat) : Nat :=
  let a := authRec d (rtAuthProf entry)
  match rtAuth entry with
  | 1 => len - apOver a
  | 3 => len + apOver a
  | 4 => len - apOver a + apOver (authRec d (apPair a))
  | _ => len

/-- R216, R282, R293: tunnel enable of an Ethernet port. -/
def tunEn (d : Dev) (p : Nat) : Bool := flag d (0x580104 + 0x20 * p) 16

/-- R120, R270, R283: the destinations that an entry names, before step 2. -/
def entryDests (d : Dev) (ix entry : Nat) : List Dest :=
  let mk := fun q tc va vid pcp => ({ q := q, tc := tc, route := ix, fmt := .classical, vlan := va, vid := vid,
                                      pcp := pcp, reason := 0 } : Dest)
  if rtVerdict entry = 3 then [mk (qSvc (rtTc entry)) (rtTc entry) 0 0 0]
  else if rtMcast entry then
    (mapGet [] d.img.mcast (rtGroup entry)).map (fun m =>
      if mcOvr m then mk (qOf (mcLport m) (mcTarget m) (mcTc m)) (mcTc m) (mcVlanAct m) (mcVid m) (mcPcp m)
      else mk (qOf (mcLport m) (mcTarget m) (mcTc m)) (mcTc m) (rtVlanAct entry) (rtVid entry) (rtPcp entry))
  else [mk (qOf (rtLport entry) (rtTarget entry) (rtTc entry)) (rtTc entry) (rtVlanAct entry) (rtVid entry)
          (rtPcp entry)]

/-- Step 2 of R281 on one copy: sent on, too long for its channel (R174), not made in M6 and M7 (R127), or dropped
under an RTE counter (R282). -/
inductive Step2 where
  | pass (x : Dest)
  | long (ch : Nat)
  | drop (ix : Nat)
  deriving DecidableEq, Repr

/-- R211, R216, R282: an Ethernet frame received on a port. -/
def fromPort (p : Pkt) : Bool := p.kind == 0 && (decide (p.input < 4) || p.ethm)

/-- R127, R172, R174, R282: the check of one copy. -/
def step2 (d : Dev) (entry : Nat) (p : Pkt) (x : Dest) : Step2 :=
  if holdMode d && decide (416 ≤ x.q) then .drop 2
  else match qChannel x.q with
    | some ch =>
      if fromPort p then .drop 13
      else if fmtMax (sendFmt d ch p) < authLen d entry p.data.length then .long ch
      else .pass { x with fmt := sendFmt d ch p }
    | none =>
      if p.can.rtr && p.acf then .drop 10
      else if p.can.rtr then .drop 15
      else match qEthPort x.q with
        | some n =>
          if fromPort p && isReserved p.data then .drop 1
          else if !ethForm p && (!tunEn d n || p.can.fmt == .xl) then .drop 14
          else .pass { x with fmt := p.can.fmt }
        | none => .pass { x with fmt := p.can.fmt }

/-- The result of step 2 over a list of copies: those that pass, the channels that refused the length, and the drops as
(counter, queue). -/
def step2All (d : Dev) (entry : Nat) (p : Pkt) (xs : List Dest) : List Dest × List Nat × List (Nat × Nat) :=
  xs.foldr (fun x a => match step2 d entry p x with
    | .pass y => (y :: a.1, a.2.1, a.2.2)
    | .long ch => (a.1, ch :: a.2.1, a.2.2)
    | .drop ix => (a.1, a.2.1, (ix, x.q) :: a.2.2)) ([], [], [])

/-- R174: CAN_LENMIS of each channel. -/
def countLong (d : Dev) (chs : List Nat) : Dev := chs.foldl (fun d ch => bump d (canBase ch + 0x130) 0) d

/-- The drops of step 2 are counted and reported. -/
def countDrops (d : Dev) (input : Nat) (xs : List (Nat × Nat)) : Dev := xs.foldl (fun d x => dropR d x.1 input x.2) d

/-- R174: an entry names an XL-enabled channel. -/
def namesXl (d : Dev) (ix entry : Nat) : Bool :=
  (entryDests d ix entry).any (fun x => match qChannel x.q with | some ch => xlEn d ch | none => false)

/-! ## PNC gates (R430) -/

/-- R430: the PNCs whose range holds an entry. -/
def pncRanges (d : Dev) (ix : Nat) : List Nat :=
  (List.range 64).filter (fun p => let r := reg d (0x7E0404 + 0x10 * p)
    bit r 31 && decide (r % 2 ^ 17 ≤ ix) && decide (ix ≤ fld d (0x7E0408 + 0x10 * p) 0 17))

/-- R430: the entry is open. -/
def pncOpen (d : Dev) (ix : Nat) : Bool := (pncRanges d ix).isEmpty || (pncRanges d ix).any (fun p => bit d.nmc.gate p)

/-- R430: a lookup of a closed entry: counted, and reported when a copy was bound for HA or HB. -/
def pncDrop (d : Dev) (ix entry : Nat) : Dev :=
  let d := bump d 0x7E00C0 0
  if (entryDests d ix entry).any (fun x => qIsHost x.q) then
    match (pncRanges d ix).head? with
    | none => d
    | some p =>
      let n := mapGet 0 d.nmc.pncLost p + 1
      let late := match mapGet? d.nmc.pncAt p with | none => true | some t => decide (t + 100000 ≤ runNs d)
      if late then
        raise { d with nmc := { d.nmc with pncLost := mapDel d.nmc.pncLost p, pncAt := mapPut d.nmc.pncAt p (runNs d) } }
          0x0F08 0 (e1 p ++ eCount n)
      else { d with nmc := { d.nmc with pncLost := mapPut d.nmc.pncLost p n } }
  else d

/-- R430: PNC losses that have waited out their 100 µs are reported. -/
def pncLossDue (d : Dev) : Dev :=
  d.nmc.pncLost.foldl (fun d e =>
    if mapGet 0 d.nmc.pncAt e.1 + 100000 ≤ runNs d then
      raise { d with nmc := { d.nmc with pncLost := mapDel d.nmc.pncLost e.1, pncAt := mapPut d.nmc.pncAt e.1 (runNs d) } }
        0x0F08 0 (e1 e.1 ++ eCount e.2)
    else d) d

end Sys2Proof.Machine
end

