-- ==== Sys2Proof/Machine/KvtOps.lean ====
section
/-! DEFINITION. Shared operations of the Rolton Key Vault (chapter 13): slots and handles (R368 to R370), derivation
(R371), invalidation and purge (R372, R373), records of the persistent store (R375) and the erasure at an alarm (R338,
R380). -/

namespace Sys2Proof.Machine

/-! ## Slots -/

def slotOf (d : Dev) (s : Nat) : KSlot := mapGet {} d.kvt.slots s

/-- Change a slot. -/
def modSlot (d : Dev) (s : Nat) (f : KSlot → KSlot) : Dev :=
  { d with kvt := { d.kvt with slots := mapMod {} d.kvt.slots s f } }

/-- R369: fields of a handle. -/
def hSlot (h : Nat) : Nat := bits h 0 12
def hGen (h : Nat) : Nat := bits h 12 16

/-- R369: the current handle of a slot; 0 when it is empty. -/
def handleOf (d : Dev) (s : Nat) : Nat := let k := slotOf d s; if k.full then s + k.gen * 4096 else 0

/-- R370: a handle names a filled slot of its generation. -/
def handleLive (d : Dev) (h : Nat) : Bool :=
  let k := slotOf d (hSlot h)
  bits h 28 4 == 0 && k.full && !k.retired && k.gen == hGen h

/-- R370: the recorded PARENT handles up the chain match their slots; `n` bounds the chain. -/
def chainLive (d : Dev) : Nat → Nat → Bool
  | 0, _ => true
  | n + 1, s => let k := slotOf d s; k.parent == 0 || (handleLive d k.parent && chainLive d n (hSlot k.parent))

/-- R343, R370: the status of a job's key check: 0, or KEYSTALE 3, ORPHANED 4, KEYUSE 2. `use` lists usage masks of which
one bit must be held; `own` is the domain of the page. -/
def keyStatus (d : Dev) (h own use : Nat) : Nat :=
  if !handleLive d h then 3
  else if !chainLive d 4 (hSlot h) then 4
  else if (slotOf d (hSlot h)).domain ≠ own || (slotOf d (hSlot h)).usage &&& use = 0 then 2
  else 0

/-- A job check that fails is counted. -/
def countDeny (d : Dev) (st : Nat) : Dev := if st = 2 || st = 3 || st = 4 then bump d 0x7C0210 0 else d

/-- The AES key that a slot holds: 16, 24 or 32 bytes by its KTYPE (R368). -/
def keyBytes (k : KSlot) : Bytes := fit (if k.ktype = 0 then 16 else if k.ktype = 1 then 24 else 32) k.mat

/-- R369, R373: a slot is emptied and its GEN rises; past 0xFFFF it is retired. -/
def dropSlot (d : Dev) (s : Nat) : Dev :=
  let k := slotOf d s
  if k.gen < 0xFFFF then modSlot d s (fun k => { gen := k.gen + 1 })
  else raise (modSlot d s (fun _ => { gen := k.gen, retired := true })) 0x0D05 0 (e2 s)

/-- R373: an orphaned slot: filled, with a parent in its chain that no longer matches. -/
def orphaned (d : Dev) (s : Nat) : Bool := (slotOf d s).full && !chainLive d 4 s

/-- R373: at most `n` orphaned slots are purged. -/
def purge (d : Dev) (n : Nat) : Dev :=
  (((d.kvt.slots.map (fun e => e.1)).filter (orphaned d)).take n).foldl (fun d s => bump (dropSlot d s) 0x7C0200 0) d

/-! ## Derivation (R367, R371) -/

/-- R371: bytes of a key of a KTYPE. -/
def ktypeLen (t : Nat) : Nat := if t = 0 then 16 else if t = 1 then 24 else 32

/-- R371: the material of a child. -/
def childMat (parent lab : Bytes) (slot kt use dom : Nat) : Bytes :=
  kdf parent lab (beBytes 2 slot ++ leBytes 1 kt ++ leBytes 1 use ++ leBytes 1 dom) (ktypeLen kt)

/-- R371: a slot is filled with a child. -/
def fillSlot (d : Dev) (s : Nat) (mat : Bytes) (kt use dom parent level : Nat) (pers : Option (Nat × Nat)) : Dev :=
  modSlot d s (fun k => { full := true, mat := mat, ktype := kt, usage := use, domain := dom, parent := parent,
                          level := level, pers := pers, gen := k.gen, retired := false })

/-! ## The persistent store (R375) -/

/-- The wrap and MAC keys of a record under a root. -/
def wrapKey (root : Bytes) (id : Nat) : Bytes := kdf root (label "JG7440-SWRAP") (leBytes 1 id) 32
def macKey (root : Bytes) (id : Nat) : Bytes := kdf root (label "JG7440-SMAC") (leBytes 1 id) 32

/-- R375: the root that BIND names: KS1 or KS0. -/
def bindRoot (d : Dev) (bind : Nat) : Bytes := (slotOf d (if bind = 1 then 0 else 1)).mat

/-- A record for the store. -/
def keyRecord (root : Bytes) (id seq kt use dom bind : Nat) (mat : Bytes) : Bytes :=
  let body := leBytes 1 id ++ zeros 3 ++ leBytes 4 seq ++ leBytes 1 kt ++ leBytes 1 use ++ leBytes 1 dom ++ leBytes 1 bind ++
    zeros 4 ++ keyWrap (wrapKey root id) (fit 32 mat) ++ zeros 56
  body ++ cmac (macKey root id) body

/-- A record of the store that is complete: its MAC verifies and its ID matches its position. -/
structure KeyRec where
  seq  : Nat
  kt   : Nat
  use  : Nat
  dom  : Nat
  bind : Nat
  mat  : Bytes
  pos  : Nat
  deriving DecidableEq, Repr

/-- R375: the record of an ID in a position, if complete. -/
def keyRecAt (d : Dev) (id pos : Nat) : Option KeyRec :=
  let a := secAddr d (2 * id + pos)
  if !flUsed d a 128 then none
  else
    let b := flRead d a 128
    let root := bindRoot d (leAt b 11 1)
    if root.isEmpty || leAt b 0 1 ≠ id || cmac (macKey root id) (b.take 112) ≠ b.drop 112 then none
    else match keyUnwrap (wrapKey root id) (slice b 16 40) with
      | none => none
      | some m => some { seq := leAt b 4 4, kt := leAt b 8 1 % 4, use := leAt b 9 1 % 64, dom := leAt b 10 1 % 16,
                         bind := leAt b 11 1, mat := m, pos := pos }

/-- R376: the latest complete record. -/
def latestRec (d : Dev) (id : Nat) : Option KeyRec := newer KeyRec.seq (keyRecAt d id 0) (keyRecAt d id 1)

/-! ## Erasure (R338, R380) -/

/-- R338: a page is zeroed whole, context and buffers together. -/
def zeroPage (d : Dev) (p : Nat) : Dev :=
  { d with cry := { d.cry with pages := mapPut d.cry.pages p {} } }

/-- R338: at an alarm every page is zeroed; its ring indices stay, so that pending jobs complete ALARM (R360). -/
def alarmPage (p : Page) : Page :=
  { head := p.head, tail := p.tail, jstat := p.jstat, donePend := p.donePend }

/-- R385: KVT_BUF is zeroed at a command's completion. -/
def kvtBufClear (d : Dev) (who : Initiator) : Dev :=
  (List.range 64).foldl (fun d w => putK d (regKey (0x7C0800 + 4 * w) (initIx who)) 0) d

/-- KVT_CMDSTAT of an issuer becomes LOCKED (R380). -/
def kvtLocked (d : Dev) (who : Initiator) : Dev :=
  kvtBufClear { d with kvt := { d.kvt with status := mapPut d.kvt.status (initIx who) 10 } } who

/-- R380: the running REPLACE is abandoned, and it and the commands that wait complete LOCKED. -/
def kvtStop (d : Dev) : Dev :=
  let d := match d.kvt.swap with | some x => kvtLocked d x.who | none => d
  let d := d.kvt.wait.foldl (fun d c => bump (kvtLocked d c.who) 0x7C0208 0) d
  { d with kvt := { d.kvt with swap := none, wait := [] } }

/-- R379, R380: the vault erases every slot and every page within 1 µs, locks until reset and reports. `src` is the
source bit, 5 for a twin fault. -/
def vaultAlarm (d : Dev) (src : Nat) : Dev :=
  let d := kvtStop d
  let k := d.kvt
  let k := { k with root := none, slots := k.slots.map (fun e => (e.1, { gen := e.2.gen, retired := e.2.retired })),
                    locked := true, alarmRec := some (src, d.clk.rtc % 2 ^ 32) }
  let c := { d.cry with locked := true, pages := d.cry.pages.map (fun e => (e.1, alarmPage e.2)) }
  raise (bump { d with kvt := k, cry := c } 0x7C0218 0) 0x0D01 0 (e1 src)

end Sys2Proof.Machine
end

