-- ==== Sys2Proof/Machine/CryOps.lean ====
section
/-! DEFINITION. Shared operations of the pages of the Crypto Block (chapter 12): descriptors (R340), the checks of a job
(R341, R370), block boundaries (R344 to R346), held output (R347), completion (R343). -/

namespace Sys2Proof.Machine

def pageOf (d : Dev) (p : Nat) : Page := mapGet {} d.cry.pages p

/-- Change a page. -/
def modPage (d : Dev) (p : Nat) (f : Page → Page) : Dev :=
  { d with cry := { d.cry with pages := mapMod {} d.cry.pages p f } }

/-- R35: the CRYPTO island is powered. -/
def cryOn (d : Dev) : Bool := running d && bit d.clk.islands 7

/-- R336: the sequencer of a page: user pages 0 to 127, internal pages from 128. -/
def sqOf (d : Dev) (p : Nat) : Nat :=
  if p < 128 then fld d (0x780100 + 4 * p) 0 4 else fld d (0x780300 + 4 * (p - 128)) 0 4

/-- R386: the twin of a sequencer. -/
def sqTwin (s : Nat) : Nat := 15 + s

/-- R446: the domain of a page; an internal page has the device's own, 0. -/
def pageDom (d : Dev) (p : Nat) : Nat := if p < 128 then fld d (0x800400 + 4 * p) 4 4 else 0

/-- A page has a job in hand or waiting. -/
def pageReady (d : Dev) (p : Nat) : Bool := (pageOf d p).job.isSome || (pageOf d p).head != (pageOf d p).tail

/-- The pages of a sequencer that have a job ready, in ascending order. -/
def readyPages (d : Dev) (s : Nat) : List Nat :=
  (d.cry.pages.map (fun e => e.1)).filter (fun p => sqOf d p == s && pageReady d p)

/-! ## Buffers (R337, R339) -/

/-- Bytes of the input area of a page. -/
def inBytes (g : Page) (off n : Nat) : Bytes :=
  (List.range n).map (fun i =>
    BitVec.ofNat 8 (bits (mapGet (0 : Word) g.mem ((0x800 + off + i) / 4)).toNat (8 * ((off + i) % 4)) 8))

/-- A word of descriptor `k` of a page. -/
def descWord (g : Page) (k i : Nat) : Nat := (mapGet (0 : Word) g.mem ((0x400 + 0x20 * k) / 4 + i)).toNat

/-- Bytes written to the output area; those past its end are not. -/
def putOut (g : Page) (off : Nat) (bs : Bytes) (hold : Bool) : Page :=
  let out := (bs.zipIdx).foldl (fun m b => if off + b.2 < 1024 then mapStore 0 m (off + b.2) b.1 else m) g.out
  { g with out := out, held := if hold && !bs.isEmpty then g.held ++ [(off, bs.length)] else g.held }

/-- R347: a byte of the output area is held. -/
def isHeld (g : Page) (i : Nat) : Bool := g.held.any (fun h => decide (h.1 ≤ i) && decide (i < h.1 + h.2))

/-- R347: held output is zeroed, and the hold ends. -/
def zeroHeld (g : Page) : Page := { g with out := mapDrop g.out (isHeld g), held := [] }

/-! ## Operations (R341) -/

/-- OP names an operation. -/
def opKnown (op : Nat) : Bool := (decide (1 ≤ op) && decide (op ≤ 10)) || (decide (16 ≤ op) && decide (op ≤ 22))
/-- Operations that work block by block. -/
def opBlocks (op : Nat) : Bool := (decide (1 ≤ op) && decide (op ≤ 4)) || op == 6 || op == 9
/-- Operations with a tag. -/
def opTag (op : Nat) : Bool := op == 7 || op == 10 || decide (0x13 ≤ op)
/-- Operations without a key. -/
def opKeyless (op : Nat) : Bool := op == 3 || op == 6

/-- R341: the usage bits of which a job needs one: encrypt 1, decrypt 2, mac-generate 4, mac-verify 8. -/
def opUse (op : Nat) (hold verify : Bool) : Nat :=
  match op with
  | 1 => 1 | 2 => 2 | 4 => if hold then 2 else 1 | 5 => 3 | 7 => if verify then 3 else 1 | 8 => 12 | 9 => 12
  | 10 => if verify then 8 else 4 | 16 => 1 | 17 => 1 | 18 => 2 | 19 => 4 | 20 => 8 | 21 => 1 | 22 => 2 | _ => 0

/-- R341: a descriptor is BADDESC (DEDUCED, log entry 44; DEDUCED, log entry 45). -/
def badDesc (j : Job) : Bool :=
  !opKnown j.op || j.inoff % 16 != 0 || j.outoff % 16 != 0 || (opTag j.op && decide (j.tlen < 4)) ||
    (opBlocks j.op && (j.len == 0 || decide (1024 < j.inoff + j.len))) ||
    ((decide (1 ≤ j.op) && decide (j.op ≤ 3) || j.op == 9) && j.len % 16 != 0) ||
    (decide (1 ≤ j.op) && decide (j.op ≤ 4) && decide (1024 < j.outoff + j.len)) ||
    ((j.op == 7 || j.op == 10) &&
      (if j.verify then decide (1024 < j.inoff + (if j.op = 7 then 16 + j.tlen else j.len))
       else decide (1024 < j.outoff + j.tlen))) ||
    (j.op == 7 && (decide (j.len < 16) || decide (1024 < j.inoff + j.len))) ||
    (j.op == 10 && (decide (1024 < j.inoff + j.len) || (j.verify && decide (j.len < j.tlen)) ||
      decide (16 < j.len - (if j.verify then j.tlen else 0))))

/-- Steps of a job: its blocks, or one. -/
def jobSteps (j : Job) : Nat := if opBlocks j.op then ceilDiv j.len 16 else 1

/-- The descriptor at HEAD as a job, before its checks. -/
def jobAt (g : Page) : Job :=
  let w0 := descWord g g.head 0
  let w2 := descWord g g.head 2
  let iv := ((List.range 4).map (fun i => leBytes 4 (descWord g g.head (4 + i)))).flatten
  { d := g.head, op := bits w0 0 8, hold := bit w0 8 && bits w0 0 8 == 4, verify := bit w0 9, tlen := bits w0 10 4 + 1,
    key := descWord g g.head 1, inoff := bits w2 0 10, outoff := bits w2 16 10, len := bits (descWord g g.head 3) 0 11,
    iv := iv, ctr := iv, done := 0, mat := [], ends := none }

/-- R370: the key check of a job of a page. -/
def jobKey (d : Dev) (p : Nat) (j : Job) : Nat :=
  if opKeyless j.op then 0 else keyStatus d j.key (pageDom d p) (opUse j.op j.hold j.verify)

/-- R340, R341, R370: the job at HEAD starts: its checks are made, and it reads its key (R370). -/
def jobStart (d : Dev) (p : Nat) : Dev :=
  let j := jobAt (pageOf d p)
  let d := journalAdd d (sqTwin (sqOf d p)) 32
  if badDesc j then modPage d p (fun g => { g with job := some { j with ends := some 8 } })
  else
    let st := jobKey d p j
    let mat := keyBytes (slotOf d (hSlot j.key))
    modPage (countDeny d st) p (fun g =>
      { g with job := some { j with mat := mat, ends := if st = 0 then none else some st } })

/-- R344 to R346: a block boundary of the job in hand: an abort, Safe-Hold and the key check end it. -/
def boundary (d : Dev) (p : Nat) : Dev :=
  match (pageOf d p).job with
  | none => d
  | some j =>
    if j.ends.isSome || jobSteps j ≤ j.done then d
    else
      let fin := fun (d : Dev) (st : Nat) => modPage d p (fun g => { g with job := some { j with ends := some st } })
      if 0 < (pageOf d p).aborts then fin d 7
      else if d.cry.hold && p < 128 then fin d 6
      else
        let st := jobKey d p j
        if st = 0 then d else fin (countDeny d st) st

/-- A job that may start now: submitted, not aborted, not held back by an alarm or Safe-Hold. -/
def mayStart (d : Dev) (p : Nat) : Bool :=
  let g := pageOf d p
  g.job.isNone && g.head != g.tail && !d.cry.locked && g.aborts == 0 && !(d.cry.hold && decide (p < 128))

/-- R30, R344: the page that its sequencer serves: an idle sequencer takes the page that asks. A sequencer without a slot of the
crypto engines serves none. -/
def servesPage (d : Dev) (p : Nat) : Bool :=
  let s := sqOf d p
  slotHeld d 4 (0x30 + s) && match mapGet? d.cry.cur s with
  | some c => (c == p || !pageReady d c) && !(c == p && d.cry.served.contains s)
  | none => true

/-- R344: the pages of the sequencer other than this one that wait. -/
def othersReady (d : Dev) (p : Nat) : Bool := (readyPages d (sqOf d p)).any (fun q => q != p)

/-- R334, R344: a job of operation `op` at the front of a page runs `n` blocks through `f`, one where another page of the
sequencer waits. -/
def runJob (d : Dev) (p op n : Nat) (f : Page → Job → Page × Job) : Dev :=
  if !cryOn d || 160 ≤ p || frozen d (sqTwin (sqOf d p)) || !servesPage d p then d
  else
    let j0 := (pageOf d p).job.getD (jobAt (pageOf d p))
    if !pageReady d p || j0.op ≠ op then d
    else
      let s := sqOf d p
      let d := if mayStart d p then jobStart d p else d
      let d := boundary { d with cry := { d.cry with cur := mapPut d.cry.cur s p } } p
      match (pageOf d p).job with
      | none => d
      | some j =>
        if j.ends.isSome || jobSteps j ≤ j.done then d
        else
          let k := if othersReady d p then min n 1 else n
          let r := (List.range (min k (jobSteps j - j.done))).foldl (fun (x : Page × Job) _ =>
            let y := f x.1 x.2; (y.1, { y.2 with done := y.2.done + 1 })) (pageOf d p, j)
          let d := modPage d p (fun _ => { r.1 with job := some r.2 })
          if othersReady d p && 0 < k then { d with cry := { d.cry with served := d.cry.served ++ [s] } } else d

/-! ## Completion (R343) -/

/-- R343, R345: the status that a page's next completion has, where one is due: of the job in hand, or of a job that ends
without having started. -/
def dueStatus (d : Dev) (p : Nat) : Option Nat :=
  let g := pageOf d p
  if g.head == g.tail then none
  else match g.job with
    | some j => if j.ends.isSome then j.ends else if jobSteps j ≤ j.done then some 0 else none
    | none =>
      if d.cry.locked then some 5 else if 0 < g.aborts then some 7
      else if d.cry.hold && p < 128 then some 6 else none

/-- R343: BLOCKS of the status word. -/
def jobBlocks (j : Option Job) : Nat :=
  match j with
  | none => 0
  | some j =>
    if opBlocks j.op then min 64 j.done
    else if j.done = 0 || j.op = 5 || j.op = 8 || j.op = 3 then 0 else min 64 (ceilDiv j.len 16)

/-- R347: what a completion does to the held set. -/
def settleHeld (g : Page) (st : Nat) : Page :=
  if st = 1 || st = 4 || st = 5 || st = 6 || st = 7 then zeroHeld g
  else match g.job with
    | some j => if j.op = 7 && j.verify && st = 0 then { g with held := [] } else g
    | none => g

/-- R343, R348: a status word is written, HEAD advances, and CRY_PAGE_DONE is raised when it is asked for. -/
def complete (d : Dev) (p st : Nat) : Dev :=
  let g := pageOf d p
  let s := sqTwin (sqOf d p)
  let w := st + jobBlocks g.job * 16 + 2 ^ 31
  let irq := p < 128 && flag d (0x700000 + 0x1000 * p) 0 && !g.donePend
  let head := (g.head + 1) % 32
  let d := if g.job.isSome then journalFree d s 32 else d
  let d := modPage d p (fun g =>
    let g := settleHeld g st
    { g with job := none, head := head, aborts := g.aborts - 1, donePend := g.donePend || irq,
             jstat := mapPut g.jstat g.head (BitVec.ofNat 32 w) })
  let d := bump d 0x780800 0
  let d := if st = 1 then bump d 0x780808 0 else d
  let d := commitOut (stepEcs d s) s (nextEcs d s)
  if irq then raise d 0x0C01 0 (e1 p ++ e1 head) else d

end Sys2Proof.Machine
end

