-- ==== Sys2Proof/Machine/MilOps.lean ====
section
/-! DEFINITION. Shared operations of the Signal Mill (chapter 11): source records (R302), Mill-ready (R132), the
admission of Mill copies (R303, R325) and host losses (R328). -/

namespace Sys2Proof.Machine

/-! ## Source records (R302) -/

/-- The SIGIDX record in force. -/
def srcRec (d : Dev) (ix : Nat) : Option Nat := tableRec d 0x20 d.img.sigIdx ix
def srcFirst (r : Nat) : Nat := bits r 16 20
def srcCount (r : Nat) : Nat := bits r 36 13
def srcLastBlk (r : Nat) : Nat := bits r 49 9
def srcSlice (r : Nat) : Nat := bits r 58 3
def srcSide (r : Nat) : Nat := bits r 61 1
def srcSrc (r : Nat) : Nat := bits r 62 3
def srcToEn (r : Nat) : Bool := bit r 65
def srcTout (r : Nat) : Nat := bits r 66 16
def srcToEvt (r : Nat) : Bool := bit r 82
def srcHostFeed (r : Nat) : Bool := bit r 83

/-- R132, R317: every signal block that holds the source's signals is active: the blocks of its entries, and LASTBLK. -/
def millReady (d : Dev) (r : Nat) : Bool :=
  !d.mil.pduBad && d.img.active.contains (srcLastBlk r) &&
    (srcCount r == 0 ||
      (List.range ((srcFirst r + srcCount r - 1) / 2048 - srcFirst r / 2048 + 1)).all (fun k =>
        d.img.active.contains (srcFirst r / 2048 + k)))

/-- R303: the ingress source that an ingress code stands for. -/
def ingressSource (c : Nat) : Nat :=
  if c < 24 then c / 6 else if 0x40 ≤ c && c < 0x48 then (c - 0x40) / 2 else if c = 0x80 then 4
  else if c = 0x81 then 5 else if c = 0x82 then 6 else 7

/-! ## Losses (R328) -/

/-- A Mill Tally counter by its index (offset − 0x60_0100) / 8. -/
def bumpM (d : Dev) (ix : Nat) : Dev := bump d (0x600100 + 8 * ix) 0

/-- R328: a host-bound loss: MIL_HOST_LOSS at once, then at most once per 100 µs with the count. -/
def milLoss (d : Dev) (pdu why : Nat) : Dev :=
  let n := d.mil.lossCnt + 1
  let late := match d.mil.lossAt with | none => true | some t => decide (t + 100000 ≤ runNs d)
  if late then
    raise { d with mil := { d.mil with lossCnt := 0, lossAt := some (runNs d) } } 0x0B01 0
      (e2 pdu ++ e1 why ++ eCount n)
  else { d with mil := { d.mil with lossCnt := n, lossPdu := pdu, lossWhy := why } }

/-- R328: losses that have waited out their 100 µs are reported. -/
def milLossDue (d : Dev) : Dev :=
  match d.mil.lossAt with
  | none => d
  | some t =>
    if 0 < d.mil.lossCnt && t + 100000 ≤ runNs d then
      raise { d with mil := { d.mil with lossCnt := 0, lossAt := some (runNs d) } } 0x0B01 0
        (e2 d.mil.lossPdu ++ e1 d.mil.lossWhy ++ eCount d.mil.lossCnt)
    else d

/-! ## Admission of a Mill copy -/

/-- What MIL admission finds of a copy: admitted, or discarded under a Mill counter. -/
inductive MilVerdict where
  | pass
  | discard (ix : Nat)
  deriving DecidableEq, Repr

/-- R132, R303, R325: the check of a Mill copy by its source record. An undefined source PDU is out of service. -/
def milVerdict (d : Dev) (p : Pkt) (entry : Nat) : MilVerdict :=
  match srcRec d (rtSrcPdu entry) with
  | none => .discard 12
  | some r =>
    if srcSrc r ≠ ingressSource p.ingress then .discard 7
    else if d.mil.oos.contains (rtSrcPdu entry) then .discard 12
    else if !millReady d r && !rtPremill entry then .discard 2
    else .pass

/-- R132: a Mill copy lost before its PDU is Mill-ready, when a destination of its PDU goes to a host. -/
def preMillLost (d : Dev) (entry : Nat) : Dev :=
  match srcRec d (rtSrcPdu entry) with
  | none => d
  | some r => if srcHostFeed r && !millReady d r then { d with img := { d.img with preLost := d.img.preLost + 1 } } else d

/-- A discarded Mill copy is counted, and reported when it fed a host: pre-mill discards by SIGNALS_ACTIVE. -/
def milDiscard (d : Dev) (entry ix : Nat) : Dev :=
  let d := bumpM d ix
  if ix = 2 then preMillLost d entry
  else match srcRec d (rtSrcPdu entry) with
    | some r => if srcHostFeed r then milLoss d (rtSrcPdu entry) ix else d
    | none => d

end Sys2Proof.Machine
end

