-- ==== Sys2Proof/Machine/EthOps.lean ====
section
/-! DEFINITION. Shared operations of the Ethernet ports (chapter 08): limits (R212, R213, R215), tag actions (R214),
checksums and ECN (R256), transmission times and gates (R228). -/

namespace Sys2Proof.Machine

/-! ## Ports -/

/-- Change a port. -/
def modEth (d : Dev) (p : Nat) (f : EthP → EthP) : Dev := { d with eth := mapMod {} d.eth p f }

/-- A Tally counter of a port, by its offset in the block. -/
def bumpE (d : Dev) (p rel : Nat) : Dev := bump d (ethBase p + rel) 0

/-- The port exists, and its grove is powered; ETHM is in the Commons. -/
def ethLive (d : Dev) (p : Nat) : Bool :=
  decide (p ≤ 8) && ethInImage d p && (p == 8 || groveOn d (p / 2)) && running d

/-! ## Limits -/

/-- R212, R240: MAX_FRAME of a port; values outside 1,518 to 9,216 act as the nearer limit. -/
def maxFrame (d : Dev) (p : Nat) : Nat := clamp 1518 9216 (fld d (ethBase p + 8) 0 14)

/-- R212, R213: the limit of a frame without its FCS counted in `data`: MAX_FRAME + 4 t, and 6 for an R-tag. -/
def frameLimit (d : Dev) (p : Nat) (data : Bytes) : Nat :=
  maxFrame d p + 4 * (ethHdr data).tags.length + (if (ethHdr data).rtag.isSome then 6 else 0)

/-! ## The frame as it leaves (R214, R234) -/

/-- R214: a tag: TPID by STAG, PCP, DEI, VID. -/
def tagBytes (d : Dev) (port vid pcp : Nat) (de : Bool) : Bytes :=
  beBytes 2 (if flag d (ethBase port + 0xC) 12 then 0x88A8 else 0x8100) ++
    beBytes 2 (pcp * 8192 + de.toNat * 4096 + vid)

/-- R214: VLANACT on a frame; `none` is the tag-depth drop. -/
def vlanAct (d : Dev) (port : Nat) (x : Dest) (de : Bool) (data : Bytes) : Option Bytes :=
  let t := (leadTags data).1.length
  if x.vlan = 1 then some (if t = 0 then data else data.take 12 ++ data.drop 16)
  else if x.vlan = 3 && t ≠ 0 then
    some (data.take 14 ++ beBytes 2 (x.pcp * 8192 + bits (be16At data 14) 12 1 * 4096 + x.vid) ++ data.drop 16)
  else if x.vlan = 2 || x.vlan = 3 then
    (if t = 2 then none else some (data.take 12 ++ tagBytes d port x.vid x.pcp de ++ data.drop 12))
  else some data

/-- R234: the R-tag is removed, or one inserted behind the tags. -/
def rtagAct (rstrip : Bool) (rtag : Option Nat) (data : Bytes) : Bytes :=
  let o := (leadTags data).2
  let data := if rstrip && (rtagAt data o).isSome then data.take o ++ data.drop (o + 6) else data
  match rtag with
  | some n => data.take o ++ beBytes 2 0xF1C1 ++ zeros 2 ++ beBytes 2 n ++ data.drop o
  | none => data

/-- The bytes of an Ethernet frame after R-tag and VLAN actions, before padding and FCS. -/
def outData (d : Dev) (port : Nat) (p : Pkt) (x : Dest) : Option Bytes :=
  vlanAct d port x p.de (rtagAct p.rstrip p.rtag p.data)

/-- R214, R215: the egress check of a copy to an Ethernet port: the offset of the counter it is dropped under. A frame whose end
has not come is checked for its tags; its length is checked at its end. -/
def egressDrop (d : Dev) (port : Nat) (p : Pkt) (x : Dest) : Option Nat :=
  if !ethForm p then none
  else match outData d port p x with
    | none => some 0x178
    | some o =>
      if p.part then none
      else
      let pre := rtagAct p.rstrip p.rtag p.data
      if o.length + 4 ≤ frameLimit d port o then none
      else if pre.length + 4 ≤ frameLimit d port pre then some 0x170
      else some 0x168

/-! ## Checksums -/

/-- The one's complement sum of big-endian half-words. -/
def onesSum (bs : Bytes) : Nat :=
  let s := (List.range ((bs.length + 1) / 2)).foldl (fun a i => a + be16At bs (2 * i)) 0
  let f := fun x => x % 65536 + x / 65536
  f (f (f s))

/-- The Internet checksum. -/
def inetSum (bs : Bytes) : Nat := 0xFFFF - onesSum bs

/-- Replace `n` bytes at an offset. -/
def patch (bs : Bytes) (off : Nat) (new : Bytes) : Bytes := bs.take off ++ new ++ bs.drop (off + new.length)

/-- The IPv4 header at an offset with its checksum made good. -/
def fixIp4 (bs : Bytes) (o : Nat) : Bytes :=
  let z := patch bs (o + 10) (zeros 2)
  patch z (o + 10) (beBytes 2 (inetSum (slice z o ((byteAt bs o % 16) * 4))))

/-- The pseudo-header of TCP and UDP over IPv4 or IPv6, for an L4 part of `len` bytes. -/
def pseudo (data : Bytes) (et o len proto : Nat) : Bytes :=
  if et = 0x0800 then slice data (o + 12) 8 ++ beBytes 2 proto ++ beBytes 2 len
  else slice data (o + 8) 32 ++ beBytes 4 len ++ beBytes 4 proto

/-- Where the L4 part of an IP packet starts, its length and its protocol; `none` for any other frame. -/
def l4Of (data : Bytes) : Option (Nat × Nat × Nat) :=
  let h := ethHdr data
  let o := h.off + 2
  if h.et = 0x0800 then
    let hl := (byteAt data o % 16) * 4
    some (o + hl, be16At data (o + 2) - hl, byteAt data (o + 9))
  else if h.et = 0x86DD then
    let x := ext6 data data.length 16 (byteAt data (o + 6)) (o + 40) false
    x.2.1.map (fun p => (p, be16At data (o + 4) + o + 40 - p, x.1))
  else none

/-- The checksum of a TCP segment or UDP datagram made good. -/
def fixL4 (data : Bytes) : Bytes :=
  match l4Of data with
  | none => data
  | some (p, len, proto) =>
    let at' := if proto = 17 then p + 6 else p + 16
    if proto = 17 || proto = 6 then
      let h := ethHdr data
      let z := patch data at' (zeros 2)
      let c := inetSum (pseudo z h.et (h.off + 2) len proto ++ slice z p len)
      patch z at' (beBytes 2 (if proto = 17 && c = 0 then 0xFFFF else c))
    else data

/-- R256: the ECN field is set to CE. -/
def markCe (data : Bytes) : Bytes :=
  let h := ethHdr data
  let o := h.off + 2
  if h.et = 0x0800 then fixIp4 (patch data (o + 1) [BitVec.ofNat 8 (byteAt data (o + 1) / 4 * 4 + 3)]) o
  else if h.et = 0x86DD then patch data (o + 1) [BitVec.ofNat 8 (setBits (byteAt data (o + 1)) 4 2 3)]
  else data

/-- The FCS of a frame, as its four bytes on the wire (802.3). -/
def fcsOf (data : Bytes) : Bytes := leBytes 4 (crc32 data)

/-! ## Rates and gates -/

/-- R209: the MAC rate of a port in Mbit/s. -/
def macRate (d : Dev) (p : Nat) : Nat :=
  if p = 8 then 1000
  else match gvLaneMode (groveRec d (p / 2)) (p % 2) with
    | 0 => 10000 | 1 => 10000 | 2 => 5000 | 3 => 2500 | 4 => 1000 | 5 => 2500 | _ => 1000

/-- The time of `n` bytes at a port's rate, in ns, rounded up. -/
def wireNs (d : Dev) (p n : Nat) : Nat := ceilDiv (8000 * n) (macRate d p)

/-- R223: the class may cut through at the egress port. -/
def ctClass (d : Dev) (p tc : Nat) : Bool := flag d (ethBase p + 0x18) tc

/-- R357, R362: MSEN of a port. -/
def msEn (d : Dev) (p : Nat) : Bool := decide (p < 8) && flag d (0x780400 + 4 * p) 0

/-- R223: a copy may leave by cut-through. -/
def cutOk (d : Dev) (p : Pkt) (x : Dest) : Bool :=
  match qEthPort x.q with
  | none => false
  | some n =>
    p.kind == 0 && 0x40 ≤ p.ingress && p.ingress < 0x48 && rtCut (heldEntry d p x) && rtAuth p.entry == 0 &&
      gvCutThru (groveRec d ((p.ingress - 0x40) / 2)) ((p.ingress - 0x40) % 2) &&
      gvCutThru (groveRec d (n / 2)) (n % 2) && ctClass d n (x.tc % 8) && !hasShaper d n (x.tc % 8) && !msEn d n

/-- R248: the stored size that a cut-through frame is admitted against: its ingress limit. -/
def cutSize (d : Dev) (p : Pkt) : Nat := frameLimit d (p.ingress - 0x40) p.data

/-! ## Gate lists (R228, R229) -/

/-- The entry of a list in force at offset `off` of its cycle, the offset at which it ends, and its number; the last
entry holds to the end of the cycle. -/
def gateEntry (cycle off : Nat) : List (Nat × Nat) → Nat → Nat → Nat × Nat × Nat
  | [], _, i => (255, cycle, i)
  | [(_, g)], _, i => (g, cycle, i)
  | (t, g) :: rest, start, i =>
    if off < start + t then (g, min cycle (start + t), i) else gateEntry cycle off rest (start + t) (i + 1)

/-- R228: gates of a list at a device time, the device time at which they may change, and the entry in force. -/
def listAt (l : GateList) (t : Nat) : Nat × Nat × Nat :=
  let c := max 1 l.cycle
  let off := (t + c * (l.base / c + 1) - l.base) % c
  let e := gateEntry c off l.entries 0 0
  (e.1, t + (max (e.2.1) (off + 1) - off), e.2.2)

/-- R229: the cycle that would start less than EXT before the change time does not start: the cycle before it is
extended, and its last entry holds. -/
def extended (l : GateList) (ext cct t : Nat) : Bool :=
  let c := max 1 l.cycle
  let rem := (cct + c * (l.base / c + 1) - l.base) % c
  decide (rem < ext) && decide (cct ≤ t + rem) && decide (t < cct)

/-- R228, R229: gates of a port at a device time, and when they may change: a pending list takes over at its time. -/
def gatesAt (e : EthP) (t : Nat) : Nat × Nat × Nat :=
  match e.pend with
  | some n =>
    if e.cct ≤ t then listAt n t
    else (match e.oper with
      | none => (255, e.cct, 0)
      | some l =>
        if extended l n.ext e.cct t then ((l.entries.getLastD (0, 255)).2, e.cct, l.entries.length - 1)
        else let r := listAt l t; (r.1, min r.2.1 e.cct, r.2.2))
  | none => match e.oper with
    | none => (255, t + 1000000000, 0)
    | some l => listAt l t

/-- R228: the gate of a class stays open from `t` to `stop`, over `n` entries at most: each passes at least 1 ns. -/
def staysOpen (e : EthP) (tc stop : Nat) : Nat → Nat → Bool
  | 0, t => decide (stop ≤ t)
  | n + 1, t =>
    let g := gatesAt e t
    bit g.1 tc && (decide (stop ≤ g.2.1) || staysOpen e tc stop n g.2.1)

/-- R228: a frame of `n` bytes with 20 bytes of preamble and gap can start at `t` and finish while its gate is open.
With ENABLE 0 all gates are open. -/
def gateFits (d : Dev) (p tc t n : Nat) : Bool :=
  p == 8 || !flag d (ethBase p + 0x40) 0 || staysOpen (ethOf d p) tc (t + wireNs d p (n + 20)) (wireNs d p (n + 20)) t

/-- R228: the gate of a class is open now. -/
def gateOpen (d : Dev) (p tc : Nat) : Bool :=
  p == 8 || !flag d (ethBase p + 0x40) 0 || bit (gatesAt (ethOf d p) (nowNs d)).1 tc

/-! ## Shapers (R231) -/

def cbsIdle (d : Dev) (p tc : Nat) : Nat := fld d (ethBase p + 0x400 + 0x10 * tc) 0 24
def cbsSend (d : Dev) (p tc : Nat) : Nat := fld d (ethBase p + 0x404 + 0x10 * tc) 0 24
def cbsHi (d : Dev) (p tc : Nat) : Nat := fld d (ethBase p + 0x408 + 0x10 * tc) 0 24
def cbsLo (d : Dev) (p tc : Nat) : Nat := fld d (ethBase p + 0x40C + 0x10 * tc) 0 24

/-- R231: the group in force of a class is valid. -/
def cbsValid (d : Dev) (p tc : Nat) : Bool :=
  decide (cbsIdle d p tc ≤ 1000 * macRate d p) && cbsSend d p tc == 1000 * macRate d p - cbsIdle d p tc

/-- R231: the credit of a class. -/
def creditOf (d : Dev) (p tc : Nat) : Int := mapGet 0 (ethOf d p).credit tc

/-- R231: the class may transmit. -/
def shaperOk (d : Dev) (p tc : Nat) : Bool := !hasShaper d p tc || (cbsValid d p tc && decide (0 ≤ creditOf d p tc))

/-- R231: a class whose group in force is not valid sets CBSERR, reported when it becomes so. -/
def cbsUpdate (d : Dev) (p : Nat) : Dev :=
  (List.range 8).foldl (fun d tc =>
    let bad := hasShaper d p tc && !cbsValid d p tc
    let was := bit (ethOf d p).cbsErr tc
    let e := ethOf d p
    let d := { d with eth := mapPut d.eth p { e with cbsErr := setBit e.cbsErr tc bad } }
    if bad && !was then raise d 0x0806 0 (e1 p ++ e1 tc) else d) d

end Sys2Proof.Machine
end

