-- ==== Sys2Proof/Machine/HostOps.lean ====
section
/-! DEFINITION. Shared operations of the host's queues (chapter 16): queue registers (R479), completion rings (R450,
R453) and receive buffers (R452, R454). -/

namespace Sys2Proof.Machine

/-! ## Clock sources (R82, R83, R102) -/

/-- R82: the PLLs that the powered islands need: CORE, TIME, CANP, DDR, SDS0, SDS1, PCIE0, PCIE1. A PCIE PLL runs while its
link is up (DEDUCED, log entry 68). -/
def pllNeed (d : Dev) : Nat :=
  let gs := (List.range 4).filter (groveOn d)
  let can := gs.any (fun g => gvCanEn (groveRec d g) != 0)
  let sds := fun (lo : Nat) => gs.any (fun g => g / 2 == lo && gvEthEn (groveRec d g) != 0)
  3 + 4 * can.toNat + 8 * (bit d.clk.islands 8).toNat + 16 * (sds 0).toNat + 32 * (sds 1).toNat +
    64 * (epOf d 0).up.toNat + 128 * (epOf d 1).up.toNat

/-- R82: sources start and stop with the islands; one that has lost its lock does not regain it here (R102). -/
def pllSync (d : Dev) : Dev :=
  let need := pllNeed d
  let lost := d.clk.pllRun &&& (255 ^^^ d.clk.pllLock)
  { d with clk := { d.clk with pllRun := need, pllLock := need &&& (255 ^^^ (lost &&& need)) } }

/-! ## Bridge accesses (R469 to R474) -/

/-- R469: the window of a BAR0 offset, numbered as BUS of BRG_POLLCFG: MDIO0 and MDIO1 Clause 22 and Clause 45, PSPI0,
PSPI1, I2C; and the offset in it. -/
def brgWindow (off : Nat) : Option (Nat × Nat) :=
  if 0x910000 ≤ off && off < 0x911000 then some (0, off - 0x910000)
  else if 0x911000 ≤ off && off < 0x912000 then some (1, off - 0x911000)
  else if 0x940000 ≤ off && off < 0x980000 then some (2, off - 0x940000)
  else if 0x980000 ≤ off && off < 0x9C0000 then some (3, off - 0x980000)
  else if 0x9C0000 ≤ off && off < 0x9D0000 then some (4, off - 0x9C0000)
  else if 0x9D0000 ≤ off && off < 0x9E0000 then some (5, off - 0x9D0000)
  else if 0x9E0000 ≤ off && off < 0xA00000 then some (6, off - 0x9E0000)
  else none

/-- R471, R474: what an access asks of the bridge. -/
inductive BrgOp where
  | write (off w : Nat)
  | read (off : Nat)
  /-- A write of BRG_IRDREQ. -/
  | ird (w : Nat)
  deriving DecidableEq, Repr

/-- R471, R474: the bridge access that a command is, if it is one. -/
def bridgeOp : Instr → Option BrgOp
  | .bridgeWrite _ off w => some (.write off w.toNat)
  | .bridgeRead _ off => some (.read off)
  | .i2cIndirectRead _ w => some (.ird w.toNat)
  | .registerWrite _ off size w =>
    if size ≠ 4 then none
    else if off = 0x900040 then some (.ird w.toNat)
    else if (brgWindow off).isSome then some (.write off w.toNat) else none
  | .registerPairLowRead _ ⟨off, size⟩ => if size = 4 && (brgWindow off).isSome then some (.read off) else none
  | _ => none

/-! ## Queue registers and rings (R450 to R454) -/

/-- A register of a receive queue, and of a transmit queue, of an endpoint. -/
def rqReg (d : Dev) (e r rel : Nat) : Nat := regK d (regKey (0x810000 + 0x40 * r + rel) e)
def tqReg (d : Dev) (e t rel : Nat) : Nat := regK d (regKey (0x840000 + 0x40 * t + rel) e)

/-- Bytes of one buffer of a receive queue: 0 acts as 1, values above 64 act as 64. -/
def bufBytes (d : Dev) (e r : Nat) : Nat := 256 * clamp 1 64 (bits (rqReg d e r 0) 8 7)

/-- R453: what the device delivers of a frame: its bytes, with CE where it was marked. -/
def hostBytes (p : Pkt) (ecn : Bool) : Bytes := if p.kind = 0 && ecn then markCe p.data else p.data

/-- R452: buffers that `len` bytes fill. -/
def bufsFor (d : Dev) (e r len : Nat) : Nat := ceilDiv len (bufBytes d e r)

/-- R452: buffers posted and not used. -/
def bufsFree (d : Dev) (e r : Nat) : Nat := (bits (rqReg d e r 4) 0 8 + 256 - (rxOf d e r).bhead) % 256

/-- R450, R453: a completion ring has a free entry: i − CHEAD < CSIZE, modulo 2^16. -/
def ringFree (widx chead csize : Nat) : Bool := decide ((widx + 65536 - chead) % 65536 < csize)
def rxRingFree (d : Dev) (e r : Nat) : Bool :=
  ringFree (rxOf d e r).widx (bits (rqReg d e r 0x1C) 0 16) (bits (rqReg d e r 0x18) 0 13)
def txRingFree (d : Dev) (e t : Nat) : Bool :=
  ringFree (txOf d e t).widx (bits (tqReg d e t 0x1C) 0 16) (bits (tqReg d e t 0x18) 0 13)

/-- R440, R454: a receive queue can take a frame of `len` bytes. -/
def rxReady (d : Dev) (e r len : Nat) : Bool :=
  (epOf d e).up && (epOf d e).bme && bit (rqReg d e r 0) 0 && rxRingFree d e r &&
    decide (bufsFor d e r len ≤ bufsFree d e r)

end Sys2Proof.Machine
end

