-- ==== Sys2Proof/Machine/Route.lean ====
section
/-! DEFINITION. The commands of the Route Engine (chapter 10): PARSE_COMPLETE, ROUTE_LOOKUP, STREAM_UNBLOCK,
CB_RECOVERY_RESET, TABLE_WINDOW_SELECT, RTE_WINDOW_COPY. -/

namespace Sys2Proof.Machine

/-- R450: change the completion of a transmit record. -/
def txSet (d : Dev) (tx : TxRef) (f : TxComp → TxComp) : Dev :=
  modTx d tx.e tx.t (fun q => { q with comps := q.comps.map (fun c => if c.num == tx.num then f c else c) })

/-- R449, R450: a record completes at its drop. -/
def txDrop (d : Dev) (p : Pkt) (status : Nat) : Dev :=
  match p.tx with
  | some tx => txSet d tx (fun c => { c with status := status, wait := false, frame := none })
  | none => d

/-- A decided frame joins the frames that await admission at its input. -/
def toAdmission (d : Dev) (p : Pkt) (dests : List Dest) : Dev :=
  if dests.isEmpty then d
  else
    let w := mapGet [] d.lnd.waiting p.input
    { d with lnd := { d.lnd with waiting := mapPut d.lnd.waiting p.input (w ++ [⟨p, dests, none⟩]) } }

/-- R297: the record copy of a frame, as received, with its REASON. -/
def recDest (entryIx recq reason : Nat) : Dest :=
  { q := qRec recq, tc := 0, route := entryIx, fmt := .classical, vlan := 0, vid := 0, pcp := 0, reason := reason }

/-- R297: the record copies of an entry: one when REC is 1. -/
def recCopies (ix entry reason : Nat) : List Dest := if rtRec entry then [recDest ix (rtRecq entry) reason] else []

/-- The frame goes nowhere but to the recorder. -/
def recordOnly (d : Dev) (p : Pkt) (xs : List Dest) : Dev := toAdmission d { p with tx := none } xs

/-- R281 step 1: no entry or VALID 0: counted, and copied to the recorder with NRREC. -/
def noRoute (d : Dev) (p : Pkt) : Dev :=
  let d := txDrop (bumpR d 1 p.input) p 2
  if flag d 0x580000 0 then recordOnly d p [recDest 0 (fld d 0x580000 1 2) 1] else d

/-- R281 step 1 on a valid entry: in M6 and M7 a hold route (R127), and open (R430). -/
inductive Step1 where
  | pass | hold | closed
  deriving DecidableEq, Repr

def step1 (d : Dev) (ix : Nat) : Step1 :=
  if holdMode d && !holdRoute d ix then .hold else if !pncOpen d ix then .closed else .pass

/-- R300: every copy of a list is lost under one RTE counter, counted once for the frame. -/
def lossAll (d : Dev) (xs : List Dest) (why : Nat) : Dev := xs.foldl (fun d x => rteLoss d x.q why) d

/-- R174, R281, R282: the entry that decides after step 2, its copies that pass, and the device with step 2's drops
counted. An entry with VERDICT 1 acts on no destination (R129 code 0x21). -/
def afterStep2 (d : Dev) (p : Pkt) (ix entry : Nat) : Dev × Nat × Nat × List Dest :=
  if rtVerdict entry = 1 then (d, ix, entry, [])
  else
  let r := step2All d entry p (entryDests d ix entry)
  if r.2.1.isEmpty || !rtAltXl entry then (countDrops (countLong d r.2.1) p.input r.2.2, ix, entry, r.1)
  else
    let nx := rtNext entry
    let ne := routeEntry d nx
    if !rtValid ne then (lossAll (bumpR d 1 p.input) r.1 1, ix, 0, [])
    else if !namesXl d nx ne then (lossAll (countLong d r.2.1) r.1 Config.streamLossReason, ix, 0, [])
    else match step1 d nx with
      | .hold => (lossAll (bumpR d 2 p.input) r.1 2, ix, 0, [])
      | .closed => (pncDrop d nx ne, ix, 0, [])
      | .pass =>
        let r2 := if rtVerdict ne = 1 then ([], [], []) else step2All d ne p (entryDests d nx ne)
        (countDrops (countLong d r2.2.1) p.input r2.2.2, nx, ne, r2.1)

/-- R127, R282: the Mill copy of an entry with the Mill flag, or the counter that its omission counts in. -/
def millCopy (d : Dev) (p : Pkt) (ix entry : Nat) : List Dest × Option Nat :=
  if !rtMill entry || rtVerdict entry == 3 || rtVerdict entry == 1 then ([], none)
  else if holdMode d then ([], some 2)
  else if p.can.rtr then ([], some (if p.acf then 10 else 15))
  else ([{ q := qMil (rtTc entry), tc := rtTc entry, route := ix, fmt := p.can.fmt, vlan := 0, vid := 0, pcp := 0,
           reason := 0 }], none)

/-- R281 step 4: VERDICT (R283), then the policer (R286). Answers REASON of R486 and whether the frame is marked. -/
def step4 (d : Dev) (p : Pkt) (entry : Nat) (tern : Bool) (xs : List Dest) : Dev × Nat × Bool :=
  if rtVerdict entry = 2 && !tern then (lossAll (bumpR d 5 p.input) xs 5, 5, false)
  else if rtPolEn entry then
    let o := police d (rtPolicer entry) p.size
    if o.2 then (o.1, 0, false)
    else match (match polRec d (rtPolicer entry) with | some r => plExceed r | none => 2) with
      | 0 => (lossAll (bumpR o.1 6 p.input) xs 6, 6, false)
      | 1 => (bumpR o.1 7 p.input, 7, true)
      | _ => (bumpR o.1 8 p.input, 0, false)
  else (d, 0, false)

/-- R281 step 5, R290: the copies of a frame that passed: to their queues, or first to the sequencer of its profile. -/
def step5 (d : Dev) (p : Pkt) (ix entry : Nat) (xs rec' : List Dest) : Dev :=
  if rtAuth entry = 0 || rtVerdict entry = 3 then toAdmission d { p with route := ix, entry := entry } (xs ++ rec')
  else
    let q := qCry (apSeq (authRec d (rtAuthProf entry)))
    let cry : Dest := { q := q, tc := rtTc entry, route := ix, fmt := p.can.fmt, vlan := 0, vid := 0, pcp := 0, reason := 0 }
    toAdmission d { p with route := ix, entry := entry, plan := xs } (cry :: rec')

/-- R281 steps 2 to 5 for an entry found in step 1. With VERDICT 1 step 3 still acts on the frame before step 4 drops
it. A duplicate that recovery takes out is no loss; a frame dropped there for want of an R-tag is (R234, R300). -/
def lookupEntry (d : Dev) (p : Pkt) (ix entry : Nat) (tern : Bool) : Dev :=
  let s2 := afterStep2 d p ix entry
  let d := s2.1
  let ix2 := s2.2.1
  let en2 := s2.2.2.1
  let m := millCopy d p ix2 en2
  let d := match m.2 with | some c => bumpR d c p.input | none => d
  let deny := rtVerdict en2 == 1
  let xs := if deny then entryDests d ix2 en2 else s2.2.2.2 ++ m.1
  if !deny && xs.isEmpty then recordOnly (txDrop d p 2) p (recCopies ix entry 2)
  else
    let s3 := qci d ix2 p
    if !s3.2.1 then
      recordOnly (txDrop (lossAll s3.1 xs Config.streamLossReason) p 2) p (recCopies ix entry 3)
    else
      let cb := cbRecover s3.1 ix2 p
      if !cb.2.1 then
        let untagged := (ethHdr p.data).rtag.isNone
        recordOnly (txDrop (if untagged then lossAll cb.1 xs Config.streamLossReason else cb.1) p 2) p (recCopies ix entry 3)
      else if deny then recordOnly (txDrop (lossAll (bumpR cb.1 3 p.input) xs 3) p 2) p (recCopies ix entry 4)
      else
        let p := { p with rstrip := cb.2.2, de := p.de || s3.2.2 }
        let s4 := step4 cb.1 p en2 tern xs
        let reason := s4.2.1
        if reason = 5 || reason = 6 then recordOnly (txDrop s4.1 p 2) p (recCopies ix entry reason)
        else
          let g := cbGenerate s4.1 ix2
          step5 g.1 { p with de := p.de || s4.2.2, rtag := g.2 } ix2 en2 xs (recCopies ix entry reason)

/-- R280: an entry that HA or HB names lies in the endpoint's send window. -/
def inSendWindow (d : Dev) (input ix : Nat) : Bool :=
  input != 4 && input != 5 ||
    (decide (fld d (0x580020 + 8 * (input - 4)) 0 17 ≤ ix) && decide (ix ≤ fld d (0x580024 + 8 * (input - 4)) 0 17))

/-- R281: the lookup of one item. -/
def lookupItem (d : Dev) (it : LookItem) : Dev :=
  let p := it.pkt
  let go := fun (d : Dev) (ix : Nat) (tern : Bool) (p : Pkt) =>
    let entry := routeEntry d ix
    if !rtValid entry then noRoute d p
    else match step1 d ix with
      | .hold => txDrop (bumpR d 2 p.input) p 2
      | .closed => txDrop (pncDrop d ix entry) p 2
      | .pass => lookupEntry d p ix entry tern
  match it.named with
  | some ix =>
    if !inSendWindow d p.input ix then
      raise (txDrop (bumpR d 12 p.input) p 1) 0x0A03 0 (e1 (p.input - 4) ++ e4 ix)
    else go (bumpR d 0 p.input) ix false p
  | none =>
    let d := bumpR d 0 p.input
    if it.eth then
      let key := ternKey d p
      let p := { p with ect := isEct key }
      let f := ethFind d p
      if f.2.drop then txDrop (bumpR f.1 4 p.input) p 2
      else match f.2.ix with
        | some ix => go f.1 ix f.2.tern p
        | none => noRoute f.1 p
    else match keyStore d p with
      | some ix => go d ix false p
      | none => noRoute d p

/-- R277: the pending lookups of a grove: those parsed and those in the parse stage. -/
def lkFill (d : Dev) (g : Nat) : Nat := (mapGet [] d.rte.parse g).length + (mapGet [] d.rte.lookup g).length

/-- R277: the lookups of one frame enter the parse stage, all of them or none. -/
def toParse (d : Dev) (src : Nat) (items : List LookItem) : Dev :=
  if src < 4 && 256 < lkFill d src + items.length then bumpR d 11 src
  else { d with rte := { d.rte with parse := mapPut d.rte.parse src (mapGet [] d.rte.parse src ++ items) } }

/-- R48: the lookups of a source that have not been decided are dropped: none of them has a queue whose counter could count it,
and RTE_LKQFULL does (DEDUCED, log entry 73). The record of a host's frame completes. -/
def dropLookups (d : Dev) (src : Nat) : Dev :=
  let all := mapGet [] d.rte.parse src ++ mapGet [] d.rte.lookup src
  let d := all.foldl (fun d it => txDrop (bumpR d 11 it.pkt.input) it.pkt 2) d
  { d with rte := { d.rte with parse := mapDel d.rte.parse src, lookup := mapDel d.rte.lookup src } }

/-- R273: the cells of a frame of HA, HB, SVC, CRY or MIL are written. -/
def cellsIn (d : Dev) (input size : Nat) : Dev := bumpBy d 0x500080 input (cells size)

/-- A lookup that needs no parse, or whose parse is over. -/
def toLookup (d : Dev) (src : Nat) (it : LookItem) : Dev :=
  { d with rte := { d.rte with lookup := mapPut d.rte.lookup src (mapGet [] d.rte.lookup src ++ [it]) } }

/-- R275: an item can be parsed: at HA, HB and SVC always, in a grove by an engine of its type. -/
def hasEngine (d : Dev) (src : Nat) (it : LookItem) : Bool := decide (4 ≤ src) || decide (0 < parseEngines d src it.ptype)

/-- R275: the oldest item of a parse stage with an engine joins the lookup queue. While the grove's classifier is frozen
nothing moves (R402). -/
def parseStep (d : Dev) (src : Nat) : Dev :=
  let l := mapGet [] d.rte.parse src
  if src < 4 && frozen d (2 + src) then d
  else match findIdx (hasEngine d src) l 0 with
    | none => d
    | some i => match l[i]? with
      | none => d
      | some it =>
        toLookup { d with rte := { d.rte with parse := mapPut d.rte.parse src (l.take i ++ l.drop (i + 1)) } } src it

/-- PARSE_COMPLETE. -/
def execParseComplete (src : Nat) : State → Host.Outcome State Fault Refusal := act (fun d => parseStep d src)

/-- R116: the owner code of a client of the route table. -/
def lookupOwner (client : Nat) : Nat := if client < 4 then 0x10 + client else if client < 7 then 0x11 + client else 0x14

/-- R247: the frame of a lookup lies in its arrival reserve whole, behind the frames that await admission. -/
def arrivedWhole (d : Dev) (client : Nat) (it : LookItem) : Bool :=
  client < 4 || decide (waitCells d client + cells it.pkt.size ≤ arrivalMax client)

/-- R30, R145, R281: the oldest lookup of a client is decided in a slot that the client owns. -/
def lookupStep (d : Dev) (client : Nat) : Dev :=
  if frozen d 1 || !slotOwned d 2 (lookupOwner client) then d
  else match mapGet [] d.rte.lookup client with
    | [] => d
    | it :: rest =>
      if !arrivedWhole d client it then d
      else lookupItem (journalAdd { d with rte := { d.rte with lookup := mapPut d.rte.lookup client rest } } 1 64) it

/-- ROUTE_LOOKUP. -/
def execRouteLookup (client : Nat) : State → Host.Outcome State Fault Refusal := act (fun d => lookupStep d client)

/-- R298: a write of RTE_STREAMCTL with UNBLOCK 1 unblocks its Qci stream. -/
def streamUnblock (d : Dev) (w : Nat) : Dev :=
  if bit w 16 then modStrm d (bits w 0 12) (fun s => { s with blocked := false }) else d

/-- STREAM_UNBLOCK. -/
def execStreamUnblock (who : Initiator) (w : Word) : State → Host.Outcome State Fault Refusal :=
  access who (.streamUnblock who w) (fun d => regWr d who 0x580040 (fun d => streamUnblock d w.toNat))

/-- R234: a recovery stream through which no frame passed for RESETMS is reset, and reports it. -/
def cbReset (d : Dev) (idx : Nat) : Dev :=
  match (overlay d 14 d.img.stream).find? (fun r => stKind r.2 == 2 && bits r.2 0 12 == idx) with
  | none => d
  | some r =>
    let s := strmOf d (4096 + idx)
    if s.recInit && decide (s.recLast + 500000 * bits (stParam r.2) 6 16 ≤ d.clk.tclk) then
      raise (modStrm d (4096 + idx) (fun s => { s with recInit := false, recHist := 0, recHigh := 0,
                                                       nReset := min (s.nReset + 1) tallyMax })) 0x0808 0 (e1 0 ++ e2 idx)
    else d

/-- CB_RECOVERY_RESET. -/
def execCbRecoveryReset (idx : Nat) : State → Host.Outcome State Fault Refusal := act (fun d => cbReset d idx)

/-- The `n` words of a record from its lowest byte. -/
def wordsOf (n v : Nat) : List Word := (List.range n).map (fun i => BitVec.ofNat 32 (v >>> (32 * i)))

/-- R299: the item of a table as lookups see it, as RTE_TWDATA lays it out. -/
def rteItem (d : Dev) (table ix : Nat) : List Word :=
  let rows : List Word :=
    if table = 0 then wordsOf 4 (routeEntry d ix)
    else if table = 1 then
      wordsOf 4 (((keyParts d).find? (fun r => rkIndex r == ix)).getD 0 % 2 ^ 128)
    else if table = 2 then wordsOf 4 ((tableRec d 13 d.img.fdb ix).getD 0)
    else if table = 3 then
      wordsOf 22 ((tableRec d 8 d.img.tern ix).getD 0) ++ wordsOf 2 (tallyPair (mapGet 0 d.rte.ternHit ix))
    else if table = 4 then
      let r := (polRec d ix).getD 0
      let s := (mapGet? d.rte.pols ix).getD (polFresh r d.clk.tclk)
      let w0 := if plMode r = 2 then (match s.conf with | some t => (d.clk.tclk - t) / 500 | none => 0)
        else polTokens r s d.clk.tclk / 65536
      wordsOf 1 w0 ++ wordsOf 1 0 ++ wordsOf 2 (tallyPair s.nConf) ++ wordsOf 2 (tallyPair s.nExc)
    else if table = 5 then
      let s := strmOf d ix
      wordsOf 8 ((tableRec d 14 d.img.stream ix).getD 0) ++ wordsOf 2 (tallyPair s.dSdu) ++
        wordsOf 2 (tallyPair s.dGate) ++ wordsOf 2 (tallyPair s.dMeter) ++
        wordsOf 1 s.blocked.toNat
    else if table = 6 then
      let s := strmOf d (4096 + ix)
      wordsOf 8 ((tableRec d 14 d.img.stream (4096 + ix)).getD 0) ++ wordsOf 2 (tallyPair s.nDup) ++ wordsOf 2 (tallyPair s.nReset)
    else []
  (rows ++ List.replicate 24 0).take 24

/-- R299: a write of RTE_TWSEL selects an item; its copy is on its way. -/
def tableSelect (d : Dev) (w : Nat) : Dev :=
  putReg { d with rte := { d.rte with twReady := false } } 0x580050 (w &&& 0x1FFFF7)

/-- TABLE_WINDOW_SELECT. -/
def execTableWindowSelect (who : Initiator) (w : Word) : State → Host.Outcome State Fault Refusal :=
  access who (.tableWindowSelect who w) (fun d => regWr d who 0x580050 (fun d => tableSelect d w.toNat))

/-- R299: the copy is made and READY set. -/
def rteCopy (d : Dev) : Dev :=
  { d with rte := { d.rte with twReady := true, twData := rteItem d (fld d 0x580050 0 3) (fld d 0x580050 4 17) } }

/-- RTE_WINDOW_COPY. -/
def execRteWindowCopy : State → Host.Outcome State Fault Refusal := act rteCopy

end Sys2Proof.Machine
end

