-- ==== Sys2Proof/Machine/SvcOps.lean ====
section
/-! DEFINITION. What SC2 does with the frames that port SVC hands it (R295, R301): the RTE_DIAG entries as it read them, DoIP
answers, and the ISO 15765-2 flow control of diagnostic transfers. -/

namespace Sys2Proof.Machine

/-! ## The entries (R301) -/

/-- R301: the words of the 64 RTE_DIAG entries now. -/
def diagRead (d : Dev) : NMap Nat :=
  (List.range 256).foldl (fun m i => mapStore 0 m i (reg d (0x580400 + 4 * i))) []

/-- A word of an entry as SC2 read it: RTE_DIAGA 0 to RTE_DIAGD 3. -/
def diagWord (d : Dev) (i k : Nat) : Nat := mapGet 0 d.rte.diagTab (4 * i + k)

/-- R301: an RTE_DIAG entry in use. -/
def diagValid (d : Dev) (i : Nat) : Bool := bit (diagWord d i 0) 17
def diagRoute (d : Dev) (i : Nat) : Nat := bits (diagWord d i 1) 0 17

/-- The channels that an RTE_DIAG entry's requests go to. -/
def diagChans (d : Dev) (i : Nat) : List Nat :=
  (entryDests d (diagRoute d i) (routeEntry d (diagRoute d i))).filterMap (fun x => qChannel x.q)

/-- R296: the RTE_DIAG entry of a logical address. -/
def diagEntry (d : Dev) (addr : Nat) : Option Nat :=
  (List.range 64).find? (fun i => diagValid d i && bits (diagWord d i 0) 0 16 == addr)

/-! ## Sending (R295) -/

/-- R295: SC2 serves: its pair runs and routing is open. -/
def diagServes (d : Dev) : Bool := running d && d.clk.routing && svcUp d 4

/-- R295: a DoIP answer to a tester: kind 0 routing activation response, 1 positive acknowledge, 2 negative acknowledge
with target unreachable, 3 diagnostic message, 4 vehicle identification, 5 entity status, 6 alive check. -/
def doipSend (d : Dev) (tester kind addr : Nat) (payload : Bytes) : Dev :=
  emit d (.doip tester (Config.doipMessage kind addr payload))

/-- R295: the format of a target's channel. -/
def diagFmt (d : Dev) (i : Nat) : CanFmt :=
  match (diagChans d i).head? with | some ch => ethFmt d ch | none => .classical

/-- R295: the longest message of a format: 4,095 bytes in Classical CAN, 65,535 in CAN FD. -/
def diagMax (f : CanFmt) : Nat := if f == .classical then 4095 else 65535

/-- R295: one ISO 15765-2 frame to a target, through its request route entry. -/
def diagFrame (d : Dev) (i : Nat) (data : Bytes) : Dev :=
  let w := diagWord d i 2
  let f := { canNone with fmt := diagFmt d i, xtd := bit w 29, id := bits w 0 29, data := data }
  let p : Pkt := { kind := fmtKind f.fmt, can := f, data := data, size := data.length, ingress := 0x82, input := 6,
                   stamp := nowNs d, unsync := !synced d }
  toLookup (cellsIn d 6 p.size) 6 { pkt := p, named := some (diagRoute d i), eth := false, ptype := 0 }

/-! ## Transfers (R295) -/

/-- Change the transfer of a target. -/
def modDiag (d : Dev) (target : Nat) (f : DiagReq → DiagReq) : Dev :=
  { d with rte := { d.rte with diag := d.rte.diag.map (fun q => if q.target == target then f q else q) } }

/-- The transfer of a target ends. -/
def diagEnd (d : Dev) (target : Nat) : Dev :=
  { d with rte := { d.rte with diag := d.rte.diag.filter (fun q => q.target != target) } }

/-- R295: a transfer after one of its frames has gone: it awaits the response, the flow control after the block, or STmin. -/
def diagNext (now : Nat) (q : DiagReq) : DiagReq :=
  let block := q.block.map (fun n => n - 1)
  let rest := q.rest.drop 1
  { q with rest := rest, block := block, t0 := now,
           phase := if rest.isEmpty then 0 else if block == some 0 then 1 else 3 }

/-- R295: the frames of a request that the target's flow control lets go now: one, and with STmin 0 the rest of the block. `n`
bounds them. -/
def diagBlock (i target : Nat) : Nat → Dev → Dev
  | 0, d => d
  | n + 1, d =>
    match d.rte.diag.find? (fun q => q.target == target) with
    | none => d
    | some q => match q.rest with
      | [] => d
      | f :: _ =>
        let r := diagNext d.clk.tclk q
        let d := modDiag (diagFrame d i f) target (fun _ => r)
        if r.phase = 3 && q.gap = 0 then diagBlock i target n d else d

/-- STmin of ISO 15765-2 in TIME cycles: 0 to 127 ms, or 100 to 900 µs; any other value acts as 127 ms (PRESUMED, log entry 159). -/
def stMin (v : Nat) : Nat := if v < 0x80 then usCycles (1000 * v) else if 0xF1 ≤ v && v ≤ 0xF9 then usCycles (100 * (v - 0xF0)) else usCycles 127000

/-- R295: the target's flow control (PRESUMED, log entry 159, for its layout): it lets a block go, asks for patience, or ends the
transfer. -/
def flowControl (d : Dev) (i : Nat) (q : DiagReq) (data : Bytes) : Dev :=
  match byteAt data 0 % 16 with
  | 0 =>
    let bs := byteAt data 1
    let go : DiagReq → DiagReq := fun q => { q with block := if bs = 0 then none else some bs, gap := stMin (byteAt data 2) }
    diagBlock i q.target q.rest.length (modDiag d q.target go)
  | 1 => modDiag d q.target (fun q => { q with t0 := d.clk.tclk })
  | _ => diagEnd d q.target

/-- R295: SC2 answers the first frame of a response with flow control, BS 0 and STmin 0, and awaits its consecutive frames. -/
def diagTake (d : Dev) (i : Nat) (q : DiagReq) (data : Bytes) : Dev :=
  let kind := byteAt data 0 / 16
  if kind = 3 && q.phase = 1 then flowControl d i q data
  else if kind = 1 && q.phase = 0 then
    modDiag (diagFrame d i [0x30, 0, 0]) q.target (fun q => { q with phase := 2, t0 := d.clk.tclk })
  else if kind = 2 && q.phase = 2 then modDiag d q.target (fun q => { q with t0 := d.clk.tclk })
  else d

/-- R295, R301: the entry in use whose response identifier a CAN frame carries, with the transfer in flight. -/
def diagOf (d : Dev) (f : CanFrame) : Option (Nat × DiagReq) :=
  (List.range 64).findSome? (fun i =>
    if diagValid d i && bits (diagWord d i 3) 0 29 == f.id && bit (diagWord d i 2) 29 == f.xtd then
      (d.rte.diag.find? (fun q => q.target == bits (diagWord d i 0) 0 16)).map (fun q => (i, q))
    else none)

/-! ## DoIP messages of no connection (R295) -/

/-- R295: the DoIP message to port 13400 in an Ethernet frame: its offset. -/
def doipAt (data : Bytes) : Option Nat :=
  match l4Of data with
  | some (l4, _, proto) =>
    let o := if proto = 17 then l4 + 8 else l4 + byteAt data (l4 + 12) / 16 * 4
    if (proto == 17 || proto == 6) && be16At data (l4 + 2) == 13400 then some o else none
  | none => none

/-- R295: what SC2 answers to a DoIP request with no row of its own, by its payload type (PRESUMED, log entry 159): vehicle
identification, entity status, alive check. -/
def doipKind (ty : Nat) : Option Nat :=
  if 1 ≤ ty && ty ≤ 3 then some 4 else if ty = 0x4001 then some 5 else if ty = 7 then some 6 else none

/-- R295: a frame reaches SC2 through port SVC: the ISO 15765-2 frame of a target, or a DoIP request. -/
def svcTake (d : Dev) (p : Pkt) : Dev :=
  if !diagServes d then d
  else if p.kind = 0 then
    (match doipAt p.data with
     | some o => match doipKind (be16At p.data (o + 2)) with
       | some k => doipSend d 4 k 0 (p.data.drop (o + 8))
       | none => d
     | none => d)
  else match diagOf d p.can with
    | some x => diagTake d x.1 x.2 p.data
    | none => d

/-- R295: the next frame of a request whose STmin has passed. -/
def diagGap (d : Dev) (q : DiagReq) : Dev :=
  if q.phase = 3 && decide (q.t0 + q.gap ≤ d.clk.tclk) then
    (match diagEntry d q.target with | some i => diagBlock i q.target 1 d | none => d)
  else d

/-- R295: requests whose STmin has passed go on. -/
def diagTick (d : Dev) : Dev := if diagServes d then d.rte.diag.foldl diagGap d else d

end Sys2Proof.Machine
end

