-- ==== Sys2Proof/Machine/Landing.lean ====
section
/-! DEFINITION. The commands of the Landing (chapter 09): BUFFER_ADMISSION, HOST_ADMISSION_RETRY, WAITLIM_EXPIRE,
CELL_TIME, CELL_READ, QUEUE_FLUSH. -/

namespace Sys2Proof.Machine

/-! ## Buffer admission (R248 to R251) -/

/-- R251: inputs whose frames wait: HA, HB, SVC. -/
def waits (input : Nat) : Bool := input == 4 || input == 5 || input == 6

/-- R297: a recorder copy. -/
def isRec (q : Nat) : Bool := decide (392 ≤ q) && decide (q < 396)

/-- R242: the cells a frame is admitted against. -/
def admCells (d : Dev) (p : Pkt) : Nat := cells (if p.part then cutSize d p else p.size)

/-- R188: a matrix entry of the copy's channel names its route entry. -/
def inMatrix (d : Dev) (x : Dest) : Bool :=
  match qChannel x.q with
  | none => false
  | some ch => d.img.sched.any (fun r => bits r 0 5 == ch && bits r 5 2 != 3 && bits r 21 17 == x.route)

/-- The fate of one copy at admission. -/
inductive Fate where
  /-- It enters its queue. -/
  | queue
  /-- It enters its channel's schedule store (R188). -/
  | store
  /-- It fails R249. -/
  | full
  /-- Its destination is closed (R36, R265). -/
  | closed
  /-- Discarded by the Mill under a counter (R328). -/
  | mill (ix : Nat)
  /-- Over the egress limit, or too many tags (R215): the counter's offset. -/
  | size (off : Nat)
  deriving DecidableEq, Repr

/-- R132, R188, R215, R250, R251: the fate of a copy, given whether the frame has an owner already. -/
def fateOf (d : Dev) (p : Pkt) (n : Nat) (owned : Bool) (x : Dest) : Fate :=
  if qClosed d x.q then .closed
  else
    let mil := if 416 ≤ x.q then milVerdict d p (heldEntry d p x) else .pass
    match mil with
    | .discard ix => .mill ix
    | .pass =>
      match qEthPort x.q with
      | some port =>
        (match egressDrop d port p x with
         | some off => .size off
         | none => if copyPasses d x.q n p.de owned then .queue else .full)
      | none => if inMatrix d x then .store else if copyPasses d x.q n p.de owned then .queue else .full

/-- R250: the fates of a frame's copies in member order; the first that enters a queue owns the frame. -/
def fates (d : Dev) (p : Pkt) (n : Nat) : Bool → List Dest → List (Dest × Fate)
  | _, [] => []
  | owned, x :: xs =>
    let f := fateOf d p n owned x
    (x, f) :: fates d p n (owned || f == .queue) xs

/-- R253: a copy that does not pass is dropped and counted. -/
def dropFate (d : Dev) (p : Pkt) (n : Nat) (x : Dest) (f : Fate) : Dev :=
  match f with
  | .queue => d
  | .store => d
  | .full =>
    let d := dropFull d x.q n p.de
    if 416 ≤ x.q then preMillLost d (heldEntry d p x) else d
  | .closed => dropClosed d x.q
  | .mill ix => milDiscard d (heldEntry d p x) ix
  | .size off => match qEthPort x.q with | some port => bump d (ethBase port + off) 0 | none => d

/-- R188: a frame enters the schedule store, over an older unsent one. -/
def storePut (d : Dev) (p : Pkt) (x : Dest) : Dev :=
  match qChannel x.q with
  | none => d
  | some ch =>
    let d := if (mapGet? (canOf d ch).store x.route).isSome then bump d (canBase ch + 0x170) 0 else d
    let c := canOf d ch
    { d with can := mapPut d.can ch { c with store := mapPut c.store x.route ⟨p, x⟩ } }

/-- R255: the ECN decision of one admitted copy: whether the frame is marked. -/
def ecnOne (d : Dev) (p : Pkt) (x : Dest) : Dev × Bool :=
  let may := p.ect && flag d (lndqBase x.q + 0x18) 0 && ((qEthPort x.q).isSome || qIsHost x.q)
  if !may then (d, false)
  else
    let m := ecnMarked d.lnd.lfsr (depthCells d x.q) (ecnLo d x.q) (ecnHi d x.q)
    let d := { d with lnd := { d.lnd with lfsr := lfsrNext d.lnd.lfsr } }
    if m then (bump d 0x500060 x.q, true) else (d, false)

/-- R255: the ECN decisions of a frame, in member order. -/
def ecnAll (d : Dev) (p : Pkt) (xs : List Dest) : Dev × Bool :=
  xs.foldl (fun a x => let r := ecnOne a.1 p x; (r.1, a.2 || r.2)) (d, false)

/-- R242, R249, R400: a frame whose first queue copy owns it is stored under the next egress commit sequence, and its
copies enter their queues at one instant (R264). -/
def storeFrame (d : Dev) (p : Pkt) (n : Nat) (xs : List Dest) : Dev :=
  let id := nextEcs d 0
  let e := ecnAll d p xs
  let d := journalAdd (stepEcs e.1 0) 0 p.size
  let p := { p with id := id }
  let own := match xs with | [] => 0 | x :: _ => x.q
  let st : Stored := { pkt := p, n := n, owner := own, placed := xs.map (fun x => x.q), left := xs.length,
                       open' := xs.length, marked := false, bad := false, ecn := e.2, at' := d.lnd.cellTimes, egress := none }
  let d := { d with lnd := { d.lnd with frames := mapPut d.lnd.frames id st, nextId := id } }
  xs.foldl (fun d x => bump (setQueue d x.q (queueOf d x.q ++ [(id, x)])) 0x500040 x.q) d

/-- R222: the segments of an aborted request that are not admitted yet are dropped. -/
def dropSegs (d : Dev) (tx : TxRef) : Dev :=
  let other : Pkt → Bool := fun p => match p.tx with | some t => !(t.e == tx.e && t.t == tx.t && t.num == tx.num) | none => true
  let keepL := d.rte.lookup.map (fun e => (e.1, e.2.filter (fun it => other it.pkt)))
  let keepP := d.rte.parse.map (fun e => (e.1, e.2.filter (fun it => other it.pkt)))
  let keepW := d.lnd.waiting.map (fun e => (e.1, e.2.filter (fun w => other w.pkt)))
  { d with rte := { d.rte with lookup := keepL, parse := keepP }, lnd := { d.lnd with waiting := keepW } }

/-- R222: a request ends early: counted in ETH_TSOABORT of its egress port, it completes with the segments admitted. -/
def tsoEnd (d : Dev) (port : Option Nat) (tx : TxRef) : Dev :=
  let d := match port with | some p => bump d (ethBase p + 0x190) 0 | none => d
  txSet (dropSegs d tx) tx (fun c => { c with status := 6, wait := false, frame := none })

/-- R222: a segment of a request fails: the request ends, at the egress port of its entry. -/
def tsoAbort (d : Dev) (p : Pkt) (tx : TxRef) : Dev :=
  tsoEnd d (qEthPort (qOf (rtLport p.entry) (rtTarget p.entry) (rtTc p.entry))) tx

/-- R449, R450: the transmit record learns the outcome of an admission: `some'` copies admitted, `lost` copies dropped,
and the frame's number. -/
def txAdmitted (d : Dev) (p : Pkt) (id : Nat) (some' lost : Bool) : Dev :=
  match p.tx with
  | none => d
  | some tx =>
    match p.seg with
    | some last =>
      if !some' then tsoAbort d p tx
      else txSet d tx (fun c => { c with segs := c.segs + 1, wait := !last,
                                         frame := if last && tx.tsreq then some id else c.frame })
    | none =>
      txSet d tx (fun c => { c with
        status := if some' then (if lost || c.status == 3 then 3 else 0) else 4, wait := false,
        frame := if some' && tx.tsreq then some id else none })

/-- R249, R250: the frame is decided now: copies that pass are admitted, the others dropped. -/
def admitNow (d : Dev) (p : Pkt) (dests : List Dest) : Dev :=
  let n := admCells d p
  let fs := fates d p n false dests
  let inQ := (fs.filter (fun f => f.2 == .queue)).map (fun f => f.1)
  let inS := (fs.filter (fun f => f.2 == .store)).map (fun f => f.1)
  let lost := fs.any (fun f => !isRec f.1.q && f.2 != .queue && f.2 != .store)
  let id := nextEcs d 0
  let d := fs.foldl (fun d f => dropFate d p n f.1 f.2) d
  let d := inS.foldl (fun d x => storePut d { p with id := id } x) d
  let d := if !inQ.isEmpty then storeFrame d p n inQ else if inS.isEmpty then d else stepEcs d 0
  txAdmitted d p id (fs.any (fun f => !isRec f.1.q && (f.2 == .queue || f.2 == .store))) lost

/-- R251: a copy that its frame waits for: it fails R249 alone, and is no recorder copy (DEDUCED, log entry 25). -/
def waitsFor (f : Dest × Fate) : Bool := f.2 == .full && !isRec f.1.q

/-- R251: the first try of a frame of HA, HB or SVC. -/
def firstTry (d : Dev) (input : Nat) (w : Decided) (before after : List Decided) : Dev :=
  let n := admCells d w.pkt
  let fs := fates d w.pkt n false w.dests
  let setW := fun (d : Dev) (l : List Decided) => { d with lnd := { d.lnd with waiting := mapPut d.lnd.waiting input l } }
  if !fs.any waitsFor then admitNow (setW d (before ++ after)) w.pkt w.dests
  else
    let shut := fs.filter (fun f => !(f.2 == .queue || f.2 == .store || f.2 == .full))
    let rest := (fs.filter (fun f => f.2 == .queue || f.2 == .store || f.2 == .full)).map (fun f => f.1)
    let d := shut.foldl (fun d f => dropFate d w.pkt n f.1 f.2) d
    let d := if shut.isEmpty then d else match w.pkt.tx with
      | some tx => txSet d tx (fun c => { c with status := 3 })
      | none => d
    let d := match fs.find? waitsFor with | some f => bump d 0x500078 f.1.q | none => d
    setW d (before ++ [⟨w.pkt, rest, some d.clk.tclk⟩] ++ after)

/-- R251, R449: the source of a frame at its input: the transmit queue of a host port; SVC is one source. -/
def sourceOf (p : Pkt) : Nat := match p.tx with | some tx => tx.t | none => 64

/-- The first decided frame that may be tried: no frame of its source waits or stands before it, and its head is enough
(R223) or it is whole. -/
def nextAdm (d : Dev) : List Decided → List Decided → Option (List Decided × Decided × List Decided)
  | _, [] => none
  | before, w :: rest =>
    let blocked := before.any (fun b => sourceOf b.pkt == sourceOf w.pkt && waits w.pkt.input)
    if w.since.isNone && !blocked && (!w.pkt.part || w.dests.any (cutOk d w.pkt)) then some (before, w, rest)
    else nextAdm d (before ++ [w]) rest

/-- R249, R250, R251: buffer admission of the next decided frame of an input. A frozen Landing takes nothing (R402). -/
def admission (d : Dev) (input : Nat) : Dev :=
  if frozen d 0 then d
  else match nextAdm d [] (mapGet [] d.lnd.waiting input) with
    | none => d
    | some (before, w, rest) =>
      if waits input then firstTry d input w before rest
      else admitNow { d with lnd := { d.lnd with waiting := mapPut d.lnd.waiting input (before ++ rest) } } w.pkt w.dests

/-- BUFFER_ADMISSION. -/
def execBufferAdmission (input : Nat) : State → Host.Outcome State Fault Refusal := act (fun d => admission d input)

/-- R251: the waiting frames of an input are tried once each, in order: a frame is admitted when every remaining copy
passes. A copy whose destination has closed since is dropped. -/
def retryList (input : Nat) : Dev → List Decided → List Decided → Dev
  | d, done, [] => { d with lnd := { d.lnd with waiting := mapPut d.lnd.waiting input done } }
  | d, done, w :: rest =>
    let fs := fates d w.pkt (admCells d w.pkt) false w.dests
    if w.since.isSome && !fs.any waitsFor then retryList input (admitNow d w.pkt w.dests) done rest
    else retryList input d (done ++ [w]) rest

def admissionRetry (d : Dev) (input : Nat) : Dev :=
  if frozen d 0 || !waits input then d else retryList input d [] (mapGet [] d.lnd.waiting input)

/-- HOST_ADMISSION_RETRY. -/
def execHostAdmissionRetry (input : Nat) : State → Host.Outcome State Fault Refusal :=
  act (fun d => admissionRetry d input)

/-- R251, R273: WAITLIM in TIME cycles; 0 acts as 1 µs. -/
def waitCycles (d : Dev) : Nat := usCycles (max 1 (fld d 0x500000 16 10))

/-- R251: the oldest frame that has waited WAITLIM is decided: copies that pass are admitted, the rest dropped. -/
def waitlimStep (d : Dev) (input : Nat) : Dev :=
  if frozen d 0 then d
  else
    let l := mapGet [] d.lnd.waiting input
    let due : Decided → Bool := fun w => match w.since with
      | some t => decide (t + waitCycles d ≤ d.clk.tclk) | none => false
    match findIdx due l 0 with
    | none => d
    | some i => match l[i]? with
      | none => d
      | some w =>
        admitNow { d with lnd := { d.lnd with waiting := mapPut d.lnd.waiting input (l.take i ++ l.drop (i + 1)) } }
          w.pkt w.dests

/-- WAITLIM_EXPIRE. -/
def execWaitlimExpire (input : Nat) : State → Host.Outcome State Fault Refusal := act (fun d => waitlimStep d input)

/-! ## Staging (R245, R261, R304) -/

def laneOf (d : Dev) (k : Nat) : Lane := mapGet {} d.lnd.lanes k
def modLane (d : Dev) (k : Nat) (f : Lane → Lane) : Dev :=
  { d with lnd := { d.lnd with lanes := mapMod {} d.lnd.lanes k f } }

/-- A copy as a lane takes it. -/
def laneItem (d : Dev) (c : Nat × Dest) : Option LaneItem :=
  (mapGet? d.lnd.frames c.1).map (fun f =>
    { pkt := f.pkt, dest := c.2, n := f.n, got := 0, tag := none, ecn := f.ecn, asked := 0, sent := false })

/-- R53: the entry of a queued copy. -/
def copyEntry (d : Dev) (c : Nat × Dest) : Nat :=
  match mapGet? d.lnd.frames c.1 with | some f => heldEntry d f.pkt c.2 | none => routeEntry d c.2.route

/-- The lane of a queued copy. -/
def copyLane (d : Dev) (q : Nat) (c : Nat × Dest) : Nat := laneKey d q (copyEntry d c)

/-- The first copy of a queue that its lane has not taken. -/
def nextCopy (d : Dev) (q : Nat) : Option (Nat × Dest) :=
  (queueOf d q).find? (fun c => !(laneOf d (copyLane d q c)).items.any (fun it => it.pkt.id == c.1 && it.dest.q == q))

/-- R132, R454: what holds a copy in its queue: a Mill copy that is not Mill-ready, a receive queue that cannot take it,
a frame whose end has not come (R223). -/
def held (d : Dev) (c : Nat × Dest) : Bool :=
  match mapGet? d.lnd.frames c.1 with
  | none => true
  | some f =>
    f.pkt.part ||
      (if 416 ≤ c.2.q then
        (match srcRec d (rtSrcPdu (heldEntry d f.pkt c.2)) with | some r => !millReady d r | none => false)
       else qIsHost c.2.q && !rxReady d (if c.2.q < 320 then 0 else 1) (c.2.q % 64) (hostBytes f.pkt f.ecn).length)

/-- R245, R257: the cells that a streaming lane holds a place for: asked for and not arrived. A cell that has arrived is
handed on (R261). -/
def laneCells (l : Lane) : Nat := l.items.foldl (fun a it => a + (it.asked - it.got)) 0

/-- R245, R257: the staging of a streaming lane, 8 cells, has room for another cell. -/
def laneOpen (l : Lane) : Bool := decide (laneCells l < 8)

/-- R245: a streaming lane takes a further frame when it has room and has asked for every cell of those that it holds. -/
def laneRoom (l : Lane) : Bool := laneOpen l && l.items.all (fun it => decide (it.n ≤ it.asked))

/-- R454: a receive lane moves a frame only when its queue has buffers and an entry for it; those of a frame that it holds of
the same queue are taken. -/
def rxBusy (l : Lane) (q : Nat) : Bool := qIsHost q && l.items.any (fun it => it.dest.q == q)

/-- R245: one queue's next copy is staged where its lane has room. A CAN queue stages its head alone. -/
def stageQueue (d : Dev) (q : Nat) : Dev :=
  match nextCopy d q with
  | none => d
  | some c =>
    let k := copyLane d q c
    let l := laneOf d k
    let may := if q < 256 then !l.items.any (fun it => it.dest.q == q) else laneRoom l && !rxBusy l q && !held d c
    if may then
      match laneItem d c with
      | some it => modLane d k (fun l => { l with items := l.items ++ [it] })
      | none => d
    else d

/-- The streaming queues that hold frames, and the CAN queues, highest class of the head first, then in ascending order
(DESIGN CHOICE, log entry 26); the recorder's queues from 395 down to 392 (R483). -/
def stagingOrder (d : Dev) : List Nat :=
  let all := (liveQueues d).filter (fun q => (qEthPort q).isNone)
  let qs := all.filter (fun q => !isRec q) ++ (all.filter isRec).reverse
  let cls : Nat → Nat := fun q => match nextCopy d q with | some c => c.2.tc % 8 | none => 0
  ((List.range 8).map (fun i => qs.filter (fun q => cls q == 7 - i))).flatten

/-- R245: every lane but the Ethernet lanes takes what it has room for. -/
def fillLanes (d : Dev) : Dev := (stagingOrder d).foldl stageQueue d

/-! ## Matching (R257, R258) -/

/-- The cell a lane wants: lane key, its input, frame, cell, level, and whether it is level 8 by age. -/
structure Want where
  lane  : Nat
  input : Nat
  frame : Nat
  cell  : Nat
  level : Nat
  deriving DecidableEq, Repr

/-- R257: AGE; values below 16 act as 16. -/
def ageLimit (d : Dev) : Nat := max 16 (fld d 0x500000 0 8)

/-- R223: the cells of a frame that are in the buffer. -/
def haveCells (p : Pkt) (n : Nat) : Nat := if p.part then min n ((p.data.length + 32) / 64) else n

/-- R257: the item whose next cell a lane requests: of CAN heads the highest class, of others the first. A streaming lane
requests only while its staging has room; the heads of a channel and the frames of a port have their places (R245). -/
def wantItem (k : Nat) (l : Lane) : Option LaneItem :=
  let open' := if decide (64 ≤ k) && !laneOpen l then []
    else l.items.filter (fun it => decide (it.asked < haveCells it.pkt it.n))
  if k < 64 && k % 16 < 6 then
    open'.foldl (fun a it => match a with
      | none => some it
      | some b => if b.dest.tc % 4 < it.dest.tc % 4 then some it else some b) none
  else open'.head?

/-- R257: the request of a lane. -/
def wantOf (d : Dev) (k : Nat) (l : Lane) : Option Want :=
  (wantItem k l).map (fun it =>
    { lane := k, input := it.pkt.input, frame := it.pkt.id, cell := it.asked,
      level := if it.sent then 9 else if ageLimit d ≤ l.age then 8 else it.dest.tc % 8 })

/-- Every request of a cell time. -/
def wants (d : Dev) : List Want := d.lnd.lanes.filterMap (fun e => wantOf d e.1 e.2)

/-- The first of `l` with the largest `key`. -/
def bestBy {α : Type} (key : α → Nat) : List α → Option α
  | [] => none
  | a :: r => match bestBy key r with
    | none => some a
    | some b => if key a < key b then some b else some a

/-- A list of numbered things turned so that numbers from `p` on come first. -/
def turnFrom {α : Type} (num : α → Nat) (p : Nat) (l : List α) : List α :=
  l.filter (fun a => decide (p ≤ num a)) ++ l.filter (fun a => decide (num a < p))

/-- R258: a request of an output to an input. -/
structure Req where
  out   : Nat
  input : Nat
  want  : Want
  /-- Every lane of the output that waits for the same cell. -/
  lanes : List Nat
  deriving DecidableEq, Repr

/-- R258, request step: the request of an output to an input. -/
def reqOf (d : Dev) (ws : List Want) (o i : Nat) : Option Req :=
  let mine := ws.filter (fun w => w.lane / 16 == o && w.input == i)
  match bestBy Want.level (turnFrom (fun w => w.lane % 16) (mapGet 0 d.lnd.lanePtr o) mine) with
  | none => none
  | some w => some { out := o, input := i, want := w,
                     lanes := (mine.filter (fun v => v.frame == w.frame && v.cell == w.cell)).map Want.lane }

/-- The matches of the iterations so far: the pairs, and whether they were made in the first iteration. -/
structure Matching where
  outs  : List Nat
  ins   : List Nat
  pairs : List Req
  first : List (Nat × Nat × Nat)
  deriving DecidableEq, Repr

/-- R258, grant step: the requests that an input grants. -/
def grantsOf (d : Dev) (reqs : List Req) (i : Nat) : List Req :=
  let mine := reqs.filter (fun r => r.input == i)
  match bestBy (fun r => r.want.level) (turnFrom Req.out (mapGet 0 d.lnd.grant i) mine) with
  | none => []
  | some r => r :: mine.filter (fun q => q.out != r.out && q.want.frame == r.want.frame && q.want.cell == r.want.cell)

/-- R258: an input may be matched: fewer than 8 of its matched cells wait. -/
def inputOpen (d : Dev) (i : Nat) : Bool := decide ((mapGet [] d.lnd.matched i).length < 8)

/-- R258: one iteration. -/
def iterate (d : Dev) (ws : List Want) (m : Matching) : Matching :=
  let outs := (List.range 10).filter (fun o => !m.outs.contains o)
  let ins := (List.range 10).filter (fun i => !m.ins.contains i && inputOpen d i)
  let reqs := (outs.map (fun o => ins.filterMap (fun i => reqOf d ws o i))).flatten
  let grants := (ins.map (grantsOf d reqs)).flatten
  let acc := outs.filterMap (fun o =>
    bestBy (fun r => r.want.level) (turnFrom Req.input (mapGet 0 d.lnd.accept o) (grants.filter (fun r => r.out == o))))
  { outs := m.outs ++ acc.map Req.out, ins := m.ins ++ (acc.map Req.input).eraseDups, pairs := m.pairs ++ acc,
    first := m.first }

/-- R258: three iterations; the pairs of the first one are kept apart, since they move the pointers. -/
def matching (d : Dev) (ws : List Want) : List Req × List Req :=
  let m1 := iterate d ws ⟨[], [], [], []⟩
  let m3 := iterate d ws (iterate d ws m1)
  (m1.pairs, m3.pairs)

/-- R258: the pointers move on the first iteration's acceptances. Of several outputs that accept one grant, the first in
order from the grant pointer moves it (DEDUCED, log entry 27). -/
def movePointers (d : Dev) (first : List Req) : Dev :=
  let g := (first.map Req.input).eraseDups.foldl (fun m i =>
    match (grantsOf d first i).head? with
    | some r => mapPut m i ((r.out + 1) % 10)
    | none => m) d.lnd.grant
  let a := first.foldl (fun m r => mapPut m r.out ((r.input + 1) % 10)) d.lnd.accept
  let l := first.foldl (fun m r => mapPut m r.out ((r.want.lane % 16 + 1) % 16)) d.lnd.lanePtr
  { d with lnd := { d.lnd with grant := g, accept := a, lanePtr := l } }

/-- R259: the matched cells join their inputs' waiting cells: one cell for every output that accepted it. -/
def noteMatches (d : Dev) (pairs : List Req) : Dev :=
  (pairs.map Req.input).eraseDups.foldl (fun d i =>
    let mine := pairs.filter (fun r => r.input == i)
    match mine.head? with
    | none => d
    | some r =>
      let cell : MatchCell := ⟨r.want.frame, r.want.cell, (mine.map Req.lanes).flatten⟩
      { d with lnd := { d.lnd with matched := mapPut d.lnd.matched i (mapGet [] d.lnd.matched i ++ [cell]) } }) d

/-- R257: after a cell time: a lane that was served takes its next cell, a lane that waited is a cell time older, and
a request that reaches AGE is counted. -/
def ageLanes (d : Dev) (ws : List Want) (served : List Nat) : Dev :=
  ws.foldl (fun d w =>
    if served.contains w.lane then
      modLane d w.lane (fun l => { l with age := 0, items := l.items.map (fun it =>
        if it.pkt.id == w.frame && it.asked == w.cell && decide (it.asked < haveCells it.pkt it.n) then
          { it with asked := it.asked + 1 } else it) })
    else
      let d := modLane d w.lane (fun l => { l with age := l.age + 1 })
      if (laneOf d w.lane).age = ageLimit d then bump d 0x500090 (w.lane / 16) else d) d

/-- R257 to R259: one cell time. -/
def cellTime (d : Dev) : Dev :=
  if frozen d 0 then d
  else
    let d := fillLanes d
    let ws := wants d
    let m := matching d ws
    let d := noteMatches (movePointers d m.1) m.2
    let d := ageLanes d ws (m.2.map Req.lanes).flatten
    { d with lnd := { d.lnd with cellTimes := d.lnd.cellTimes + 1 } }

/-- CELL_TIME. -/
def execCellTime : State → Host.Outcome State Fault Refusal := act cellTime

/-! ## Delivery (R259 to R261, R267) -/

/-- R259: a copy takes its next cell. -/
def LaneItem.takes (it : LaneItem) (c : MatchCell) : Bool :=
  it.pkt.id == c.frame && it.got == c.cell && decide (c.cell < it.asked)

/-- R259: a cell reaches the lanes named with its match: every copy there whose next cell it is takes it. -/
def deliver (d : Dev) (c : MatchCell) : Dev :=
  c.lanes.foldl (fun d k =>
    if (laneOf d k).items.any (fun it => it.takes c) then
      bump (modLane d k (fun l => { l with items := l.items.map (fun it => if it.takes c then { it with got := it.got + 1 } else it) }))
        0x500088 (k / 16)
    else d) d

/-- R224: bytes of the frame on the wire of port `o` that have left, behind 8 bytes of preamble (DEDUCED, log entry 155). -/
def sentBytes (d : Dev) (o : Nat) : Nat := (runNs d - (ethOf d o).wireStart) * macRate d o / 8000 - 8

/-- R224, R240: the frame on the wire of port `o` is stomped after `sent` bytes. -/
def stomp (d : Dev) (o sent : Nat) : Dev :=
  let d := modLane d (16 * (o / 2) + 6 + o % 2) (fun l => { l with items := l.items.filter (fun it => !it.sent) })
  let d := modEth d o (fun e => { e with cutFrame := none, wire := none, wireEnd := min e.wireEnd (runNs d) })
  bumpBy (bumpE (bumpE (emit d (.ethStomp o sent)) o 0x180) o 0x150) (ethBase o + 0x158) 0 sent

/-- R267: one copy that has not left is dropped: a frame on the wire with cells not read is stomped, one that has been read whole has
left, and any other leaves its queue. -/
def dropBad (d : Dev) (q id : Nat) : Dev :=
  match qEthPort q with
  | some port =>
    let its := (laneOf d (16 * (q / 64) + 6 + (q % 64 - 24) / 8)).items.filter (fun it => it.pkt.id == id && it.sent)
    if its.any (fun it => it.pkt.part || it.got != it.n) then stomp (unstage d q id) port (sentBytes d port)
    else if !its.isEmpty then d
    else copyDrop (unstage (unqueue d q id) q id) id
  | none => copyDrop (hostLoss (unstage (unqueue d q id) q id) q) id

/-- R267: an uncorrectable error in cell `cell` of a frame: every copy that has not left is dropped, and reported. -/
def poisonCell (d : Dev) (frame cell : Nat) : Dev :=
  let qs := (liveQueues d).filter (fun q => (queueOf d q).any (fun c => c.1 == frame))
  let wire := (d.lnd.lanes.filter (fun e => decide (e.1 < 64) && e.2.items.any (fun it => it.pkt.id == frame && it.sent))).map
    (fun e => (e.2.items.filter (fun it => it.pkt.id == frame && it.sent)).map (fun it => it.dest.q))
  let all := (qs ++ wire.flatten).eraseDups
  let fr := match mapGet? d.lnd.frames frame with
    | some f => mapPut d.lnd.frames frame { f with bad := true }
    | none => d.lnd.frames
  let d := bump { d with lnd := { d.lnd with frames := fr } } 0x5000C0 0
  let d := all.foldl (fun d q => dropBad d q frame) d
  memUnc (raise d 0x0904 0 (e4 cell ++ eCount all.length)) 0 (cell / 4)

/-- R290, R449: the transmit record of a frame that a sequencer takes waits for the copies of its output. -/
def dropTxRef (d : Dev) (id : Nat) : Dev :=
  match mapGet? d.lnd.frames id with
  | some f => { d with lnd := { d.lnd with frames := mapPut d.lnd.frames id { f with pkt := { f.pkt with tx := none } } } }
  | none => d

/-- R261, R400: a copy staged whole in a lane of SVC, CRY or MIL is handed on: its link commit. SVC takes it at once (R295);
a sequencer or a slice finds it in the lane. -/
def linkOut (d : Dev) (k : Nat) : Dev :=
  let whole := (laneOf d k).items.filter (fun it => it.got == it.n && !it.sent)
  let d := if k / 16 = 6 then whole.foldl (fun d it => svcTake d it.pkt) d else d
  let d := if k / 16 = 8 then whole.foldl (fun d it => dropTxRef d it.pkt.id) d else d
  let d := whole.foldl (fun d it => copyCommit (unqueue d it.dest.q it.pkt.id) it.pkt.id) d
  let keep : List LaneItem → List LaneItem := fun l =>
    if k / 16 = 6 then l.filter (fun it => !(it.got == it.n))
    else l.map (fun it => if it.got == it.n then { it with sent := true } else it)
  modLane d k (fun l => { l with items := keep l.items })

/-- The lanes of SVC, CRY and MIL that hold anything. -/
def linkLanes (d : Dev) : List Nat :=
  (d.lnd.lanes.map (fun e => e.1)).filter (fun k => k / 16 == 6 || k / 16 == 8 || k / 16 == 9)

/-- R260, R267: one matched cell of the read: delivered, or found bad. -/
def readCell (unc : List (Nat × Nat)) (d : Dev) (c : MatchCell × Nat) : Dev :=
  match unc.find? (fun u => u.1 == c.2) with
  | some u => poisonCell d c.1.frame u.2
  | none => deliver d c.1

/-- R30, R260: a slot of the Landing's bank read that the input owns takes up to four matched cells in match order. -/
def cellReadStep (d : Dev) (input : Nat) (unc : List (Nat × Nat)) : Dev :=
  if frozen d 0 || !slotOwned d 1 input then d
  else
    let l := mapGet [] d.lnd.matched input
    let d := { d with lnd := { d.lnd with matched := mapPut d.lnd.matched input (l.drop 4) } }
    let d := ((l.take 4).zipIdx).foldl (readCell unc) d
    (linkLanes d).foldl linkOut d

/-- CELL_READ. -/
def execCellRead (input : Nat) (unc : List (Nat × Nat)) : State → Host.Outcome State Fault Refusal :=
  act (fun d => cellReadStep d input unc)

/-! ## Flush by software (R266) -/

/-- R266: a copy was admitted in an earlier cell time. -/
def admittedBefore (d : Dev) (c : Nat × Dest) : Bool :=
  match mapGet? d.lnd.frames c.1 with | some f => decide (f.at' < d.lnd.cellTimes) | none => true

/-- R266: a write of LND_QFLUSH flushes the copies of one queue that were admitted in an earlier cell time; LND_QFLUSH_DONE
reports the count. A queue that does not exist has no effect. -/
def queueFlush (d : Dev) (w : Nat) : Dev :=
  let q := bits w 0 9
  if !qExists q then d
  else
    let l := (queueOf d q).filter (admittedBefore d)
    raise (l.foldl (fun d c => flushCopy d q c.1) d) 0x0903 0 (e2 q ++ eCount l.length ++ e1 0)

/-- QUEUE_FLUSH. -/
def execQueueFlush (who : Initiator) (w : Word) : State → Host.Outcome State Fault Refusal :=
  access who (.queueFlush who w) (fun d => regWr d who 0x500028 (fun d => queueFlush d w.toNat))

end Sys2Proof.Machine
end

