-- ==== Sys2Proof/Machine/CrossOps.lean ====
section
/-! DEFINITION. Shared operations of the clock-domain crossings (chapter 06, R152 to R159). -/

namespace Sys2Proof.Machine

/-- R155: the table key of one direction of a crossing. -/
def xKey (x : Nat) (out : Bool) : Nat := 2 * x + out.toNat

/-- R155: kinds of a crossing. -/
def xRing (x : Nat) : Bool := decide (x ≤ 34) || x == 36 || x == 37
def xHs (x : Nat) : Bool := decide (x ≤ 36) || x == 38 || x == 39 || x == 40
def xPulse (x : Nat) : Bool := decide (x ≤ 31) || x == 33 || x == 34 || x == 38 || x == 39

/-- R155: ring depth in words. -/
def xDepth (x : Nat) : Nat :=
  if x < 24 then 320 else if x < 32 then 2048 else if x = 32 then 256 else if x < 35 then 512
  else if x = 36 then 256 else if x = 37 then 128 else 0

/-- R155: a side of the crossing can be reset alone. -/
def xOneSide (x : Nat) : Bool := decide (x ≤ 35) || x == 39 || x == 40

def xOf (d : Dev) (x : Nat) (out : Bool) : Xing := mapGet {} d.whl.xings (xKey x out)
def modX (d : Dev) (x : Nat) (out : Bool) (f : Xing → Xing) : Dev :=
  { d with whl := { d.whl with xings := mapMod {} d.whl.xings (xKey x out) f } }

/-- Committed words not yet released. -/
def xFill (g : Xing) : Nat := g.groups.foldl (fun a l => a + l.length) 0

/-- A counter of a crossing: SWH_XDISC 0, XTMO 1, XSTALL 2, XPSAT 3, XREPAIR 4. -/
def bumpX (d : Dev) (i x : Nat) (out : Bool) (n : Nat) : Dev := bumpBy d (0x30028 + 8 * i) (xKey x out) n

/-- R157: the receiver is idle by the protocol of its interface, or its island is isolated. HSPI_CS_N is high between the
transactions that the commands carry, and no command tells of a link in L1 (log entry 150). -/
def xIdle (d : Dev) (x : Nat) : Bool :=
  if x < 24 then (canOf d x).state == 4 || !groveOn d (x / 6)
  else if x < 33 then (ethOf d (x - 24)).st != 3
  else if x < 35 then !(epOf d (x - 33)).up
  else x == 35 || (x == 36 && !bit d.clk.islands 8) || (x == 39 && !bit d.clk.islands 5) || (x == 40 && !bit d.clk.islands 0)

/-- R156: the clock of the side that was reset runs: its island is powered. -/
def xClocked (d : Dev) (x : Nat) : Bool :=
  if x < 24 then groveOn d (x / 6) else if x = 39 then bit d.clk.islands 5 else if x = 40 then bit d.clk.islands 0 else true

/-- R156: a writer's reset discards what is not committed: `n` ring words, an unacknowledged word, the pending count. What an
earlier reset discarded and did not report is reported with it. -/
def xWriterReset (x n : Nat) (g : Xing) : Xing :=
  { g with
    disc := g.disc + (if xRing x then n else 0) + (if g.hs.isSome then 1 else 0), hs := none,
    unknown := g.unknown || (xPulse x && (decide (0 < g.acc) || g.xfer.isSome)), acc := 0, xfer := none, sat := false, repair := 1 }

/-- R156, R159: handshake and pulses wait for the pairing instant of a reset. A ring that only follows a timeout re-pairs alone. -/
def xPairing (g : Xing) : Bool := g.repair == 1 || g.repair == 2

/-- R156: the writer sees a full ring: the reader was reset, or re-pairs after a timeout. -/
def xShut (g : Xing) : Bool := g.repair == 2 || g.repair == 3

/-- R156: one side of one direction is reset; it re-pairs at the pairing instant. -/
def crossReset (d : Dev) (x : Nat) (out reader : Bool) (n : Nat) : Dev :=
  if xOneSide x then
    modX d x out (fun g => if reader then { g with repair := 2 } else xWriterReset x n g)
  else d

/-- R155: the outside side of a crossing is reset: the writer into the core, with `n` words not committed, and the reader out
of it. -/
def crossOutside (d : Dev) (x n : Nat) : Dev := crossReset (crossReset d x false false n) x true true 0

/-- R155: isolation of COMMONS resets the core side of crossing 39: the reader into the core and the writer out of it. -/
def isolateCommons (d : Dev) : Dev := crossReset (crossReset d 39 false true 0) 39 true false 0

/-- R155: isolation of WATCH resets its side of crossing 40: the writer into AON and the reader out of it. -/
def isolateWatch (d : Dev) : Dev := crossOutside d 40 0

/-- R155: the crossings that end in AON, which stays powered. -/
def aonXings (d : Dev) : NMap Xing := d.whl.xings.filter (fun e => decide (xKey 39 false ≤ e.1))

/-- R152, R179: the 64-bit words that a received frame takes in a CAN crossing, within its depth: a FREE VALUE (DESIGN CHOICE, log
entry 151). -/
def frameWords (f : CanFrame) : Nat := clamp 1 320 (Config.canWords f.data.length)

/-- R155, R179: the crossing takes `n` words more. -/
def xTakes (g : Xing) (x n : Nat) : Bool := !g.timed && !xShut g && decide (xFill g + n ≤ xDepth x)

/-- R154: pulses join the accumulator, which saturates at 65,535. -/
def addPulses (d : Dev) (x : Nat) (out : Bool) (n : Nat) : Dev :=
  let g := xOf d x out
  if g.timed then bumpX (modX d x out (fun g => { g with dropped := g.dropped + n })) 1 x out n
  else
    let d' := modX d x out (fun g => { g with acc := min (g.acc + n) 65535, sat := g.sat || decide (65535 ≤ g.acc + n) })
    if !g.sat && 65535 ≤ g.acc + n then bumpX (raise d' 0x0604 0 (e1 x ++ eFlag out)) 3 x out 1 else d'

end Sys2Proof.Machine
end

