-- ==== Sys2Proof/Machine/CanOps.lean ====
section
/-! DEFINITION. Shared operations of the CAN channels (chapter 07): frames as a channel sends them (R172, R173),
arbitration (R184), bit timing (R167), transmit buffers (R181 to R186), error counters (R193), entry to INIT (R165). -/

namespace Sys2Proof.Machine

/-- Change a channel. -/
def modCan (d : Dev) (ch : Nat) (f : CanCh → CanCh) : Dev := { d with can := mapMod {} d.can ch f }

/-- R163: the channel exists and its grove is powered. -/
def canLive (d : Dev) (ch : Nat) : Bool := decide (ch < 24) && canInImage d ch && groveOn d (ch / 6) && running d

/-- Error active or error passive. -/
def canRuns (c : CanCh) : Bool := c.state == 2 || c.state == 3

/-- R163, R444: a write to a register of a channel; a channel that is not in the image ignores it. -/
def canWr (d : Dev) (who : Initiator) (ch rel : Nat) (f : Dev → Dev) : Dev :=
  if 24 ≤ ch then d else regWr d who (canBase ch + rel) (fun d => if canInImage d ch then f d else d)

/-- A Tally counter of a channel, by its offset in the block. -/
def bumpC (d : Dev) (ch rel : Nat) : Dev := bump d (canBase ch + rel) 0

/-! ## Frames -/

/-- R171: the data lengths of CAN FD. -/
def fdLen (n : Nat) : Nat :=
  if n ≤ 8 then n else if n ≤ 12 then 12 else if n ≤ 16 then 16 else if n ≤ 20 then 20 else if n ≤ 24 then 24
  else if n ≤ 32 then 32 else if n ≤ 48 then 48 else 64

/-- R173: the data as a format carries it, padded with PADBYTE. -/
def padData (fmt : CanFmt) (padByte : Nat) (data : Bytes) : Bytes :=
  let n := match fmt with
    | .classical => data.length
    | .fd => fdLen data.length
    | .fdBrs => fdLen data.length
    | .xl => max 1 data.length
  data ++ List.replicate (n - data.length) (BitVec.ofNat 8 padByte)

def padByteOf (d : Dev) (ch : Nat) : Nat := bits (canCtl d ch) 14 8

/-- R172, R282: the header in the format that is sent: a CAN XL PDU in another format carries its priority ID as a
standard identifier, and only an XL frame carries SDT, VCID, acceptance field and SEC. -/
def sendHeader (fmt : CanFmt) (c : CanFrame) : CanFrame :=
  match fmt with
  | .xl => if c.fmt == .xl then c else { canNone with fmt := .xl, id := c.id % 2048 }
  | _ => { canNone with fmt := fmt, id := c.id, xtd := c.xtd && c.fmt != .xl, rtr := c.rtr && fmt == .classical }

/-- R172, R173: a PDU as the frame that a channel sends. -/
def canFrameOf (d : Dev) (ch : Nat) (p : Pkt) (fmt : CanFmt) : CanFrame :=
  { sendHeader fmt p.can with data := padData fmt (padByteOf d ch) p.data }

/-- R184: the arbitration field on the bus as a number; the smaller one wins. -/
def arbKey (f : CanFrame) : Nat :=
  if f.xtd then (f.id / 262144) * 2097152 + 1048576 + 524288 + (f.id % 262144) * 2 + f.rtr.toNat
  else (f.id % 2048) * 2097152 + f.rtr.toNat * 1048576

/-! ## Bit timing (R166 to R168) -/

/-- The CG_CANBT group in force. -/
def btNow (d : Dev) (ch : Nat) : CanBt :=
  { nbt := reg d (canBase ch + 0x10), dbt := reg d (canBase ch + 0x14), xbt := reg d (canBase ch + 0x18),
    tdc := reg d (canBase ch + 0x1C) }

/-- One bit in CANP cycles: BRP × (1 + TSEG1 + TSEG2), each a field plus one. -/
def btBit (brp t1 t2 : Nat) : Nat := (brp + 1) * (1 + (t1 + 1) + (t2 + 1))
def nomBit (b : CanBt) : Nat := btBit (bits b.nbt 0 5) (bits b.nbt 5 8) (bits b.nbt 13 7)
def fdBit (b : CanBt) : Nat := btBit (bits b.dbt 0 5) (bits b.dbt 5 7) (bits b.dbt 12 6)
def xlBit (b : CanBt) : Nat := btBit (bits b.xbt 0 3) (bits b.xbt 3 6) (bits b.xbt 9 5)

/-- R167, R207: why a group is not valid, the lowest code first. -/
def btFault (b : CanBt) : Option Nat :=
  if bits b.nbt 13 7 < bits b.nbt 20 7 || bits b.dbt 12 6 < bits b.dbt 18 6 || bits b.xbt 9 5 < bits b.xbt 14 5 then some 0
  else if nomBit b < 160 || fdBit b < 20 || xlBit b < 8 then some 1
  else if nomBit b < fdBit b || nomBit b < xlBit b then some 2
  else if bit b.xbt 19 && !(decide (0 < bits b.xbt 20 6) && decide (0 < bits b.xbt 26 6)
      && bits b.xbt 20 6 + bits b.xbt 26 6 == xlBit b) then some 3
  else none

/-- R168, R180: what the channel latches now, for a frame whose SOF follows. -/
def latchNow (d : Dev) (ch : Nat) : CanLatch :=
  { bt := btNow d ch, base := fld d (canBase ch + 0x20) 0 13, cnt := fld d (canBase ch + 0x24) 0 14, rej := flag d (canBase ch + 0x28) 0 }

/-- R168, R180: what a frame runs under whose SOF was followed by `back` commits to the channel's groups. -/
def latchOf (d : Dev) (ch back : Nat) : CanLatch :=
  if back = 0 then latchNow d ch else ((canOf d ch).past[back - 1]?).getD (latchNow d ch)

/-- R168, R180: a commit is about to change a group of the channel: what is in force stays for a frame whose SOF has passed. -/
def latchPast (d : Dev) (ch : Nat) : Dev :=
  let l := latchNow d ch
  modCan d ch (fun c => { c with past := l :: c.past })

/-- R168: the protocol engine latches the group in force for what it sends. -/
def btLatch (d : Dev) (ch : Nat) : Dev := modCan d ch (fun c => { c with bt := btNow d ch })

/-! ## The schedule matrix (R124, R187) -/

/-- The channel has a SCHED header. -/
def hasMatrix (d : Dev) (ch : Nat) : Bool := d.img.sched.any (fun r => bits r 0 5 == ch && bits r 5 2 == 3)

/-- The matrix entry of a basic cycle and column: (KIND, ROUTE). -/
def matrixAt (d : Dev) (ch cyc col : Nat) : Option (Nat × Nat) :=
  (d.img.sched.find? (fun r => bits r 0 5 == ch && bits r 5 2 != 3 && bits r 13 5 == col &&
    (cyc + 64 - bits r 7 6) % 2 ^ (bits r 18 3) == 0)).map (fun r => (bits r 5 2, bits r 21 17))

/-! ## Transmit buffers (R181) -/

def xbOf (c : CanCh) (b : Nat) : Option XbFrame := if b = 0 then c.xb0 else if b = 1 then c.xb1 else c.xb2
def setXb (c : CanCh) (b : Nat) (x : Option XbFrame) : CanCh :=
  if b = 0 then { c with xb0 := x } else if b = 1 then { c with xb1 := x } else { c with xb2 := x }

/-- R181: a change of MBEN takes effect when XB2 is empty. -/
def mbSync (d : Dev) (ch : Nat) : Dev :=
  if (canOf d ch).xb2.isNone then modCan d ch (fun c => { c with mbOn := bit (canCtl d ch) 10 }) else d

/-- R181: the Landing-fed buffers. -/
def landingBufs (d : Dev) (ch : Nat) : List Nat :=
  (if hasMatrix d ch then [] else [0]) ++ [1] ++ (if (canOf d ch).mbOn then [] else [2])

/-- The buffer whose attempt is on the bus. -/
def onBus (c : CanCh) : Option Nat :=
  [0, 1, 2].find? (fun b => match xbOf c b with | some x => x.onBus | none => false)

/-- R201: a mailbox frame has left XB2. -/
def mbLeft (d : Dev) (ch : Nat) (x : XbFrame) (result : Nat) : Dev :=
  if x.mbox then
    raise (modCan d ch (fun c => { c with mbDone := true, mbResult := result })) 0x0709 0 (e1 ch ++ e2 x.tag ++ e1 result)
  else d

/-- R400: a frame that never sent a SOF is gone without a commit. -/
def xbDrop (d : Dev) (x : XbFrame) : Dev :=
  if x.sof || x.store.isSome then d
  else match x.pkt with | some p => copyDrop d p.id | none => d

/-- R188, R190: the store slot of a frame is emptied, unless a newer frame has replaced it. -/
def storeDrop (d : Dev) (ch : Nat) (x : XbFrame) : Dev :=
  match x.store with
  | none => d
  | some r =>
    match mapGet? (canOf d ch).store r with
    | some s => if x.pkt == some s.pkt then modCan d ch (fun c => { c with store := mapDel c.store r }) else d
    | none => d

/-- R184: a buffer's frame is no longer the one picked for the next SOF. -/
def unpick (c : CanCh) (b : Nat) : CanCh := if c.next == some b then { c with next := none } else c

/-- R188, R189: a stored frame takes XB0 under the channel's next tag. -/
def storeXb (d : Dev) (ch route : Nat) (s : StoreFrame) : Dev :=
  let c := canOf d ch
  let x : XbFrame :=
    { frame := canFrameOf d ch s.pkt s.dest.fmt, tag := c.nextTag,
      flow := (s.pkt.ingress, route, s.dest.tc), pkt := some s.pkt, item := none, store := some route, mbox := false,
      sof := false, onBus := false, failed := false, cancel := false, expired := false, order := c.fills }
  modCan d ch (fun c => { c with xb0 := some x, nextTag := (c.nextTag + 1) % 65536, fills := c.fills + 1, schLoad := none })

/-- R189: XB0 is free in a column whose start found it held: it is loaded from the store. -/
def lateLoad (d : Dev) (ch : Nat) : Dev :=
  let c := canOf d ch
  match c.schLoad with
  | none => d
  | some route =>
    if !c.schRun || c.xb0.isSome then d
    else match mapGet? c.store route with
      | some s => storeXb d ch route s
      | none => modCan d ch (fun c => { c with schLoad := none })

/-- Empty a buffer. -/
def clearXb (d : Dev) (ch b : Nat) : Dev := mbSync (modCan d ch (fun c => unpick (setXb c b none) b)) ch

/-- R191, R192: a frame is withdrawn by a cancel: counted, reported, and not sent again (DEDUCED, log entry 29). -/
def cancelXb (d : Dev) (ch b : Nat) (x : XbFrame) : Dev :=
  let d := storeDrop (xbDrop (clearXb d ch b) x) ch x
  let d := modCan d ch (fun c => { c with cBuf := b, cRes := 0, cTag := x.tag })
  let d := raise (bumpC d ch 0x138) 0x0705 0 (e1 ch ++ e1 b ++ e2 x.tag ++ e1 0)
  mbLeft d ch x 1

/-- R190: a matrix frame is withdrawn unsent at the end of its window, which the event names. -/
def windowMiss (d : Dev) (ch b : Nat) (x : XbFrame) : Dev :=
  let w := (canOf d ch).missAt
  let d := bumpC (xbDrop (clearXb d ch b) x) ch 0x168
  if bit (canCtl d ch) 11 then raise d 0x0706 0 (e1 ch ++ e1 w.1 ++ e1 w.2) else d

/-- R186, R190, R192, R424: an attempt has failed: the frame is withdrawn by its cancel request or by the device, or waits for its
next one. -/
def attemptOver (d : Dev) (ch b : Nat) (x : XbFrame) : Dev :=
  if x.cancel then cancelXb d ch b x
  else if x.last then mbLeft (bumpC (xbDrop (clearXb d ch b) x) ch 0x148) ch x 2
  else if x.expired then windowMiss d ch b x
  else modCan d ch (fun c => unpick (setXb c b (some { x with onBus := false, failed := true })) b)

/-- A flushed buffer: counted in CAN_FLUSH. One with a cancel request pending is cut in its attempt, and the cancel withdraws it
(R192). -/
def flushXb (d : Dev) (ch b : Nat) : Dev :=
  match xbOf (canOf d ch) b with
  | none => d
  | some x => if x.cancel then cancelXb d ch b x else mbLeft (bumpC (xbDrop (clearXb d ch b) x) ch 0x148) ch x 2

/-- R424: the flush at the sleep commit point: a frame on the bus finishes its attempt and is not retried. -/
def flushToSleep (d : Dev) (ch : Nat) : Dev :=
  let d := [0, 1, 2].foldl (fun d b =>
    match xbOf (canOf d ch) b with
    | none => d
    | some x => if x.onBus then modCan d ch (fun c => setXb c b (some { x with last := true })) else flushXb d ch b) d
  modCan (flushQueues d (canQueues ch)) ch (fun c => { c with next := none })

/-- Frames of a channel's buffers and class queues that a flush counts. -/
def heldFrames (d : Dev) (ch : Nat) : Nat :=
  (([0, 1, 2].filter (fun b => match xbOf (canOf d ch) b with | some x => !x.cancel | none => false)).length) + queuedIn d (canQueues ch)

/-- R165, R195: the three buffers and the four class queues are flushed; the schedule store is kept. -/
def flushChannel (d : Dev) (ch : Nat) : Dev :=
  let d := [0, 1, 2].foldl (fun d b => flushXb d ch b) d
  modCan (flushQueues d (canQueues ch)) ch (fun c => { c with next := none })

/-! ## States (R164, R165) -/

/-- R165, R167: what holds or demands INIT. -/
def initCause (d : Dev) (ch : Nat) : Bool :=
  bit (canCtl d ch) 0 || (canOf d ch).demand || (btFault (btNow d ch)).isSome

/-- R165: entry to INIT. What the receive stage holds is not committed to the crossing: its words are discarded and reported under
R156. -/
def enterInit (d : Dev) (ch : Nat) : Dev :=
  let n := ((canOf d ch).stage.map (fun s => frameWords s.frame)).sum
  let d := crossOutside (flushChannel d ch) ch n
  modCan d ch (fun c => { c with state := 0, tec := 0, rec' := 0, initDue := false, schRun := false, schExcl := false,
                                 schLoad := none, stage := [], past := [] })

/-- R164, R168: a channel in INIT leaves it when nothing holds it there: it integrates, under the group in force. -/
def leaveInit (d : Dev) (ch : Nat) : Dev :=
  if (canOf d ch).state = 0 && !initCause d ch && d.clk.routing && canLive d ch then
    let d := btLatch d ch
    modCan d ch (fun c => { c with state := 1, initDue := false, opmode := bits (canCtl d ch) 1 2 })
  else d

/-- R165, R167: the causes of INIT have changed: an entry becomes due or is no longer, and a channel that nothing holds
leaves INIT. A group that is not valid sets BTERR and is reported when it becomes so. -/
def initUpdate (d : Dev) (ch : Nat) : Dev :=
  let f := btFault (btNow d ch)
  let was := (canOf d ch).bterr
  let d := modCan d ch (fun c => { c with bterr := f.isSome })
  let d := match f with
    | some r => if was then d else raise d 0x070A 0 (e1 ch ++ e1 r)
    | none => d
  let d := modCan d ch (fun c => { c with initDue := c.state != 0 && initCause d ch })
  leaveInit d ch

/-- R92, R36: a mode change demands INIT of a channel, or no longer does. -/
def initDemand (d : Dev) (ch : Nat) (on : Bool) : Dev := initUpdate (modCan d ch (fun c => { c with demand := on })) ch

/-! ## Error counters (R193, R195) -/

/-- R193: CAN_ERR_PASSIVE when a counter passes 127, and the state that the counters give. -/
def errState (d : Dev) (ch tec0 rec0 : Nat) : Dev :=
  let c := canOf d ch
  let d := if (tec0 ≤ 127 && 127 < c.tec) || (rec0 ≤ 127 && 127 < c.rec') then
      raise d 0x0701 0 (e1 ch ++ e2 c.tec ++ e1 c.rec')
    else d
  modCan d ch (fun c => { c with state := if 127 < c.tec || 127 < c.rec' then 3 else 2 })

/-- R195, R196: bus-off: flush, count and report; recovery at once with BOAUTO. -/
def busOff (d : Dev) (ch : Nat) : Dev :=
  let n := heldFrames d ch
  let d := modCan d ch (fun c => { c with state := 4, tec := 256, schRun := false, schExcl := false, schLoad := none })
  let d := raise (bumpC (flushChannel d ch) ch 0x188) 0x0702 0 (e1 ch ++ eCount n)
  if bit (canCtl d ch) 7 then modCan d ch (fun c => { c with state := 5, byReq := false }) else d

/-- TEC rises by `n`. -/
def tecAdd (d : Dev) (ch n : Nat) : Dev :=
  let c := canOf d ch
  let d := modCan d ch (fun c => { c with tec := min (c.tec + n) 256 })
  if 255 < c.tec + n then busOff d ch else errState d ch c.tec c.rec'

/-- R193, ISO 11898-1: TEC rises by 8 in each of `n` steps, while the channel runs. -/
def tecSteps (d : Dev) (ch n : Nat) : Dev :=
  (List.range n).foldl (fun d _ => if canRuns (canOf d ch) then tecAdd d ch 8 else d) d

/-- REC rises by `n`, and stays at 255. -/
def recAdd (d : Dev) (ch n : Nat) : Dev :=
  let c := canOf d ch
  errState (modCan d ch (fun c => { c with rec' := min (c.rec' + n) 255 })) ch c.tec c.rec'

/-- R193, ISO 11898-1: an error in a reception raises REC by 1, then by 8 in each of `n` steps: a dominant bit first after the error
flag, and what more the standard counts by eights. -/
def recSteps (d : Dev) (ch n : Nat) : Dev := (List.range n).foldl (fun d _ => recAdd d ch 8) (recAdd d ch 1)

/-- R172, R179: a received frame enters the receive stage of two frames, under what was latched at its SOF. -/
def stageFrame (d : Dev) (ch : Nat) (l : CanLatch) (f : CanFrame) : Dev :=
  if f.rtr && !bit (canCtl d ch) 6 then bumpC d ch 0x160
  else if 2 ≤ (canOf d ch).stage.length then bumpC d ch 0x150
  else modCan d ch (fun c => { c with stage := c.stage ++ [{ frame := f, base := l.base, cnt := l.cnt, rej := l.rej }] })

/-- ISO 11898-1: a good reception lowers REC; above 127 it falls to a value from 119 to 127 (DEDUCED, log entry 28). -/
def recGood (d : Dev) (ch : Nat) : Dev :=
  let c := canOf d ch
  errState (modCan d ch (fun c =>
    { c with rec' := if 127 < c.rec' then clamp 119 127 Config.recAfterGood else c.rec' - 1 })) ch c.tec c.rec'

/-- A good transmission lowers TEC. -/
def tecGood (d : Dev) (ch : Nat) : Dev :=
  let c := canOf d ch
  errState (modCan d ch (fun c => { c with tec := c.tec - 1 })) ch c.tec c.rec'

end Sys2Proof.Machine
end

