-- ==== Sys2Proof/Machine/NmOps.lean ====
section
/-! DEFINITION. Shared operations of network management (chapter 15): clusters and local need (R418, R422, R429),
keep-alives (R421), the states of a cluster (R422), wake events (R425, R426), INH_OUT (R436). -/

namespace Sys2Proof.Machine

def clusterOf (d : Dev) (c : Nat) : Cluster := mapGet {} d.nmc.clusters c

/-- Change a cluster. -/
def modNm (d : Dev) (c : Nat) (f : Cluster → Cluster) : Dev :=
  { d with nmc := { d.nmc with clusters := mapMod {} d.nmc.clusters c f } }

/-- The Tally counter of a cluster, by its offset. -/
def bumpN (d : Dev) (c rel : Nat) : Dev := bump d (0x7E0000 + rel) c

/-! ## The NMLAYOUT record (R126) and the cluster's registers (R438) -/

def nmLay (d : Dev) (c : Nat) : Nat := mapGet 0 d.img.nml c
def lyLen (r : Nat) : Nat := bits r 8 8
def lyNid (r : Nat) : Nat := bits r 16 8
def lyCbv (r : Nat) : Nat := bits r 24 8
def lyRmr (r : Nat) : Nat := bits r 32 8
def lyAw (r : Nat) : Nat := bits r 40 8
def lyPni (r : Nat) : Nat := bits r 48 8
def lyPncPos (r : Nat) : Nat := bits r 56 8
def lyPncLen (r : Nat) : Nat := bits r 64 8
def lyIdBase (r : Nat) : Nat := bits r 80 32

def nmReg (d : Dev) (c rel : Nat) : Nat := reg d (nmcBase c + rel)
def nmCans (d : Dev) (c : Nat) : List Nat := bitList 24 (nmReg d c 8)
def nmEths (d : Dev) (c : Nat) : List Nat := bitList 8 (nmReg d c 12)
def nmOwn (d : Dev) (c : Nat) : Nat := bits (nmReg d c 0x20) 0 8

/-- TIME cycles of `n` ms. -/
def msCycles (n : Nat) : Nat := 500000 * n

/-- R422: the running timer of a cluster has run out. -/
def nmElapsed (d : Dev) (c : Nat) : Bool := decide ((clusterOf d c).t0 + msCycles (clusterOf d c).len ≤ d.clk.tclk)

/-- R433, R438: FWTIME; below TTIMEOUT it acts as TTIMEOUT. -/
def fwTime (d : Dev) (c : Nat) : Nat := max (bits (nmReg d c 0x20) 16 16) (bits (nmReg d c 0x14) 0 16)

/-- R428: a cluster that holds a channel carrying a hold route. -/
def nmHolds (d : Dev) (c : Nat) : Bool :=
  d.img.hold.any (fun h => holdRoute d h.1 && (entryDests d h.1 (routeEntry d h.1)).any (fun x =>
    match qChannel x.q with | some ch => (nmCans d c).contains ch | none => false))

/-! ## PNCs and local need (R422, R429) -/

/-- R429: the PNC is requested by software. -/
def pncAsked (d : Dev) (p : Nat) : Bool := bit (reg d 0x7E0018 + reg d 0x7E001C * 2 ^ 32) p

/-- R429: the PNC is active. -/
def pncActive (d : Dev) (p : Nat) : Bool := pncAsked d p || d.nmc.seen.any (fun e => e.1 / 32 == p)

/-- The active PNCs as a mask. -/
def pncMask (d : Dev) : Nat := (List.range 64).foldl (fun a p => if pncActive d p then a + 2 ^ p else a) 0

/-- R429: an active PNC is local need in cluster `c`: not when it is active only through NM PDUs of `c`. -/
def pncNeed (d : Dev) (c p : Nat) : Bool :=
  flag d (0x7E0400 + 0x10 * p) c && (pncAsked d p || d.nmc.seen.any (fun e => e.1 / 32 == p && e.1 % 32 != c))

/-- R296: while a tester connection is open, SC2 holds the clusters of its target channels awake. -/
def diagHold (d : Dev) (c : Nat) : Bool :=
  !d.rte.testers.isEmpty && (List.range 64).any (fun i =>
    diagValid d i && (diagChans d i).any (fun ch => (nmCans d c).contains ch))

/-- R422: local need. -/
def localNeed (d : Dev) (c : Nat) : Bool :=
  nmTakesPart d c && (bit (nmReg d c 4) 0 || diagHold d c || (List.range 64).any (pncNeed d c))

/-! ## INH_OUT (R436) -/

/-- R436: INH_OUT j is wanted by a cluster that is not ASLEEP. -/
def inhWanted (d : Dev) (j : Nat) : Bool :=
  (bitList 32 (reg d (0x7E0204 + 8 * j))).any (fun c => (clusterOf d c).st != 0)

/-- The level that INH_OUT j is driven at, outside M6 and M7. -/
def inhLevel (d : Dev) (j : Nat) : Bool := bit d.nmc.inh j == flag d (0x7E0200 + 8 * j) 0

/-- INH_OUT j becomes active or inactive, and its ball follows while the pin section is in force. -/
def setInh (d : Dev) (j : Nat) (on : Bool) : Dev :=
  let d := { d with nmc := { d.nmc with inh := setBit d.nmc.inh j on, inhHold := mapDel d.nmc.inhHold j } }
  if d.clk.pinsOn && !holdMode d then drive d (16 + j) (inhLevel d j) else d

/-- R436: one INH_OUT after a change of its clusters: active at once, inactive after HOLDMS. -/
def inhStep (d : Dev) (j : Nat) : Dev :=
  if inhWanted d j then
    (if bit d.nmc.inh j && (mapGet? d.nmc.inhHold j).isNone then d else setInh d j true)
  else if bit d.nmc.inh j && (mapGet? d.nmc.inhHold j).isNone then
    (if fld d (0x7E0200 + 8 * j) 16 16 = 0 then setInh d j false
     else { d with nmc := { d.nmc with inhHold := mapPut d.nmc.inhHold j d.clk.tclk } })
  else d

/-- R436: every INH_OUT. -/
def inhUpdate (d : Dev) : Dev := (List.range 4).foldl inhStep d

/-! ## Keep-alives (R421) -/

/-- Set bit `b` of the control bit vector at `pos`, where both are present. -/
def setCbv (pdu : Bytes) (pos b : Nat) (on : Bool) : Bytes :=
  if on && pos < pdu.length && b < 8 then
    setNth pdu pos (BitVec.ofNat 8 (setBit ((pdu[pos]?.getD 0).toNat) b true))
  else pdu

/-- R421: the keep-alive of a cluster. -/
def keepAlivePdu (d : Dev) (c : Nat) : Bytes :=
  let r := nmLay d c
  let k := clusterOf d c
  let pncs : Bytes := (List.range (lyPncLen r)).map (fun j =>
    BitVec.ofNat 8 ((List.range 8).foldl (fun a b => if pncNeed d c (8 * j + b) then a + 2 ^ b else a) 0))
  let base := zeros (lyLen r)
  let base := if lyNid r < lyLen r then setNth base (lyNid r) (BitVec.ofNat 8 (nmOwn d c)) else base
  let base := if lyPncPos r + lyPncLen r ≤ lyLen r then base.take (lyPncPos r) ++ pncs ++ base.drop (lyPncPos r + lyPncLen r)
    else base
  setCbv (setCbv (setCbv base (lyCbv r) (lyRmr r) (k.st == 2 && k.rmr)) (lyCbv r) (lyAw r) (k.st == 2 && k.aw))
    (lyCbv r) (lyPni r) (decide (0 < lyPncLen r))

/-- R421: the keep-alive on a CAN channel: through port SVC into the class 3 queue, with no route lookup. The number
2^17 + c stands for the keep-alive in place of a route entry. -/
def keepAliveCan (d : Dev) (c : Nat) (pdu : Bytes) (ch : Nat) : Dev :=
  let id := lyIdBase (nmLay d c) + nmOwn d c
  let fmt : CanFmt := if pdu.length ≤ 8 then .classical else .fdBrs
  let f := { canNone with fmt := fmt, xtd := decide (0x7FF < lyIdBase (nmLay d c)), id := id, data := pdu }
  toAdmission (cellsIn d 6 pdu.length)
    { kind := fmtKind fmt, can := f, data := pdu, size := pdu.length, ingress := 0x82, input := 6, stamp := nowNs d, unsync := !synced d }
    [{ q := qCan ch 3, tc := 3, route := 2 ^ 17 + c, fmt := fmt, vlan := 0, vid := 0, pcp := 0, reason := 0 }]

/-- R421: the keep-alive on the member Ethernet ports, through route entry ETXROUTE. The bytes before UDPOFF are the
image's (DESIGN CHOICE, log entry 38). R243: its stored size is its length as it will leave, with padding and FCS. -/
def keepAliveEth (d : Dev) (c : Nat) (pdu : Bytes) : Dev :=
  let w := nmReg d c 0x24
  let data := fit (bits w 20 7) (Config.nmHeader c) ++ pdu
  let size := max 60 data.length + 4
  let p : Pkt := { kind := 0, data := data, size := size, ingress := 0x82, input := 6, stamp := nowNs d, unsync := !synced d }
  toLookup (cellsIn d 6 size) 6 { pkt := p, named := some (bits w 0 17), eth := true, ptype := 0 }

/-- R421, R422: a keep-alive is sent on every member, and its period starts again. While SC0 is stopped none is sent
(R427). -/
def keepAlive (d : Dev) (c : Nat) : Dev :=
  let d := modNm d c (fun k => { k with kaT0 := some d.clk.tclk, kaLen := bits (nmReg d c 0x10) 0 16 })
  if !svcUp d 0 || (holdMode d && !nmHolds d c) then d
  else
    let pdu := keepAlivePdu d c
    let d := ((nmCans d c).filter (canInImage d)).foldl (fun d ch => keepAliveCan d c pdu ch) d
    let d := if (nmEths d c).isEmpty then d else keepAliveEth d c pdu
    bumpN d c 0x98

/-! ## TC10 (R237, R238) -/

/-- R237: the MDIO write of a value to the PHY of a port: bus, address as port, device and register, value. -/
def tc10Write (d : Dev) (p value : Nat) : Dev :=
  let c := reg d (ethBase p + 0x20)
  emit d (.far (bits c 1 1) (bits c 2 10 * 65536 + bits c 16 16) true value)

/-- R238: a TC10 wake of a port: SLEEP to DOWN, and no request stands. -/
def tc10Wake (d : Dev) (p : Nat) : Dev :=
  modEth d p (fun e => { e with sleepReq := false, st := if e.st = 4 then 1 else e.st })

/-- R238, R426: a local wake request: the wake value is written, and the port goes to DOWN. -/
def tc10Local (d : Dev) (p : Nat) : Dev :=
  let e := ethOf d p
  if flag d (ethBase p + 0x20) 0 && (e.sleepReq || e.st == 4) then
    tc10Write (tc10Wake d p) p (fld d (ethBase p + 0x24) 16 16)
  else d

/-! ## The offender log (R434) -/

/-- R434: the open entries of a cluster are closed. -/
def closeLog (d : Dev) (c : Nat) : Dev :=
  { d with nmc := { d.nmc with log := d.nmc.log.map (fun e => e.map (fun o =>
      if o.cluster == c then { o with isOpen := false } else o)) } }

/-! ## States (R422) -/

/-- A cluster is in a state from now on, with a timer of `ms`. -/
def nmState (d : Dev) (c st ms : Nat) : Dev :=
  let d := modNm d c (fun k =>
    { k with st := st, t0 := d.clk.tclk, len := ms, waited := false,
             kaT0 := if st = 2 || st = 3 then k.kaT0 else none,
             offT0 := if st = 4 then some d.clk.tclk else if st = 5 then k.offT0 else none,
             charges := if st = 5 then k.charges else [] })
  inhUpdate d

/-- R422: REPEAT is entered, with the keep-alive at entry. -/
def enterRepeat (d : Dev) (c : Nat) (aw rmr : Bool) : Dev :=
  let d := nmState d c 2 (bits (nmReg d c 0x1C) 0 16)
  let d := modNm d c (fun k => { k with aw := aw, rmr := rmr, closed := false, rewake := none })
  keepAlive ((nmEths d c).foldl tc10Local d) c

/-- R422: READY. -/
def enterReady (d : Dev) (c : Nat) : Dev := nmState d c 4 (bits (nmReg d c 0x14) 0 16)

/-- R422, R434: AWAKE closes the cluster's log entries. -/
def enterAwake (d : Dev) (c : Nat) : Dev := closeLog (nmState d c 3 0) c

/-- R421: the REPEAT that a local need starts sets its repeat-message bit when NMC_CREQ asks for it. -/
def repeatRmr (d : Dev) (c : Nat) : Bool := bit (nmReg d c 4) 0 && bit (nmReg d c 4) 1

/-- R437: NM_WAKE. -/
def nmWakeEvent (d : Dev) (c src : Nat) : Dev := raise d 0x0F01 0 (e1 c ++ e1 src)

/-- R422, R426: what a cluster's local need does to its state now. In M6 and M7 every cluster keeps its state (R428);
before routing opens nothing moves. -/
def needEval (d : Dev) (c : Nat) : Dev :=
  if holdMode d || !d.clk.routing || !nmTakesPart d c then d
  else
    let k := clusterOf d c
    if localNeed d c then
      match k.st with
      | 0 => enterRepeat (nmWakeEvent d c 0) c true (repeatRmr d c)
      | 1 => enterRepeat d c true (repeatRmr d c)
      | 4 => keepAlive (enterAwake d c) c
      | 5 => enterRepeat (nmWakeEvent d c 0) c true (repeatRmr d c)
      | 6 => if k.rewake.isSome then d else modNm d c (fun k => { k with rewake := some (d.clk.tclk, 0) })
      | _ => d
    else if k.st = 3 then enterReady d c
    else d

/-- Local need may have changed in every cluster. -/
def needAll (d : Dev) : Dev := (List.range 32).foldl needEval d

/-- R422, R425, R426: a wake event other than an NM PDU: 2 frame, 3 WAKE_IN, 4 selective wake, 5 TC10. FWTIME runs from
routing open (R433). -/
def nmEvent (d : Dev) (c src : Nat) : Dev :=
  if holdMode d || !nmTakesPart d c then d
  else
    let k := clusterOf d c
    if k.st = 0 then modNm (nmState (nmWakeEvent d c src) c 1 (fwTime d c)) c (fun k => { k with src := src })
    else if k.st = 6 && k.rewake.isNone then modNm d c (fun k => { k with rewake := some (d.clk.tclk, src) })
    else d

end Sys2Proof.Machine
end

