-- ==== Sys2Proof/Machine/Auth.lean ====
section
/-! DEFINITION. Authenticated PDUs and their freshness (R289, R290, R349 to R354, R522): AUTH_VERIFY, AUTH_GENERATE,
AUTH_VERIFY_GENERATE, FRESH_CHECKPOINT, SHUTDOWN_CHECKPOINT. -/

namespace Sys2Proof.Machine

/-! ## Secured PDUs (R350) -/

/-- R350: the MAC over the authentic data. -/
def authMac (a : Nat) (key hdr payload : Bytes) (fv : Nat) : Bytes :=
  cmac key (beBytes 2 (apDataId a) ++ hdr ++ payload ++ beBytes 8 fv)

/-- R350: the trailer: the low FVLEN bits of FV, then the leading MACLEN bits of the MAC, filled with zero bits. -/
def authTrailer (a fv : Nat) (mac : Bytes) : Bytes :=
  let n := apFvLen a + apMacLen a
  let k := (n + 7) / 8
  let v := fv % 2 ^ apFvLen a * 2 ^ apMacLen a + beNat mac / 2 ^ (128 - apMacLen a)
  beBytes k (v * 2 ^ (8 * k - n))

/-- R350: the length header that a profile writes before a payload. -/
def authHeader (a len : Nat) : Bytes := beBytes (apHdr a) len

/-- A received secured PDU taken apart: header, payload, the freshness bits and MAC bits of its trailer. -/
def authParts (a : Nat) (data : Bytes) : Option (Bytes × Bytes × Nat × Nat) :=
  match secPayload a data with
  | none => none
  | some pay =>
    let n := apFvLen a + apMacLen a
    let k := (n + 7) / 8
    let v := beNat (slice data (apHdr a + pay.length) k) / 2 ^ (8 * k - n)
    some (data.take (apHdr a), pay, v / 2 ^ apMacLen a, v % 2 ^ apMacLen a)

/-! ## Freshness (R351 to R353) -/

def freshOf (d : Dev) (prof : Nat) : Fresh := mapGet {} d.cry.fresh prof
def modFresh (d : Dev) (prof : Nat) (f : Fresh → Fresh) : Dev :=
  { d with cry := { d.cry with fresh := mapMod {} d.cry.fresh prof f } }

/-- R352: the candidate for a received freshness value. -/
def candidate (a l t : Nat) : Nat :=
  if 64 ≤ apFvLen a then t
  else if apFvLen a = 0 then l + 1
  else
    let c := l / 2 ^ apFvLen a * 2 ^ apFvLen a + t
    if c ≤ l then c + 2 ^ apFvLen a else c

/-- R353: the value that generation does not use before the next checkpoint is stored. -/
def freshLimit (f : Fresh) : Nat := f.ckpt + 2 ^ 16

/-- R353: a checkpoint of a profile is due (CKPTPEND). -/
def ckptDue (d : Dev) (prof : Nat) : Bool :=
  let f := freshOf d prof
  if apDir (authRec d prof) = 1 then decide (freshLimit f ≤ f.val + 2 ^ 12) && !f.halt && decide (freshLimit f < 2 ^ 64)
  else decide (2 ^ 16 ≤ f.advances)

/-- R351, R353: a generation's outcome: the freshness value, a wait for the checkpoint, or a halt with its reason. -/
inductive FreshNext where
  | use (fv : Nat) | wait | halted (reason : Nat)
  deriving DecidableEq, Repr

def freshNext (f : Fresh) : FreshNext :=
  if f.halt then .halted (if f.refused then 1 else 0)
  else if 2 ^ 64 ≤ f.val + 1 then .halted 0
  else if f.val + 1 < freshLimit f || 2 ^ 64 ≤ freshLimit f then .use (f.val + 1)
  else if f.refused then .halted 1 else .wait

/-- R351, R353: FRESH_HALT is raised once; the refused generation is counted. -/
def freshHalt (d : Dev) (prof reason : Nat) : Dev :=
  let d := bump d 0x780818 0
  if (freshOf d prof).halt then d
  else raise (modFresh d prof (fun f => { f with halt := true })) 0x0C03 0 (e2 prof ++ e1 reason)

/-! ## Jobs of routes (R289, R290) -/

/-- How a job of a route ends: with the PDU that its destinations receive, or with a status that drops it. -/
inductive AuthOut where
  | pdu (data : Bytes)
  | fail (st : Nat)
  | wait
  deriving DecidableEq, Repr

/-- R352: verification under a profile: the payload, or a status: FORMAT 10, FRESHFAIL 11, TAGFAIL 1, a key status, or
ALARM 5. -/
def authVerify (d : Dev) (prof : Nat) (data : Bytes) : Dev × AuthOut :=
  let a := authRec d prof
  let st := keyStatus d (apKey a) 0 8
  if d.cry.locked then (d, .fail 5)
  else if st ≠ 0 then (countDeny d st, .fail st)
  else match authParts a data with
    | none => (d, .fail 10)
    | some (hdr, pay, t, tag) =>
      let l := (freshOf d prof).val
      let c := candidate a l t
      if !(decide (l < c) && decide (c ≤ l + apWindow a) && decide (c < 2 ^ 64)) then (bump d 0x780810 0, .fail 11)
      else if beNat (authMac a (keyBytes (slotOf d (hSlot (apKey a)))) hdr pay c) / 2 ^ (128 - apMacLen a) ≠ tag then
        (bump d 0x780808 0, .fail 1)
      else (modFresh d prof (fun f => { f with val := c, advances := f.advances + 1, shut := false }), .pdu pay)

/-- R351: generation under a profile: the secured PDU. -/
def authGenerate (d : Dev) (prof : Nat) (pay : Bytes) : Dev × AuthOut :=
  let a := authRec d prof
  let st := keyStatus d (apKey a) 0 4
  if d.cry.locked then (d, .fail 5)
  else if st ≠ 0 then (countDeny d st, .fail st)
  else match freshNext (freshOf d prof) with
    | .wait => (d, .wait)
    | .halted r => (freshHalt d prof r, .fail 9)
    | .use fv =>
      let hdr := authHeader a pay.length
      let mac := authMac a (keyBytes (slotOf d (hSlot (apKey a)))) hdr pay fv
      (modFresh d prof (fun f => { f with val := fv, shut := false }), .pdu (hdr ++ pay ++ authTrailer a fv mac))

/-- R289: the job of an AUTH value. -/
def authJob (d : Dev) (entry : Nat) (data : Bytes) : Dev × AuthOut :=
  let prof := rtAuthProf entry
  match rtAuth entry with
  | 1 => authVerify d prof data
  | 2 => match authVerify d prof data with
    | (d, .pdu _) => (d, .pdu data)
    | r => r
  | 3 => authGenerate d prof data
  | _ => match authVerify d prof data with
    | (d2, .pdu pay) =>
      (match authGenerate d2 (apPair (authRec d prof)) pay with
       | (_, .wait) => (d, .wait)
       | r => r)
    | r => r

/-- R290: a job that fails drops every copy: counted, in the counter of its profile too, and reported at most once per 100 ms per profile. -/
def authDrop (d : Dev) (p : Pkt) : Dev :=
  let prof := rtAuthProf p.entry
  let d := lossAll (bumpR d 9 p.input) p.plan 9
  let d := match p.tx with
    | some tx => if tx.tsreq then txSet d tx (fun c => { c with frame := none, status := 8 }) else d
    | none => d
  let d := { d with rte := { d.rte with authSum := mapMod 0 d.rte.authSum prof (fun n => min (n + 1) tallyMax) } }
  let n := mapGet 0 d.rte.authCnt prof + 1
  let late := match mapGet? d.rte.authAt prof with | none => true | some t => decide (t + 100000000 ≤ runNs d)
  if late then
    raise { d with rte := { d.rte with authCnt := mapDel d.rte.authCnt prof, authAt := mapPut d.rte.authAt prof (runNs d) } }
      0x0A02 0 (e2 prof ++ eCount n)
  else { d with rte := { d.rte with authCnt := mapPut d.rte.authCnt prof n } }

/-- R290: the drops that have waited out their 100 ms are reported. -/
def authDropDue (d : Dev) : Dev :=
  d.rte.authCnt.foldl (fun d e =>
    if mapGet 0 d.rte.authAt e.1 + 100000000 ≤ runNs d then
      raise { d with rte := { d.rte with authCnt := mapDel d.rte.authCnt e.1, authAt := mapPut d.rte.authAt e.1 (runNs d) } }
        0x0A02 0 (e2 e.1 ++ eCount e.2)
    else d) d

/-- R290: the output re-enters the Landing at CRY with the copies of its route. -/
def authForward (d : Dev) (p : Pkt) (data : Bytes) : Dev :=
  let tx := match p.tx with | some t => if t.tsreq && p.seg != some false then some t else none | none => none
  let out : Pkt := { p with data := data, size := data.length, input := 8, tx := tx, seg := none, auth := rtAuth p.entry != 3, plan := [] }
  toAdmission (cellsIn d 8 data.length) out p.plan

/-- R30, R247, R290, R400: a sequencer that holds slots serves the first frame of its queue whose AUTH value `want` takes; with the
arrival reserve of CRY full it waits. -/
def authServe (d : Dev) (sq : Nat) (want : Nat → Bool) : Dev :=
  let items := (laneOf d (128 + sq)).items
  if !cryOn d || 16 ≤ sq || frozen d (sqTwin sq) || !slotHeld d 4 (0x30 + sq) || arrivalFull d 8 then d
  else match items.find? (fun it => it.sent) with
    | none => d
    | some it =>
      if !want (rtAuth it.pkt.entry) then d
      else
        let r := authJob d it.pkt.entry it.pkt.data
        match r.2 with
        | .wait => d
        | o =>
          let t := sqTwin sq
          let d := modLane r.1 (128 + sq) (fun l => { l with items := l.items.filter (fun x => x.pkt.id != it.pkt.id) })
          let d := journalFree (journalAdd d t it.pkt.size) t it.pkt.size
          let d := bump (commitOut (stepEcs d t) t (nextEcs d t)) 0x780800 0
          match o with
          | .pdu data => authForward d it.pkt data
          | _ => authDrop d it.pkt

/-- AUTH_VERIFY. -/
def execAuthVerify (sq : Nat) : State → Host.Outcome State Fault Refusal :=
  act (fun d => authServe d sq (fun a => a == 1 || a == 2))
/-- AUTH_GENERATE. -/
def execAuthGenerate (sq : Nat) : State → Host.Outcome State Fault Refusal := act (fun d => authServe d sq (fun a => a == 3))
/-- AUTH_VERIFY_GENERATE. -/
def execAuthVerifyGenerate (sq : Nat) : State → Host.Outcome State Fault Refusal :=
  act (fun d => authServe d sq (fun a => a == 4))

/-! ## Checkpoints (R353, R354, R522; DEDUCED, log entry 47; DEDUCED, log entry 48) -/

/-- R522: the MAC key of a checkpoint record. -/
def fmacKey (d : Dev) : Bytes := kdf (slotOf d 1).mat (label "JG7440-FMAC") [] 32

/-- R522: a record of the ring. -/
def freshBytes (d : Dev) (prof kind val seq : Nat) : Bytes :=
  let body := leBytes 2 prof ++ leBytes 1 kind ++ [0] ++ leBytes 8 val ++ leBytes 4 seq
  body ++ cmac (fmacKey d) body

/-- A valid record as profile, kind, value, SEQ. -/
def freshParse (d : Dev) (bs : Bytes) : Option (Nat × Nat × Nat × Nat) :=
  if cmac (fmacKey d) (bs.take 16) == bs.drop 16 then some (leAt bs 0 2, leAt bs 2 1, leAt bs 4 8, leAt bs 12 4) else none

/-- The address of a ring sector, 0 to 63. -/
def ringAddr (d : Dev) (s : Nat) : Nat := secAddr d (512 + s)

/-- The valid records of a ring sector. -/
def ringRecords (d : Dev) (s : Nat) : List (Nat × Nat × Nat × Nat) :=
  if !flUsed d (ringAddr d s) 4096 then []
  else (List.range 127).filterMap (fun i =>
    let a := ringAddr d s + 32 + 32 * i
    if flUsed d a 32 then freshParse d (flRead d a 32) else none)

/-- R524: a program at the head of the ring. A sector that is retired takes its header and records along. -/
def ringProg (d : Dev) (off : Nat) (bs : Bytes) (res : FlashRes) : Dev :=
  let l := 512 + d.store.head
  if res = .ok then secProg d l off bs [] else secProg d l 0 (flRead d (secAddr d l) off ++ bs) [res]

/-- One record at the head, which has room. -/
def ringPut (d : Dev) (prof kind val : Nat) (res : FlashRes) : Dev :=
  let seq := d.store.recSeq
  let d := ringProg d (32 + 32 * d.store.fill) (freshBytes d prof kind val seq) res
  if d.store.freshRo then d
  else
    let d := { d with store := { d.store with fill := d.store.fill + 1, recSeq := seq + 1 } }
    modFresh d prof (fun f => { f with ckpt := val, seq := seq })

/-- R522: the head moves to the next sector, which has been erased; what is latest in the oldest sector is rewritten there,
and the oldest sector is erased. -/
def ringTurn (d : Dev) : Nat → Dev
  | 0 => d
  | n + 1 =>
    let h := (d.store.head + 1) % 64
    let d := { d with store := { d.store with head := h, fill := 0, ring := d.store.ring + 1 } }
    let d := flProg d (ringAddr d h) (leBytes 4 d.store.ring ++ zeros 28)
    let o := (h + 1) % 64
    let live := (ringRecords d o).filter (fun r => (freshOf d r.1).seq == r.2.2.2)
    let d := live.foldl (fun d r => ringPut d r.1 r.2.1 r.2.2.1 .ok) d
    let d := flErase d (ringAddr d o) 4096
    if d.store.fill < 127 then d else ringTurn d n

/-- SC1 stores a checkpoint of a profile. -/
def putCkpt (d : Dev) (prof val : Nat) (res : FlashRes) : Dev :=
  let d := if d.store.fill < 127 && d.store.ring != 0 then d else ringTurn d 64
  let d := if res = .fail then raise d 0x0C04 0 (e2 prof) else d
  let kind := if apDir (authRec d prof) = 1 then 0 else 1
  ringPut d prof kind val res

/-- SC1 can write: it runs, the store key is held, and the island of the Crypto Block is powered. -/
def ckptMay (d : Dev) : Bool := running d && svcUp d 1 && (slotOf d 1).full && !d.kvt.locked

/-- R353: one checkpoint that is due. A read-only region refuses it. -/
def freshCkpt (d : Dev) (prof : Nat) (res : FlashRes) : Dev :=
  if !ckptMay d || !ckptDue d prof then d
  else
    let f := freshOf d prof
    let gen := apDir (authRec d prof) = 1
    let d := if d.store.freshRo then d else putCkpt d prof (if gen then freshLimit f else f.val) res
    if d.store.freshRo then modFresh d prof (fun f => { f with refused := true })
    else modFresh d prof (fun f => { f with advances := 0 })

/-- FRESH_CHECKPOINT. -/
def execFreshCheckpoint (prof : Nat) (res : FlashRes) : State → Host.Outcome State Fault Refusal :=
  act (fun d => freshCkpt d prof res)

/-- Profiles of the image with their freshness state. -/
def profiles (d : Dev) : List Nat := (overlay d 0x11 d.img.auth).map (fun e => e.1)

/-- R428: every cluster with members is ASLEEP. -/
def allAsleep (d : Dev) : Bool := (List.range 32).all (fun c => !nmTakesPart d c || (clusterOf d c).st == 0)

/-- R353: a profile's current value as a shutdown checkpoint. -/
def shutOne (d : Dev) (prof : Nat) : Dev :=
  if (freshOf d prof).shut then d
  else
    let d := putCkpt d prof (freshOf d prof).val .ok
    modFresh d prof (fun f => { f with shut := true, advances := 0 })

/-- R353: the shutdown checkpoint of every profile. -/
def shutCkpt (d : Dev) : Dev :=
  if !ckptMay d || !allAsleep d || d.store.freshRo then d else (profiles d).foldl shutOne d

/-- SHUTDOWN_CHECKPOINT. -/
def execShutdownCheckpoint : State → Host.Outcome State Fault Refusal := act shutCkpt

end Sys2Proof.Machine
end

