-- ==== Sys2Proof/Machine/CanRx.lean ====
section
/-! DEFINITION. The commands of a CAN channel's receiver and of its state (chapter 07): CAN_FRAME_RECEIVED,
CAN_FILTER_VERDICT, CAN_RX_ERROR, CAN_INIT_REQUEST, CAN_INIT_LEAVE, CAN_INIT_ENTRY, CAN_INTEGRATED, CAN_RECOVER,
CAN_BUS_ON, CAN_STATE_PARITY. -/

namespace Sys2Proof.Machine

/-! ## Acceptance filter (R176 to R180) -/

/-- R180: a filter memory entry of a grove. -/
def filtEntry (d : Dev) (g e : Nat) : Nat := if e < 8192 then mapGet 0 d.img.canFilt (8192 * g + e) else 0

/-- R177: entries of types 1 to 3 on a Classical or FD frame. -/
def idMatch (e : Nat) (f : CanFrame) : Bool :=
  let m := if f.xtd then 2 ^ 29 else 2 ^ 11
  let a := bits e 0 29 % m
  let b := bits e 29 29 % m
  f.fmt != .xl && bit e 59 == f.xtd &&
    (match bits e 61 3 with
     | 1 => decide (a ≤ f.id) && decide (f.id ≤ b)
     | 2 => f.id == a || f.id == b
     | 3 => f.id &&& b == a &&& b
     | _ => false)

/-- R177: the masked comparisons of type 4. -/
def xlMatch (e : Nat) (f : CanFrame) : Bool :=
  f.fmt == .xl && (f.id ^^^ bits e 0 11) &&& bits e 11 11 == 0 && (f.vcid ^^^ bits e 22 8) &&& bits e 30 8 == 0 &&
    (f.sdt ^^^ bits e 38 8) &&& bits e 46 8 == 0

/-- R177: the leading bits of the acceptance field of type 5. -/
def afMatch (e : Nat) (f : CanFrame) : Bool :=
  f.fmt == .xl && (f.af ^^^ bits e 0 32) >>> (32 - min 32 (bits e 32 6)) == 0

/-- R177: the second entry of a chain. -/
def chainMatch (e : Nat) (f : CanFrame) : Bool :=
  if bits e 61 3 = 5 then afMatch e f else if bits e 61 3 = 4 then xlMatch e f else idMatch e f

/-- R178: the REJ bit of the first entry that matches; a chained pair is one entry. -/
def filtRun (f : CanFrame) : List Nat → Option Bool
  | [] => none
  | e :: rest =>
    if bits e 61 3 = 4 && bit e 58 then
      match rest with
      | [] => none
      | e2 :: rest2 => if xlMatch e f && chainMatch e2 f then some (bit e 60) else filtRun f rest2
    else if (if bits e 61 3 = 4 then xlMatch e f else idMatch e f) then some (bit e 60)
    else filtRun f rest

/-- R176, R178: the verdict on a frame of the receive stage: true accepts. -/
def filtAccepts (d : Dev) (g : Nat) (s : RxStage) : Bool :=
  let es := (List.range (min s.cnt (8192 - s.base))).map (fun k => filtEntry d g (s.base + k))
  match filtRun s.frame es with
  | some rej => !rej
  | none => !s.rej

/-! ## Reception -/

/-- R170, R175: the frame's format is one that the channel does not have under the bit timing latched before its SOF: 0 FD, 1 XL. -/
def protoKind (d : Dev) (ch : Nat) (l : CanLatch) (f : CanFrame) : Option Nat :=
  let pwm := bit l.bt.xbt 19
  match f.fmt with
  | .classical => none
  | .xl => if xlEn d ch then none else some 1
  | _ => if fdEn d ch && !pwm then none else some 0

/-- R175: a protocol exception: counted, reported at most once per 100 ms with the count; a form error with PXHD. -/
def protoExc (d : Dev) (ch k : Nat) : Dev :=
  let d := bumpC d ch 0x158
  let c := canOf d ch
  let late := match c.pxLast with | none => true | some t => decide (t + 100000000 ≤ runNs d)
  let d := if late then
      raise (modCan d ch (fun c => { c with pxCount := 0, pxLast := some (runNs d) })) 0x0707 0
        (e1 ch ++ e1 k ++ eCount (c.pxCount + 1))
    else modCan d ch (fun c => { c with pxCount := c.pxCount + 1 })
  if bit (canCtl d ch) 5 then recAdd (bumpC d ch 0x118) ch 1 else d

/-- R424, R425: a frame received while the cluster sleeps is routed nowhere; with WAKEON it wakes the cluster. -/
def sleepFrame (d : Dev) (c : Nat) : Dev :=
  let d := bumpN d c 0xB8
  if bit (nmReg d c 12) 8 then nmEvent d c 2 else d

/-- R168, R179, R180: a frame at its receive validity point enters the receive stage under what was latched at its SOF, `back` commits
ago. In internal loop-back the channel does not see the bus (R162). -/
def rxFrame (d : Dev) (ch back : Nat) (f : CanFrame) : Dev :=
  let c := canOf d ch
  let l := latchOf d ch back
  if !canLive d ch || !canRuns c || c.opmode == 2 then d
  else
  let d := modCan d ch (fun c => { c with past := [] })
  match protoKind d ch l f with
    | some k => protoExc d ch k
    | none =>
      let d := recGood d ch
      let asleep := match canCluster d ch with | some k => if nmSleeps d k then some k else none | none => none
      match asleep with
      | some k => sleepFrame d k
      | none => stageFrame d ch l f

/-- R96: a frame that ends during a wake, before routing opens, is counted and not routed. -/
def canReceive (d : Dev) (ch back : Nat) (f : CanFrame) : Dev :=
  if waking d then (if decide (ch < 24) && canInImage d ch then bump d 0x10028 0 else d) else rxFrame d ch back f

/-- CAN_FRAME_RECEIVED. -/
def execCanFrameReceived (ch : Nat) (f : RxFrame) : State → Host.Outcome State Fault Refusal :=
  act (fun d => canReceive d ch f.back f.frame)

/-- A received CAN frame as a PDU. -/
def canPkt (d : Dev) (ch : Nat) (f : CanFrame) : Pkt :=
  { kind := fmtKind f.fmt, can := f, data := f.data, size := f.data.length, ingress := ch, input := ch / 6,
    stamp := nowNs d, unsync := !synced d }

/-- R178, R179, R92: the verdict on the oldest frame of the stage: dropped, or handed to the grove's classifier while ingress
admission is open and the crossing takes it. A crossing in its timeout drops and counts it itself (R159). -/
def filterVerdict (d : Dev) (ch : Nat) : Dev :=
  match (canOf d ch).stage with
  | [] => d
  | s :: rest =>
    let d := modCan d ch (fun c => { c with stage := rest })
    if !filtAccepts d (ch / 6) s then bumpC d ch 0x110
    else
      let d := bumpC d ch 0x100
      let g := xOf d ch false
      if d.clk.ingress && g.timed then bumpX (modX d ch false (fun g => { g with dropped := g.dropped + 1 })) 1 ch false 1
      else if !d.clk.ingress || !xTakes g ch (frameWords s.frame) then bumpC d ch 0x150
      else
        let p := canPkt d ch s.frame
        toParse (bumpBy d 0x500080 (ch / 6) (cells p.size)) (ch / 6)
          [{ pkt := p, named := none, eth := false, ptype := if s.frame.fmt == .xl then 2 else 1 }]

/-- CAN_FILTER_VERDICT. -/
def execCanFilterVerdict (ch : Nat) : State → Host.Outcome State Fault Refusal := act (fun d => filterVerdict d ch)

/-- R193: a frame that the channel receives and finds in error. -/
def rxError (d : Dev) (ch steps : Nat) : Dev :=
  if !canLive d ch || !canRuns (canOf d ch) || (canOf d ch).opmode == 2 then d
  else recSteps (bumpC (modCan d ch (fun c => { c with past := [] })) ch 0x118) ch steps

/-- R202: the matcher watches a channel: EN of CAN_SWKCTL, in M1 Watch. -/
def swkWatched (d : Dev) (ch : Nat) : Bool :=
  d.clk.mode == .m1 && d.clk.trans == .idle && outOfReset d && decide (ch < 24) && canInImage d ch &&
    flag d (canBase ch + 0x70) 0

/-- R193, R204: an error in a frame; in M1 Watch it raises the frame error counter. -/
def canError (d : Dev) (ch steps : Nat) : Dev :=
  if swkWatched d ch then modCan d ch (fun c => { c with swkFec := c.swkFec + 1 }) else rxError d ch steps

/-- CAN_RX_ERROR. -/
def execCanRxError (ch steps : Nat) : State → Host.Outcome State Fault Refusal :=
  act (fun d => canError d ch steps)

/-! ## INIT, integration, recovery -/

/-- R165: INIT is written 1. -/
def initRequest (d : Dev) (ch : Nat) : Dev :=
  let d := putFld d (canBase ch) 0 1 1
  if canLive d ch then initUpdate d ch else d

/-- CAN_INIT_REQUEST. -/
def execCanInitRequest (who : Initiator) (ch : Nat) : State → Host.Outcome State Fault Refusal :=
  access who (.canInitRequest who ch) (fun d => canWr d who ch 0 (fun d => initRequest d ch))

/-- R164, R165: INIT is written 0. -/
def initLeave (d : Dev) (ch : Nat) : Dev :=
  let d := putFld d (canBase ch) 0 1 0
  if canLive d ch then initUpdate d ch else d

/-- CAN_INIT_LEAVE. -/
def execCanInitLeave (who : Initiator) (ch : Nat) : State → Host.Outcome State Fault Refusal :=
  access who (.canInitLeave who ch) (fun d => canWr d who ch 0 (fun d => initLeave d ch))

/-- R165: the end of the frame in progress, or the idle bus: a due entry acts if its cause still holds. -/
def initEntry (d : Dev) (ch : Nat) : Dev :=
  let c := canOf d ch
  if c.initDue && (onBus c).isNone then
    (if initCause d ch then enterInit d ch else modCan d ch (fun c => { c with initDue := false }))
  else d

/-- CAN_INIT_ENTRY. -/
def execCanInitEntry (ch : Nat) : State → Host.Outcome State Fault Refusal := act (fun d => initEntry d ch)

/-- R164: 11 recessive bits have been seen: the channel is error active. -/
def integrated (d : Dev) (ch : Nat) : Dev :=
  if (canOf d ch).state = 1 && canLive d ch then modCan d ch (fun c => { c with state := 2 }) else d

/-- CAN_INTEGRATED. -/
def execCanIntegrated (ch : Nat) : State → Host.Outcome State Fault Refusal := act (fun d => integrated d ch)

/-- R196: RECOVER is written in bus-off. -/
def canRecover (d : Dev) (ch : Nat) : Dev :=
  if (canOf d ch).state = 4 && canLive d ch then modCan d ch (fun c => { c with state := 5, byReq := true }) else d

/-- CAN_RECOVER. -/
def execCanRecover (who : Initiator) (ch : Nat) : State → Host.Outcome State Fault Refusal :=
  access who (.canRecover who ch) (fun d => canWr d who ch 0 (fun d => canRecover d ch))

/-- R196: 128 occurrences of 11 recessive bits: both counters are 0, the channel integrates and reports. -/
def busOn (d : Dev) (ch : Nat) : Dev :=
  let c := canOf d ch
  if c.state = 5 && canLive d ch then
    raise (btLatch (modCan d ch (fun c => { c with state := 1, tec := 0, rec' := 0 })) ch) 0x0703 0
      (e1 ch ++ eFlag c.byReq)
  else d

/-- CAN_BUS_ON. -/
def execCanBusOn (ch : Nat) : State → Host.Outcome State Fault Refusal := act (fun d => busOn d ch)

/-- R197: a parity error in the protocol state: the bus sees a cut frame, the channel enters INIT at once, reports as F1
and integrates again unless INIT is held. -/
def stateParity (d : Dev) (ch : Nat) : Dev :=
  if canLive d ch then
    let n := heldFrames d ch
    let d := if (onBus (canOf d ch)).isSome then emit d (.canXbit ch 0) else d
    leaveInit (raiseF (enterInit d ch) 0x070B 1 (e1 ch ++ eCount n)) ch
  else d

/-- CAN_STATE_PARITY. -/
def execCanStateParity (ch : Nat) : State → Host.Outcome State Fault Refusal := act (fun d => stateParity d ch)

end Sys2Proof.Machine
end

