-- ==== Sys2Proof/Machine/CanTx.lean ====
section
/-! DEFINITION. The commands of a CAN channel's transmitter (chapter 07): CAN_TX_ERROR, CAN_ARB_LOST, CAN_FRAME_SENT,
CAN_SELECTION, CAN_SOF, CAN_BUFFER_REFILL, CAN_COLUMN_START, CAN_COLUMN_END, CAN_CANCEL_REQUEST, CAN_MB_ACQ, CAN_MB_REL,
CAN_MB_GO. -/

namespace Sys2Proof.Machine

/-! ## The end of an attempt -/

/-- R169: TDC_RANGE of a measured delay: 0 FD, 1 XL; none where it is in range or not compensated. -/
def tdcFault (b : CanBt) (f : CanFrame) (tdcv : Nat) : Option Nat :=
  let xl := f.fmt == .xl
  let off := if xl then bits b.tdc 8 8 else bits b.tdc 0 8
  let en := if xl then bit b.tdc 25 else bit b.tdc 24
  if en && (tdcv < bits b.tdc 16 8 || 255 < tdcv + off) then some xl.toNat else none

/-- R193, R194: a failed attempt: counted, TEC raised in `n` steps, the frame kept for retry. -/
def attemptFails (d : Dev) (ch b : Nat) (x : XbFrame) (n : Nat) : Dev :=
  lateLoad (tecSteps (attemptOver (bumpC d ch 0x120) ch b x) ch n) ch

/-- R169, R193: a transmit attempt ends in an error. -/
def txError (d : Dev) (ch : Nat) (e : TxErr) : Dev :=
  match onBus (canOf d ch) with
  | none => d
  | some b => match xbOf (canOf d ch) b with
    | none => d
    | some x => match e with
      | .detected n => attemptFails d ch b x n
      | .delay tdcv =>
        let d := modCan d ch (fun c => { c with tdcv := tdcv % 256 })
        match tdcFault (canOf d ch).bt x.frame tdcv with
        | none => d
        | some k =>
          let d := raise (modCan d ch (fun c => { c with tdcErr := true })) 0x0708 0 (e1 ch ++ e1 k ++ e1 tdcv)
          attemptFails d ch b x 1

/-- CAN_TX_ERROR. -/
def execCanTxError (ch : Nat) (e : TxErr) : State → Host.Outcome State Fault Refusal := act (fun d => txError d ch e)

/-- R186: a frame that loses arbitration stays in its buffer. -/
def arbLost (d : Dev) (ch : Nat) : Dev :=
  match onBus (canOf d ch) with
  | none => d
  | some b => match xbOf (canOf d ch) b with
    | none => d
    | some x => lateLoad (attemptOver (bumpC d ch 0x128) ch b x) ch

/-- CAN_ARB_LOST. -/
def execCanArbLost (ch : Nat) : State → Host.Outcome State Fault Refusal := act (fun d => arbLost d ch)

/-- R170, R172, R208: a frame on TXD, with ESI from the channel's own error state and its PWM coding told first. In internal loop-back
TXD stays recessive, and the channel receives its own frame (R162), under what it latched at the SOF. -/
def canOut (d : Dev) (ch : Nat) (x : XbFrame) : Dev :=
  let c := canOf d ch
  let f := { x.frame with esi := c.state == 3 && x.frame.fmt != .classical }
  if c.opmode = 2 then stageFrame d ch (latchOf d ch c.past.length) f
  else
    emit (if f.fmt == .xl && bit c.bt.xbt 19 then emit d (.canPwm ch (bits c.bt.xbt 20 6) (bits c.bt.xbt 26 6)) else d) (.can ch f)

/-- R186, R190, R192, R201: a frame completes and leaves its buffer. -/
def frameSent (d : Dev) (ch : Nat) : Dev :=
  match onBus (canOf d ch) with
  | none => d
  | some b => match xbOf (canOf d ch) b with
    | none => d
    | some x =>
      let d := modCan (canOut d ch x) ch (fun c => { c with past := [] })
      let d := storeDrop (tecGood (bumpC (clearXb d ch b) ch 0x108) ch) ch x
      let d := if x.cancel then
          let d := modCan d ch (fun c => { c with cBuf := b, cRes := 1, cTag := x.tag })
          raise (bumpC d ch 0x140) 0x0704 0 (e1 ch ++ e1 b ++ e2 x.tag)
        else d
      lateLoad (mbLeft d ch x 0) ch

/-- CAN_FRAME_SENT. -/
def execCanFrameSent (ch : Nat) : State → Host.Outcome State Fault Refusal := act (fun d => frameSent d ch)

/-! ## Selection (R184) -/

/-- R66: in M6 and M7 a channel without a hold route sends nothing more. -/
def holdChannel (d : Dev) (ch : Nat) : Bool :=
  d.img.hold.any (fun h => holdRoute d h.1 && (entryDests d h.1 (routeEntry d h.1)).any (fun x => qChannel x.q == some ch))

/-- The channel may send: running, not in bus monitoring, no entry to INIT due. -/
def mayTx (d : Dev) (ch : Nat) : Bool :=
  let c := canOf d ch
  canLive d ch && canRuns c && c.opmode != 1 && !c.initDue && !canAsleep d ch && (!holdMode d || holdChannel d ch)

/-- The buffers with a frame ready; in an exclusive column XB0 alone (R189). -/
def readyBufs (c : CanCh) : List (Nat × XbFrame) :=
  ([0, 1, 2].filterMap (fun b => (xbOf c b).map (fun x => (b, x)))).filter (fun p => !c.schExcl || p.1 == 0)

/-- R184: identifier priority: the frame that wins arbitration, of equals the one filled first. -/
def bestReady (l : List (Nat × XbFrame)) : Option Nat :=
  (l.foldl (fun (a : Option (Nat × XbFrame)) p => match a with
    | none => some p
    | some q =>
      if arbKey p.2.frame < arbKey q.2.frame || (arbKey p.2.frame == arbKey q.2.frame && p.2.order < q.2.order)
      then some p else some q) none).map (fun p => p.1)

/-- R168, R184: the selection instant: the group in force is latched and the next frame picked under ORDER. -/
def selection (d : Dev) (ch : Nat) : Dev :=
  let c := canOf d ch
  if !canLive d ch || !canRuns c || (onBus c).isSome then d
  else
    let d := btLatch d ch
    let l := readyBufs c
    let pick := if !mayTx d ch then none
      else if bit (canCtl d ch) 9 then l.head?.map (fun p => p.1) else bestReady l
    modCan d ch (fun c => { c with next := pick })

/-- CAN_SELECTION. -/
def execCanSelection (ch : Nat) : State → Host.Outcome State Fault Refusal := act (fun d => selection d ch)

/-- R183, R189, R400: the SOF of the frame picked; that of its first attempt is its egress commit. In an exclusive column only XB0
starts one. -/
def sofStep (d : Dev) (ch : Nat) : Dev :=
  let c := canOf d ch
  match c.next with
  | none => d
  | some b => match xbOf c b with
    | none => d
    | some x =>
      if !mayTx d ch || (onBus c).isSome || (c.schExcl && b != 0) then d
      else
        let d := modCan d ch (fun c => { setXb c b (some { x with sof := true, onBus := true }) with past := [] })
        match x.pkt with
        | none => d
        | some p => if x.sof then d else if x.store.isSome then commitOut d 0 p.id else copyCommit d p.id

/-- CAN_SOF. -/
def execCanSof (ch : Nat) : State → Host.Outcome State Fault Refusal := act (fun d => sofStep d ch)

/-! ## Refill and swap (R182, R185) -/

/-- The staged heads of a channel's class queues, highest class first. -/
def stagedHeads (d : Dev) (ch : Nat) : List LaneItem :=
  ([3, 2, 1, 0].filterMap (fun t =>
    match (queueOf d (qCan ch t)).head? with
    | none => none
    | some h => (laneOf d (16 * (ch / 6) + ch % 6)).items.find? (fun it =>
        it.dest.q == qCan ch t && it.pkt.id == h.1 && it.got == it.n)))

/-- R41: the flow of a copy. -/
def flowOf (it : LaneItem) : Nat × Nat × Nat := (it.pkt.ingress, it.dest.route, it.dest.tc)

/-- R182: the flow guard. -/
def flowFree (c : CanCh) (it : LaneItem) : Bool :=
  [0, 1, 2].all (fun b => match xbOf c b with | some x => x.flow != flowOf it | none => true)

/-- R182: a staged head fills a buffer under the channel's next tag, or the tag that it kept. -/
def fillXb (d : Dev) (ch b : Nat) (it : LaneItem) : Dev :=
  let c := canOf d ch
  let x : XbFrame :=
    { frame := canFrameOf d ch it.pkt it.dest.fmt, tag := it.tag.getD c.nextTag, flow := flowOf it, pkt := some it.pkt,
      item := some it, store := none, mbox := false, sof := false, onBus := false, failed := false, cancel := false,
      expired := false, order := c.fills }
  let d := unqueue d it.dest.q it.pkt.id
  let d := modLane d (16 * (ch / 6) + ch % 6) (fun l =>
    { l with items := l.items.filter (fun i => !(i.pkt.id == it.pkt.id && i.dest.q == it.dest.q)) })
  let nt := if it.tag.isSome then c.nextTag else (c.nextTag + 1) % 65536
  modCan d ch (fun c => { setXb c b (some x) with nextTag := nt, fills := c.fills + 1 })

/-- R185: the lowest-priority Landing-fed frame; of equals the one filled last. -/
def lowestXb (d : Dev) (ch : Nat) : Option (Nat × XbFrame) :=
  ((landingBufs d ch).filterMap (fun b => (xbOf (canOf d ch) b).map (fun x => (b, x)))).foldl
    (fun (a : Option (Nat × XbFrame)) p => match a with
      | none => some p
      | some q =>
        if arbKey q.2.frame < arbKey p.2.frame || (arbKey q.2.frame == arbKey p.2.frame && q.2.order < p.2.order)
        then some p else some q) none

/-- R185: the displaced frame returns to the head of its class queue and keeps its tag. -/
def putBack (d : Dev) (ch : Nat) (x : XbFrame) : Dev :=
  match x.item with
  | none => d
  | some it =>
    let d := setQueue d it.dest.q ((it.pkt.id, it.dest) :: queueOf d it.dest.q)
    modLane d (16 * (ch / 6) + ch % 6) (fun l => { l with items := { it with tag := some x.tag } :: l.items })

/-- R185: a priority swap where one is due. -/
def swapStep (d : Dev) (ch : Nat) : Dev :=
  match lowestXb d ch with
  | none => d
  | some (b, x) =>
    if x.sof || x.onBus || x.cancel then d
    else
      let wins := (stagedHeads d ch).filter (fun it =>
        flowFree (canOf d ch) it && arbKey (canFrameOf d ch it.pkt it.dest.fmt) < arbKey x.frame)
      match wins.foldl (fun (a : Option LaneItem) it => match a with
          | none => some it
          | some y => if arbKey (canFrameOf d ch it.pkt it.dest.fmt) < arbKey (canFrameOf d ch y.pkt y.dest.fmt)
              then some it else some y) none with
      | none => d
      | some it => putBack (fillXb (modCan d ch (fun c => unpick (setXb c b none) b)) ch b it) ch x

/-- R182, R185, R189: XB0 loaded late from the store; refill of an empty Landing-fed buffer, else a swap with ORDER 0. -/
def refill (d : Dev) (ch : Nat) : Dev :=
  let c := canOf d ch
  if !canLive d ch || c.state = 0 || 4 ≤ c.state || outFrozen d (6 + ch / 6) then d
  else if c.schLoad.isSome && c.xb0.isNone then lateLoad d ch
  else match (landingBufs d ch).find? (fun b => (xbOf c b).isNone) with
    | some b =>
      (match (stagedHeads d ch).find? (flowFree c) with
       | some it => fillXb d ch b it
       | none => d)
    | none => if bit (canCtl d ch) 9 then d else swapStep d ch

/-- CAN_BUFFER_REFILL. -/
def execCanBufferRefill (ch : Nat) : State → Host.Outcome State Fault Refusal := act (fun d => refill d ch)

/-! ## The schedule matrix (R187 to R190) -/

/-- R188, R189: XB0 is loaded from the store, or the window stays silent. An XB0 that still holds the frame of an earlier window is
loaded when that frame has left. -/
def loadStore (d : Dev) (ch route : Nat) : Dev :=
  let c := canOf d ch
  match mapGet? c.store route with
  | none => bumpC d ch 0x178
  | some s =>
    if c.xb0.isSome || outFrozen d (6 + ch / 6) then modCan d ch (fun c => { c with schLoad := some route }) else storeXb d ch route s

/-- R187, R189: a column starts; the first after integration is column 0 of cycle 0. -/
def columnStart (d : Dev) (ch : Nat) : Dev :=
  let c := canOf d ch
  if !canLive d ch || !canRuns c || !hasMatrix d ch then d
  else
    let d := if c.schRun then d else modCan d ch (fun c => { c with schRun := true, schCyc := 0, schCol := 0 })
    let c := canOf d ch
    match matrixAt d ch c.schCyc c.schCol with
    | some (k, route) =>
      let d := modCan d ch (fun c => { c with schExcl := k == 0, schLoad := none, next := c.next.filter (fun b => k != 0 || b == 0) })
      if k = 0 || k = 1 then loadStore d ch route else d
    | none => modCan d ch (fun c => { c with schExcl := false, schLoad := none })

/-- CAN_COLUMN_START. -/
def execCanColumnStart (ch : Nat) : State → Host.Outcome State Fault Refusal := act (fun d => columnStart d ch)

/-- R190: a column ends: an XB0 frame of the store is withdrawn unsent, or with its attempt; matrix time moves on. -/
def columnEnd (d : Dev) (ch : Nat) : Dev :=
  let c := canOf d ch
  if !c.schRun then d
  else
    let d := match c.xb0 with
      | none => d
      | some x =>
        let d := modCan d ch (fun c => { c with missAt := (c.schCyc, c.schCol) })
        if x.store.isNone then d
        else if x.onBus then modCan d ch (fun c => setXb c 0 (some { x with expired := true }))
        else windowMiss d ch 0 x
    modCan d ch (fun c => { c with schExcl := false, schLoad := none, schCol := (c.schCol + 1) % 32,
                                   schCyc := if c.schCol % 32 = 31 then (c.schCyc + 1) % 64 else c.schCyc })

/-- CAN_COLUMN_END. -/
def execCanColumnEnd (ch : Nat) : State → Host.Outcome State Fault Refusal := act (fun d => columnEnd d ch)

/-! ## Cancel (R191, R192) -/

/-- R191, R192: a write of CAN_XBCANCEL. -/
def cancelRequest (d : Dev) (ch w : Nat) : Dev :=
  let b := bits w 0 2
  let tag := bits w 16 16
  if !canLive d ch || b = 3 then d
  else match (xbOf (canOf d ch) b).filter (fun x => x.tag == tag) with
    | none =>
      raise (modCan d ch (fun c => { c with cBuf := b, cRes := 2, cTag := tag })) 0x0705 0
        (e1 ch ++ e1 b ++ e2 tag ++ e1 2)
    | some x =>
      if x.cancel then d
      else if x.onBus then
        modCan d ch (fun c => { setXb c b (some { x with cancel := true }) with cBuf := b, cRes := 3, cTag := tag })
      else lateLoad (cancelXb d ch b x) ch

/-- CAN_CANCEL_REQUEST. -/
def execCanCancelRequest (who : Initiator) (ch : Nat) (w : Word) : State → Host.Outcome State Fault Refusal :=
  access who (.canCancelRequest who ch w) (fun d => canWr d who ch 0x40 (fun d => cancelRequest d ch w.toNat))

/-! ## Direct mailbox (R198 to R201) -/

/-- R199: OWNER of CAN_MBLOCK for an endpoint. -/
def mbNum (who : Initiator) : Option Nat := (endpointOf who).map (· + 1)

/-- R199: ACQ takes a free lock for the writer. -/
def mbAcq (d : Dev) (who : Initiator) (ch : Nat) : Dev :=
  match mbNum who with
  | none => d
  | some n => if canLive d ch && (canOf d ch).mbOwner = 0 then modCan d ch (fun c => { c with mbOwner := n }) else d

/-- CAN_MB_ACQ. -/
def execCanMbAcq (who : Initiator) (ch : Nat) : State → Host.Outcome State Fault Refusal :=
  access who (.canMbAcq who ch) (fun d => canWr d who ch 0x50 (fun d => mbAcq d who ch))

/-- R199: REL frees the lock of its holder. -/
def mbRel (d : Dev) (who : Initiator) (ch : Nat) : Dev :=
  if canLive d ch && mbNum who == some (canOf d ch).mbOwner then modCan d ch (fun c => { c with mbOwner := 0 }) else d

/-- CAN_MB_REL. -/
def execCanMbRel (who : Initiator) (ch : Nat) : State → Host.Outcome State Fault Refusal :=
  access who (.canMbRel who ch) (fun d => canWr d who ch 0x50 (fun d => mbRel d who ch))

/-- R198: the frame of the mailbox shadow. -/
def mbFrame (d : Dev) (ch : Nat) : CanFrame :=
  let a := reg d (canBase ch + 0x800)
  let b := reg d (canBase ch + 0x804)
  let fmt : CanFmt := if bit b 8 then (if bit b 9 then .fdBrs else .fd) else .classical
  let raw := ((List.range 16).map (fun k => leBytes 4 (reg d (canBase ch + 0x810 + 4 * k)))).flatten
  { canNone with fmt := fmt, xtd := bit a 29, rtr := bit a 30, id := if bit a 29 then bits a 0 29 else bits a 0 11,
                 data := padData fmt (padByteOf d ch) (raw.take (bits b 0 7)) }

/-- R200: REASON of a refused GO, or 0. Of several grounds the lowest code is given, and LEN above 64, which R198 does not have, is
an invalid header (DESIGN CHOICE, log entry 154). A channel with PWMEN carries no FD frame (R170). -/
def mbRefuse (d : Dev) (who : Initiator) (ch : Nat) : Nat :=
  let a := reg d (canBase ch + 0x800)
  let b := reg d (canBase ch + 0x804)
  let c := canOf d ch
  if mbNum who != some c.mbOwner then 1
  else if (match c.xb2 with | some x => x.mbox | none => false) then 2
  else if 64 < bits b 0 7 || (8 < bits b 0 7 && !bit b 8) || (bit a 30 && bit b 8) || (bit b 8 && !fdSends d ch) then 3
  else if !c.mbOn || !canRuns c then 4
  else 0

/-- R199, R200: GO copies the shadow into XB2, or is refused with a reason. -/
def mbGo (d : Dev) (who : Initiator) (ch : Nat) : Dev :=
  if !canLive d ch then d
  else
    let r := mbRefuse d who ch
    if r ≠ 0 then
      let d := if r = 1 then bumpC d ch 0x180 else d
      modCan d ch (fun c => { c with mbRef := true, mbReason := r })
    else
      let c := canOf d ch
      let x : XbFrame :=
        { frame := mbFrame d ch, tag := c.nextTag, flow := (0x100, 0, 0), pkt := none, item := none, store := none,
          mbox := true, sof := false, onBus := false, failed := false, cancel := false, expired := false, order := c.fills }
      modCan d ch (fun c => { c with xb2 := some x, nextTag := (c.nextTag + 1) % 65536, fills := c.fills + 1,
                                     mbRef := false, mbReason := 0, mbTag := x.tag })

/-- CAN_MB_GO. -/
def execCanMbGo (who : Initiator) (ch : Nat) : State → Host.Outcome State Fault Refusal :=
  access who (.canMbGo who ch) (fun d => canWr d who ch 0x54 (fun d => mbGo d who ch))

end Sys2Proof.Machine
end

