-- ==== Sys2Proof/Machine/MacOps.lean ====
section
/-! DEFINITION. MACsec on a port (R355 to R358; IEEE 802.1AE-2018): the check of a received frame and the protection of
a frame that leaves. -/

namespace Sys2Proof.Machine

/-- R355: a suite with extended packet numbers. -/
def isXpn (suite : Nat) : Bool := decide (2 ≤ suite % 4)

/-- The AES key of a SA; none where its slot no longer holds it (R360). -/
def saKey (d : Dev) (s : Sa) : Option Bytes := if handleLive d s.key then some (keyBytes (slotOf d (hSlot s.key))) else none

/-- 802.1AE: the IV of a packet number. -/
def saIv (s : Sa) (pn : Nat) : Bytes :=
  if isXpn s.suite then xorBytes (fit 12 s.salt) (beBytes 4 s.ssci ++ beBytes 8 pn) else beBytes 8 s.sci ++ beBytes 4 pn

/-- 802.1AE: the SecTAG: TCI and AN, SL, the low 32 bits of the PN and an explicit SCI. -/
def secTag (s : Sa) (pn len : Nat) : Bytes :=
  [0x88, 0xE5] ++ beBytes 1 (0x2C + s.an % 4) ++ beBytes 1 (if len < 48 then len else 0) ++ beBytes 4 (pn % 2 ^ 32) ++
    beBytes 8 s.sci

/-- A frame without its FCS, protected with confidentiality from offset 0. -/
def protect (key : Bytes) (s : Sa) (pn : Nat) (frame : Bytes) : Bytes :=
  let user := frame.drop 12
  let tag := secTag s pn user.length
  let aad := frame.take 12 ++ tag
  let c := gcmSeal key (saIv s pn) aad user
  aad ++ c.1 ++ c.2

/-- The receive SA of a tag: by its SCI where one is carried, else the port's SC that holds the AN. -/
def rxSaOf (d : Dev) (p an : Nat) (sci : Option Nat) : Option (Nat × Sa) :=
  d.cry.rxSa.find? (fun e => e.1 / 32 == p && e.2.an == an && (match sci with | some x => e.2.sci == x | none => true))

/-- 802.1AE: the packet number that the low 32 bits stand for, against the lowest acceptable one. -/
def pnOf (s : Sa) (low : Nat) : Nat :=
  if !isXpn s.suite then low
  else s.pn / 2 ^ 32 * 2 ^ 32 + low + (if bit s.pn 31 && !bit low 31 then 2 ^ 32 else 0)

/-- A MACsec counter of a port, by its offset (R362). -/
def bumpMs (d : Dev) (p off : Nat) : Dev := bump d off p

/-- R357: the check of a received frame without its FCS, with EtherType 0x88E5: the frame without its SecTAG and ICV, or a
counted drop. -/
def msReceive (d : Dev) (p : Nat) (data : Bytes) : Dev × Option Bytes :=
  let tci := byteAt data 14
  let sc := bit tci 5
  let n := if sc then 28 else 20
  let sci := if sc then some (beNat (slice data 20 8)) else none
  if bit tci 7 || bit tci 4 || data.length < n + 16 then (bumpMs d p 0x780850, none)
  else match rxSaOf d p (tci % 4) sci with
    | none => (bumpMs d p 0x780850, none)
    | some (ix, s) =>
      match saKey d s with
      | none => (bumpMs d p 0x780850, none)
      | some key =>
        let sl := byteAt data 15 % 64
        let len := if sl = 0 then data.length - n - 16 else min sl (data.length - n - 16)
        let pn := pnOf s (beNat (slice data 16 4))
        if pn < s.pn then (bumpMs d p 0x780848, none)
        else
          let body := slice data n len
          let icv := slice data (n + len) 16
          let res := if bit tci 3 then gcmOpen key (saIv s pn) (data.take n) body icv
            else (gcmOpen key (saIv s pn) (data.take n ++ body) [] icv).map (fun _ => body)
          match res with
          | none => (bumpMs d p 0x780840, none)
          | some user =>
            let low := pn + 1 - Config.msWindow p (ix % 32 / 4)
            let s := { s with pn := max s.pn low }
            ({ d with cry := { d.cry with rxSa := mapPut d.cry.rxSa ix s } }, some (data.take 12 ++ user))

/-! ## Transmission (R358) -/

/-- The transmit SA in use of a port: installed under TXAN, not stopped, its key held. -/
def txSaNow (d : Dev) (p : Nat) : Option Sa :=
  let an := mapGet 0 d.cry.txAn p
  match mapGet? d.cry.txSa (2 * p + an % 2) with
  | none => none
  | some s => if s.an == an && !s.stopped && (saKey d s).isSome then some s else none

/-- R358: the largest PN of a suite, and the rekey threshold. -/
def lastPn (suite : Nat) : Nat := if isXpn suite then 2 ^ 64 - 1 else 2 ^ 32 - 1
def rekeyAt (d : Dev) (suite : Nat) : Nat :=
  if isXpn suite then reg d 0x780010 + reg d 0x780014 * 2 ^ 32 else reg d 0x780018

/-- R358: what the next PN of a transmit SA brings: MACSEC_REKEY once, MACSEC_SA_STOP past the last PN. -/
def pnStep (d : Dev) (p : Nat) (s : Sa) : Dev :=
  let re := !s.rekeyed && decide (rekeyAt d s.suite ≤ s.pn)
  let stop := !s.stopped && decide (lastPn s.suite < s.pn)
  let s' := { s with rekeyed := s.rekeyed || re, stopped := s.stopped || stop }
  let d := { d with cry := { d.cry with txSa := mapPut d.cry.txSa (2 * p + s.an % 2) s' } }
  let d := if re then raise d 0x0C05 0 (e1 p ++ e1 s.an ++ e4 (s.pn / 2 ^ 32)) else d
  if stop then raise d 0x0C06 0 (e1 p ++ e1 s.an) else d

end Sys2Proof.Machine
end

