-- ==== Sys2Proof/Machine/EthRx.lean ====
section
/-! DEFINITION. Reception on an Ethernet port (chapter 08): ETH_FRAME_RECEIVED, ETH_PAUSE_RECEIVED, ETH_PAUSE_END; the
ACF path of the classifier (R291, R292). -/

namespace Sys2Proof.Machine

/-! ## Pause (R217, R218) -/

/-- R218: a requested pause above PAUSEMAX is cut, counted, and reported at most once per second. -/
def pauseCap (d : Dev) (p q : Nat) : Dev × Nat :=
  let m := fld d (ethBase p + 0x14) 16 16
  if m = 0 || q ≤ m then (d, q)
  else
    let d := bumpE d p 0x198
    let late := match (ethOf d p).capLast with | none => true | some t => decide (t + 1000000000 ≤ runNs d)
    if late then (raise (modEth d p (fun e => { e with capLast := some (runNs d) })) 0x0804 0 (e1 p ++ e2 q), m)
    else (d, m)

/-- R217, R218: a received pause frame is counted; with RXEN it replaces the pause in force, and 0 ends it. -/
def pauseRx (d : Dev) (p q : Nat) : Dev :=
  let d := bumpE d p 0x130
  if !flag d (ethBase p + 0x14) 0 then d
  else
    let c := pauseCap d p q
    modEth c.1 p (fun e => { e with paused := decide (0 < c.2),
                                    pauseEnd := runNs c.1 + ceilDiv (512000 * c.2) (macRate c.1 p) })

/-- ETH_PAUSE_RECEIVED, in LINK_UP. -/
def pauseReceived (d : Dev) (p q : Nat) : Dev :=
  if !ethLive d p then d else if (ethOf d p).st ≠ 3 then bumpE d p 0x140 else pauseRx d p (q % 65536)

def execEthPauseReceived (port quanta : Nat) : State → Host.Outcome State Fault Refusal :=
  act (fun d => pauseReceived d port quanta)

/-- R218: the pause time has run out. -/
def pauseOver (d : Dev) (p : Nat) : Dev :=
  if (ethOf d p).paused && decide ((ethOf d p).pauseEnd ≤ runNs d) then modEth d p (fun e => { e with paused := false })
  else d

/-- ETH_PAUSE_END. -/
def execEthPauseEnd (port : Nat) : State → Host.Outcome State Fault Refusal := act (fun d => pauseOver d port)

/-! ## The ACF path (R291, R292) -/

/-- R292: a frame from port `n` takes the ACF path. -/
def isAcf (d : Dev) (n : Nat) (data : Bytes) : Bool :=
  let g := n / 2
  let o := (ethHdr data).off + 2
  flag d (0x580010 + 4 * g) 15 && decide (0 < parseEngines d g 5) && (ethHdr data).et == 0x22F0 &&
    (byteAt data o == 0x82 || byteAt data o == 0x02) && bit (byteAt data (o + 1)) 7 &&
    bits (be16At data (o + 4)) 1 15 == fld d (0x580010 + 4 * g) 0 15

/-- R292: offset of the first message and the end of the messages: NTSCF and TSCF headers of IEEE 1722-2016. -/
def acfSpan (data : Bytes) : Nat × Nat :=
  let o := (ethHdr data).off + 2
  if byteAt data o = 0x82 then (o + 12, o + 12 + be16At data (o + 1) % 2048)
  else (o + 24, o + 24 + be16At data (o + 20))

/-- One ACF message as a PDU (R291), from its header at `o`; `none` where it is dropped. -/
def acfPdu (data : Bytes) (o len sid port stamp : Nat) : Option Pkt :=
  let ty := byteAt data o / 2
  let fl := byteAt data (o + 2)
  let hdr := if ty = 1 then 16 else 8
  let pad := bits fl 6 2
  let idw := beNat (slice data (o + hdr - 4) 4) % 2 ^ 29
  let fdf := bit fl 1
  let n := 4 * len - hdr - pad
  if (ty = 1 || ty = 2) && hdr + pad ≤ 4 * len then
    if 64 < n || (8 < n && !fdf) then none
    else
      let fmt : CanFmt := if fdf then (if bit fl 2 then .fdBrs else .fd) else .classical
      let id := if bit fl 3 then idw else idw % 2048
      let f : CanFrame := { canNone with fmt := fmt, xtd := bit fl 3, rtr := bit fl 4, id := id, af := sid % 2 ^ 49,
                                         data := slice data (o + hdr) n }
      some { kind := fmtKind fmt, can := f, data := f.data, size := n, ingress := 0x40 + port, input := port / 2,
             stamp := stamp, acf := true }
  else none

/-- R291: the messages of a frame from offset `o`: the PDUs in frame order, and how many messages are dropped. A
malformed message ends the frame. -/
def acfWalk (data : Bytes) (stop sid port stamp : Nat) : Nat → Nat → List Pkt × Nat
  | 0, _ => ([], 0)
  | k + 1, o =>
    if stop < o + 4 then ([], if o < stop then 1 else 0)
    else
      let ty := byteAt data o / 2
      let len := be16At data o % 512
      if len = 0 || stop < o + 4 * len || data.length < o + 4 * len then ([], 1)
      else match acfPdu data o len sid port stamp with
        | some p => let r := acfWalk data stop sid port stamp k (o + 4 * len); (p :: r.1, r.2)
        | none =>
          if ty = 1 || ty = 2 then ([], 1)
          else let r := acfWalk data stop sid port stamp k (o + 4 * len); (r.1, r.2 + 1)

/-! ## Ingress (R212 to R216) -/

/-- R216: a MAC control frame. -/
def isMacCtl (data : Bytes) : Bool := beNat (data.take 6) == 0x0180C2000001

/-- R211: ingress code and Landing port of a port; ETHM enters with the frames of SVC. -/
def ethIngress (p : Nat) : Nat := if p = 8 then 0x82 else 0x40 + p
def ethInput (p : Nat) : Nat := if p = 8 then 6 else p / 2

/-- R275: the PARSE type of an Ethernet frame. -/
def ethPtype (d : Dev) (p : Nat) : Nat := if p < 8 && 0 < parseEngines d (p / 2) 4 then 4 else 3

/-- R225: the ingress timestamp of a frame of which `n` bytes have come: device time at the first bit after the SFD. -/
def rxStamp (d : Dev) (p n : Nat) : Nat := nowNs d - wireNs d p n

/-- R216: the ingress crossing of a port takes a frame of `n` bytes; one longer than its ring goes through it in parts. -/
def ethTakes (d : Dev) (p n : Nat) : Bool :=
  let x := 24 + p
  xTakes (xOf d x false) x (min (ceilDiv n 8) (xDepth x))

/-- A frame that has passed the checks of the port, of `wire` bytes on the line, enters the classifier: by the ACF path, or as one
lookup. -/
def ethClassify (d : Dev) (p : Nat) (data : Bytes) (len wire : Nat) : Dev :=
  let d := bumpBy (bumpE d p 0x100) (ethBase p + 0x108) 0 len
  if d.clk.ingress && (xOf d (24 + p) false).timed then
    bumpX (modX d (24 + p) false (fun g => { g with dropped := g.dropped + 1 })) 1 (24 + p) false 1
  else if !d.clk.ingress || !ethTakes d p len then bumpE d p 0x148
  else
    let d := bumpBy d 0x500080 (ethInput p) (cells len)
    if p < 8 && isAcf d p data then
      let s := acfSpan data
      let sid := beNat (slice data ((ethHdr data).off + 2 + 4) 8)
      let r := acfWalk data s.2 sid p (rxStamp d p wire) data.length s.1
      let d := bumpBy d 0x580350 (p / 2) r.2
      toParse d (p / 2) (r.1.map (fun q => { pkt := { q with unsync := !synced d }, named := none, eth := false, ptype := 5 }))
    else
      let q : Pkt := { kind := 0, data := data, size := len, ingress := ethIngress p, input := ethInput p, stamp := rxStamp d p wire,
                       unsync := !synced d, ethm := p == 8 }
      toParse d (ethInput p) [{ pkt := q, named := none, eth := true, ptype := ethPtype d p }]

/-- R213: the frame carries MACsec protection, and its limits hold after verification. -/
def isProtected (d : Dev) (p : Nat) (data : Bytes) : Bool := msEn d p && be16At data 12 == 0x88E5

/-- R212: a frame of `len` bytes breaks a limit: the counter's offset. -/
def limitDrop (d : Dev) (p : Nat) (data : Bytes) (len : Nat) : Option Nat :=
  if len < 64 then some 0x110 else if frameLimit d p data < len then some 0x120 else none

/-- R212, R213, R216: why a frame is dropped at ingress: the counter's offset. -/
def ethReject (d : Dev) (p : Nat) (frame : Bytes) (codeErr : Bool) : Option Nat :=
  let data := frame.take (frame.length - 4)
  if frame.length < 64 then some 0x110
  else if !isProtected d p data && frameLimit d p data < frame.length then some 0x120
  else if codeErr then some 0x128
  else if fcsOf data != frame.drop (frame.length - 4) then some 0x118
  else none

/-- R357: on a MACsec port a frame without a SecTAG is dropped, but for EtherType 0x888E. -/
def msUntagged (d : Dev) (p : Nat) (data : Bytes) : Bool :=
  msEn d p && be16At data 12 != 0x88E5 && (ethHdr data).et != 0x888E

/-- A whole frame at its end. -/
def ethWhole (d : Dev) (p : Nat) (frame : Bytes) (codeErr : Bool) : Dev :=
  let data := frame.take (frame.length - 4)
  match ethReject d p frame codeErr with
  | some c => bumpE d p c
  | none =>
    if isMacCtl data then
      (if be16At data 12 = 0x8808 && be16At data 14 = 1 then pauseRx d p (be16At data 16) else bumpE d p 0x138)
    else if msUntagged d p data then bumpMs d p 0x780858
    else if isProtected d p data then
      let r := msReceive d p data
      match r.2 with
      | none => r.1
      | some plain =>
        match limitDrop r.1 p plain (plain.length + 4) with
        | some c => bumpE r.1 p c
        | none => ethClassify r.1 p plain (plain.length + 4) frame.length
    else ethClassify d p data frame.length frame.length

/-! ## Cut-through (R223, R224) -/

/-- R223: the head of a frame is enough for its cut-through admission: 64 bytes, or 128 where its route is keyed on L3 or L4 fields. -/
def headEnough (d : Dev) (p : Nat) (hdr : Bytes) : Bool :=
  let q : Pkt := { data := hdr, ingress := 0x40 + p, input := p / 2 }
  decide ((if keyedL3 d q then 128 else 64) ≤ hdr.length)

/-- R223: the head of a frame at a port that may cut through. -/
def ethHead (d : Dev) (p : Nat) (hdr : Bytes) : Dev :=
  if p < 8 && gvCutThru (groveRec d (p / 2)) (p % 2) && headEnough d p hdr && !msEn d p && !isMacCtl hdr &&
      !isAcf d p hdr && d.clk.ingress && !(ethOf d p).headIn then
    let q : Pkt := { kind := 0, data := hdr, size := frameLimit d p hdr, ingress := 0x40 + p, input := p / 2,
                     stamp := rxStamp d p hdr.length, unsync := !synced d, part := true, headTaken := true }
    toParse (modEth d p (fun e => { e with headIn := true })) (p / 2)
      [{ pkt := q, named := none, eth := true, ptype := ethPtype d p }]
  else d

/-- The frame whose end has not come at a port. -/
def isPart (p : Nat) (q : Pkt) : Bool := q.part && q.ingress == 0x40 + p

/-- Change the partial frame of a port wherever it is. -/
def mapPart (d : Dev) (p : Nat) (f : Pkt → Pkt) : Dev :=
  let g : Pkt → Pkt := fun q => if isPart p q then f q else q
  let mp : NMap (List LookItem) → NMap (List LookItem) := fun m =>
    m.map (fun e => (e.1, e.2.map (fun it => { it with pkt := g it.pkt })))
  let n : Pkt → Nat → Nat := fun q m => if isPart p q then cells (f q).size else m
  let fr := d.lnd.frames.map (fun e => (e.1, { e.2 with pkt := g e.2.pkt, n := n e.2.pkt e.2.n }))
  let ln := d.lnd.lanes.map (fun e =>
    (e.1, { e.2 with items := e.2.items.map (fun it => { it with pkt := g it.pkt, n := n it.pkt it.n }) }))
  let wt := d.lnd.waiting.map (fun e => (e.1, e.2.map (fun w => { w with pkt := g w.pkt })))
  { d with rte := { d.rte with parse := mp d.rte.parse, lookup := mp d.rte.lookup },
           lnd := { d.lnd with frames := fr, lanes := ln, waiting := wt } }

/-- R224: the egress ports that are sending the partial frame of a port. -/
def cutPorts (d : Dev) (p : Nat) : List Nat :=
  (List.range 8).filter (fun o =>
    (laneOf d (16 * (o / 2) + 6 + o % 2)).items.any (fun it => isPart p it.pkt && it.sent))

/-- R216, R224: the partial frame of a port proves bad: its copies on the wire are stomped after `sent` bytes, the others dropped. -/
def killPart (d : Dev) (p : Nat) (sent : Nat → Nat) : Dev :=
  let d := (cutPorts d p).foldl (fun d o => stomp d o (sent o)) d
  let ids := (d.lnd.frames.filter (fun e => isPart p e.2.pkt)).map (fun e => e.1)
  let d := ids.foldl (fun d id =>
    (liveQueues d).foldl (fun d q =>
      if (queueOf d q).any (fun c => c.1 == id) then copyDrop (unstage (unqueue d q id) q id) id else d) d) d
  let keep : List LookItem → List LookItem := fun l => l.filter (fun it => !isPart p it.pkt)
  let wt := d.lnd.waiting.map (fun e => (e.1, e.2.filter (fun w => !isPart p w.pkt)))
  { d with rte := { d.rte with parse := d.rte.parse.map (fun e => (e.1, keep e.2)),
                               lookup := d.rte.lookup.map (fun e => (e.1, keep e.2)) },
           lnd := { d.lnd with waiting := wt } }

/-- R224: the bytes of the partial frame that its ports send before the stomp: all of it for an FCS error, the ingress limit and one
byte for an oversize frame, else what has left. -/
def stompAt (d : Dev) (p : Nat) (frame : Bytes) (c o : Nat) : Nat :=
  if c = 0x118 then frame.length else if c = 0x120 then frameLimit d p (frame.take (frame.length - 4)) + 1 else sentBytes d o

/-- R215, R224: the end of a frame that port `o` has been sending: its rest goes out whole, or it is stomped at the egress limit. -/
def cutEnd (d : Dev) (frame : Bytes) (o : Nat) : Dev :=
  let k := 16 * (o / 2) + 6 + o % 2
  match (laneOf d k).items.find? (fun it => it.sent) with
  | none => d
  | some it =>
    let out := (outData d o { it.pkt with data := frame, part := false } it.dest).getD frame
    let out := fit (max 60 out.length) (if it.ecn then markCe out else out)
    if frameLimit d o out < out.length + 4 then bumpE (stomp d o (frameLimit d o out)) o 0x168
    else
      modEth d o (fun e => { e with cutFrame := none, wire := some out,
                                    wireEnd := max (runNs d) (e.wireStart + wireNs d o (out.length + 24)) })

/-- R215: a copy of the frame that still waits at its end meets the egress limit there. -/
def lateLimit (d : Dev) (id : Nat) (data : Bytes) : Dev :=
  match mapGet? d.lnd.frames id with
  | none => d
  | some f =>
    (liveQueues d).foldl (fun d q =>
      match qEthPort q, (queueOf d q).find? (fun c => c.1 == id) with
      | some o, some c =>
        (match egressDrop d o { f.pkt with data := data, part := false } c.2 with
         | some rel => copyDrop (unstage (unqueue (bumpE d o rel) q id) q id) id
         | none => d)
      | _, _ => d) d

/-- R233: the stream whose MAXSDU the frame proves to exceed at its end, its head having passed Qci (DESIGN CHOICE, log entry 156). -/
def lateSdu (d : Dev) (p : Nat) (data : Bytes) : Option Nat :=
  let l := (d.lnd.frames.map (fun e => e.2.pkt)) ++ (d.lnd.waiting.map (fun e => e.2.map (fun w => w.pkt))).flatten
  match l.find? (isPart p) with
  | none => none
  | some q => match streamOf d q.route 0 with
    | none => none
    | some r => if bits (stParam r) 0 16 ≠ 0 && bits (stParam r) 0 16 < sduLen { q with data := data } then some r else none

/-- R223, R224: the rest of a frame whose head was taken. -/
def ethTail (d : Dev) (p : Nat) (frame : Bytes) (codeErr : Bool) : Dev :=
  if !(ethOf d p).headIn then ethWhole d p frame codeErr
  else
    let d := modEth d p (fun e => { e with headIn := false })
    let data := frame.take (frame.length - 4)
    match ethReject d p frame codeErr, lateSdu d p data with
    | some c, _ => bumpE (killPart d p (stompAt d p frame c)) p c
    | none, some r =>
      let d := bumpBy (bumpE d p 0x100) (ethBase p + 0x108) 0 frame.length
      sduDrop (killPart d p (fun _ => frame.length)) r p
    | none, none =>
      let d := (cutPorts d p).foldl (fun d o => cutEnd d data o) d
      let d := (d.lnd.frames.filter (fun e => isPart p e.2.pkt)).foldl (fun d e => lateLimit d e.1 data) d
      let d := d.lnd.frames.foldl (fun d e =>
        if isPart p e.2.pkt then journalResize d 0 e.2.pkt.size frame.length else d) d
      let d := mapPart d p (fun q => { q with data := data, size := frame.length, part := false })
      bumpBy (bumpBy (bumpE d p 0x100) (ethBase p + 0x108) 0 frame.length) 0x500080 (p / 2) (cells frame.length)

/-- R212, R216: what a port does with a frame, or with its head and its rest, at their instants; R96: during a wake it is
counted and not routed. -/
def ethReceived (d : Dev) (p : Nat) (ev : EthRx) : Dev :=
  if waking d then (if decide (p ≤ 8) && ethInImage d p && (match ev with | .head _ => false | _ => true) then bump d 0x10028 0 else d)
  else if !ethLive d p then d
  else if (ethOf d p).st ≠ 3 then (match ev with | .head _ => d | _ => bumpE d p 0x140)
  else
    let d := modEth d p (fun e => { e with rxOn := match ev with | .head _ => true | _ => false })
    match ev with
    | .whole f e => ethWhole d p f e
    | .head h => ethHead d p h
    | .tail f e => ethTail d p f e

/-- ETH_FRAME_RECEIVED. -/
def execEthFrameReceived (port : Nat) (ev : EthRx) : State → Host.Outcome State Fault Refusal :=
  act (fun d => ethReceived d port ev)

end Sys2Proof.Machine
end

