-- ==== Sys2Proof/Machine/Cross.lean ====
section
/-! DEFINITION. The commands of the crossings (chapter 06): RING_COMMIT, RING_RELEASE, HANDSHAKE_SEND, HANDSHAKE_ACK,
PULSE_LAUNCH, PULSE_ACK, CROSSING_RESET, CROSS_REPAIR, CROSS_STALL, CROSS_TIMEOUT, CROSS_PROGRESS. -/

namespace Sys2Proof.Machine

/-- R159: an item dropped while the timeout of a crossing is in force. -/
def xDropNew (d : Dev) (x : Nat) (out : Bool) : Dev :=
  bumpX (modX d x out (fun g => { g with dropped := g.dropped + 1 })) 1 x out 1

/-- R155, R179, R216: a group that a CAN or Ethernet crossing into the core cannot take is counted by its port. -/
def xOverrun (d : Dev) (x : Nat) (out : Bool) : Dev :=
  if out then d
  else if x < 24 then bump d (canBase x + 0x150) 0
  else if x < 33 then bump d (ethBase (x - 24) + 0x148) 0
  else d

/-- R153: the writer commits a group. -/
def ringCommit (d : Dev) (x : Nat) (out : Bool) (words : List RingWord) : Dev :=
  let g := xOf d x out
  if !xRing x then d
  else if g.timed then xDropNew d x out
  else if !xTakes g x words.length then xOverrun d x out
  else modX d x out (fun g => { g with groups := g.groups ++ [words] })

/-- RING_COMMIT. -/
def execRingCommit (x : Nat) (out : Bool) (words : List RingWord) : State → Host.Outcome State Fault Refusal :=
  act (fun d => ringCommit d x out words)

/-- R153, OP-7: the reader takes and releases the oldest group. One that holds a word with poison is dropped by the receiving unit:
counted in SWH_XDISC (DESIGN CHOICE, log entry 152). -/
def ringRelease (d : Dev) (x : Nat) (out : Bool) : Dev :=
  let g := xOf d x out
  match g.groups with
  | [] => d
  | w :: rest =>
    if !xRing x || g.repair = 1 then d
    else
      let d := modX d x out (fun g => { g with groups := rest, stalled := false })
      if w.any (fun v => v.bad) then bumpX d 0 x out 1 else emit d (.ring x out w)

/-- RING_RELEASE. -/
def execRingRelease (x : Nat) (out : Bool) : State → Host.Outcome State Fault Refusal :=
  act (fun d => ringRelease d x out)

/-- R152, R156: the sender holds a word and toggles its flag. A word not acknowledged yet keeps it, and so does a receiver that was
reset, up to the pairing instant. -/
def hsSend (d : Dev) (x : Nat) (out : Bool) (w : FWord) : Dev :=
  let g := xOf d x out
  if !xHs x || g.hs.isSome || g.repair == 2 then d
  else if g.timed then xDropNew d x out
  else modX d x out (fun g => { g with hs := some w })

/-- HANDSHAKE_SEND. -/
def execHandshakeSend (x : Nat) (out : Bool) (w : FWord) : State → Host.Outcome State Fault Refusal :=
  act (fun d => hsSend d x out w)

/-- R152: the receiver captures the word, and its acknowledge frees the sender. -/
def hsAck (d : Dev) (x : Nat) (out : Bool) : Dev :=
  let g := xOf d x out
  match g.hs with
  | none => d
  | some w =>
    if xPairing g then d
    else emit (modX d x out (fun g => { g with hs := none, stalled := false })) (.shake x out w)

/-- HANDSHAKE_ACK. -/
def execHandshakeAck (x : Nat) (out : Bool) : State → Host.Outcome State Fault Refusal := act (fun d => hsAck d x out)

/-- R154: `before` pulses have come; a launch copies the count, and a pulse of the launch cycle counts for the next. -/
def pulseLaunch (d : Dev) (x : Nat) (out : Bool) (before : Nat) (inCycle : Bool) : Dev :=
  if !xPulse x then d
  else
    let d := addPulses d x out before
    let g := xOf d x out
    let d := if g.xfer.isNone && 0 < g.acc && !xPairing g then
        modX d x out (fun g => { g with xfer := some g.acc, acc := 0, sat := false })
      else d
    addPulses d x out inCycle.toNat

/-- PULSE_LAUNCH. -/
def execPulseLaunch (x : Nat) (out : Bool) (before : Nat) (inCycle : Bool) : State → Host.Outcome State Fault Refusal :=
  act (fun d => pulseLaunch d x out before inCycle)

/-- R154: the count is delivered, with a saturation flag at 65,535; pulses of the acknowledge phase count for the next. -/
def pulseAck (d : Dev) (x : Nat) (out : Bool) (during : Nat) : Dev :=
  let g := xOf d x out
  match g.xfer with
  | none => d
  | some n =>
    if xPairing g then d
    else
      let d := addPulses d x out during
      emit (modX d x out (fun g => { g with xfer := none, stalled := false })) (.pulses x out n (n == 65535))

/-- PULSE_ACK. -/
def execPulseAck (x : Nat) (out : Bool) (during : Nat) : State → Host.Outcome State Fault Refusal :=
  act (fun d => pulseAck d x out during)

/-- R156, R224: a cut-through frame of a port with part of its cells committed is closed with an abort mark: it is bad after its
head has left, and its rest counts as one discarded group of the crossing (DESIGN CHOICE, log entry 152). -/
def abortMark (d : Dev) (x : Nat) : Dev :=
  let p := x - 24
  if 24 ≤ x && x ≤ 32 && (ethOf d p).headIn then
    modX (modEth (killPart d p (sentBytes d)) p (fun e => { e with headIn := false })) x false (fun g => { g with disc := g.disc + 1 })
  else d

/-- R156: one side of one direction is reset. -/
def crossingReset (d : Dev) (x : Nat) (out reader : Bool) (n : Nat) : Dev :=
  let d := crossReset d x out reader n
  if xOneSide x && !out && !reader then abortMark d x else d

/-- CROSSING_RESET. -/
def execCrossingReset (x : Nat) (out reader : Bool) (uncommitted : Nat) : State → Host.Outcome State Fault Refusal :=
  act (fun d => crossingReset d x out reader uncommitted)

/-- R156: the pairing instant, with the clock of the side that was reset running: CROSS_REPAIR with the count discarded. -/
def crossRepair (d : Dev) (x : Nat) (out : Bool) : Dev :=
  let g := xOf d x out
  if g.repair = 0 || !xClocked d x then d
  else
    let d := modX d x out (fun g => { g with repair := 0, disc := 0, unknown := false })
    let d := bumpX (bumpX d 0 x out g.disc) 4 x out 1
    raise d 0x0603 0 (e1 x ++ e1 (min 1 (g.repair - 1)) ++ eCount g.disc ++ eFlag g.unknown)

/-- CROSS_REPAIR. -/
def execCrossRepair (x : Nat) (out : Bool) : State → Host.Outcome State Fault Refusal :=
  act (fun d => crossRepair d x out)

/-- R158: something waits for the receiver. -/
def xWaiting (g : Xing) : Bool := !g.groups.isEmpty || g.hs.isSome || g.xfer.isSome || decide (0 < g.acc)

/-- R158: 1,024 sender cycles without receiver progress in native mode. -/
def crossStall (d : Dev) (x : Nat) (out : Bool) : Dev :=
  let g := xOf d x out
  if compat d || g.stalled || !xWaiting g || xIdle d x then d
  else raise (bumpX (modX d x out (fun g => { g with stalled := true })) 2 x out 1) 0x0601 0 (e1 x ++ eFlag out)

/-- CROSS_STALL. -/
def execCrossStall (x : Nat) (out : Bool) : State → Host.Outcome State Fault Refusal := act (fun d => crossStall d x out)

/-- R159: the 1,024th sender cycle without progress in compatibility mode: what waits is dropped. -/
def crossTimeout (d : Dev) (x : Nat) (out : Bool) : Dev :=
  let g := xOf d x out
  if !compat d || g.timed || !xWaiting g || xIdle d x then d
  else
    let n := g.groups.length + g.hs.toList.length + g.xfer.getD 0 + g.acc
    let d := modX d x out (fun g =>
      { g with groups := [], hs := none, xfer := none, acc := 0, sat := false, timed := true, dropped := 0 })
    raise (bumpX d 1 x out n) 0x0602 0 (e1 x ++ eFlag out ++ eCount n ++ e1 0)

/-- CROSS_TIMEOUT. -/
def execCrossTimeout (x : Nat) (out : Bool) : State → Host.Outcome State Fault Refusal :=
  act (fun d => crossTimeout d x out)

/-- R158, R159: the receiver makes progress again. After a timeout the ring re-pairs, and handshake and pulses are served at once. -/
def crossProgress (d : Dev) (x : Nat) (out : Bool) : Dev :=
  let g := xOf d x out
  let d := modX d x out (fun g => { g with stalled := false })
  if !g.timed then d
  else
    let d := modX d x out (fun g => { g with timed := false, dropped := 0, repair := if xRing x && g.repair == 0 then 3 else g.repair })
    raise d 0x0602 0 (e1 x ++ eFlag out ++ eCount g.dropped ++ e1 1)

/-- CROSS_PROGRESS. -/
def execCrossProgress (x : Nat) (out : Bool) : State → Host.Outcome State Fault Refusal :=
  act (fun d => crossProgress d x out)

end Sys2Proof.Machine
end

