-- ==== Sys2Proof/Machine/Crypto.lean ====
section
/-! DEFINITION. The commands of the pages of the Crypto Block (chapter 12): JOB_SUBMIT, BLOCK_BOUNDARY, JOB_COMPLETE, the
operations of R341, PAGE_ABORT, CRY_ENGINE_FAULT. -/

namespace Sys2Proof.Machine

/-! ## Submission (R342) -/

/-- R342, R362: a write of TAIL. One that would pass HEAD has no effect. -/
def submitJobs (d : Dev) (p w : Nat) : Dev :=
  let g := pageOf d p
  let t := bits w 8 5
  let old := (g.tail + 32 - g.head) % 32
  let new := (t + 32 - g.head) % 32
  if new < old then d
  else
    let clr := (List.range (new - old)).foldl (fun m i =>
      let k := (g.tail + i) % 32
      mapStore (0 : Word) m k (BitVec.ofNat 32 ((mapGet (0 : Word) m k).toNat % 2 ^ 31))) g.jstat
    modPage d p (fun g => { g with tail := t, jstat := clr })

/-- R336: a write to a page register: of a user page through its BAR0 offset, of an internal page by Eopod alone. -/
def pageWr (d : Dev) (who : Initiator) (p rel : Nat) (f : Dev → Dev) : Dev :=
  if p < 128 then regWr d who (0x700000 + 0x1000 * p + rel) (fun d => if bit d.clk.islands 7 then f d else d)
  else if p < 160 && who == .eopod && cryOn d then f d else d

/-- JOB_SUBMIT. -/
def execJobSubmit (who : Initiator) (page : Nat) (w : Word) : State → Host.Outcome State Fault Refusal :=
  access who (.jobSubmit who page w) (fun d => pageWr d who page 8 (fun d => submitJobs d page w.toNat))

/-! ## Block boundaries (R344, R345) -/

/-- R344: the next page of a sequencer with a job ready, round-robin after page `c`. -/
def nextPage (d : Dev) (s c : Nat) : Option Nat :=
  let l := readyPages d s
  match l.find? (fun p => decide (c < p)) with
  | some p => some p
  | none => l.head?

/-- BLOCK_BOUNDARY of a sequencer that holds slots: the job in hand is checked, and the sequencer moves on. -/
def blockBoundary (d : Dev) (s : Nat) : Dev :=
  if !cryOn d || 16 ≤ s || frozen d (sqTwin s) || !slotHeld d 4 (0x30 + s) then d
  else
    let c := mapGet? d.cry.cur s
    let d := match c with | some p => boundary d p | none => d
    let d := { d with cry := { d.cry with served := d.cry.served.filter (fun x => x != s) } }
    match nextPage d s (c.getD 160) with
    | none => { d with cry := { d.cry with cur := mapDel d.cry.cur s } }
    | some p =>
      let d := { d with cry := { d.cry with cur := mapPut d.cry.cur s p } }
      if mayStart d p then jobStart d p else boundary d p

/-- BLOCK_BOUNDARY. -/
def execBlockBoundary (sq : Nat) : State → Host.Outcome State Fault Refusal := act (fun d => blockBoundary d sq)

/-- JOB_COMPLETE: the oldest job of a page, once it has ended or must end. A job that fails its checks as it starts
completes with them. -/
def jobComplete (d : Dev) (p : Nat) : Dev :=
  if !cryOn d || 160 ≤ p || frozen d (sqTwin (sqOf d p)) then d
  else
    let d1 := boundary d p
    let d1 := if mayStart d1 p && (opKnown (jobAt (pageOf d1 p)).op == false || badDesc (jobAt (pageOf d1 p)) ||
        jobKey d1 p (jobAt (pageOf d1 p)) != 0) then jobStart d1 p else d1
    match dueStatus d1 p with
    | some st => complete d1 p st
    | none => d1

/-- JOB_COMPLETE. -/
def execJobComplete (page : Nat) : State → Host.Outcome State Fault Refusal := act (fun d => jobComplete d page)

/-! ## Operations block by block (R341) -/

/-- The next input block of a job: its last one as long as it is. -/
def inBlock (g : Page) (j : Job) : Bytes := inBytes g (j.inoff + 16 * j.done) (min 16 (j.len - 16 * j.done))

/-- The output place of the next block. -/
def outAt (j : Job) : Nat := j.outoff + 16 * j.done

def encBlock (g : Page) (j : Job) : Page × Job := (putOut g (outAt j) (aesEnc j.mat (inBlock g j)) false, j)
def decBlock (g : Page) (j : Job) : Page × Job := (putOut g (outAt j) (aesDec j.mat (inBlock g j)) false, j)
def gmulBlock (g : Page) (j : Job) : Page × Job := (putOut g (outAt j) (gcmMul (inBlock g j) j.iv) false, j)
def ctrxBlock (g : Page) (j : Job) : Page × Job :=
  (putOut g (outAt j) (xorBytes (inBlock g j) (aesEnc j.mat j.ctr)) j.hold, { j with ctr := inc32 j.ctr })
def gaccBlock (g : Page) (j : Job) : Page × Job := ({ g with acc := ghashStep g.h g.acc (inBlock g j) }, j)
def maccBlock (g : Page) (j : Job) : Page × Job :=
  ({ g with acc := aesEnc j.mat (xorBytes (fit 16 g.acc) (inBlock g j)) }, j)

/-- ENC. -/
def execEnc (page blocks : Nat) : State → Host.Outcome State Fault Refusal :=
  act (fun d => runJob d page 1 blocks encBlock)
/-- DEC. -/
def execDec (page blocks : Nat) : State → Host.Outcome State Fault Refusal :=
  act (fun d => runJob d page 2 blocks decBlock)
/-- GMUL. -/
def execGmul (page blocks : Nat) : State → Host.Outcome State Fault Refusal :=
  act (fun d => runJob d page 3 blocks gmulBlock)
/-- CTRX. -/
def execCtrx (page blocks : Nat) : State → Host.Outcome State Fault Refusal :=
  act (fun d => runJob d page 4 blocks ctrxBlock)
/-- GACC. -/
def execGacc (page blocks : Nat) : State → Host.Outcome State Fault Refusal :=
  act (fun d => runJob d page 6 blocks gaccBlock)
/-- MACC. -/
def execMacc (page blocks : Nat) : State → Host.Outcome State Fault Refusal :=
  act (fun d => runJob d page 9 blocks maccBlock)

/-! ## Operations in one step (R341, R347) -/

/-- R347: HINIT and SUBKEY zero a held set, and count it. -/
def discHeld (d : Dev) (p : Nat) : Dev :=
  if (pageOf d p).held.isEmpty then d else bump (modPage d p zeroHeld) 0x780828 0

/-- R341: H and ACC. -/
def hinitStep (g : Page) (j : Job) : Page × Job := ({ g with h := aesEnc j.mat (zeros 16), acc := zeros 16 }, j)

/-- R341: K1, K2 and ACC. -/
def subkeyStep (g : Page) (j : Job) : Page × Job :=
  ({ g with k1 := cmacK1 j.mat, k2 := cmacK2 j.mat, acc := zeros 16 }, j)

/-- A one-step operation that zeroes a held set as it runs. -/
def runDisc (d : Dev) (p op : Nat) (f : Page → Job → Page × Job) : Dev :=
  let d2 := runJob d p op 1 f
  let ran : Dev → Bool := fun d => match (pageOf d p).job with | some j => j.done == 1 | none => false
  if ran d2 && !ran d then discHeld d2 p else d2

/-- HINIT. -/
def execHinit (page : Nat) : State → Host.Outcome State Fault Refusal := act (fun d => runDisc d page 5 hinitStep)
/-- SUBKEY. -/
def execSubkey (page : Nat) : State → Host.Outcome State Fault Refusal := act (fun d => runDisc d page 8 subkeyStep)

/-- R341, R343: a tag is given out, or compared: a difference ends the job with TAGFAIL. -/
def tagStep (g : Page) (j : Job) (t expect : Bytes) : Page × Job :=
  if j.verify then (g, if t.take j.tlen == expect then j else { j with ends := some 1 })
  else (putOut g j.outoff (t.take j.tlen) false, j)

/-- R341: GFINAL. -/
def gfinalStep (g : Page) (j : Job) : Page × Job :=
  let t := xorBytes (aesEnc j.mat j.iv) (ghashStep g.h g.acc (inBytes g j.inoff 16))
  tagStep g j t (inBytes g (j.inoff + 16) j.tlen)

/-- R341: MFINAL. -/
def mfinalStep (g : Page) (j : Job) : Page × Job :=
  let n := j.len - (if j.verify then j.tlen else 0)
  let t := aesEnc j.mat (xorBytes (fit 16 g.acc) (cmacLast g.k1 g.k2 (inBytes g j.inoff n)))
  tagStep g j t (inBytes g (j.inoff + n) j.tlen)

/-- GFINAL. -/
def execGfinal (page : Nat) : State → Host.Outcome State Fault Refusal := act (fun d => runJob d page 7 1 gfinalStep)
/-- MFINAL. -/
def execMfinal (page : Nat) : State → Host.Outcome State Fault Refusal := act (fun d => runJob d page 10 1 mfinalStep)

/-! ## Whole modes, by their mode programs (R341; DESIGN CHOICE, log entry 9) -/

/-- A parameter of a mode program in the input area. -/
def modePar (g : Page) (op k : Nat) : Bytes := Config.modeParam op (inBytes g 0 1024) k

/-- Text and tag of a whole mode are placed at OUTOFF. -/
def modeOut (g : Page) (j : Job) (text tag : Bytes) : Page := putOut g j.outoff (Config.modeOutput j.op text tag) false

/-- CBC encryption and decryption of whole blocks. -/
def cbcEncRun (key iv text : Bytes) : Bytes :=
  ((blocks16 (text.length / 16 + 1) text).foldl (fun (s : Bytes × Bytes) b =>
    let c := aesEnc key (xorBytes (fit 16 b) s.2); (s.1 ++ c, c)) ([], fit 16 iv)).1
def cbcDecRun (key iv text : Bytes) : Bytes :=
  ((blocks16 (text.length / 16 + 1) text).foldl (fun (s : Bytes × Bytes) b =>
    (s.1 ++ xorBytes (aesDec key b) s.2, fit 16 b)) ([], fit 16 iv)).1

def ctrStep (g : Page) (j : Job) : Page × Job :=
  (modeOut g j (ctrRun j.mat (fit 16 (modePar g 16 0)) (modePar g 16 2)).1 [], j)
def cbcEncStep (g : Page) (j : Job) : Page × Job := (modeOut g j (cbcEncRun j.mat (modePar g 17 0) (modePar g 17 2)) [], j)
def cbcDecStep (g : Page) (j : Job) : Page × Job := (modeOut g j (cbcDecRun j.mat (modePar g 18 0) (modePar g 18 2)) [], j)
def cmacGenStep (g : Page) (j : Job) : Page × Job :=
  (modeOut g j [] ((cmac j.mat (modePar g 19 2)).take j.tlen), j)
def cmacVerStep (g : Page) (j : Job) : Page × Job :=
  (g, if (cmac j.mat (modePar g 20 2)).take j.tlen == fit j.tlen (modePar g 20 3) then j else { j with ends := some 1 })
def gcmSealStep (g : Page) (j : Job) : Page × Job :=
  let r := gcmSeal j.mat (modePar g 21 0) (modePar g 21 1) (modePar g 21 2)
  (modeOut g j r.1 (r.2.take j.tlen), j)
/-- R347: the plaintext is readable only after the operation's own verdict. -/
def gcmOpenStep (g : Page) (j : Job) : Page × Job :=
  match gcmOpen j.mat (modePar g 22 0) (modePar g 22 1) (modePar g 22 2) (fit j.tlen (modePar g 22 3)) with
  | some t => (modeOut g j t [], j)
  | none => (g, { j with ends := some 1 })

/-- A whole mode runs once the mode programs are loaded (PROGS of CRY_STAT). -/
def runMode (d : Dev) (p op : Nat) (f : Page → Job → Page × Job) : Dev := if d.cry.progs then runJob d p op 1 f else d

/-- CTR. -/
def execCtr (page : Nat) : State → Host.Outcome State Fault Refusal := act (fun d => runMode d page 16 ctrStep)
/-- CBC_ENC. -/
def execCbcEnc (page : Nat) : State → Host.Outcome State Fault Refusal := act (fun d => runMode d page 17 cbcEncStep)
/-- CBC_DEC. -/
def execCbcDec (page : Nat) : State → Host.Outcome State Fault Refusal := act (fun d => runMode d page 18 cbcDecStep)
/-- CMAC_GEN. -/
def execCmacGen (page : Nat) : State → Host.Outcome State Fault Refusal := act (fun d => runMode d page 19 cmacGenStep)
/-- CMAC_VER. -/
def execCmacVer (page : Nat) : State → Host.Outcome State Fault Refusal := act (fun d => runMode d page 20 cmacVerStep)
/-- GCM_SEAL. -/
def execGcmSeal (page : Nat) : State → Host.Outcome State Fault Refusal := act (fun d => runMode d page 21 gcmSealStep)
/-- GCM_OPEN. -/
def execGcmOpen (page : Nat) : State → Host.Outcome State Fault Refusal := act (fun d => runMode d page 22 gcmOpenStep)

/-! ## Abort and engine faults -/

/-- R345: ABORT ends every job submitted up to it; each is decided at the next block boundary. -/
def pageAbort (d : Dev) (p : Nat) : Dev := modPage d p (fun g => { g with aborts := (g.tail + 32 - g.head) % 32 })

/-- PAGE_ABORT. -/
def execPageAbort (who : Initiator) (page : Nat) : State → Host.Outcome State Fault Refusal :=
  access who (.pageAbort who page) (fun d => pageWr d who page 0 (fun d => pageAbort d page))

/-- R335: the results of a slot are discarded, and the job goes on from its last block boundary: nothing that is
readable changes. -/
def engineFault (d : Dev) (engine s : Nat) : Dev :=
  if cryOn d && decide (engine < 8) && decide (s < 16) then raiseF (bump d 0x780830 0) 0x0C02 2 (e1 engine ++ e1 s) else d

/-- CRY_ENGINE_FAULT. -/
def execCryEngineFault (engine sq : Nat) : State → Host.Outcome State Fault Refusal :=
  act (fun d => engineFault d engine sq)

/-! ## The table window of the block (R362) -/

/-- A write of CRY_WSEL. -/
def crySelect (d : Dev) (w : Nat) : Dev :=
  putReg { d with cry := { d.cry with wReady := false } } 0x780040 (w &&& 0x7FFF)

/-- CRY_TABLE_WINDOW. -/
def execCryTableWindow (who : Initiator) (w : Word) : State → Host.Outcome State Fault Refusal :=
  access who (.cryTableWindow who w) (fun d => regWr d who 0x780040 (fun d => crySelect d w.toNat))

end Sys2Proof.Machine
end

