-- ==== Sys2Proof/Machine/Diag.lean ====
section
/-! DEFINITION. The diagnostic transport gateway of SC2 (chapter 10, R295, R296): DIAG_ROUTING_ACTIVATION,
DIAG_REQUEST, DIAG_RESPONSE, DIAG_TIMEOUT, DIAG_CONNECTION_CLOSE. -/

namespace Sys2Proof.Machine

/-- R295, R301: routing activation opens one of the 4 tester connections, and SC2 reads the RTE_DIAG entries. -/
def diagActivate (d : Dev) (tester addr : Nat) : Dev :=
  if diagServes d && decide (tester < 4) then
    let d := { d with rte := { d.rte with testers := mapPut d.rte.testers tester addr, diagTab := diagRead d } }
    needAll (raise (doipSend d tester 0 addr []) 0x0A04 0 (e1 tester ++ e1 1))
  else d

/-- DIAG_ROUTING_ACTIVATION. -/
def execDiagRoutingActivation (tester addr : Nat) : State → Host.Outcome State Fault Refusal :=
  act (fun d => diagActivate d tester addr)

/-- R295, R296: a diagnostic message of an open tester: forwarded, or answered with a negative acknowledge. Its first frame goes
at once; the rest waits for the target's flow control. Functional requests are single frames only. -/
def diagForward (d : Dev) (tester target : Nat) (payload : Bytes) : Dev :=
  if !diagServes d || (mapGet? d.rte.testers tester).isNone then d
  else match diagEntry d target with
    | none => doipSend d tester 2 target []
    | some i =>
      let func := bit (diagWord d i 0) 16
      let frames := Config.isoTpFrames payload (diagFmt d i != .classical)
      if diagMax (diagFmt d i) < payload.length || (func && 1 < frames.length) ||
        (!func && d.rte.diag.any (fun q => q.target == target)) then doipSend d tester 2 target []
      else
        let rest := frames.drop 1
        let q : DiagReq := { target := target, tester := tester, func := false, rest := rest, phase := if rest.isEmpty then 0 else 1,
                             t0 := d.clk.tclk }
        let d := if func then d else { d with rte := { d.rte with diag := d.rte.diag ++ [q] } }
        (frames.take 1).foldl (fun d f => diagFrame d i f) (doipSend d tester 1 target [])

/-- DIAG_REQUEST. -/
def execDiagRequest (tester target : Nat) (payload : Bytes) : State → Host.Outcome State Fault Refusal :=
  act (fun d => diagForward d tester target payload)

/-- R296: a target's response is complete: returned to its tester, or discarded and counted. -/
def diagRespond (d : Dev) (target : Nat) (payload : Bytes) : Dev :=
  if !diagServes d then d
  else match d.rte.diag.find? (fun q => q.target == target) with
    | none => d
    | some q =>
      let d := diagEnd d target
      if (mapGet? d.rte.testers q.tester).isSome then doipSend d q.tester 3 target payload
      else { d with rte := { d.rte with diagDisc := d.rte.diagDisc + 1 } }

/-- DIAG_RESPONSE. -/
def execDiagResponse (target : Nat) (payload : Bytes) : State → Host.Outcome State Fault Refusal :=
  act (fun d => diagRespond d target payload)

/-- R295: N_Bs, or N_Cr, of 1,000 ms runs in a transfer and has passed. -/
def diagLate (d : Dev) (ncr : Bool) (q : DiagReq) : Bool :=
  q.phase == (if ncr then 2 else 1) && decide (q.t0 + usCycles 1000000 ≤ d.clk.tclk)

/-- R296: N_Bs or N_Cr has expired. -/
def diagExpire (d : Dev) (target : Nat) (ncr : Bool) : Dev :=
  if diagServes d && d.rte.diag.any (fun q => q.target == target && diagLate d ncr q) then
    raise (diagEnd d target) 0x0A05 0 (e2 target ++ eFlag ncr)
  else d

/-- DIAG_TIMEOUT. -/
def execDiagTimeout (target : Nat) (ncr : Bool) : State → Host.Outcome State Fault Refusal :=
  act (fun d => diagExpire d target ncr)

/-- R296: a tester connection closes, and its hold on the clusters ends. -/
def diagClose (d : Dev) (tester : Nat) : Dev :=
  if diagServes d && (mapGet? d.rte.testers tester).isSome then
    needAll (raise { d with rte := { d.rte with testers := mapDel d.rte.testers tester } } 0x0A04 0 (e1 tester ++ e1 0))
  else d

/-- DIAG_CONNECTION_CLOSE. -/
def execDiagConnectionClose (tester : Nat) : State → Host.Outcome State Fault Refusal := act (fun d => diagClose d tester)

end Sys2Proof.Machine
end

