-- ==== Sys2Proof/Machine/Limit.lean ====
section
/-! DEFINITION. Who reaches a route entry (R254, R303), and the stored limits C_q of the queues (R254). -/

namespace Sys2Proof.Machine

/-- The Ethernet ports of the image. -/
def imagePorts (d : Dev) : List Nat := (List.range 8).filter (ethInImage d)

/-- R285: fields of an FDB record. -/
def fbRoute (r : Nat) : Nat := bits r 64 17
def fbInMask (r : Nat) : Nat := bits r 81 8
def fbHost (r : Nat) : Bool := bit r 89
def fbIndex (r : Nat) : Nat := bits r 90 15
def fbValid (r : Nat) : Bool := bit r 105

/-- R284: byte 33 of a rule's key and mask admits an ingress code. -/
def tnAdmits (r code : Nat) : Bool := (code ^^^ bits (tnKey r) 264 8) &&& bits (tnMask r) 264 8 == 0

/-- R254, R303: the sources that reach an entry through FDB records and ternary rules with action 0: Ethernet ports by
number, HA, HB and SVC by 16 plus their Landing port. -/
def reachers (d : Dev) (ix : Nat) : List Nat :=
  let f := ((overlay d 13 d.img.fdb).filter (fun r => fbValid r.2 && fbRoute r.2 == ix)).map (fun r =>
    (imagePorts d).filter (fun n => fbInMask r.2 == 0 || bit (fbInMask r.2) n) ++ (if fbHost r.2 then [20, 21, 22] else []))
  let t := ((overlay d 8 d.img.tern).filter (fun r => tnAction r.2 == 0 && tnRoute r.2 == ix)).map (fun r =>
    (imagePorts d).filter (fun n => tnAdmits r.2 (0x40 + n)) ++
      [20, 21, 22].filter (fun s => tnAdmits r.2 (0x80 + (s - 20))))
  (f.flatten ++ t.flatten).eraseDups

/-- The Ethernet ports that a key admits by its INGRESS. -/
def keyPorts (d : Dev) (r : Nat) : List Nat :=
  if rkKind r ≠ 3 then []
  else if rkIngress r = 0xFF then (imagePorts d).filter (fun n => n / 2 == rkGrove r)
  else (imagePorts d).filter (fun n => rkIngress r == 0x40 + n)

/-- R254: the largest frame of an Ethernet port. -/
def portSize (d : Dev) (n : Nat) : Nat := maxFrame d n + 14

/-- R254: the largest size of a list of sizes. -/
def largest (l : List Nat) : Nat := l.foldl max 0

/-- R254: the largest S among the sources of an entry other than HA, HB and CRY. -/
def entrySize (d : Dev) (ix : Nat) : Nat :=
  let keys := ((keyParts d).filter (fun r => rkIndex r == ix)).map (fun r =>
    let c := if rkKind r = 2 then 2048 else if rkKind r < 4 then (if rkFmt r = 1 then 8 else 64) else 0
    largest (c :: (keyPorts d r).map (portSize d)))
  largest (keys ++ ((reachers d ix).filter (fun s => decide (s < 8))).map (portSize d))

/-- R254, R280: HA or HB reaches an entry. -/
def hostReaches (d : Dev) (ix : Nat) : Bool :=
  [0, 1].any (fun e => decide (fld d (0x580020 + 8 * e) 0 17 ≤ ix) && decide (ix ≤ fld d (0x580024 + 8 * e) 0 17)) ||
    (reachers d ix).any (fun s => s == 20 || s == 21)

/-- R254: the largest S of a host source, by the destination. -/
def hostSize (d : Dev) (q : Nat) : Nat :=
  if (qChannel q).isSome then 64 else match qEthPort q with | some n => maxFrame d n | none => 9216

/-- R254: the queues that an entry can place copies in, each with the largest stored size. -/
def entryLimits (d : Dev) (ix entry : Nat) : List (Nat × Nat) :=
  let dests := if rtVerdict entry = 1 then [] else (entryDests d ix entry).map (fun x => x.q)
  let mill := if rtMill entry && rtVerdict entry != 3 && rtVerdict entry != 1 then [qMil (rtTc entry)] else []
  let job := rtAuth entry != 0 && rtVerdict entry != 3 && rtVerdict entry != 1
  let a := authRec d (rtAuthProf entry)
  let extra := if !job then 0 else if rtAuth entry = 3 then apOver a else if rtAuth entry = 4 then apOver (authRec d (apPair a))
    else 0
  let size := fun q => max (entrySize d ix) (if hostReaches d ix then hostSize d q else 0)
  let with' := fun q => let s := size q; (q, if s = 0 then 0 else s + extra)
  (dests ++ mill).map with' ++ (if job then [(qCry (apSeq a), size (qCry (apSeq a)))] else []) ++
    (if rtRec entry then [(qRec (rtRecq entry), size (qRec (rtRecq entry)))] else [])

/-- The route entries in force. -/
def liveEntries (d : Dev) : NMap Nat :=
  (d.com.live.filter (fun g => g.type == 6)).foldl (fun m g => mapPut m g.index (rkEntry g.val)) d.img.route

/-- R254: S_q of every queue that an entry with VALID 1 can place a copy in. -/
def limitMap (d : Dev) : NMap Nat :=
  ((liveEntries d).filter (fun e => rtValid e.2)).foldl (fun m e =>
    (entryLimits d e.1 e.2).foldl (fun m x => if x.2 = 0 then m else mapMod 0 m x.1 (max x.2)) m) []

/-- R254: C_q. -/
def queueLimit (d : Dev) (q : Nat) : Nat :=
  match mapGet? (limitMap d) q with | some s => cells s | none => 0

end Sys2Proof.Machine
end

