-- ==== Sys2Proof/Machine/EthTx.lean ====
section
/-! DEFINITION. Transmission of an Ethernet port (chapter 08): ETH_STAGING_INSTANT, ETH_TX_START, GCL_ENTRY_ADVANCE,
GCL_CFGCHG, GCL_CHANGED, SHAPER_CREDIT_ZERO; tunnels (R293, R294). -/

namespace Sys2Proof.Machine

/-- The Landing lane of a port (R245). -/
def ethLane (p : Nat) : Nat := 16 * (p / 2) + 6 + p % 2

/-- R214, R215, R256: an Ethernet frame as it leaves, without its FCS, padded to 60 bytes. -/
def outBytes (d : Dev) (p : Nat) (q : Pkt) (x : Dest) (ecn : Bool) : Bytes :=
  let o := (outData d p q x).getD q.data
  let o := if ecn && q.kind == 0 then markCe o else o
  fit (max 60 o.length) o

/-! ## Tunnels (R293, R294) -/

def tunReg (d : Dev) (p rel : Nat) : Nat := reg d (0x580100 + 0x20 * p + rel)
def tunBrief (d : Dev) (p : Nat) : Bool := bit (tunReg d p 4) 17
def tunMax (d : Dev) (p : Nat) : Nat := bits (tunReg d p 4) 18 5 + 1

/-- R294: one ACF CAN or CAN Brief message (IEEE 1722-2016). -/
def acfMsg (brief : Bool) (q : Pkt) : Bytes :=
  let hdr := if brief then 8 else 16
  let pad := (4 - q.data.length % 4) % 4
  let len := (hdr + q.data.length + pad) / 4
  let fd := q.can.fmt == .fd || q.can.fmt == .fdBrs
  let fl := pad * 64 + (!brief).toNat * 32 + q.can.rtr.toNat * 16 + q.can.xtd.toNat * 8 +
    (q.can.fmt == .fdBrs).toNat * 4 + fd.toNat * 2
  let bus := if q.ingress < 24 then q.ingress else 0
  beBytes 2 ((if brief then 2 else 1) * 512 + len) ++ beBytes 1 fl ++ beBytes 1 bus ++
    (if brief then [] else beBytes 8 (q.stamp % 2 ^ 64)) ++ beBytes 4 q.can.id ++ q.data ++ zeros pad

/-- R294: the packed frame, with the VLAN action of its first PDU, padded. -/
def tunFrame (d : Dev) (p : Nat) (x : Dest) (de : Bool) (seq : Nat) (qs : List Pkt) : Bytes :=
  let body := (qs.map (acfMsg (tunBrief d p))).flatten
  let sid := tunReg d p 0x10 + tunReg d p 0x14 * 2 ^ 32
  let ntscf := beBytes 1 0x82 ++ beBytes 2 (32768 + body.length) ++ beBytes 1 seq ++ beBytes 8 sid
  let mac := fun rel => leBytes 6 (tunReg d p rel + tunReg d p (rel + 4) * 2 ^ 32)
  let f := mac 0 ++ mac 8 ++ beBytes 2 0x22F0 ++ ntscf ++ body
  let o := (vlanAct d p x de f).getD f
  fit (max 60 o.length) o

/-- R293: the copies at the head of a class queue that leave as one frame. -/
def packCopies (d : Dev) (p : Nat) : List (Nat × Dest) → List Pkt → List (Nat × Dest) → List (Nat × Dest)
  | acc, _, [] => acc
  | acc, qs, c :: rest =>
    match mapGet? d.lnd.frames c.1, acc.head? with
    | some f, some h =>
      let qs2 := qs ++ [f.pkt]
      let body := (qs2.map (acfMsg (tunBrief d p))).flatten
      let full := tunFrame d p h.2 false 0 qs2
      if !ethForm f.pkt && qs2.length ≤ tunMax d p && body.length ≤ 2047 && full.length + 4 ≤ frameLimit d p full
          && c.2.vlan == h.2.vlan && c.2.vid == h.2.vid && c.2.pcp == h.2.pcp then
        packCopies d p (acc ++ [c]) qs2 rest
      else acc
    | _, _ => acc

/-- R219, R293: the head of a class queue as the next frame: its copies. A head whose end has not come is ready only for
cut-through (R223). -/
def headCopies (d : Dev) (p tc : Nat) : List (Nat × Dest) :=
  match queueOf d (qEth p tc) with
  | [] => []
  | c :: rest => match mapGet? d.lnd.frames c.1 with
    | none => []
    | some f =>
      if f.pkt.part && !cutOk d f.pkt c.2 then []
      else if ethForm f.pkt then [c]
      else packCopies d p [c] [f.pkt] rest

/-! ## Staging (R219, R261) -/

/-- The frame of staged copies without its FCS. -/
def frameOf (d : Dev) (p : Nat) (its : List LaneItem) : Bytes :=
  match its with
  | [] => []
  | it :: _ =>
    if ethForm it.pkt then outBytes d p it.pkt it.dest it.ecn
    else tunFrame d p it.dest it.pkt.de (mapGet 0 d.rte.tunSeq p) (its.map (fun i => i.pkt))

/-- R355, R357: bytes that MACsec adds on a port: a SecTAG with an explicit SCI and the ICV (DEDUCED, log entry 34). -/
def msOver (d : Dev) (p : Nat) : Nat := if msEn d p then 32 else 0

/-- R261: the bytes of the staged frame, fixed when it was staged; those of one that was partial then are known at its end. -/
def stagedFrame (d : Dev) (p : Nat) (its : List LaneItem) : Bytes := (ethOf d p).stBytes.getD (frameOf d p its)

/-- R228, R357: the length on the wire with its FCS; of a cut-through frame its egress limit. -/
def wireLen (d : Dev) (p : Nat) (its : List LaneItem) : Nat :=
  match its with
  | [] => 0
  | it :: _ => if it.pkt.part then frameLimit d p (frameOf d p its) else (frameOf d p its).length + 4 + msOver d p

/-- The same of the frame that is staged. -/
def stagedLen (d : Dev) (p : Nat) (its : List LaneItem) : Nat :=
  if its.any (fun it => it.pkt.part) then wireLen d p its else (stagedFrame d p its).length + 4 + msOver d p

/-- The staged copies, and those on the wire. -/
def stagedItems (d : Dev) (p : Nat) : List LaneItem := (laneOf d (ethLane p)).items.filter (fun it => !it.sent)

/-- R219: the copies of a class that are eligible at `t`. -/
def eligible (d : Dev) (p t tc : Nat) : Option (Nat × List LaneItem) :=
  let its := (headCopies d p tc).filterMap (laneItem d)
  if !its.isEmpty && shaperOk d p tc && gateFits d p tc t (wireLen d p its) then some (tc, its) else none

/-- R261: the staging instant: 512 bytes to go on the wire, or an idle port. -/
def ethStage (d : Dev) (p : Nat) : Dev :=
  let e := ethOf d p
  if p < 8 && ethLive d p && e.st == 3 && !e.paused && !outFrozen d (6 + p / 2) && (stagedItems d p).isEmpty && e.cutFrame.isNone &&
      e.wireEnd ≤ runNs d + wireNs d p 524 then
    match [7, 6, 5, 4, 3, 2, 1, 0].findSome? (eligible d p (nowNs d + (e.wireEnd - runNs d))) with
    | none => d
    | some (tc, its) =>
      let b := if its.any (fun it => it.pkt.part) then none else some (frameOf d p its)
      let d := modLane d (ethLane p) (fun l => { l with items := l.items ++ its })
      modEth d p (fun e => { e with stClass := tc, stBytes := b, prot := none })
  else d

/-- ETH_STAGING_INSTANT. -/
def execEthStagingInstant (port : Nat) : State → Host.Outcome State Fault Refusal := act (fun d => ethStage d port)

/-! ## The start of a frame (R219, R261, R400) -/

/-- R261: the staged frame may start: staged whole, or two cells of one whose head was taken for cut-through, whether its end has come
or not. -/
def startReady (d : Dev) (its : List LaneItem) : Bool :=
  !its.isEmpty && its.all (fun it => it.got == it.n || (it.pkt.headTaken && cutOk d it.pkt it.dest && decide (2 ≤ it.got)))

/-- R261: a staged frame that would no longer complete within its gate is discarded and stays at its queue head. -/
def unstageAll (d : Dev) (p : Nat) (its : List LaneItem) : Dev :=
  modEth (its.foldl (fun d it => unstage d it.dest.q it.pkt.id) d) p (fun e => { e with prot := none, stBytes := none })

/-- R240: a PCS loop-back of port `p`. -/
def ethLoop (d : Dev) (p : Nat) : Bool := decide (p < 8) && flag d (ethBase p) 1

/-- R240: the last bit of the frame on the wire has left: counted, and out, or back in through the loop (DESIGN CHOICE, log entry
95). -/
def txDone (d : Dev) (p : Nat) : Dev :=
  let e := ethOf d p
  match e.wire with
  | none => d
  | some bytes =>
    if e.wireStart + wireNs d p (bytes.length + 12) ≤ runNs d then
      let d := modEth d p (fun e => { e with wire := none })
      let d := bumpBy (bumpE d p 0x150) (ethBase p + 0x158) 0 (bytes.length + 4)
      if ethLoop d p then ethReceived d p (.whole (bytes ++ fcsOf bytes) false) else emit d (.eth p (bytes ++ fcsOf bytes))
    else d

/-- R219, R225, R293, R400: the first bit of the staged frame: the egress commit of every copy in it, stamped at the first bit after
the SFD, 8 bytes later. -/
def startFrame (d : Dev) (p : Nat) (its : List LaneItem) : Dev :=
  let bytes := (ethOf d p).prot.getD (stagedFrame d p its)
  let len := stagedLen d p its
  let part := its.any (fun it => it.pkt.part)
  let tun := its.any (fun it => !ethForm it.pkt)
  let d := its.foldl (fun d it => copyGone (unqueue d it.dest.q it.pkt.id) it.pkt.id true (nowNs d + wireNs d p 8)) d
  let d := modLane d (ethLane p) (fun l => { l with items := its.map (fun it => { it with sent := true }) })
  let d := if tun then
      { d with rte := { d.rte with tunSeq := mapPut d.rte.tunSeq p ((mapGet 0 d.rte.tunSeq p + 1) % 256) } }
    else d
  modEth d p (fun e => { e with prot := none, stBytes := none, wireStart := runNs d, wireEnd := runNs d + wireNs d p (len + 20),
                                cutFrame := if part then (its.head?).map (fun it => it.pkt.id) else none,
                                wire := if part then none else some bytes })

/-- ETH_TX_START's effect: the staged frame starts, unless its gate would close on it or its shaper holds its class (R231). -/
def txStart (d : Dev) (p : Nat) : Dev :=
  let e := ethOf d p
  let its := stagedItems d p
  if p < 8 && ethLive d p && e.st == 3 && !e.paused && !outFrozen d (6 + p / 2) && e.cutFrame.isNone && e.wireEnd ≤ runNs d &&
      startReady d its &&
      (!msEn d p || e.prot.isSome) then
    if shaperOk d p e.stClass && gateFits d p e.stClass (nowNs d) (stagedLen d p its) then startFrame d p its
    else ethStage (unstageAll d p its) p
  else d

/-- ETH_TX_START. -/
def execEthTxStart (port : Nat) : State → Host.Outcome State Fault Refusal := act (fun d => txStart d port)

/-! ## Gate control lists (R228, R229) -/

/-- R228: the next entry takes over; an idle port takes its staging instant. -/
def gclAdvance (d : Dev) (p : Nat) : Dev :=
  if p < 8 && ethLive d p then
    ethStage (modEth d p (fun e => { e with entry := (gatesAt e (nowNs d)).2.2 })) p
  else d

/-- GCL_ENTRY_ADVANCE. -/
def execGclEntryAdvance (port : Nat) : State → Host.Outcome State Fault Refusal := act (fun d => gclAdvance d port)

/-- R229: the administrative list of a port. -/
def adminList (d : Dev) (p : Nat) : GateList :=
  let b := ethBase p
  let n := clamp 1 256 (fld d (b + 0x40) 16 9)
  let lo := reg d (b + 0x50)
  let hi := reg d (b + 0x54)
  let base := lo + hi * 2 ^ 32
  { entries := (List.range n).map (fun i => (reg d (b + 0x1000 + 8 * i), fld d (b + 0x1004 + 8 * i) 0 8)),
    base := bits base 0 30 + bits base 30 32 * 1000000000, cycle := reg d (b + 0x48), ext := fld d (b + 0x4C) 0 18 }

/-- R229: the change time: the base time, or the first cycle start after it that lies in the future. -/
def changeTime (l : GateList) (now : Nat) : Nat :=
  if now < l.base then l.base else l.base + ((now - l.base) / max 1 l.cycle + 1) * max 1 l.cycle

/-- R229: the change time of a pending list: it becomes operational. -/
def gclChange (d : Dev) (p : Nat) : Dev :=
  let e := ethOf d p
  match e.pend with
  | none => d
  | some l =>
    if e.cct ≤ nowNs d then
      raise (modEth d p (fun e => { e with oper := some l, pend := none, entry := (listAt l (nowNs d)).2.2 })) 0x0805 0
        (e1 p ++ e4 (e.cct % 1000000000))
    else d

/-- R229: the administrative values become the pending list. A pending list whose change time has come takes effect first. -/
def gclRequest (d : Dev) (p : Nat) : Dev :=
  if p < 8 && ethLive d p then
    let d := gclChange d p
    let l := adminList d p
    modEth d p (fun e => { e with pend := some l, cct := changeTime l (nowNs d) })
  else d

/-- GCL_CFGCHG. -/
def execGclCfgchg (who : Initiator) (port : Nat) : State → Host.Outcome State Fault Refusal :=
  access who (.gclCfgchg who port) (fun d => if port < 8 then regWr d who (ethBase port + 0x40) (fun d => gclRequest d port) else d)

/-- GCL_CHANGED. -/
def execGclChanged (port : Nat) : State → Host.Outcome State Fault Refusal := act (fun d => gclChange d port)

/-! ## Shapers (R231) -/

/-- R231: a class is sending. -/
def classSends (d : Dev) (p tc : Nat) : Bool :=
  decide (runNs d < (ethOf d p).wireEnd) && (laneOf d (ethLane p)).items.any (fun it => it.sent && it.dest.tc % 8 == tc)

/-- R231: credit of a class after one TIME cycle of 2 ns, in units of 10^-6 bits. -/
def creditTick (d : Dev) (p tc : Nat) : Int :=
  let c := creditOf d p tc
  let c :=
    if classSends d p tc then c - 2 * (cbsSend d p tc : Int)
    else if (queueOf d (qEth p tc)).isEmpty then min c 0
    else if gateOpen d p tc then c + 2 * (cbsIdle d p tc : Int)
    else c
  max (-(1000000 * (cbsLo d p tc : Int))) (min c (1000000 * (cbsHi d p tc : Int)))

/-- R231: the credits of a port's shaped classes after one TIME cycle. -/
def creditStep (d : Dev) (p : Nat) : Dev :=
  (List.range 8).foldl (fun d tc =>
    if hasShaper d p tc then
      let c := creditTick d p tc
      modEth d p (fun e => { e with credit := mapStore 0 e.credit tc c })
    else d) d

/-- R231: the credit of a class has risen to zero while frames wait: its head is eligible. -/
def creditZero (d : Dev) (p tc : Nat) : Dev :=
  if p < 8 && ethLive d p && hasShaper d p tc && !classSends d p tc && !(queueOf d (qEth p tc)).isEmpty &&
      gateOpen d p tc && decide (0 ≤ creditOf d p tc) then ethStage d p
  else d

/-- SHAPER_CREDIT_ZERO. -/
def execShaperCreditZero (port cls : Nat) : State → Host.Outcome State Fault Refusal :=
  act (fun d => creditZero d port cls)

end Sys2Proof.Machine
end

