-- ==== Sys2Proof/Machine/Macsec.lean ====
section
/-! DEFINITION. MACsec at the ports and the table window of the Crypto Block (R355 to R358, R362): MACSEC_RX, MACSEC_TX,
SAK_INSTALL, CRY_WINDOW_COPY. -/

namespace Sys2Proof.Machine

/-- R357: a whole frame received on a MACsec port reaches the classifier only after its verdict. -/
def macsecRx (d : Dev) (p : Nat) (frame : Bytes) : Dev :=
  if msEn d p && ethLive d p && cryOn d && (ethOf d p).st == 3 then ethWhole d p frame false else d

/-- MACSEC_RX. -/
def execMacsecRx (port : Nat) (frame : Bytes) : State → Host.Outcome State Fault Refusal :=
  act (fun d => macsecRx d port frame)

/-- R358: without a usable SA the staged frame is dropped and counted. -/
def macsecNoSa (d : Dev) (p : Nat) (its : List LaneItem) : Dev :=
  bumpMs (its.foldl (fun d it => copyDrop (unstage (unqueue d it.dest.q it.pkt.id) it.dest.q it.pkt.id) it.pkt.id) d)
    p 0x780860

/-- R358: the staged frame is protected with the next PN of the SA in use; the PN after it is stored with what it
brings. -/
def macsecTx (d : Dev) (p : Nat) : Dev :=
  let its := stagedItems d p
  if !(msEn d p && ethLive d p && cryOn d && startReady d its && (ethOf d p).prot.isNone) then d
  else match txSaNow d p with
    | none => macsecNoSa d p its
    | some s => match saKey d s with
      | none => macsecNoSa d p its
      | some key =>
        let bytes := protect key s s.pn (stagedFrame d p its)
        let d := modEth d p (fun e => { e with prot := some bytes })
        pnStep d p { s with pn := s.pn + 1 }

/-- MACSEC_TX. -/
def execMacsecTx (port : Nat) : State → Host.Outcome State Fault Refusal := act (fun d => macsecTx d port)

/-! ## SAKs (R356) -/

/-- R368: the KTYPE of a SAK: AES-128 or AES-256 by its suite. -/
def sakType (suite : Nat) : Nat := if suite % 2 = 0 then 0 else 2

/-- The SAK goes into its key slot. -/
def sakSlot (d : Dev) (a : SakArgs) : Dev :=
  let d := if (slotOf d a.slot).full then dropSlot d a.slot else d
  if (slotOf d a.slot).retired then d
  else fillSlot d a.slot (fit (ktypeLen (sakType a.suite)) a.sak) (sakType a.suite) 3 0 0 1 none

/-- The SA of an installation. -/
def sakSa (d : Dev) (a : SakArgs) : Sa :=
  { key := handleOf d a.slot, an := a.an % 4, sci := a.sci % 2 ^ 64, ssci := a.ssci % 2 ^ 32, salt := a.salt,
    suite := a.suite % 4, pn := a.pn, rekeyed := false, stopped := false }

/-- R355, R356, R358: SC1 installs a SAK: the slot, the SA tables, and TXAN for a transmit SA. A receive SC keeps the SA
before it. -/
def sakInstall (d : Dev) (p : Nat) (a : SakArgs) : Dev :=
  if !(decide (p < 8) && cryOn d && svcUp d 2 && !d.kvt.locked && decide (2 ≤ a.slot) && decide (a.slot < 4096)) then d
  else
    let d := sakSlot d a
    let s := sakSa d a
    if a.tx then
      let c := { d.cry with suite := mapPut d.cry.suite p s.suite, txAn := mapPut d.cry.txAn p s.an }
      pnStep { d with cry := c } p s
    else
      let base := 32 * p + 4 * (a.sc % 8)
      let keep := mapDrop d.cry.rxSa (fun k => decide (base ≤ k) && decide (k < base + 4) && k != base + (s.an + 3) % 4)
      { d with cry := { d.cry with rxSa := mapPut keep (base + s.an) s, suite := mapPut d.cry.suite p s.suite } }

/-- SAK_INSTALL. -/
def execSakInstall (port : Nat) (a : SakArgs) : State → Host.Outcome State Fault Refusal :=
  act (fun d => sakInstall d port a)

/-! ## The table window (R362) -/

/-- The number of an SA as CRY_WDATA lays it out, without its salt. -/
def saWords (s : Option Sa) : Nat :=
  match s with
  | none => 0
  | some s => s.key + s.pn % 2 ^ 64 * 2 ^ 32 + (s.an + 4 + 8 * s.stopped.toNat) * 2 ^ 96 + s.sci * 2 ^ 128 + s.ssci * 2 ^ 192

/-- The freshness state of a profile as CRY_WDATA lays it out. -/
def freshWords (d : Dev) (prof : Nat) : Nat :=
  let f := freshOf d prof
  f.val % 2 ^ 64 + f.ckpt % 2 ^ 64 * 2 ^ 64 +
    (f.halt.toNat + 2 * (ckptDue d prof).toNat + 4 * f.refused.toNat) * 2 ^ 128

/-- The item that CRY_WSEL selects, as 16 words. -/
def cryItem (d : Dev) (w : Nat) : List Word :=
  let ix := bits w 2 13
  match w % 4 with
  | 0 => wordsOf 16 (authRec d ix)
  | 1 => wordsOf 16 (freshWords d ix)
  | 2 => wordsOf 16 (saWords (mapGet? d.cry.txSa ix))
  | _ => wordsOf 16 (saWords (mapGet? d.cry.rxSa ix))

/-- R362: the copy is made and READY set. -/
def cryCopy (d : Dev) : Dev :=
  if cryOn d then { d with cry := { d.cry with wReady := true, wData := cryItem d (reg d 0x780040) } } else d

/-- CRY_WINDOW_COPY. -/
def execCryWindowCopy : State → Host.Outcome State Fault Refusal := act cryCopy

end Sys2Proof.Machine
end

