-- ==== Sys2Proof/Machine/SigOps.lean ====
section
/-! DEFINITION. Shared operations on signals (chapter 11): the signal cache and table (R322 to R325), bit layouts
(R308), filters (R310), placement (R310, R319, R327), destination descriptors (R316). -/

namespace Sys2Proof.Machine

/-! ## Signal entries (R306, R307) -/

def sgValue (v : Nat) : Nat := bits v 0 64
def sgParam (v : Nat) : Nat := bits v 64 32
def sgStart (v : Nat) : Nat := bits v 128 14
/-- Bits of the signal. -/
def sgLen (v : Nat) : Nat := bits v 142 6 + 1
def sgBe (v : Nat) : Bool := bit v 148
def sgSigned (v : Nat) : Bool := bit v 149
def sgFilt (v : Nat) : Nat := bits v 150 3
def sgUbEn (v : Nat) : Bool := bit v 153
def sgUbPos (v : Nat) : Nat := bits v 154 14
def sgToAct (v : Nat) : Bool := bit v 168
def sgValid (v : Nat) : Bool := bit v 169
def sgEpi (v : Nat) : Bool := bit v 170
def sgPassed (v : Nat) : Bool := bit v 171
def sgLast (v : Nat) : Nat := bits v 172 32
def sgSubst (v : Nat) : Nat := if 32 < sgLen v then bits v 64 64 else bits v 96 32
def sgExt (v : Nat) : Nat := bits v 236 20

/-- A destination of a signal: PDU, bit position, layout. -/
structure Place where
  pdu : Nat
  pos : Nat
  be  : Bool
  deriving DecidableEq, Repr

/-- The destination of an entry, and those of an extension entry. -/
def ownPlaces (v : Nat) : List Place := if bit v 204 then [⟨bits v 205 16, bits v 221 14, bit v 235⟩] else []
def extPlaces (v : Nat) : List Place :=
  ((List.range 7).filter (fun k => bit v (32 * k + 31))).map (fun k =>
    ⟨bits v (32 * k) 16, bits v (32 * k + 16) 14, bit v (32 * k + 30)⟩)

/-! ## Cache and table -/

/-- R322: PINCNT; a value above 32,768 acts as 32,768. Lines that are pinned. -/
def pinLines (d : Dev) : Nat := (min (fld d 0x600004 0 16) 32768 + 1) / 2

/-- The two entries of a line in the table of DRAM channel `ch` (R324). -/
def tabLine (d : Dev) (ch l : Nat) : Nat × Nat :=
  let t := if ch % 2 = 0 then d.mil.tab0 else d.mil.tab1
  (mapGet 0 t (2 * l), mapGet 0 t (2 * l + 1))

/-- R324: a line is written to one channel. -/
def setTab (d : Dev) (ch l : Nat) (e : Nat × Nat) : Dev :=
  let up := fun t => mapPut (mapPut t (2 * l) e.1) (2 * l + 1) e.2
  if ch % 2 = 0 then { d with mil := { d.mil with tab0 := up d.mil.tab0 } }
  else { d with mil := { d.mil with tab1 := up d.mil.tab1 } }

/-- A line is written to both channels. -/
def setTabs (d : Dev) (l : Nat) (e : Nat × Nat) : Dev := setTab (setTab d 0 l e) 1 l e

/-- A line as the Mill sees it: cached, awaiting write-back, or in the table. -/
def lineNow (d : Dev) (l : Nat) : Nat × Nat :=
  match mapGet? d.mil.cache l with
  | some c => (c.e0, c.e1)
  | none => match mapGet? d.mil.wback l with
    | some c => (c.e0, c.e1)
    | none => tabLine d l l

/-- An entry as the Mill sees it. -/
def entryNow (d : Dev) (e : Nat) : Nat := if e % 2 = 0 then (lineNow d (e / 2)).1 else (lineNow d (e / 2)).2

/-- Write an entry where it stands; a cached line becomes dirty. -/
def setEntry (d : Dev) (e v : Nat) : Dev :=
  let l := e / 2
  let o := lineNow d l
  let n := if e % 2 = 0 then (v, o.2) else (o.1, v)
  let c : CacheLine := { e0 := n.1, e1 := n.2, dirty := true, used := d.mil.useSeq }
  if (mapGet? d.mil.cache l).isSome then
    { d with mil := { d.mil with cache := mapPut d.mil.cache l c, useSeq := d.mil.useSeq + 1 } }
  else if (mapGet? d.mil.wback l).isSome then { d with mil := { d.mil with wback := mapPut d.mil.wback l c } }
  else setTabs d l n

/-- R322: a cached line that is accessed is the most recently used of its set. -/
def touchLine (d : Dev) (l : Nat) : Dev :=
  match mapGet? d.mil.cache l with
  | some c => { d with mil := { d.mil with cache := mapPut d.mil.cache l { c with used := d.mil.useSeq },
                                           useSeq := d.mil.useSeq + 1 } }
  | none => d

/-- R307: the extension entries of a chain, at most `n`, from entry number `e` (0: none). -/
def extChain (d : Dev) : Nat → Nat → List Nat
  | 0, _ => []
  | n + 1, e =>
    if e = 0 || d.mil.lost.contains (e / 2) then [] else e :: extChain d n (bits (entryNow d e) 224 20)

/-- R325: the chain from entry number `e` reaches a lost line. -/
def chainLost (d : Dev) : Nat → Nat → Bool
  | 0, _ => false
  | n + 1, e => e != 0 && (d.mil.lost.contains (e / 2) || chainLost d n (bits (entryNow d e) 224 20))

/-- Every destination of an entry, in chain order. -/
def placesOf (d : Dev) (v : Nat) : List Place :=
  ownPlaces v ++ ((extChain d 8 (sgExt v)).map (fun e => extPlaces (entryNow d e))).flatten

/-- The lines that an entry needs, its extension entries' included. -/
def linesOf (d : Dev) (e : Nat) : List Nat := ((e :: extChain d 8 (sgExt (entryNow d e))).map (· / 2)).eraseDups

/-- R325: a line whose entries are lost. -/
def lineLost (d : Dev) (l : Nat) : Bool := d.mil.lost.contains l

/-- A line can be accessed now. -/
def lineHere (d : Dev) (l : Nat) : Bool := (mapGet? d.mil.cache l).isSome || lineLost d l

/-- R322: unpinned lines of a set that are cached. -/
def setLines (d : Dev) (l : Nat) : NMap CacheLine :=
  d.mil.cache.filter (fun c => c.1 % 8192 == l % 8192 && decide (pinLines d ≤ c.1))

/-- R322: ways of a set that pinned lines take. -/
def pinnedWays (d : Dev) (l : Nat) : Nat := ((List.range 2).filter (fun w => decide (l % 8192 + 8192 * w < pinLines d))).length

/-- R322, R323: a line enters the cache; the least recently used unpinned line of a full set is evicted, and written back
when dirty. `none` where 64 lines already await write-back. -/
def cacheInsert (d : Dev) (l : Nat) (e : Nat × Nat) : Option Dev :=
  let c : CacheLine := { e0 := e.1, e1 := e.2, dirty := false, used := d.mil.useSeq }
  let put := fun (d : Dev) =>
    { d with mil := { d.mil with cache := mapPut d.mil.cache l c, useSeq := d.mil.useSeq + 1 } }
  if l < pinLines d || (setLines d l).length < 4 - pinnedWays d l then some (put d)
  else
    match (setLines d l).foldl (fun (a : Option (Nat × CacheLine)) x => match a with
        | none => some x
        | some b => if x.2.used < b.2.used then some x else a) none with
    | none => none
    | some (v, vc) =>
      if vc.dirty then
        (if 64 ≤ d.mil.wback.length then none
         else some (put { d with mil := { d.mil with cache := mapDel d.mil.cache v, wback := mapPut d.mil.wback v vc } }))
      else some (put { d with mil := { d.mil with cache := mapDel d.mil.cache v } })

/-! ## Bit layouts (R308) -/

/-- The positions of a BE layout, most significant bit first. -/
def bePath : Nat → Nat → List Nat
  | 0, _ => []
  | n + 1, p => p :: bePath n (if p % 8 ≠ 0 then p - 1 else p + 15)

/-- The position of every value bit, least significant first. -/
def bitPath (be : Bool) (start n : Nat) : List Nat :=
  if be then (bePath n start).reverse else (List.range n).map (fun i => start + i)

/-- A bit of a PDU. -/
def pduBit (data : Bytes) (p : Nat) : Bool := bit (byteAt data (p / 8)) (p % 8)

/-- R308: the PDU holds every bit of a path. -/
def pathFits (path : List Nat) (len : Nat) : Bool := path.all (fun p => decide (p < 8 * len))

/-- R308: extraction. -/
def extract (data : Bytes) (path : List Nat) : Nat :=
  (path.zipIdx).foldl (fun a p => if pduBit data p.1 then a + 2 ^ p.2 else a) 0

/-- R308: placement leaves every other bit untouched. -/
def inject (data : Bytes) (path : List Nat) (v : Nat) : Bytes :=
  (path.zipIdx).foldl (fun b p =>
    setNth b (p.1 / 8) (BitVec.ofNat 8 (setBit (byteAt b (p.1 / 8)) (p.1 % 8) (bit v p.2)))) data

/-- R306, R310: a value of `n` bits in 64 bits, sign-extended when signed. -/
def widen (signed : Bool) (n v : Nat) : Nat := if signed && bit v (n - 1) then v + (2 ^ 64 - 2 ^ n) else v

/-- The number that 64 bits stand for. -/
def asInt (signed : Bool) (v : Nat) : Int := if signed && bit v 63 then (v : Int) - 2 ^ 64 else (v : Int)

/-! ## Mill time -/

/-- Mill time in 10 µs ticks since routing open. -/
def milTicks (d : Dev) : Nat := (d.clk.tclk - d.clk.routingAt) / 5000
/-- Mill time in ms. -/
def milMs (d : Dev) : Nat := milTicks d / 100

/-- R310: the filter of an entry on a new value of 64 bits. -/
def filterPasses (v new now : Nat) : Bool :=
  !sgPassed v || sgEpi v ||
    (match sgFilt v with
     | 1 => new != sgValue v
     | 2 => (new ^^^ sgValue v) &&& sgParam v != 0
     | 3 => decide ((sgParam v : Int) ≤ ((asInt (sgSigned v) new - asInt (sgSigned v) (sgValue v)).natAbs : Int))
     | 4 => decide (sgParam v ≤ (now % 2 ^ 32 + 2 ^ 32 - sgLast v) % 2 ^ 32)
     | _ => true)

/-! ## Destination PDUs (R316) -/

def dsIndex (r : Nat) : Nat := bits r 0 15
def dsRoute (r : Nat) : Nat := bits r 16 17
def dsForm (r : Nat) : Nat := bits r 33 3
def dsXtd (r : Nat) : Bool := bit r 36
def dsId (r : Nat) : Nat := bits r 37 29
def dsVcid (r : Nat) : Nat := bits r 66 8
def dsSdt (r : Nat) : Nat := bits r 74 8
def dsAf (r : Nat) : Nat := bits r 82 32
/-- The length in bytes. -/
def dsLen (r : Nat) : Nat := bits r 114 11 + 2048 * bits r 227 3 + 1
def dsImgOff (r : Nat) : Nat := 8 * bits r 125 19
def dsMode (r : Nat) : Nat := bits r 144 2
def dsPeriod (r : Nat) : Nat := bits r 146 16
def dsOffset (r : Nat) : Nat := bits r 162 16
def dsMdt (r : Nat) : Nat := bits r 178 16
def dsRepeat (r : Nat) : Nat := bits r 194 3
def dsRepGap (r : Nat) : Nat := bits r 197 16
def dsReadyBlk (r : Nat) : Nat := bits r 213 9
def dsSlice (r : Nat) : Nat := bits r 222 3
def dsSide (r : Nat) : Nat := bits r 225 1
def dsL4 (r : Nat) : Bool := bit r 226

def dstOf (d : Dev) (p : Nat) : DestSt := mapGet {} d.mil.dst p
/-- Change the emission state of a destination PDU. -/
def modDst (d : Dev) (p : Nat) (f : DestSt → DestSt) : Dev :=
  { d with mil := { d.mil with dst := mapMod {} d.mil.dst p f } }

/-- R328: the destination entry of a destination PDU names HA or HB. -/
def toHost (d : Dev) (route : Nat) : Bool := (entryDests d route (routeEntry d route)).any (fun x => qIsHost x.q)

/-- R319: a placement sets a pending trigger in modes 1 and 2, and cancels the repetitions left. -/
def trigger (d : Dev) (p mode : Nat) : Dev :=
  let t := ceilDiv (d.clk.tclk - d.clk.routingAt) 5000
  if mode = 1 || mode = 2 then
    modDst d p (fun s => { s with trig := some (match s.trig with | some u => min u t | none => t), reps := 0 })
  else d

/-- R310, R319, R320, R327: a value of `n` bits is placed into one destination, for source PDU `src` on a side.
An emission that is due and has no snapshot yet carries the placement, which then triggers no other. -/
def placeOne (d : Dev) (src : Nat) (side : Bool) (n v : Nat) (x : Place) : Dev :=
  match mapGet? d.mil.desc x.pdu with
  | none => d
  | some r =>
    let path := bitPath x.be x.pos n
    if d.mil.split && dsSide r ≠ side.toNat then
      let d := bumpM d 14
      match srcRec d src with
      | some s => if srcHostFeed s then milLoss d src 14 else d
      | none => d
    else if (dstOf d x.pdu).oos || !pathFits path (dsLen r) then d
    else
      let img := inject (mapGet [] d.mil.image x.pdu) path v
      let d := { d with mil := { d.mil with image := mapPut d.mil.image x.pdu img } }
      if d.mil.due.contains x.pdu then d else trigger d x.pdu (dsMode r)

/-- R312: signal operations. -/
def bumpOps (d : Dev) (n : Nat) : Dev := bumpBy d 0x600108 0 n

/-- R312: cache accesses to some lines, counted as MIL_HIT but for the reads of lines in `late`, whose misses are counted
already. -/
def accessLines (d : Dev) (late ls : List Nat) : Dev :=
  bumpBy (ls.foldl touchLine d) 0x600140 0 (ls.filter (fun l => !late.contains l)).length

/-- A value goes to every destination of an entry; each extension entry read is an operation and a cache access. -/
def placeAll (d : Dev) (late : List Nat) (src : Nat) (side : Bool) (v x : Nat) : Dev :=
  let chain := extChain d 8 (sgExt v)
  let d := accessLines (bumpOps d chain.length) late (chain.map (· / 2))
  (placesOf d v).foldl (fun d p => placeOne d src side (sgLen v) x p) d

end Sys2Proof.Machine
end

