-- ==== Sys2Proof/Machine/Mill.lean ====
section
/-! DEFINITION. The commands of the Signal Mill (chapter 11): MIL_SLICE_START, CACHE_REFILL, CACHE_WRITEBACK,
TIMEOUT_SWEEP, EMISSION_TICK, EMISSION_SNAPSHOT, MIL_TABLE_WINDOW, MIL_WINDOW_COPY, SIGNAL_BLOCK_LOAD, PDUIMG_LOAD
(R131, R317); and what routing open, a power-down and a hand-over do to the Mill (R321, R327). -/

namespace Sys2Proof.Machine

/-- The MILL island is powered, and routing is open. -/
def millOn (d : Dev) : Bool := running d && d.clk.routing && bit d.clk.islands 6

/-- R321, R402: the Mill takes input and emits: not in M6 and M7, and not while its twin is frozen. -/
def millRuns (d : Dev) : Bool := millOn d && !holdMode d && !frozen d 10

/-- R302: a source record feeds a host. -/
def feedsHost (d : Dev) (src : Nat) : Bool := match srcRec d src with | some r => srcHostFeed r | none => false

/-- A Mill loss under a counter, reported when it fed a host (R328). -/
def milDropIf (d : Dev) (host : Bool) (pdu ix : Nat) : Dev :=
  let d := bumpM d ix
  if host then milLoss d pdu ix else d

/-! ## Slices (R305, R310 to R312) -/

/-- The key of a slice of a side. -/
def sliceKey (side : Bool) (s : Nat) : Nat := 8 * side.toNat + s

/-- R289, R305: the payload in which bit positions count. -/
def millData (d : Dev) (p : Pkt) : Bytes :=
  let a := authRec d (rtAuthProf p.entry)
  match rtAuth p.entry with
  | 2 => (secPayload a p.data).getD p.data
  | 3 => (secPayload a p.data).getD p.data
  | 4 => (secPayload (authRec d (apPair a)) p.data).getD p.data
  | _ => p.data

/-- The lines of an entry that a job cannot access yet: not cached, not lost, and not refilled for it since it asked. -/
def linesMissing (d : Dev) (job : SliceJob) (e : Nat) : List Nat :=
  (linesOf d e).filter (fun l => !lineHere d l && (!job.missed.contains l || d.mil.refills.contains l))

/-- R305, R323: refills are asked for; each new one is a cache miss (DEDUCED, log entry 39). -/
def askLines (d : Dev) (ls : List Nat) : Dev :=
  ls.foldl (fun d l =>
    if d.mil.refills.contains l then d
    else bumpM { d with mil := { d.mil with refills := d.mil.refills ++ [l] } } 9) d

/-- R305: a slice has up to 16 refills outstanding; it asks for the first lines that it still waits to ask for. -/
def fillAsk (d : Dev) (job : SliceJob) : Dev × SliceJob :=
  let want := job.wait.filter (fun l => !lineHere d l)
  let room := 16 - (job.missed.filter (fun l => d.mil.refills.contains l)).length
  (askLines d (want.take room),
   { job with missed := (job.missed ++ want.take room).eraseDups, wait := want.drop room })

/-- R312: the two cache accesses of a processed entry, its read and its write; a read that waited for its line was counted
as a miss. -/
def countHits (d : Dev) (late : List Nat) (e : Nat) : Dev := bumpBy (accessLines d late [e / 2]) 0x600140 0 1

/-- The entry with a passed value: VALUE, PASSED, LAST, EPI (R310). -/
def passedEntry (v new now : Nat) : Nat :=
  setBits (setBit (setBit (setBits v 0 64 new) 171 true) 170 false) 172 32 now

/-- R310, R311: one entry of a source PDU. -/
def entryOp (d : Dev) (job : SliceJob) (side : Bool) (data : Bytes) (e : Nat) : Dev :=
  let d := bumpOps d 1
  let v := entryNow d e
  if lineLost d (e / 2) then milDropIf d (feedsHost d job.src) job.src 13
  else
    let d := countHits d job.missed e
    let path := bitPath (sgBe v) (sgStart v) (sgLen v)
    if !sgValid v then d
    else if sgUbEn v && decide (sgUbPos v < 8 * data.length) && !pduBit data (sgUbPos v) then bumpM d 4
    else if !pathFits path data.length || (sgUbEn v && decide (8 * data.length ≤ sgUbPos v)) then bumpM d 5
    else
      let new := widen (sgSigned v) (sgLen v) (extract data path)
      if !filterPasses v new (milMs d) then bumpM d 3
      else
        let d := setEntry d e (passedEntry v new (milMs d))
        if sgFilt v = 5 then d
        else
          let d := if chainLost d 8 (sgExt v) then milDropIf d (feedsHost d job.src) job.src 13 else d
          placeAll d job.missed job.src side v new

/-- R305: the entries of a job from where it stands, while their lines are here; `n` bounds them. The job ends after its
last entry, and its input is released (R397). -/
def sliceRun (key : Nat) : Nat → Dev → Dev
  | 0, d => d
  | n + 1, d =>
    match mapGet? d.mil.slices key with
    | none => d
    | some job =>
      let r := (srcRec d job.src).getD 0
      if srcCount r ≤ job.pos then
        journalFree { d with mil := { d.mil with slices := mapDel d.mil.slices key } } 10 job.pkt.size
      else
        let e := srcFirst r + job.pos
        let need := linesMissing d job e
        if need.isEmpty then
          let read := linesOf d e
          let d := entryOp d job (decide (8 ≤ key)) (millData d job.pkt) e
          let job := { job with pos := job.pos + 1, missed := job.missed.filter (fun l => !read.contains l) }
          sliceRun key n { d with mil := { d.mil with slices := mapPut d.mil.slices key job } }
        else
          let new := need.filter (fun l => !job.missed.contains l)
          let x := fillAsk d { job with wait := (new ++ job.wait).eraseDups }
          { x.1 with mil := { x.1.mil with slices := mapPut x.1.mil.slices key x.2 } }

/-- Every slice asks for what it now has room for, and goes on as far as it can. -/
def slicesResume (d : Dev) : Dev :=
  d.mil.slices.foldl (fun d s =>
    match mapGet? d.mil.slices s.1 with
    | none => d
    | some job =>
      let x := fillAsk d job
      sliceRun s.1 8193 { x.1 with mil := { x.1.mil with slices := mapPut x.1.mil.slices s.1 x.2 } }) d

/-- R325, R327: an uncorrectable error in a cache line, or a split CRC that does not match: the line is read again from DRAM,
and what was not written back is lost from the table. `cause` is 0 for ECC, 1 for the split CRC. -/
def lineReload (d : Dev) (l cause : Nat) : Dev :=
  match mapGet? d.mil.cache l with
  | none => d
  | some c =>
    let e := tabLine d l l
    let new : CacheLine := { e0 := e.1, e1 := e.2, dirty := false, used := c.used }
    raiseF { d with mil := { d.mil with cache := mapPut d.mil.cache l new } } 0x0B07 1 (e2 l ++ e1 cause ++ eFlag c.dirty)

/-- R327: while split, the lines whose CRC-16 a slice finds wrong as it reads them. -/
def crcReload (d : Dev) (crc : List Nat) : Dev :=
  if d.mil.split then crc.eraseDups.foldl (fun d l => lineReload d l 1) d else d

/-- R313: a source PDU's DEADLINE becomes now + TOUT. -/
def setDeadline (d : Dev) (src r : Nat) : Dev :=
  if srcToEn r then
    { d with mil := { d.mil with deadline := mapPut d.mil.deadline src ((milMs d + srcTout r) % 2 ^ 32) } }
  else d

/-- R313: at a start instant the deadline starts anew, and EXPIRED is cleared. -/
def startDeadline (d : Dev) (src r : Nat) : Dev :=
  if srcToEn r then
    setDeadline { d with mil := { d.mil with expired := d.mil.expired.filter (fun x => x != src) } } src r
  else d

/-- R325: an uncorrectable error in a source record. -/
def srcDamage (d : Dev) (ix : Nat) : Dev :=
  if d.mil.oos.contains ix || (srcRec d ix).isNone then d
  else raise { d with mil := { d.mil with oos := d.mil.oos ++ [ix] } } 0x0B08 0 (e1 0 ++ e2 ix)

/-- R305, R325: the whole PDU is in the slice's buffer: the deadline restarts, and every line that the PDU needs is asked for.
The read finds an error that stands in its source record; a copy of a source that is out of service is discarded. `crc`: the lines whose split CRC does not match as the slice reads them. -/
def sliceStart (d : Dev) (side : Bool) (s : Nat) (crc : List Nat) : Dev :=
  let k := 144 + s
  let key := sliceKey side s
  if !millRuns d || 8 ≤ s || (side && !d.mil.split) || (mapGet? d.mil.slices key).isSome || !slotHeld d 3 (0x20 + s) then d
  else match (mapGet {} d.lnd.lanes k).items with
    | [] => d
    | it :: rest =>
      let src := rtSrcPdu it.pkt.entry
      let r := (srcRec d src).getD 0
      if !it.sent || (d.mil.split && srcSide r ≠ side.toNat) then d
      else
        let d := { d with lnd := { d.lnd with lanes := mapMod {} d.lnd.lanes k (fun l => { l with items := rest }) } }
        let d := if d.mil.srcErr.contains src then srcDamage d src else d
        if d.mil.oos.contains src then milDropIf d (feedsHost d src) src 12
        else
          let d := crcReload (startDeadline (bumpM (journalAdd d 10 it.pkt.size) 0) src r) crc
          let job : SliceJob := { pkt := it.pkt, src := src, pos := 0, missed := [] }
          let all := ((List.range (srcCount r)).map (fun i => linesMissing d job (srcFirst r + i))).flatten.eraseDups
          let x := fillAsk d { job with wait := all }
          sliceRun key 8193 { x.1 with mil := { x.1.mil with slices := mapPut x.1.mil.slices key x.2 } }

/-- MIL_SLICE_START. -/
def execMilSliceStart (side : Bool) (r : SliceRead) : State → Host.Outcome State Fault Refusal :=
  act (fun d => sliceStart d side r.slice r.crc)

/-! ## Cache (R322 to R325) -/

/-- R323, R325: the data of a refill: a line awaiting write-back, else the good DRAM copy; `none` where both are bad. -/
def refillData (d : Dev) (l : Nat) (bad0 bad1 : Bool) : Option (Nat × Nat) :=
  match mapGet? d.mil.wback l with
  | some c => some (c.e0, c.e1)
  | none =>
    if !(if l % 2 = 0 then bad0 else bad1) then some (tabLine d l l)
    else if !(if l % 2 = 0 then bad1 else bad0) then some (tabLine d (l + 1) l)
    else none

/-- R325: the good copy is rewritten over one that was read bad. Only the channel that is read is looked at first. -/
def refillMend (d : Dev) (l : Nat) (bad0 bad1 : Bool) (e : Nat × Nat) : Dev :=
  if (mapGet? d.mil.wback l).isNone && (if l % 2 = 0 then bad0 else bad1) then noteClass (setTab d l l e) 1 else d

/-- R323, R325: the refill of a line that was asked for, with `corr` errors corrected and the split CRC of the lines `crc` failing. -/
def cacheRefill (d : Dev) (l : Nat) (bad0 bad1 : Bool) (corr : Nat) (crc : List Nat) : Dev :=
  if !millOn d || !d.mil.refills.contains l then d
  else
    let d := dramCorr d corr
    let rest := d.mil.refills.filter (fun x => x != l)
    match refillData d l bad0 bad1 with
    | none =>
      slicesResume (crcReload (raise { d with mil := { d.mil with refills := rest, lost := d.mil.lost ++ [l] } } 0x0B03 0
        (e4 (2 * l))) crc)
    | some e =>
      match cacheInsert (refillMend d l bad0 bad1 e) l e with
      | none => d
      | some d => slicesResume (crcReload { d with mil := { d.mil with refills := rest } } crc)

/-- CACHE_REFILL. -/
def execCacheRefill (r : LineRead) (bad0 bad1 : Bool) : State → Host.Outcome State Fault Refusal :=
  act (fun d => cacheRefill d r.line bad0 bad1 r.corr r.crc)

/-- R323, R324: an evicted dirty line, or a dirty pinned one, is written to both channels. -/
def cacheWriteback (d : Dev) (l : Nat) : Dev :=
  if !millOn d then d
  else match mapGet? d.mil.wback l with
    | some c => setTabs { d with mil := { d.mil with wback := mapDel d.mil.wback l } } l (c.e0, c.e1)
    | none => match mapGet? d.mil.cache l with
      | some c =>
        if c.dirty && decide (l < pinLines d) then
          setTabs { d with mil := { d.mil with cache := mapPut d.mil.cache l { c with dirty := false } } } l (c.e0, c.e1)
        else d
      | none => d

/-- CACHE_WRITEBACK. -/
def execCacheWriteback (line : Nat) : State → Host.Outcome State Fault Refusal := act (fun d => cacheWriteback d line)

/-! ## Deadlines (R313, R314) -/

/-- R313, R314: now is at or past a DEADLINE, which counts Mill time in ms modulo 2^32 (DEDUCED, log entry 158). -/
def deadlinePassed (d : Dev) (t : Nat) : Bool := decide ((milMs d + 2 ^ 32 - t % 2 ^ 32) % 2 ^ 32 < 2 ^ 31)

/-- R312: the lines of a sweep's reads that are not cached are its misses. -/
def sweepMisses (d : Dev) (ls : List Nat) : Dev × List Nat :=
  let late := ls.filter (fun l => !lineHere d l)
  (bumpBy d 0x600148 0 late.length, late)

/-- R313, R328: an episode starts for one entry; an update of a lost entry, or past a lost extension entry, is dropped and
counted. -/
def episodeEntry (src : Nat) (side : Bool) (d : Dev) (e : Nat) : Dev :=
  let d := bumpOps d 1
  let v := entryNow d e
  if lineLost d (e / 2) then milDropIf d (feedsHost d src) src 13
  else
    let m := sweepMisses d [e / 2]
    let d := countHits m.1 m.2 e
    if !sgValid v || sgEpi v then d
    else
      let d := setEntry d e (setBit v 170 true)
      if sgToAct v then
        let d := if chainLost d 8 (sgExt v) then milDropIf d (feedsHost d src) src 13 else d
        let m := sweepMisses d ((extChain d 8 (sgExt v)).map (· / 2))
        placeAll m.1 m.2 src side v (sgSubst v)
      else d

/-- R313: the sweep finds a deadline passed: the episode begins. -/
def episodeStart (d : Dev) (src r : Nat) : Dev :=
  let d := { d with mil := { d.mil with expired := d.mil.expired ++ [src] } }
  let d := (List.range (srcCount r)).foldl (fun d i => episodeEntry src (srcSide r == 1) d (srcFirst r + i)) d
  let d := bumpM d 6
  if srcToEvt r && flag d 0x600008 0 then raise d 0x0B02 0 (e2 src) else d

/-- R313, R325: one pass of the sweep over the records below SWEEPCNT: it finds the errors that stand in them, and a record that is
out of service starts no episode (DEDUCED, log entry 158). -/
def sweepPass (d : Dev) : Dev :=
  let cnt := fld d 0x600014 0 17
  let d := (d.mil.srcErr.filter (fun x => decide (x < cnt))).foldl srcDamage d
  d.mil.deadline.foldl (fun d e =>
    match srcRec d e.1 with
    | none => d
    | some r =>
      if e.1 < cnt && srcToEn r && !d.mil.oos.contains e.1 && !d.mil.expired.contains e.1 && deadlinePassed d e.2 then
        episodeStart d e.1 r
      else d) d

/-- TIMEOUT_SWEEP: a pass is due SWEEPPER after the last one; a pass that starts a whole period late has overrun. -/
def timeoutSweep (d : Dev) : Dev :=
  let per := usCycles (max 1 (fld d 0x600010 0 14))
  let gone := d.clk.tclk - d.mil.sweepAt
  if !millRuns d || gone < per then d
  else
    let d := sweepPass d
    { d with mil := { d.mil with sweepAt := d.clk.tclk, late := d.mil.late || decide (2 * per ≤ gone) } }

/-- TIMEOUT_SWEEP. -/
def execTimeoutSweep : State → Host.Outcome State Fault Refusal := act timeoutSweep

/-! ## Emissions (R318 to R320) -/

/-- R319: what falls due for a destination PDU at tick `n`: periodic, triggered, repeated. -/
def dueAt (r : Nat) (s : DestSt) (n : Nat) : Bool × Bool × Bool :=
  match s.start with
  | none => (false, false, false)
  | some st =>
    let first := st + 10 * dsOffset r
    let per := dsMode r != 1 && decide (first ≤ n) && decide (0 < dsPeriod r) && (n - first) % (10 * dsPeriod r) == 0
    let trig := dsMode r != 0 && !per &&
      (match s.trig with | some t => decide (t ≤ n) | none => false) &&
      (match s.last with | some l => decide (l + dsMdt r ≤ n) | none => true)
    (per, trig, decide (0 < s.reps) && decide (s.repAt ≤ n))

/-- R319: the emission state after what fell due at tick `n`. -/
def afterDue (r : Nat) (s : DestSt) (n : Nat) (x : Bool × Bool × Bool) : DestSt :=
  let s := if x.1 || x.2.1 || x.2.2 then { s with last := some n } else s
  let s := if x.1 || x.2.1 then { s with trig := none } else s
  if x.2.1 then { s with reps := dsRepeat r, repAt := n + 10 * dsRepGap r }
  else if x.2.2 then { s with reps := s.reps - 1, repAt := s.repAt + 10 * dsRepGap r }
  else s

/-- R318: a destination PDU can start at tick `n`: the first after its record was applied, with its READYBLK active. -/
def pduMayStart (d : Dev) (n r : Nat) : Bool :=
  d.img.pduOn && d.img.active.contains (dsReadyBlk r) && decide (d.mil.pduTick < n) &&
    decide (mapGet 0 d.mil.blkTick (dsReadyBlk r) < n)

/-- R318, R319, R325: one destination PDU at tick `n`. -/
def tickOne (d : Dev) (n p r : Nat) : Dev :=
  let s := dstOf d p
  let s := if s.start.isNone && pduMayStart d n r then { s with start := some n } else s
  let x := dueAt r s n
  let k := x.1.toNat + x.2.1.toNat + x.2.2.toNat
  let d := modDst d p (fun _ => afterDue r s n x)
  if k = 0 then d
  else if s.oos then milDropIf d (toHost d (dsRoute r)) p 12
  else
    let had := d.mil.due.contains p
    let d := bumpBy d 0x600158 0 (if had then k else k - 1)
    if had then d else { d with mil := { d.mil with due := d.mil.due ++ [p] } }

/-- EMISSION_TICK: the next 10 µs tick of Mill time is decided, once it has come. -/
def emissionTick (d : Dev) : Dev :=
  let n := d.mil.ticks + 1
  if !millRuns d || milTicks d < n then d
  else d.mil.desc.foldl (fun d e => tickOne d n e.1 e.2) { d with mil := { d.mil with ticks := n } }

/-- EMISSION_TICK. -/
def execEmissionTick : State → Host.Outcome State Fault Refusal := act emissionTick

/-- The emitter of a destination PDU: its slice, of its side while split. -/
def emitterOf (d : Dev) (r : Nat) : Nat := if d.mil.split then 8 * dsSide r + dsSlice r else dsSlice r

/-- R316: the frame header of a destination PDU. -/
def emitHeader (r : Nat) (data : Bytes) : CanFrame :=
  let fmt : CanFmt := match dsForm r with | 0 => .classical | 1 => .fd | 2 => .fdBrs | _ => .xl
  if dsForm r = 4 then canNone
  else if dsForm r = 3 then
    { canNone with fmt := fmt, id := dsId r % 2048, vcid := dsVcid r, sdt := dsSdt r, af := dsAf r, data := data }
  else { canNone with fmt := fmt, xtd := dsXtd r, id := if dsXtd r then dsId r else dsId r % 2048, data := data }

/-- R320: the snapshot: the frame that leaves the Mill, under the next egress commit sequence of the Mill's twin. R327: while split,
one whose CRC-16 fails at MIL buffer admission is dropped. -/
def snapshot (d : Dev) (p r : Nat) (crc : Bool) : Dev :=
  let img := mapGet [] d.mil.image p
  let data := if dsForm r = 4 && dsL4 r then fixL4 img else img
  let id := nextEcs d 10
  let pkt : Pkt := { kind := 4, can := emitHeader r data, data := data, size := data.length, ingress := 0x90 + dsSlice r,
                     input := 9, stamp := nowNs d, unsync := !synced d, form4 := dsForm r == 4 }
  let d := commitOut (stepEcs (bumpM d 10) 10) 10 id
  if d.mil.split && crc then noteClass (milDropIf d (toHost d (dsRoute r)) p 15) 1
  else toLookup (cellsIn d 9 pkt.size) 9 { pkt := pkt, named := some (dsRoute r), eth := false, ptype := 0 }

/-- EMISSION_SNAPSHOT: a slice's emitter takes the emissions due in the order in which they fell due; with the arrival reserve of
MIL full it waits (R247). -/
def emissionSnapshot (d : Dev) (p : Nat) (crc : Bool) : Dev :=
  match mapGet? d.mil.desc p with
  | none => d
  | some r =>
    let first := d.mil.due.find? (fun q =>
      match mapGet? d.mil.desc q with | some s => emitterOf d s == emitterOf d r | none => false)
    if !millRuns d || first ≠ some p || arrivalFull d 9 then d
    else
      let d := { d with mil := { d.mil with due := d.mil.due.filter (fun q => q != p) } }
      if (dstOf d p).oos then milDropIf d (toHost d (dsRoute r)) p 12 else snapshot d p r crc

/-- EMISSION_SNAPSHOT. -/
def execEmissionSnapshot (r : PduRead) : State → Host.Outcome State Fault Refusal :=
  act (fun d => emissionSnapshot d r.pdu r.crc)

/-! ## The table window (R332) -/

/-- A write of MIL_WSEL. -/
def milSelect (d : Dev) (w : Nat) : Dev :=
  putReg { d with mil := { d.mil with wReady := false } } 0x600020 (w &&& 0x3FFFFFFF)

/-- MIL_TABLE_WINDOW. -/
def execMilTableWindow (who : Initiator) (w : Word) : State → Host.Outcome State Fault Refusal :=
  access who (.milTableWindow who w) (fun d => regWr d who 0x600020 (fun d => milSelect d w.toNat))

/-- A source record with its state (R302). -/
def srcItem (d : Dev) (ix : Nat) : Nat :=
  let v := (srcRec d ix).getD 0
  let v := setBit (setBit v 84 (d.mil.expired.contains ix)) 85 (d.mil.oos.contains ix)
  setBits v 96 32 (mapGet 0 d.mil.deadline ix)

/-- The item that MIL_WSEL selects, as 16 words. -/
def milItem (d : Dev) (w : Nat) : List Word :=
  let ix := bits w 2 20
  match w % 4 with
  | 0 => wordsOf 16 (entryNow d ix)
  | 1 => wordsOf 16 (srcItem d ix)
  | 2 => wordsOf 16 (mapGet 0 d.mil.desc ix)
  | _ => wordsOf 16 (leNat (slice (mapGet [] d.mil.image (bits w 2 15)) (64 * bits w 17 8) 64))

/-- MIL_WINDOW_COPY: the copy is made and READY set. -/
def milCopy (d : Dev) : Dev :=
  if bit d.clk.islands 6 && running d then
    { d with mil := { d.mil with wReady := true, wData := milItem d (reg d 0x600020) } }
  else d

/-- MIL_WINDOW_COPY. -/
def execMilWindowCopy : State → Host.Outcome State Fault Refusal := act milCopy

/-! ## The slow part of the image (R131, R309, R317) -/

/-- R131, R317: the outcome of reading a piece again up to three times: the first good read, all four bad, or more reads
to come. -/
inductive Reads where
  | good (b : Bytes)
  | bad
  | more
  deriving DecidableEq, Repr

def readPiece (ok : Bytes → Bool) (reads : List Bytes) : Reads :=
  match (reads.take 4).find? ok with
  | some b => .good b
  | none => if 4 ≤ reads.length then .bad else .more

/-- A source PDU holds an entry in its range. -/
def inSomeSource (srcs : NMap Nat) (e : Nat) : Bool :=
  srcs.any (fun s => decide (srcFirst s.2 ≤ e) && decide (e < srcFirst s.2 + srcCount s.2))

/-- R309: a destination that the image does not define, or that the value does not fit. Where PDUIMG has failed no
destination is known (R317). -/
def placeBad (d : Dev) (n : Nat) (x : Place) : Bool :=
  !d.mil.pduBad &&
    (match mapGet? d.mil.desc x.pdu with
     | none => true
     | some r => !pathFits (bitPath x.be x.pos n) (dsLen r))

/-- R309: an entry fails its checks. -/
def entryBad (d : Dev) (v : Nat) : Bool :=
  sgValid v &&
    (decide (6 ≤ sgFilt v) || (decide (32 < sgLen v) && decide (2 ≤ sgFilt v) && decide (sgFilt v ≤ 4)) ||
     (placesOf d v).any (fun x => decide (32767 < x.pdu) || placeBad d (sgLen v) x) ||
     decide (8 < (extChain d 9 (sgExt v)).length))

/-- R306, R309: an entry of a source PDU is loaded with its state zero, and checked. -/
def loadEntry (d : Dev) (e : Nat) : Dev :=
  let v := setBits (entryNow d e) 170 34 0
  let d := setEntry d e v
  if entryBad d v then raise (bumpM (setEntry d e (setBit v 169 false)) 16) 0x0B04 0 (e4 e ++ e1 0) else d

/-- R322: a pinned line enters the cache as its block becomes active. -/
def pinLine (d : Dev) (l : Nat) : Dev :=
  if l < pinLines d then
    let e := tabLine d l l
    let c : CacheLine := { e0 := e.1, e1 := e.2, dirty := false, used := d.mil.useSeq }
    { d with mil := { d.mil with cache := mapPut d.mil.cache l c } }
  else d

/-- R137, R330: an entry that a committed delta replaced keeps the delta's record when its block comes later. -/
def blockEntry (d : Dev) (b : Bytes) (e i : Nat) : Nat :=
  match mapGet? d.img.sigGraft e with
  | some v => v
  | none => leNat (slice b (32 * i) 32)

/-- R313: the source PDUs that become Mill-ready with a block set their deadlines. -/
def readyDeadlines (d : Dev) (was : List Nat) : Dev :=
  (overlay d 0x20 d.img.sigIdx).foldl (fun d s =>
    if srcToEn s.2 && !was.contains s.1 && millReady d s.2 then setDeadline d s.1 s.2 else d) d

/-- The source PDUs that are Mill-ready. -/
def readySources (d : Dev) : List Nat :=
  ((overlay d 0x20 d.img.sigIdx).filter (fun s => millReady d s.2)).map (fun s => s.1)

/-- R313, R330: a source record that a delta replaces keeps its state: one that the delta makes Mill-ready sets its deadline, and
one that was Mill-ready and is monitored only now has the DEADLINE 0 of its record (DEDUCED, log entry 158). `was`: the source
PDUs that were Mill-ready before. An error that stood in the record is written over. -/
def graftSource (d : Dev) (was : List Nat) (ix r : Nat) : Dev :=
  let d := { d with mil := { d.mil with srcErr := d.mil.srcErr.filter (fun x => x != ix) } }
  if !srcToEn r || !millReady d r then d
  else if !was.contains ix then setDeadline d ix r
  else if (mapGet? d.mil.deadline ix).isSome then d
  else { d with mil := { d.mil with deadline := mapPut d.mil.deadline ix 0 } }

/-- R131: a good block is written to both channels, its entries checked, its pinned lines cached; it is active. With the
last block SIGNALS_ACTIVE is raised (R132): the last by position, also where an earlier one failed, and without SIGBLOCK it
is never raised and ALLSIG reads 1 (DESIGN CHOICE, log entry 157). -/
def blockGood (d : Dev) (blk : Nat) (b : Bytes) : Dev :=
  let n := b.length / 32
  let e0 := 2048 * blk
  let srcs := overlay d 0x20 d.img.sigIdx
  let was := readySources d
  let d := (List.range ((n + 1) / 2)).foldl (fun d i =>
    setTabs d (e0 / 2 + i) (blockEntry d b (e0 + 2 * i) (2 * i), blockEntry d b (e0 + 2 * i + 1) (2 * i + 1))) d
  let d := (List.range n).foldl (fun d i => if inSomeSource srcs (e0 + i) then loadEntry d (e0 + i) else d) d
  let d := (List.range ((n + 1) / 2)).foldl (fun d i => pinLine d (e0 / 2 + i)) d
  let d := { d with img := { d.img with active := d.img.active ++ [blk] },
                    mil := { d.mil with blkTick := mapPut d.mil.blkTick blk (milTicks d) } }
  let d := readyDeadlines d was
  if blk + 1 = d.img.blockDig.length then
    raise { d with img := { d.img with sigEvent := true } } 0x0502 0 (eCount d.img.preLost)
  else d

/-- R131: the block that the stream is at. -/
def nextBlock (d : Dev) : Nat :=
  ((List.range d.img.blockDig.length).find? (fun b => !d.img.active.contains b && !d.img.failed.contains b)).getD
    d.img.blockDig.length

/-- R131: the bytes of a block. -/
def blockLen (d : Dev) (b : Nat) : Nat := min 65536 (d.img.sigLen - 65536 * b)

/-- SIGNAL_BLOCK_LOAD: the stream reaches a block after PDUIMG, in order. -/
def blockLoad (d : Dev) (blk : Nat) (reads : List Bytes) : Dev :=
  let pduDone := d.img.pduOn || d.mil.pduBad || d.img.pduLen == 0
  if !millOn d || !pduDone || blk ≠ nextBlock d || d.img.blockDig.length ≤ blk then d
  else match readPiece (fun b => b.length == blockLen d blk && sha384 b == nth [] d.img.blockDig blk) reads with
    | .more => d
    | .bad => raise { d with img := { d.img with failed := d.img.failed ++ [blk] } } 0x0503 0 (e2 blk)
    | .good b => blockGood d blk b

/-- SIGNAL_BLOCK_LOAD. -/
def execSignalBlockLoad (blk : Nat) (reads : List Bytes) : State → Host.Outcome State Fault Refusal :=
  act (fun d => blockLoad d blk reads)

/-- R316: what a descriptor must hold. -/
def descOk (d : Dev) (r len : Nat) : Bool :=
  let n := dsLen r
  let e := routeEntry d (dsRoute r)
  !bit r 15 && bits r 230 26 == 0 && !rtMill e && decide (dsForm r ≤ 4) && decide (dsMode r ≤ 2) &&
    (if dsForm r = 4 then decide (59 ≤ n) && decide (n ≤ 9215)
     else decide (n ≤ (if dsForm r = 0 then 8 else if dsForm r = 3 then 2048 else 64)) && bits r 227 3 == 0) &&
    (if dsMode r = 1 then dsPeriod r == 0 else decide (0 < dsPeriod r) && decide (dsOffset r < dsPeriod r)) &&
    (dsRepeat r == 0 || decide (0 < dsRepGap r)) && decide (dsImgOff r + n ≤ 3145728) && decide (40 + n ≤ len)

/-- R317: the image overlaps another one. -/
def overlaps (d : Dev) (r : Nat) : Bool :=
  d.mil.desc.any (fun e => decide (dsImgOff r < dsImgOff e.2 + dsLen e.2) && decide (dsImgOff e.2 < dsImgOff r + dsLen r))

/-- R317: n(LEN) exceeds the stored limit of a queue that the destination entry can place it in. -/
def overLimit (d : Dev) (lim : NMap Nat) (r : Nat) : Bool :=
  let e := routeEntry d (dsRoute r)
  rtValid e && (entryLimits d (dsRoute r) e).any (fun x => decide (cells (mapGet 0 lim x.1) < cells (dsLen r)))

/-- One PDUIMG record, applied or skipped. -/
def pduRecord (lim : NMap Nat) (d : Dev) (b : Bytes) : Dev :=
  let r := leAt b 8 32
  if leAt b 4 4 == 0 && descOk d r b.length && !overlaps d r && !overLimit d lim r then
    { d with mil := { d.mil with desc := mapPut d.mil.desc (dsIndex r) r,
                                 image := mapPut d.mil.image (dsIndex r) (slice b 40 (dsLen r)) } }
  else raise (bumpM d 16) 0x0B04 0 (e4 (dsIndex r) ++ e1 1)

/-- The records of the section, by RECLEN; one whose length leads nowhere ends them. -/
def pduRecords : Nat → Bytes → List Bytes
  | 0, _ => []
  | n + 1, b =>
    let l := leAt b 0 4
    if b.isEmpty then [] else if l < 40 || l % 8 ≠ 0 || b.length < l then [b] else b.take l :: pduRecords n (b.drop l)

/-- PDUIMG_LOAD: the section is read and checked whole before any of it is applied (R317). -/
def pduimgLoad (d : Dev) (reads : List Bytes) : Dev :=
  if !millOn d || d.img.pduOn || d.mil.pduBad || d.img.pduLen = 0 then d
  else match readPiece (fun b => b.length == d.img.pduLen && sha384 b == d.img.pduDig) reads with
    | .more => d
    | .bad => raise { d with mil := { d.mil with pduBad := true } } 0x0B05 0 []
    | .good b =>
      let lim := limitMap d
      let d := (pduRecords (b.length / 8) b).foldl (pduRecord lim) d
      { d with img := { d.img with pduOn := true }, mil := { d.mil with pduTick := milTicks d } }

/-- PDUIMG_LOAD. -/
def execPduimgLoad (reads : List Bytes) : State → Host.Outcome State Fault Refusal := act (fun d => pduimgLoad d reads)

/-! ## What modes do to the Mill -/

/-- R302, R313: routing opens: Mill time starts; the source records are as loaded, with their state cleared. -/
def milOpen (d : Dev) : Dev :=
  { d with mil := { d.mil with expired := [], oos := [], srcErr := [], deadline := [], ticks := 0, sweepAt := d.clk.tclk, due := [],
                               pduTick := 0, blkTick := [] } }

/-- R53, R305: the slices finish what they hold, their lines read from where they are. -/
def slicesFinish (d : Dev) : Dev :=
  let d := d.mil.slices.foldl (fun d s =>
    let r := (srcRec d s.2.src).getD 0
    ((List.range (srcCount r)).drop s.2.pos).foldl (fun d i =>
      entryOp d s.2 (decide (8 ≤ s.1)) (millData d s.2.pkt) (srcFirst r + i)) (journalFree d 10 s.2.pkt.size)) d
  { d with mil := { d.mil with slices := [], refills := [] } }

/-- R321, R324: every dirty line is written back. -/
def writeBackAll (d : Dev) : Dev :=
  let d := d.mil.wback.foldl (fun d e => setTabs d e.1 (e.2.e0, e.2.e1)) d
  let d := d.mil.cache.foldl (fun d e => if e.2.dirty then setTabs d e.1 (e.2.e0, e.2.e1) else d) d
  let clean := d.mil.cache.map (fun e => (e.1, { e.2 with dirty := false }))
  { d with mil := { d.mil with wback := [], cache := clean } }

/-- R321: the MILL island is powered down: write-back, then stop. A destination PDU out of service stays so (R325). -/
def milStop (d : Dev) : Dev :=
  let d := writeBackAll (slicesFinish d)
  let out := (d.mil.dst.filter (fun e => e.2.oos)).map (fun e => (e.1, ({ oos := true } : DestSt)))
  { d with mil := { d.mil with cache := [], desc := [], image := [], dst := out, due := [], wReady := false },
           img := { d.img with pduOn := false } }

/-- R321: the MILL island is powered again: pinned lines of active blocks enter the cache; PDUIMG is streamed again. The next tick
and the next sweep are counted from now. -/
def milStart (d : Dev) : Dev :=
  let d := { d with mil := { d.mil with ticks := milTicks d, sweepAt := d.clk.tclk } }
  d.img.active.foldl (fun d b => (List.range 1024).foldl (fun d i => pinLine d (1024 * b + i)) d) d

/-- R53, R411: hand-over between split and lock: the slices have finished, and the lanes hold their input. -/
def milForce (d : Dev) (split : Bool) : Dev :=
  let d := slicesFinish d
  { d with mil := { d.mil with split := split } }

/-- R325: an uncorrectable error in a row of the PDU image memory, `row` below 4,096 for descriptors, 8 to a row, and
above them for the image area in rows of 256 bytes: every PDU that it holds is out of service. -/
def pduDamage (d : Dev) (row : Nat) : Dev :=
  let hit : Nat × Nat → Bool := fun e =>
    if row < 4096 then e.1 / 8 == row
    else
      let a := 256 * (row - 4096)
      decide (a < dsImgOff e.2 + dsLen e.2) && decide (dsImgOff e.2 < a + 256)
  (d.mil.desc.filter hit).foldl (fun d e =>
    if (dstOf d e.1).oos then d
    else raise (modDst d e.1 (fun s => { s with oos := true })) 0x0B08 0 (e1 1 ++ e2 e.1)) d

/-- R330: a replacing entry keeps the state and VALUE of the entry in force when its layout is unchanged. -/
def graftEntry (d : Dev) (e v : Nat) : Dev :=
  let o := entryNow d e
  let same := sgStart o == sgStart v && sgLen o == sgLen v && sgBe o == sgBe v && sgSigned o == sgSigned v
  let ord := inSomeSource (overlay d 0x20 d.img.sigIdx) e
  let v' := if !ord then v
    else if same then setBits (setBits v 0 64 (sgValue o)) 170 34 (bits o 170 34)
    else setBits v 170 34 0
  let d := { d with img := { d.img with sigGraft := mapPut d.img.sigGraft e v } }
  if d.img.active.contains (e / 2048) then
    let d := setEntry d e v'
    if ord && entryBad d v' then raise (bumpM (setEntry d e (setBit v' 169 false)) 16) 0x0B04 0 (e4 e ++ e1 0) else d
  else d

end Sys2Proof.Machine
end

