-- ==== Sys2Proof/Machine/EthLink.lean ====
section
/-! DEFINITION. Link state, TC10 and device time (chapter 08): LINK_DOWN, LINK_FAULT, LINK_GOOD, LINK_UP,
ETH_ENABLE_WRITE, TC10_SLEEP_REQUEST, TC10_POLL, TIME_STEP_WRITE, TIME_STEP, PPS_IN_EDGE, PPS_OUT_PULSE. -/

namespace Sys2Proof.Machine

/-! ## Link state (R235, R236) -/

/-- R239: REASON of LINK_DOWN. -/
def linkReason (d : Dev) (p : Nat) (f : LinkFlt) : Nat :=
  if (ethOf d p).sleepReq then 2
  else match f with
    | .pcs => 0 | .localFault => 0 | .remoteFault => 0 | .inBand => 1 | .anMismatch _ => 1 | .sdsPll => 3
    | .enableZero => 4

/-- R235: the fault is noted; a mismatch is reported once per episode (R210). -/
def noteFault (d : Dev) (p : Nat) (f : LinkFlt) : Dev :=
  match f with
  | .pcs => modEth d p (fun e => { e with pcs := true })
  | .localFault => modEth d p (fun e => { e with lfault := true })
  | .remoteFault => modEth d p (fun e => { e with rfault := true })
  | .inBand => modEth d p (fun e => { e with inband := true })
  | .anMismatch r =>
    let was := (ethOf d p).anmis
    let d := modEth d p (fun e => { e with anmis := true })
    if was then d else raise d 0x0803 0 (e1 p ++ e1 r)
  | .sdsPll => modEth d p (fun e => { e with pll := true })
  | .enableZero => d

/-- R155: the crossing of a port. -/
def ethXing (p : Nat) : Nat := 24 + p

/-- R236: the frame of a port on the wire. -/
def onWire (d : Dev) (p : Nat) : Bool :=
  p < 8 && ((ethOf d p).wire.isSome || (ethOf d p).cutFrame.isSome)

/-- R236: the frames that a port loses at its link-down instant. -/
def portLosses (d : Dev) (p : Nat) : Nat := (if p < 8 then queuedIn d (ethQueues p) else 0) + (onWire d p).toNat

/-- R222: the port leaves LINK_UP: the segmentation requests to it end. -/
def tsoCut (d : Dev) (p : Nat) : Dev :=
  [0, 1].foldl (fun d e => (List.range 16).foldl (fun d t => match (txOf d e t).tso with
    | some s => if s.port == some p then tsoEnd d (some p) ⟨e, t, s.num, false⟩ else d
    | none => d) d) d

/-- R236: the port leaves LINK_UP for `st`: its queues are flushed, its frame on the wire is cut, one that it receives is discarded, its
crossing reset. -/
def portCut (d : Dev) (p st : Nat) : Dev :=
  let e := ethOf d p
  let wire := onWire d p
  let d := if p < 8 then flushQueues d (ethQueues p) else d
  let d := if wire then emit (bumpE d p 0x160) (.ethCut p) else d
  let d := if p < 8 then modLane d (ethLane p) (fun l => { l with items := [] }) else d
  let d := if e.headIn then killPart d p (sentBytes d) else d
  let d := if e.headIn || e.rxOn then bumpE d p 0x128 else d
  let d := modEth d p (fun e => { e with st := st, cutFrame := none, headIn := false, rxOn := false, prot := none,
                                         stBytes := none, wire := none, wireEnd := min e.wireEnd (runNs d) })
  let d := tsoCut d p
  crossOutside d (ethXing p) 0

/-- R236, R239: the link-down instant, reported. -/
def linkDown (d : Dev) (p reason st : Nat) : Dev :=
  let n := portLosses d p
  raise (bumpE (portCut d p st) p 0x1A0) 0x0801 0 (e1 p ++ e1 reason ++ eCount n)

/-- R240: the fault is one of the lane, which a port in PCS loop-back does not see. -/
def laneFault (f : LinkFlt) : Bool := match f with | .sdsPll => false | .enableZero => false | _ => true

/-- R235, R240: a link fault in any state. -/
def linkFault (d : Dev) (p : Nat) (f : LinkFlt) : Dev :=
  if !ethLive d p || (ethLoop d p && laneFault f) then d
  else
    let d := noteFault d p f
    let to' := if f == .enableZero then 0 else 1
    match (ethOf d p).st with
    | 3 => linkDown d p (linkReason d p f) to'
    | 2 => modEth d p (fun e => { e with st := to' })
    | 1 => modEth d p (fun e => { e with st := to' })
    | _ => d

/-- LINK_DOWN. -/
def execLinkDown (port : Nat) (f : LinkFlt) : State → Host.Outcome State Fault Refusal := act (fun d => linkFault d port f)

/-- LINK_FAULT: a fault in DEBOUNCE returns the port to DOWN. -/
def execLinkFault (port : Nat) (f : LinkFlt) : State → Host.Outcome State Fault Refusal := act (fun d => linkFault d port f)

/-- R235: DEBOUNCE in ms, 10 to 1,000. -/
def debounceMs (d : Dev) (p : Nat) : Nat := max 10 (fld d (ethBase p + 0x10) 0 10)

/-- R235: every fault is gone: DOWN to DEBOUNCE. -/
def linkGood (d : Dev) (p : Nat) : Dev :=
  if !ethLive d p then d
  else
    let d := modEth d p (fun e => { e with pcs := false, lfault := false, rfault := false, inband := false, anmis := false,
                                           pll := false })
    if (ethOf d p).st = 1 then
      modEth d p (fun e => { e with st := 2, dbMs := debounceMs d p, dbStart := d.clk.tclk })
    else d

/-- LINK_GOOD. -/
def execLinkGood (port : Nat) : State → Host.Outcome State Fault Refusal := act (fun d => linkGood d port)

/-- R235: good for DEBOUNCE ms without a break. -/
def linkUp (d : Dev) (p : Nat) : Dev :=
  let e := ethOf d p
  if ethLive d p && e.st == 2 && decide (e.dbStart + 500000 * e.dbMs ≤ d.clk.tclk) then
    raise (modEth d p (fun e => { e with st := 3, sleepReq := false })) 0x0802 0 (e1 p ++ e2 (macRate d p))
  else d

/-- LINK_UP. -/
def execLinkUp (port : Nat) : State → Host.Outcome State Fault Refusal := act (fun d => linkUp d port)

/-- R235: ENABLE of ETH_CTL is written. -/
def ethEnable (d : Dev) (p : Nat) (en : Bool) : Dev :=
  let d := putFld d (ethBase p) 0 1 en.toNat
  if !ethLive d p then d
  else
    if en then (if (ethOf d p).st = 0 then modEth d p (fun e => { e with st := 1 }) else d)
    else if (ethOf d p).st = 3 then linkDown d p 4 0
    else modEth d p (fun e => { e with st := 0 })

/-- R240: LOOP of ETH_CTL is written: the link state follows the loop, which has no fault; out of the loop the PCS has lost its lock
until LINK_GOOD (DESIGN CHOICE, log entry 95). -/
def loopWrite (d : Dev) (p : Nat) (on : Bool) : Dev :=
  let was := ethLoop d p
  let d := putFld d (ethBase p) 1 1 on.toNat
  if 8 ≤ p || on == was then d
  else if !on then linkFault d p .pcs
  else if (ethOf d p).pll then d else linkGood d p

/-- ETH_ENABLE_WRITE. -/
def execEthEnableWrite (who : Initiator) (port : Nat) (en : Bool) : State → Host.Outcome State Fault Refusal :=
  access who (.ethEnableWrite who port en) (fun d => if port < 9 then regWr d who (ethBase port) (fun d => ethEnable d port en) else d)

/-! ## TC10 (R237, R238) -/

/-- R34, R238: SC0 writes the sleep request, while its pair runs. -/
def tc10Sleep (d : Dev) (p : Nat) : Dev :=
  if svcUp d 0 && p < 8 && ethLive d p && flag d (ethBase p + 0x20) 0 then
    tc10Write (modEth d p (fun e => { e with sleepReq := true })) p (fld d (ethBase p + 0x24) 0 16)
  else d

/-- TC10_SLEEP_REQUEST. -/
def execTc10SleepRequest (port : Nat) : State → Host.Outcome State Fault Refusal := act (fun d => tc10Sleep d port)

/-- R238: a poll of the status register: the port enters SLEEP when its bit reads 1. -/
def tc10Poll (d : Dev) (p : Nat) (status : Nat) : Dev :=
  let e := ethOf d p
  if p < 8 && ethLive d p && e.sleepReq && e.st == 1 && bit status (fld d (ethBase p + 0x28) 16 4) then
    modEth d p (fun e => { e with st := 4 })
  else d

/-- TC10_POLL. -/
def execTc10Poll (port : Nat) (status : Word) : State → Host.Outcome State Fault Refusal :=
  act (fun d => tc10Poll d port status.toNat)

/-! ## Device time (R225, R227) -/

/-- R15, R227, R241: the high-word write of TBS_STEP: the held low word joins it. A step whose low word is not held has
low word 0, since STEP is WO. -/
def stepWrite (d : Dev) (who : Initiator) (hi : Nat) : Dev :=
  let lo := (heldLow d who 0xC80018).getD 0
  let d := if (heldLow d who 0xC80018).isSome then dropHold d who else d
  { d with clk := { d.clk with step := some (lo + hi * 2 ^ 32) } }

/-- TIME_STEP_WRITE. -/
def execTimeStepWrite (who : Initiator) (hi : Word) : State → Host.Outcome State Fault Refusal :=
  access who (.timeStepWrite who hi) (fun d => regWr d who 0xC8001C (fun d => stepWrite d who hi.toNat))

/-- The signed value of a 64-bit step. -/
def signed64 (v : Nat) : Int := if v < 2 ^ 63 then (v : Int) else (v : Int) - 2 ^ 64

/-- R225: device time wraps at 48 bits of seconds. -/
def timeWrap : Nat := 2 ^ 48 * 1000000000 * 2 ^ 39

/-- R227: the step is applied at a microsecond boundary of device time, which a TIME cycle passes by less than 3 ns; pending lists
whose change time it passes take effect, and every list is realigned. -/
def timeStep (d : Dev) : Dev :=
  match d.clk.step with
  | none => d
  | some s =>
    if 3 ≤ nowNs d % 1000 then d
    else
    let t := ((d.clk.dtime : Int) + signed64 s * 2 ^ 39) % (timeWrap : Int)
    let d := { d with clk := { d.clk with dtime := t.toNat, step := none } }
    let d := raise d 0x0809 0 (e4 s)
    (List.range 8).foldl (fun d p => gclAdvance (gclChange d p) p) d

/-- TIME_STEP. -/
def execTimeStep : State → Host.Outcome State Fault Refusal := act timeStep

/-- R241: the device time of a rising edge of PPS_IN. -/
def ppsIn (d : Dev) : Dev := if running d then { d with clk := { d.clk with ppsIn := nowNs d } } else d

/-- PPS_IN_EDGE. -/
def execPpsInEdge : State → Host.Outcome State Fault Refusal := act ppsIn

/-- R241: at a whole second PPS_OUT goes high with PPSEN. -/
def ppsOut (d : Dev) : Dev :=
  if running d && flag d 0xC80020 1 && d.clk.pinsOn then
    drive { d with clk := { d.clk with ppsOut := true } } 6 true
  else d

/-- PPS_OUT_PULSE. -/
def execPpsOutPulse : State → Host.Outcome State Fault Refusal := act ppsOut

end Sys2Proof.Machine
end

