-- ==== Sys2Proof/Machine/Nm.lean ====
section
/-! DEFINITION. The commands of network management (chapter 15): NM_PDU_RECEIVED, NM_REQUEST, the timers of a cluster,
SLEEP_COMMIT_POINT, SLEEP_COMPLETE, NM_SLEEP_TIMEOUT, NM_FALSE_WAKE, PNC_EXPIRE, OFFENDER_LOG_INTERVAL,
INH_HOLD_EXPIRE, WAKEHOLD_EXPIRE. -/

namespace Sys2Proof.Machine

/-! ## NM PDUs (R419, R420) -/

/-- R419: the NM PDU arrives on a member: a running channel with an identifier of the range, or a port that is up. -/
def nmArrives (d : Dev) (c : Nat) (s : NmPort) : Bool :=
  nmTakesPart d c && running d && d.clk.routing &&
    (match s with
     | .can ch id =>
       (nmCans d c).contains ch && canLive d ch && canRuns (canOf d ch) && decide (lyIdBase (nmLay d c) ≤ id) &&
         decide (id < lyIdBase (nmLay d c) + bits (nmReg d c 0x20) 8 7)
     | .eth p => (nmEths d c).contains p && ethLive d p && (ethOf d p).st == 3)

/-- A bit of the control bit vector of a PDU; absent fields read 0. -/
def cbvBit (r b : Nat) (pdu : Bytes) : Bool := b != 0xFF && lyCbv r != 0xFF && bit (byteAt pdu (lyCbv r)) b

/-- R429: the PNC vector of a PDU as a mask. -/
def pncVec (r : Nat) (pdu : Bytes) : Nat := leNat (slice pdu (lyPncPos r) (lyPncLen r))

/-- R420: the PNCs of a cluster. -/
def clusterPncs (d : Dev) (c : Nat) : List Nat := (List.range 64).filter (fun p => flag d (0x7E0400 + 0x10 * p) c)

/-- R420: the PDU is relevant to its cluster. -/
def nmRelevant (d : Dev) (c : Nat) (pdu : Bytes) : Bool :=
  let r := nmLay d c
  lyPncLen r == 0 || lyPni r == 0xFF || !cbvBit r (lyPni r) pdu || (clusterPncs d c).any (fun p => bit (pncVec r pdu) p)

/-- R419: the source node. -/
def nmNode (d : Dev) (c : Nat) (s : NmPort) (pdu : Bytes) : Nat :=
  let r := nmLay d c
  if lyNid r ≠ 0xFF then byteAt pdu (lyNid r)
  else match s with
    | .can _ id => (id - lyIdBase r) % 256
    | .eth _ => Config.nmEthNode c % 256

/-- R434: a relevant NM PDU that restarts TTIMEOUT charges its source node. -/
def chargeNode (d : Dev) (c : Nat) (s : NmPort) (pdu : Bytes) : Dev :=
  let node := nmNode d c s pdu
  let cbv := if lyCbv (nmLay d c) = 0xFF then 0 else byteAt pdu (lyCbv (nmLay d c))
  let pt := match s with | .can ch _ => (false, ch) | .eth p => (true, p)
  modNm d c (fun k =>
    let old := (k.charges.find? (fun x => x.node == node)).map (fun x => x.pdus)
    let ch : Charge := { eth := pt.1, port := pt.2, node := node, cbv := cbv, pdus := old.getD 0 + 1 }
    { k with charges := k.charges.filter (fun x => x.node != node) ++ [ch] })

/-- R422, R426: what a relevant NM PDU does to its cluster. -/
def nmStep (d : Dev) (c : Nat) (s : NmPort) (pdu : Bytes) : Dev :=
  let rmr := cbvBit (nmLay d c) (lyRmr (nmLay d c)) pdu
  match (clusterOf d c).st with
  | 0 => enterRepeat (nmWakeEvent d c 1) c false false
  | 1 => enterRepeat d c false false
  | 3 => if rmr then enterRepeat d c false false else d
  | 4 =>
    if rmr then enterRepeat d c false false
    else chargeNode (modNm d c (fun k => { k with t0 := d.clk.tclk, len := bits (nmReg d c 0x14) 0 16 })) c s pdu
  | 5 => enterRepeat (nmWakeEvent d c 1) c false false
  | 6 => if (clusterOf d c).rewake.isSome then d
         else modNm d c (fun k => { k with rewake := some (d.clk.tclk, 1) })
  | _ => d

/-- R429: the PNCs set in a relevant NM PDU that carries partial network information. -/
def pncSeen (d : Dev) (c : Nat) (pdu : Bytes) : Dev :=
  let r := nmLay d c
  if lyPncLen r = 0 || (lyPni r != 0xFF && !cbvBit r (lyPni r) pdu) then d
  else (bitList 64 (pncVec r pdu)).foldl (fun d p =>
    { d with nmc := { d.nmc with seen := mapPut d.nmc.seen (32 * p + c) d.clk.tclk } }) d

/-- R419 to R422: an NM PDU at its ingress admission. -/
def nmPdu (d : Dev) (c : Nat) (s : NmPort) (pdu : Bytes) : Dev :=
  if !nmArrives d c s then d
  else if pdu.length < lyLen (nmLay d c) then bumpN d c 0x90
  else if !nmRelevant d c pdu then bumpN d c 0x88
  else
    let d := bumpN d c 0x80
    let d := if holdMode d then d else nmStep d c s pdu
    needAll (pncSeen d c pdu)

/-- NM_PDU_RECEIVED. -/
def execNmPduReceived (c : Nat) (src : NmPort) (pdu : Bytes) : State → Host.Outcome State Fault Refusal :=
  act (fun d => nmPdu d c src pdu)

/-- R422: a write of NMC_CREQ. -/
def nmRequest (d : Dev) (c w : Nat) : Dev := needEval (putReg d (nmcBase c + 4) (w % 4)) c

/-- NM_REQUEST. -/
def execNmRequest (who : Initiator) (c : Nat) (w : Word) : State → Host.Outcome State Fault Refusal :=
  access who (.nmRequest who c w) (fun d => if c < 32 then regWr d who (nmcBase c + 4) (fun d => nmRequest d c w.toNat) else d)

/-! ## Timers (R422); none runs in M6 and M7 (R428) -/

/-- The cluster's timers run. -/
def nmTimes (d : Dev) (c : Nat) : Bool := running d && d.clk.routing && nmTakesPart d c && !holdMode d

/-- R421: the keep-alive period has run out; in M6 and M7 on clusters that hold a channel carrying a hold route. -/
def nmTmsg (d : Dev) (c : Nat) : Dev :=
  let k := clusterOf d c
  match k.kaT0 with
  | none => d
  | some t =>
    if running d && d.clk.routing && nmTakesPart d c && (!holdMode d || nmHolds d c) && (k.st == 2 || k.st == 3) &&
      decide (t + msCycles k.kaLen ≤ d.clk.tclk) then keepAlive d c else d

/-- NM_TMSG_EXPIRE. -/
def execNmTmsgExpire (c : Nat) : State → Host.Outcome State Fault Refusal := act (fun d => nmTmsg d c)

/-- R422: TREPEAT has elapsed in REPEAT. -/
def nmTrepeat (d : Dev) (c : Nat) : Dev :=
  if nmTimes d c && (clusterOf d c).st == 2 && nmElapsed d c then
    (if localNeed d c then enterAwake d c else enterReady d c)
  else d

/-- NM_TREPEAT_EXPIRE. -/
def execNmTrepeatExpire (c : Nat) : State → Host.Outcome State Fault Refusal := act (fun d => nmTrepeat d c)

/-- R422: TTIMEOUT has elapsed in READY. -/
def nmTtimeout (d : Dev) (c : Nat) : Dev :=
  if nmTimes d c && (clusterOf d c).st == 4 && nmElapsed d c then nmState d c 5 (bits (nmReg d c 0x18) 0 16) else d

/-- NM_TTIMEOUT_EXPIRE. -/
def execNmTtimeoutExpire (c : Nat) : State → Host.Outcome State Fault Refusal := act (fun d => nmTtimeout d c)

/-- R424: TWAIT has elapsed in DRAIN. -/
def nmTwait (d : Dev) (c : Nat) : Dev :=
  if nmTimes d c && (clusterOf d c).st == 5 && nmElapsed d c then modNm d c (fun k => { k with waited := true }) else d

/-- NM_TWAIT_EXPIRE. -/
def execNmTwaitExpire (c : Nat) : State → Host.Outcome State Fault Refusal := act (fun d => nmTwait d c)

/-! ## Sleep (R424, R426) -/

/-- R424: the sleep commit point: member channels are closed and flushed, the cluster's log entries close (R434). While
SC0 is stopped no cluster passes it (R427). -/
def sleepCommit (d : Dev) (c : Nat) : Dev :=
  if nmTimes d c && (clusterOf d c).st == 5 && (clusterOf d c).waited && svcUp d 0 then
    let d := modNm (closeLog (nmState d c 6 100) c) c (fun k => { k with closed := true, rewake := none })
    (nmCans d c).foldl flushToSleep d
  else d

/-- SLEEP_COMMIT_POINT. -/
def execSleepCommitPoint (c : Nat) : State → Host.Outcome State Fault Refusal := act (fun d => sleepCommit d c)

/-- The TC10 member ports. -/
def tc10Ports (d : Dev) (c : Nat) : List Nat := (nmEths d c).filter (fun p => flag d (ethBase p + 0x20) 0)

/-- R424, R426: sleep is complete, or declared so: ASLEEP, or at once REPEAT with the request that waited. NM_REWAKE is
raised with the keep-alive, which this same step hands to the Landing (DEDUCED, log entry 36). -/
def sleepDone (d : Dev) (c declared : Nat) : Dev :=
  let k := clusterOf d c
  let d := raise (bumpN d c 0xA0) 0x0F02 0 (e1 c ++ e1 declared)
  let d := nmState d c 0 0
  match k.rewake with
  | none => needEval d c
  | some (_, src) =>
    let d := enterRepeat (bumpN d c 0xA8) c (src == 0) (src == 0 && repeatRmr d c)
    raise d 0x0F03 0 (e1 c ++ e2 0)

/-- R424: every member channel is silent and every TC10 member port is in SLEEP. -/
def sleepComplete (d : Dev) (c : Nat) : Dev :=
  if nmTimes d c && (clusterOf d c).st == 6 && (nmCans d c).all (fun ch => (onBus (canOf d ch)).isNone) &&
    (tc10Ports d c).all (fun p => (ethOf d p).st == 4) then sleepDone d c 0 else d

/-- SLEEP_COMPLETE. -/
def execSleepComplete (c : Nat) : State → Host.Outcome State Fault Refusal := act (fun d => sleepComplete d c)

/-- R424: a port that is not in SLEEP at 100 ms is left DOWN and reported. -/
def phySleepFail (d : Dev) (p : Nat) : Dev :=
  let d := match (ethOf d p).st with
    | 3 => linkDown d p 2 1
    | 2 => modEth d p (fun e => { e with st := 1 })
    | _ => d
  raise d 0x0F06 0 (e1 p)

/-- R424: 100 ms after the commit point sleep is declared complete. -/
def sleepTimeout (d : Dev) (c : Nat) : Dev :=
  if nmTimes d c && (clusterOf d c).st == 6 && nmElapsed d c then
    sleepDone (((tc10Ports d c).filter (fun p => (ethOf d p).st != 4)).foldl phySleepFail d) c 1
  else d

/-- NM_SLEEP_TIMEOUT. -/
def execNmSleepTimeout (c : Nat) : State → Host.Outcome State Fault Refusal := act (fun d => sleepTimeout d c)

/-- R433: FWTIME has passed in LISTEN unconfirmed. -/
def falseWake (d : Dev) (c : Nat) : Dev :=
  let k := clusterOf d c
  if nmTimes d c && k.st == 1 && nmElapsed d c then
    nmState (raise (bumpN d c 0xB0) 0x0F04 0 (e1 c ++ e1 k.src)) c 0 0
  else d

/-- NM_FALSE_WAKE. -/
def execNmFalseWake (c : Nat) : State → Host.Outcome State Fault Refusal := act (fun d => falseWake d c)

/-! ## PNCs, the offender log, INH_OUT, WAKEHOLD -/

/-- R429: PNCTMO has passed since PNC p was last set in NM PDUs: those sightings no longer count. -/
def pncExpire (d : Dev) (p : Nat) : Dev :=
  if !running d || holdMode d then d
  else
    let lim := msCycles (fld d 0x7E0008 16 16)
    let seen := d.nmc.seen.filter (fun e => !(e.1 / 32 == p && decide (e.2 + lim ≤ d.clk.tclk)))
    needAll { d with nmc := { d.nmc with seen := seen } }

/-- PNC_EXPIRE. -/
def execPncExpire (p : Nat) : State → Host.Outcome State Fault Refusal := act (fun d => pncExpire d p)

/-- The position of the oldest closed entry of the log. -/
def oldestClosed (l : List (Option Offender)) : Option Nat :=
  (l.zipIdx.foldl (fun (a : Option (Nat × Nat)) e => match e.1 with
    | none => a
    | some o => if o.isOpen then a else match a with
        | none => some (o.first, e.2)
        | some b => if o.first < b.1 then some (o.first, e.2) else a) none).map (fun p => p.2)

/-- R434: one charged node is entered in the log, or its open entry extended. -/
def logCharge (d : Dev) (c secs : Nat) (x : Charge) : Dev :=
  let log := d.nmc.log
  let fresh : Offender := { cluster := c, isOpen := true, eth := x.eth, port := x.port, node := x.node, cbv := x.cbv,
                            first := d.clk.rtc, secs := secs, pdus := x.pdus }
  let mine : Option Offender → Bool := fun e => match e with
    | some o => o.cluster == c && o.isOpen && o.node == x.node | none => false
  let openAt := fun (d : Dev) (l : List (Option Offender)) (i : Nat) =>
    raise { d with nmc := { d.nmc with log := l } } 0x0F05 0 (e1 i ++ e1 c ++ e1 x.node)
  match findIdx mine log 0 with
  | some i =>
    let upd := log.map (fun e => if mine e then e.map (fun o =>
        { o with eth := x.eth, port := x.port, cbv := x.cbv, secs := (o.secs + secs) % 2 ^ 32,
                 pdus := (o.pdus + x.pdus) % 2 ^ 32 }) else e)
    if i < 64 then { d with nmc := { d.nmc with log := upd } } else d
  | none =>
    if log.length < 64 then openAt d (log ++ [some fresh]) log.length
    else match oldestClosed log with
      | some i => openAt d (setNth log i (some fresh)) i
      | none => bumpN d c 0xC8

/-- R434: an OFFTIME interval of READY or DRAIN ends. -/
def offenderInterval (d : Dev) (c : Nat) : Dev :=
  let k := clusterOf d c
  let secs := bits (nmReg d c 0x28) 0 16
  match k.offT0 with
  | none => d
  | some t =>
    if nmTimes d c && decide (0 < secs) && svcUp d 0 && decide (t + secCycles * secs ≤ d.clk.tclk) then
      let d := k.charges.foldl (fun d x => logCharge d c secs x) d
      modNm d c (fun k => { k with charges := [], offT0 := some (t + secCycles * secs) })
    else d

/-- OFFENDER_LOG_INTERVAL. -/
def execOffenderLogInterval (c : Nat) : State → Host.Outcome State Fault Refusal := act (fun d => offenderInterval d c)

/-- R436: HOLDMS has passed since INH_OUT j would have fallen. The AON domain times it in every mode. -/
def inhExpire (d : Dev) (j : Nat) : Dev :=
  match mapGet? d.nmc.inhHold j with
  | none => d
  | some t => if t + msCycles (fld d (0x7E0200 + 8 * j) 16 16) ≤ d.clk.tclk then setInh d j false else d

/-- INH_HOLD_EXPIRE. -/
def execInhHoldExpire (j : Nat) : State → Host.Outcome State Fault Refusal := act (fun d => inhExpire d j)

/-- R428: WAKEHOLD has passed since routing last opened. -/
def wakeHold (d : Dev) : Dev :=
  if running d && d.clk.routing && decide (d.clk.routingAt + msCycles (fld d 0x7E0008 0 16) ≤ d.clk.tclk) then
    { d with clk := { d.clk with holdDone := true } }
  else d

/-- WAKEHOLD_EXPIRE. -/
def execWakeholdExpire : State → Host.Outcome State Fault Refusal := act wakeHold

end Sys2Proof.Machine
end

