-- ==== Sys2Proof/Machine/Vault.lean ====
section
/-! DEFINITION. The commands of the Rolton Key Vault (chapter 13): DERIVE, INVALIDATE, UNWRAP, REPLACE, KVT_STORE_DONE,
STORE_BACKGROUND_ERASE, NEWCHAL, TOKEN, KVT_ALARM. -/

namespace Sys2Proof.Machine

/-! ## Arguments and gates (R374) -/

/-- The banked arguments of an issuer. -/
def kvtArg (d : Dev) (who : Initiator) (a : Nat) : Nat := regK d (regKey (0x7C0010 + 4 * a) (initIx who))

/-- Bytes of the KVT_BUF of an issuer. -/
def kvtBuf (d : Dev) (who : Initiator) (off n : Nat) : Bytes :=
  slice ((List.range 64).map (fun w => leBytes 4 (regK d (regKey (0x7C0800 + 4 * w) (initIx who))))).flatten off n

/-- R92, R374: a Watch entry is in progress. -/
def watchEntering (d : Dev) : Bool := match d.clk.trans with | .watchEntry _ _ _ => true | _ => false

/-- R374, R381: what every command meets first: LOCKED 10, MODE 13, or 0. -/
def kvtGate (d : Dev) : Nat := if d.kvt.locked || d.kvt.root.isNone then 10 else if watchEntering d then 13 else 0

/-- KVT_CMDSTAT and KVT_RESULT of an issuer. -/
def kvtDone (d : Dev) (who : Initiator) (st res : Nat) : Dev :=
  { d with kvt := { d.kvt with status := mapPut d.kvt.status (initIx who) st,
                               result := mapPut d.kvt.result (initIx who) res } }

/-- R445: an issuer may act on a domain: a host on the domains of its mask, Eopod and the JTAG TAP on every one. -/
def kvtMay (d : Dev) (who : Initiator) (dom : Nat) : Bool :=
  match endpointOf who with
  | some e => 1 ≤ dom && bit (reg d (0x800010 + 4 * e)) dom
  | none => true

/-- A handle that a command names: live, with a chain that holds (STALE otherwise). -/
def kvtLive (d : Dev) (h : Nat) : Bool := handleLive d h && chainLive d 4 (hSlot h)

/-! ## DERIVE and UNWRAP (R371, R374) -/

/-- ARG1 of DERIVE and UNWRAP. -/
def aSlot (w : Nat) : Nat := bits w 0 12
def aType (w : Nat) : Nat := bits w 12 2
def aUse (w : Nat) : Nat := bits w 16 6
def aDom (w : Nat) : Nat := bits w 24 4

/-- R368: a usage that its KTYPE does not carry: derive needs KTYPE 2 or 3, wrap KTYPE 2. -/
def useBad (kt use : Nat) : Bool := (bit use 4 && decide (kt < 2)) || (bit use 5 && kt != 2)

/-- R374: a destination slot: empty, and from DYNBASE to DYNLIM. -/
def destOk (d : Dev) (s : Nat) : Bool :=
  decide (d.kvt.dynBase ≤ s) && decide (s ≤ d.kvt.dynLim) && !(slotOf d s).full && !(slotOf d s).retired

/-- R371, R374: the checks of a child of a parent of which usage bit `ub` is needed; the order is the model's (log entry
51). -/
def childStatus (d : Dev) (who : Initiator) (h w ub : Nat) : Nat :=
  let p := slotOf d (hSlot h)
  if useBad (aType w) (aUse w) then 11
  else if !kvtLive d h then 3
  else
    let root := hSlot h = 0 && (endpointOf who).isNone
    if !root && (!kvtMay d who p.domain || aDom w ≠ p.domain) then 2
    else if !bit p.usage ub || (ub = 5 && p.ktype ≠ 2) then 4
    else if 4 ≤ p.level then 5
    else if !destOk d (aSlot w) then 6
    else 0

/-- R371: DERIVE. -/
def kvtDerive (d : Dev) (who : Initiator) : Dev × Nat × Nat :=
  let h := kvtArg d who 0
  let w := kvtArg d who 1
  let st := childStatus d who h w 4
  if st ≠ 0 then (d, st, 0)
  else
    let p := slotOf d (hSlot h)
    let lab := ((List.range 4).map (fun i => leBytes 4 (kvtArg d who (2 + i)))).flatten
    let d := fillSlot d (aSlot w) (childMat p.mat lab (aSlot w) (aType w) (aUse w) (aDom w)) (aType w) (aUse w) (aDom w) h
      (p.level + 1) none
    (d, 0, handleOf d (aSlot w))

/-- R372: INVALIDATE: the GEN of the slot rises at once. -/
def kvtInvalidate (d : Dev) (who : Initiator) : Dev × Nat × Nat :=
  let h := kvtArg d who 0
  if !handleLive d h then (d, 3, 0)
  else if !kvtMay d who (slotOf d (hSlot h)).domain then (d, 2, 0)
  else (dropSlot d (hSlot h), 0, 0)

/-- R374: UNWRAP: the material of the blob, the child's PARENT being the wrap key. -/
def kvtUnwrap (d : Dev) (who : Initiator) : Dev × Nat × Nat :=
  let h := kvtArg d who 0
  let w := kvtArg d who 1
  let st := childStatus d who h w 5
  if st ≠ 0 then (d, st, 0)
  else match keyUnwrap (slotOf d (hSlot h)).mat (kvtBuf d who 0 40) with
    | none => (d, 7, 0)
    | some m =>
      let lv := (slotOf d (hSlot h)).level + 1
      let d := fillSlot d (aSlot w) (m.take (ktypeLen (aType w))) (aType w) (aUse w) (aDom w) h lv none
      (d, 0, handleOf d (aSlot w))

/-! ## The persistent store (R375 to R377, R523) -/

/-- The slot that holds a persistent ID, with the SEQ of its record. -/
def persSlot (d : Dev) (id : Nat) : Option (Nat × Nat) :=
  (d.kvt.slots.find? (fun e => e.2.full && (match e.2.pers with | some x => x.1 == id | none => false))).map
    (fun e => (e.1, (match e.2.pers with | some x => x.2 | none => 0)))

/-- A slot has children. -/
def hasChild (d : Dev) (s : Nat) : Bool := d.kvt.slots.any (fun e => e.2.full && e.2.parent == handleOf d s && e.1 != s)

/-- R376: REPLACE up to its read-back: the new record stands in the other position, and the swap waits for the wheel
boundary. -/
def kvtReplace (d : Dev) (who : Initiator) (res : List FlashRes) : Dev × Nat × Nat :=
  let h := kvtArg d who 0
  let id := bits (kvtArg d who 1) 0 8
  let wk := slotOf d (hSlot h)
  match persSlot d id with
  | none => (d, 11, 0)
  | some (s, seq0) =>
    let k := slotOf d s
    let old := latestRec d id
    let seq := (match old with | some r => r.seq | none => seq0) + 1
    let pos := match old with | some r => 1 - r.pos | none => 0
    let bind := match old with | some r => r.bind | none => 0
    if 2 ^ 32 ≤ seq then (d, 11, 0)
    else if !kvtLive d h then (d, 3, 0)
    else if !kvtMay d who wk.domain || !kvtMay d who k.domain then (d, 2, 0)
    else if !bit wk.usage 5 || wk.ktype ≠ 2 then (d, 4, 0)
    else if hasChild d s then (d, 8, 0)
    else match keyUnwrap wk.mat (kvtBuf d who 0 40) with
      | none => (d, 7, 0)
      | some m =>
        if d.store.keyRo then (d, 9, 0)
        else
          let l := 2 * id + pos
          let d := flErase d (secAddr d l) 4096
          let d := secProg d l 0 (keyRecord (bindRoot d bind) id seq k.ktype k.usage k.domain bind m) res
          if d.store.keyRo then (d, 9, 0)
          else
            let x : Swap := { who := who, id := id, slot := s, seq := seq, mat := m.take (ktypeLen k.ktype), ktype := k.ktype,
                              pos := pos }
            ({ d with kvt := { d.kvt with swap := some x } }, 12, seq)

/-- R523: one sector of an older position is erased. -/
def bgErase (d : Dev) : Dev :=
  match d.store.erase with
  | [] => d
  | l :: rest =>
    if !running d || secRo d l then d
    else flErase { d with store := { d.store with erase := rest } } (secAddr d l) 4096

/-- STORE_BACKGROUND_ERASE. -/
def execStoreBackgroundErase : State → Host.Outcome State Fault Refusal := act bgErase

/-! ## Challenge and token (R382, R383) -/

/-- R383: the conditions on a token. -/
def tokenOk (d : Dev) (b : Bytes) : Bool :=
  sha384 (slice b 48 97) == d.fuses.authDig && b.take 16 == fit 16 d.fuses.devid &&
    (match d.kvt.chal with | some c => slice b 16 16 == c | none => false) &&
    (b.drop 241).all (fun x => x == 0) && ecdsaVerify (slice b 48 97) (sha384 (b.take 48)) (slice b 145 96)

/-- The lifecycle state in the fuses: in force, or to be in force at the next reset. -/
def lcFused (d : Dev) : Nat := d.kvt.lcNext.getD d.fuses.lc

/-- R382, R383: TOKEN. It voids the challenge. -/
def kvtToken (d : Dev) (who : Initiator) : Dev × Nat × Nat :=
  let b := kvtBuf d who 0 256
  let ty := leAt b 33 1
  if ty = 1 && d.clk.mode != .m7 then (d, 13, 0)
  else
    let ok := tokenOk d b
    let d := { d with kvt := { d.kvt with chal := none } }
    if !ok then (d, 14, 0)
    else if ty = 0 then
      let sc := leAt b 32 1 % 4
      (raise { d with kvt := { d.kvt with armed := some sc } } 0x0D06 0 (e1 sc), 0, 0)
    else
      let t := leAt b 34 1
      if ty ≠ 1 || t ≤ lcFused d || 3 < t then (d, 14, 0)
      else (raise { d with kvt := { d.kvt with lcNext := some t } } 0x0D07 0 (e1 (lcFused d) ++ e1 t), 0, 0)

/-! ## Issue and completion (R374) -/

/-- NEWCHAL: a new challenge from the entropy source. -/
def kvtNewchal (d : Dev) (entropy : Bytes) : Dev × Nat × Nat :=
  ({ d with kvt := { d.kvt with chal := some (fit 16 entropy) } }, 0, 0)

/-- R374: the effect of a command by its OP: the device, the status and the result. -/
def kvtRun (d : Dev) (c : KvtWait) : Dev × Nat × Nat :=
  match c.op with
  | 1 => kvtDerive d c.who
  | 2 => kvtInvalidate d c.who
  | 3 => kvtUnwrap d c.who
  | 4 => kvtReplace d c.who c.res
  | 5 => kvtNewchal d c.entropy
  | _ => kvtToken d c.who

/-- R374, R385: a command runs: its status and result, a refusal counted, and KVT_BUF zeroed unless it goes on. -/
def kvtAct (d : Dev) (c : KvtWait) : Dev :=
  let g := kvtGate d
  let r := if g = 0 then kvtRun d c else (d, g, 0)
  let d := kvtDone r.1 c.who r.2.1 r.2.2
  if r.2.1 = 12 then d
  else kvtBufClear (if r.2.1 = 0 then d else bump d 0x7C0208 0) c.who

/-- R374: a command of the initiator runs or waits. -/
def kvtBusy (d : Dev) (who : Initiator) : Bool :=
  (match d.kvt.swap with | some x => x.who == who | none => false) || d.kvt.wait.any (fun c => c.who == who)

/-- R374: a write of KVT_CMD: refused with BUSY while a command of its issuer runs, RUNNING while it waits for another
issuer's REPLACE, else carried out. -/
def kvtCmd (d : Dev) (c : KvtWait) : Dev :=
  regWr d c.who 0x7C0004 (fun d =>
    if kvtBusy d c.who then bump (kvtDone d c.who 1 0) 0x7C0208 0
    else if d.kvt.swap.isSome then kvtDone { d with kvt := { d.kvt with wait := d.kvt.wait ++ [c] } } c.who 12 0
    else kvtAct d c)

/-- DERIVE. -/
def execDerive (who : Initiator) : State → Host.Outcome State Fault Refusal :=
  access who (.derive who) (fun d => kvtCmd d ⟨who, 1, [], []⟩)
/-- INVALIDATE. -/
def execInvalidate (who : Initiator) : State → Host.Outcome State Fault Refusal :=
  access who (.invalidate who) (fun d => kvtCmd d ⟨who, 2, [], []⟩)
/-- UNWRAP. -/
def execUnwrap (who : Initiator) : State → Host.Outcome State Fault Refusal :=
  access who (.unwrap who) (fun d => kvtCmd d ⟨who, 3, [], []⟩)
/-- REPLACE. -/
def execReplace (who : Initiator) (res : List FlashRes) : State → Host.Outcome State Fault Refusal :=
  access who (.replace who res) (fun d => kvtCmd d ⟨who, 4, res, []⟩)
/-- NEWCHAL, with the output of the entropy source. -/
def execNewchal (who : Initiator) (entropy : Bytes) : State → Host.Outcome State Fault Refusal :=
  access who (.newchal who entropy) (fun d => kvtCmd d ⟨who, 5, [], entropy⟩)
/-- TOKEN. -/
def execToken (who : Initiator) : State → Host.Outcome State Fault Refusal :=
  access who (.token who) (fun d => kvtCmd d ⟨who, 6, [], []⟩)

/-- R374: the commands that waited run in order, up to a REPLACE that goes on. -/
def kvtDrain : List KvtWait → Dev → Dev
  | [], d => { d with kvt := { d.kvt with wait := [] } }
  | c :: rest, d =>
    if d.kvt.swap.isSome then { d with kvt := { d.kvt with wait := c :: rest } } else kvtDrain rest (kvtAct d c)

/-- R376: the wheel boundary after a successful read-back: material and PERS are swapped, and the command completes. -/
def kvtSwap (d : Dev) : Dev :=
  match d.kvt.swap with
  | none => d
  | some x =>
    let k := slotOf d x.slot
    let same := k.full && (match k.pers with | some y => y.1 == x.id | none => false)
    let d := if same then modSlot d x.slot (fun k => { k with mat := x.mat, pers := some (x.id, x.seq) }) else d
    let d := { d with kvt := { d.kvt with swap := none },
                      store := { d.store with erase := d.store.erase ++ [2 * x.id + (1 - x.pos)] } }
    let d := raise (kvtBufClear (kvtDone d x.who 0 x.seq) x.who) 0x0D03 0 (e1 x.id ++ e4 x.seq)
    kvtDrain d.kvt.wait d

/-- KVT_STORE_DONE. -/
def execKvtStoreDone : State → Host.Outcome State Fault Refusal := act (fun d => if running d then kvtSwap d else d)

/-! ## Alarms (R379, R380) -/

/-- R379: a source trips: masked in TEST and PROVISION alone, and never the twin fault. -/
def alarmTrips (d : Dev) (src : Nat) : Bool :=
  decide (src ≤ 5) && !(decide (src < 5) && decide (d.fuses.lc < 2) && bit d.kvt.alarmMask src)

/-- KVT_ALARM. -/
def execKvtAlarm (src : Nat) : State → Host.Outcome State Fault Refusal :=
  act (fun d => if outOfReset d && alarmTrips d src then vaultAlarm d src else d)

end Sys2Proof.Machine
end

