-- ==== Sys2Proof/Machine/Recorder.lean ====
section
/-! DEFINITION. The Trace Recorder (chapter 17): RECORD_WRITE, REC_SOFT_TRIGGER, CRASH_IN, REC_POSTMS_EXPIRE, REC_RELEASE,
READOUT_GO, READOUT_ABORT, REC_READOUT_DONE, and what resets, Watch entry and routing open do to it. -/

namespace Sys2Proof.Machine

/-- Change the recorder. -/
def modRec (d : Dev) (f : Rec → Rec) : Dev := { d with rcd := f d.rcd }

/-! ## Region, slots and enable (R480 to R482, R542) -/

/-- R480: GiB per channel of a density code. -/
def densGib (c : Nat) : Nat := if c = 0 then 0 else if c = 1 then 2 else if c = 2 then 4 else 8

/-- R482: the largest SIZE that fits the DRAM found, in units of 256 MiB. -/
def recMaxSize (dens : Nat) : Nat := min 56 (((31 * (2 * densGib dens * 1024) / 32) - 320) / 256)

/-- SIZE and SEGCNT in force. -/
def recSize (d : Dev) : Nat := fld d 0xA00008 0 6
def recSegs (d : Dev) : Nat := fld d 0xA00008 16 14
/-- Bytes of a segment, and of the region. -/
def segBytes : Nat := 1048576
def recBytes (d : Dev) : Nat := recSegs d * segBytes

/-- R142: slots of a resource that an owner code holds. -/
def slotsOf (d : Dev) (res code : Nat) : Nat := ((mapGet [] d.whl.owners res).filter (fun c => c == code)).length

/-- R482: the region fits the DRAM found. -/
def recFits (d : Dev) : Bool := decide (0 < recSegs d) && decide (recSize d ≤ recMaxSize d.rcd.dens)

/-- R482, R542: EN as it reads and acts. -/
def recEn (d : Dev) : Bool := flag d 0xA00000 0 && decide (2 ≤ slotsOf d 5 0x42) && recFits d

/-- R487: OFF is left when EN is 1 and the region fits; a recorder in RUNNING whose EN reads 0 is off. A trace in POST or
FROZEN stays (DEDUCED, log entry 54). -/
def recSync (d : Dev) : Dev :=
  if recEn d && d.rcd.st == 0 then modRec d (fun r => { r with st := 1 })
  else if !recEn d && d.rcd.st == 1 then modRec d (fun r => { r with st := 0 })
  else d

/-- The region is emptied. -/
def recEmpty (r : Rec) : Rec :=
  { r with retained := false, why := 0, wrap := false, src := 0, wptr := 0, trigPtr := 0, trigTime := 0, seq := 0,
           segsDone := 0, msDone := false, mem := [], trigs := [] }

/-! ## Freeze (R489, R490) -/

/-- R487, R489: the recorder enters FROZEN. -/
def recFreeze (d : Dev) (why : Nat) : Dev :=
  raise (modRec d (fun r => { r with st := 3, why := why, trigs := [] })) 0x1102 0
    (e1 why ++ e4 (d.rcd.wptr % 2 ^ 32) ++ e4 d.rcd.seq)

/-- R489: POSTSEG as it acts: at most the segment count less 2. -/
def postSeg (d : Dev) : Nat := min (fld d 0xA0000C 0 14) (recSegs d - 2)
/-- POSTMS. -/
def postMs (d : Dev) : Nat := fld d 0xA0000C 16 16
/-- R489: POSTMS have passed since the trigger instant. -/
def msPassed (d : Dev) : Bool := postMs d != 0 && decide (d.rcd.trigTime + postMs d * 1000000 ≤ nowNs d)

/-- R489: a record boundary: the post window ends where its segments are complete or its time is up. Trigger records that
wait are written first (DEDUCED, log entry 54). -/
def recBoundary (d : Dev) : Dev :=
  if d.rcd.st != 2 || !d.rcd.trigs.isEmpty then d
  else if postSeg d ≤ d.rcd.segsDone then recFreeze d 0
  else if d.rcd.msDone || msPassed d then recFreeze d 1
  else d

/-! ## Records (R484 to R486) -/

/-- R485: the header of a record, word by word. -/
def recHeader (w0 seq stampNs w4 w5 w6 w7 : Nat) : Bytes :=
  leBytes 4 w0 ++ leBytes 4 seq ++ leBytes 8 (stampWord stampNs) ++ leBytes 4 w4 ++ leBytes 4 w5 ++ leBytes 4 w6 ++ leBytes 4 w7

/-- R453: the CAN and XL fields of a frame, as word 3 of a receive completion. -/
def canHdr (p : Pkt) : Nat :=
  if p.kind = 1 || p.kind = 2 then
    p.can.id % 2 ^ 29 + p.can.xtd.toNat * 2 ^ 29 + (p.can.fmt == .fdBrs).toNat * 2 ^ 30 + p.can.esi.toNat * 2 ^ 31
  else if p.kind = 3 then
    p.can.id % 2 ^ 11 + p.can.vcid % 256 * 2 ^ 11 + p.can.sdt % 256 * 2 ^ 19 + p.can.sec.toNat * 2 ^ 27
  else 0

/-- R453: KIND; a frame that the Crypto Block hands in is crypto output. -/
def frameKind (p : Pkt) : Nat := if p.input = 8 then 5 else p.kind

/-- R485: what is captured of a frame: an Ethernet frame with its FCS. -/
def recCapture (p : Pkt) : Bytes := if p.kind = 0 then p.data ++ fcsOf p.data else p.data

/-- R485: record length in units of 64 bytes. -/
def recUnits (cap : Nat) : Nat := ceilDiv (32 + cap) 64

/-- R484, R485: the record of a frame of queue `q` (0 to 3). -/
def frameRecord (d : Dev) (it : LaneItem) (q : Nat) : Bytes × Bool :=
  let p := it.pkt
  let snap := fld d (0xA00018 + 4 * q) 0 14
  let cap := if snap = 0 then p.size else min p.size snap
  let trunc := decide (cap < p.size)
  let route := if it.dest.reason = 1 then 0 else it.dest.route
  let w0 := 1 + frameKind p * 16 + q * 256 + trunc.toNat * 1024 + p.unsync.toNat * 2048 + recUnits cap * 65536
  let w4 := p.size % 2 ^ 18 + mapGet 0 d.rcd.drops q * 2 ^ 18
  let w5 := cap % 2 ^ 14 + p.ingress % 256 * 2 ^ 16 + it.dest.reason % 256 * 2 ^ 24
  (fit (64 * recUnits cap) (recHeader w0 d.rcd.seq p.stamp w4 w5 (route % 2 ^ 17) (canHdr p) ++ (recCapture p).take cap), trunc)

/-- R485, R488: a trigger record. -/
def trigRecord (d : Dev) (t : Trig) : Bytes :=
  let w0 := 2 + t.unsync.toNat * 2048 + t.late.toNat * 4096 + 65536
  fit 64 (recHeader w0 d.rcd.seq t.stamp 0 (t.src * 2 ^ 24) (t.code % 65536) 0)

/-- R485: a pad record of `units`. -/
def padRecord (d : Dev) (units : Nat) : Bytes :=
  fit (64 * units) (recHeader (3 + units * 65536) d.rcd.seq 0 0 0 0 0)

/-- R484: bytes left in the segment of WPTR. -/
def segLeft (wptr : Nat) : Nat := segBytes - wptr % segBytes

/-- R484: a record is complete: the segment it enters is void first, WPTR and SEQ advance, and in POST a segment completed
after the trigger segment is counted. -/
def recPut (d : Dev) (bs : Bytes) (trunc : Bool) : Dev :=
  let r := d.rcd
  let seg := r.wptr / segBytes
  let mem := if r.wptr % segBytes = 0 then mapDrop r.mem (fun k => k / segBytes == seg) else r.mem
  let next := (r.wptr + bs.length) % max 1 (recBytes d)
  let done := r.st == 2 && next % segBytes == 0 && r.trigs.all (fun t => t.late) && seg != r.trigPtr / segBytes
  let d := modRec d (fun r => { r with mem := mapPut mem r.wptr bs, wptr := next, wrap := r.wrap || next == 0,
                                       seq := (r.seq + 1) % 2 ^ 32, segsDone := r.segsDone + done.toNat })
  let d := bumpBy (bump d 0xA00100 0) 0xA00108 0 bs.length
  if trunc then bump d 0xA00110 0 else d

/-- R484: a record, or first the pad that fills what is left of its segment. Answers whether the record was written. -/
def recWrite (d : Dev) (bs : Bytes) (trunc : Bool) : Dev × Bool :=
  if bs.length ≤ segLeft d.rcd.wptr then (recPut d bs trunc, true)
  else (recPut d (padRecord d (segLeft d.rcd.wptr / 64)) false, false)

/-- R488: the trigger record that waits first: the trigger that left RUNNING is reported with its segment, and its offset
kept. -/
def writeTrig (d : Dev) (t : Trig) (rest : List Trig) : Dev :=
  let at' := d.rcd.wptr
  let d := if t.late then d else modRec d (fun r => { r with trigPtr := at' })
  let w := recWrite d (trigRecord d t) false
  if !w.2 then w.1
  else
    let d := modRec w.1 (fun r => { r with trigs := rest })
    if t.late then d else raise d 0x1101 0 (e1 t.src ++ e2 (at' / segBytes))

/-- R483: the whole frames of the recorder's lane, those of the highest queue first. -/
def recItem (d : Dev) : Option LaneItem :=
  let ready := (laneOf d 112).items.filter (fun it => it.got == it.n)
  (ready.map (fun it => it.dest.q)).foldl max 0 |> fun q => ready.find? (fun it => it.dest.q == q)

/-- A frame has left the recorder's lane. -/
def dropItem (d : Dev) (it : LaneItem) : Dev :=
  modLane d 112 (fun l => { l with items := l.items.filter (fun o => !(o.pkt.id == it.pkt.id && o.dest.q == it.dest.q)) })

/-- R400, R484: the record of a frame is written, its egress commit; or R487: the copy is discarded. -/
def writeFrame (d : Dev) (it : LaneItem) : Dev :=
  let q := it.dest.q - 392
  if d.rcd.st = 1 || d.rcd.st = 2 then
    let b := frameRecord d it q
    let w := recWrite d b.1 b.2
    if !w.2 then w.1
    else
      let d := modRec w.1 (fun r => { r with drops := mapDel r.drops q })
      copyCommit (unqueue (dropItem d it) it.dest.q it.pkt.id) it.pkt.id
  else copyDrop (unqueue (dropItem (bump d 0xA00118 0) it) it.dest.q it.pkt.id) it.pkt.id

/-- R30, R483, R484, R488: one record boundary and the next record: a trigger's before any frame's. Nothing reaches the DRAM
without a slot of its own. -/
def recordStep (d : Dev) : Dev :=
  let d := recBoundary d
  if !slotHeld d 5 0x42 then d
  else if d.rcd.st = 2 && !d.rcd.trigs.isEmpty then
    match d.rcd.trigs with
    | t :: rest => recBoundary (writeTrig d t rest)
    | [] => d
  else if outFrozen d 0 then d
  else match recItem d with
    | some it => recBoundary (writeFrame d it)
    | none => d

/-- RECORD_WRITE. -/
def execRecordWrite : State → Host.Outcome State Fault Refusal := act (fun d => if running d then recordStep d else d)

/-- R489: POSTMS pass since the trigger instant: the recorder freezes at the next record boundary, at once where no record
waits. -/
def postmsExpire (d : Dev) : Dev :=
  if running d && d.rcd.st == 2 && msPassed d then recBoundary (modRec d (fun r => { r with msDone := true })) else d

/-- REC_POSTMS_EXPIRE. -/
def execRecPostmsExpire : State → Host.Outcome State Fault Refusal := act postmsExpire

/-! ## Triggers (R488) -/

/-- REC_SOFT_TRIGGER: TRIG of REC_CTL. -/
def execRecSoftTrigger (who : Initiator) : State → Host.Outcome State Fault Refusal :=
  access who (.recSoftTrigger who) (fun d => regWr d who 0xA00000 (fun d => recTrig d 1 (nowNs d) 0))

/-- R111, R112: the ball records of a role. -/
def roleRecs (d : Dev) (func : Nat) : List Nat := d.img.pins.filter (fun r => bits r 62 2 == 0 && bits r 10 6 == func)

/-- CRASH_IN: a ball has the role. -/
def execCrashIn : State → Host.Outcome State Fault Refusal :=
  act (fun d => if running d && d.clk.pinsOn && !(roleRecs d 4).isEmpty then recTrig d 0 (nowNs d) 0 else d)

/-! ## Release (R492) -/

/-- R492: RELEASE is written: refused while a readout runs, without effect outside FROZEN, else due at the boundary. -/
def recRelease (d : Dev) : Dev :=
  if d.rcd.st != 3 then d
  else if d.rcd.readout.busy then modRec d (fun r => { r with relErr := true })
  else modRec d (fun r => { r with relDue := true })

/-- REC_RELEASE. -/
def execRecRelease (who : Initiator) : State → Host.Outcome State Fault Refusal :=
  access who (.recRelease who) (fun d => regWr d who 0xA00000 recRelease)

/-- R492: at the wheel boundary the region is emptied and recording goes on. -/
def recReleaseDue (d : Dev) : Dev :=
  if d.rcd.relDue && d.rcd.st == 3 then
    recSync (modRec d (fun r => { recEmpty r with st := 1, relDue := false, sr := false }))
  else d

/-! ## Readout (R493) -/

/-- A readout ends with a RESULT, `bytes` written and `bad` units as zeros. -/
def readoutEnd (d : Dev) (result bytes bad : Nat) : Dev :=
  raise (modRec d (fun r => { r with readout := { r.readout with busy := false, result := result, done := true } })) 0x1103 0
    (e1 result ++ eCount bytes ++ eCount bad)

/-- A register pair. -/
def regPair (d : Dev) (off : Nat) : Nat := reg d off + reg d (off + 4) * 2 ^ 32

/-- R493: GO: the readout starts, or is refused with RESULT 2. A refusal while a readout runs leaves that readout alone
(DEDUCED, log entry 55). -/
def readoutGo (d : Dev) (e : Nat) : Dev :=
  let len := reg d 0xA00060 / 64 * 64
  if d.rcd.readout.busy then d
  else if d.rcd.st != 3 || !(epOf d e).bme || slotsOf d 5 0x44 = 0 || len = 0 || 2 ^ 28 < len then readoutEnd d 2 0 0
  else modRec d (fun r => { r with readout := { busy := true, e := e, src := regPair d 0xA00050, dst := regPair d 0xA00058,
                                                len := len, result := 0, done := false } })

/-- READOUT_GO: software on PCIE0 or PCIE1 (R493). -/
def execReadoutGo (who : Initiator) : State → Host.Outcome State Fault Refusal :=
  access who (.readoutGo who) (fun d => regWr d who 0xA00064 (fun d => match endpointOf who with | some e => readoutGo d e | none => d))

/-- R493: ABORT ends a running readout. -/
def readoutAbort (d : Dev) : Dev := if d.rcd.readout.busy then readoutEnd d 1 0 0 else d

/-- READOUT_ABORT. -/
def execReadoutAbort (who : Initiator) : State → Host.Outcome State Fault Refusal :=
  access who (.readoutAbort who) (fun d => regWr d who 0xA00064 readoutAbort)

/-- A byte of the region: of the record that lies over it, else a free value (DESIGN CHOICE, log entry 53). -/
def dramAt (d : Dev) (o : Nat) : Byte :=
  match d.rcd.mem.find? (fun e => decide (e.1 ≤ o) && decide (o < e.1 + e.2.length)) with
  | some e => (e.2[o - e.1]?).getD 0
  | none => Config.dramByte o

/-- R493: one unit of 64 bytes, or zeros where both copies are unreadable; a range past the region's end wraps. -/
def readoutUnit (d : Dev) (bad : List Nat) (u : Nat) : Bytes :=
  if bad.contains u then zeros 64
  else (List.range 64).map (fun i => dramAt d ((d.rcd.readout.src + 64 * u + i) % max 1 (recBytes d)))

/-- R493: the posted writes of the readout, in ascending order, and its end. -/
def readoutDone (d : Dev) (badUnits : List Nat) (corr : Nat) : Dev :=
  let r := d.rcd.readout
  if !running d || !r.busy then d
  else
    let n := r.len / 64
    let bad := (List.range n).filter (fun u => badUnits.contains u)
    let d := dramCorr d corr
    let d := (List.range n).foldl (fun d u => emit d (.hostWrite r.e (r.dst + 64 * u) (readoutUnit d bad u))) d
    readoutEnd (bumpBy d 0xA00128 0 bad.length) 0 r.len bad.length

/-- REC_READOUT_DONE. -/
def execRecReadoutDone (r : RegionRead) : State → Host.Outcome State Fault Refusal := act (fun d => readoutDone d r.bad r.corr)

/-! ## Resets, Watch and routing open (R490, R491) -/

/-- R490: Watch entry at the end of its step 2: a trace in POST freezes; a recorder in RUNNING is emptied and stops. -/
def recWatch (d : Dev) : Dev :=
  if d.rcd.st = 2 then recFreeze d 2
  else if d.rcd.st = 1 then modRec d (fun r => { recEmpty r with st := 0 })
  else d

/-- R491: what AON keeps of a frozen trace; all else is lost with the switched rails or the reset. -/
def recKeep (r : Rec) : Rec :=
  { ({} : Rec) with st := 3, retained := true, why := r.why, wrap := r.wrap, src := r.src, wptr := r.wptr,
                    trigPtr := r.trigPtr, trigTime := r.trigTime, seq := r.seq, segsDone := r.segsDone, mem := r.mem, sr := true }

/-- R490, R491: WRST_N: a trace in POST freezes with FREEZEWHY 3, and a frozen trace is kept. -/
def recWrst (r : Rec) : Rec :=
  if r.st = 3 then recKeep r else if r.st = 2 then recKeep { r with why := 3 } else {}

/-- R491: M1 keeps a frozen trace. -/
def recSleep (r : Rec) : Rec := if r.st = 3 then recKeep r else {}

/-- R491: the trace is discarded. -/
def recDiscard (_ : Rec) : Rec := {}

/-- R482, R490, R491: routing opens: a retained trace is reported, a recorder that is on and holds none starts empty. -/
def recOpen (d : Dev) : Dev :=
  let d := modRec d (fun r => { r with sr := false })
  if d.rcd.st = 3 && d.rcd.retained then raise d 0x1104 0 (e1 d.rcd.why ++ e4 d.rcd.seq) else recSync d

/-- R482: at boot: SIZE in force exceeds the largest that fits. -/
def recBoot (d : Dev) : Dev :=
  if flag d 0xA00000 0 && decide (recMaxSize d.rcd.dens < recSize d) then
    raise d 0x1105 0 (e1 (recSize d) ++ e1 (recMaxSize d.rcd.dens))
  else d

end Sys2Proof.Machine
end

