-- ==== Sys2Proof/Machine/Flags.lean ====
section
/-! DEFINITION. The status lines of the device as functions of its state: page and queue status bits (R362,
R447). -/

namespace Sys2Proof.Machine

/-- R343, R446: BUSY of PG_STAT. -/
def pageBusy (d : Dev) (p : Nat) : Bool := pageReady d p

/-- R449: a record of a transmit queue awaits its admission. -/
def txWaits (q : TxQ) : Bool := q.comps.any (fun c => c.wait)

/-- R447: the first byte of a transmit ring not freed: TQ_HEAD. -/
def txHead (q : TxQ) : Nat := if txWaits q then q.start else q.head

end Sys2Proof.Machine
end

