-- ==== Sys2Proof/Machine/Events.lean ====
section
/-! DEFINITION. The event FIFOs (R455 to R462) and MSI-X (R463): EVENT_ENTRY_WRITE, EVQ_NEXT, EVQ_MARK, EVQ_REWIND,
EVQ_RELEASE, MSIX_UNMASK, BUS_MASTER_ENABLE. -/

namespace Sys2Proof.Machine

/-! ## MSI-X -/

/-- A word of the MSI-X table; vector control is masked at reset (R439). -/
def msixWord (ep : Ep) (i : Nat) : Nat := match mapGet? ep.msix i with | some w => w.toNat | none => if i % 4 = 3 then 1 else 0

/-- R440, R463: a vector is sent, or pends while it is masked or Bus Master Enable is 0. -/
def msixFire (d : Dev) (e v : Nat) : Dev :=
  let ep := epOf d e
  if !ep.up then d
  else if bit (msixWord ep (4 * v + 3)) 0 || !ep.bme then
    modEp d e (fun ep => { ep with pba := if ep.pba.contains v then ep.pba else ep.pba ++ [v] })
  else emit (modEp d e (fun ep => { ep with pba := ep.pba.filter (fun x => x != v) }))
    (.msix e (msixWord ep (4 * v) + msixWord ep (4 * v + 1) * 2 ^ 32) (msixWord ep (4 * v + 2)))

/-- R463: a pending vector that is no longer masked is sent. -/
def msixPending (d : Dev) (e v : Nat) : Dev :=
  if (epOf d e).pba.contains v && !bit (msixWord (epOf d e) (4 * v + 3)) 0 then msixFire d e v else d

/-- R463: the mask bit of a vector is cleared. -/
def msixUnmask (d : Dev) (e v : Nat) : Dev :=
  if 64 ≤ v then d
  else msixPending (modEp d e (fun ep => { ep with msix := mapPut ep.msix (4 * v + 3) 0 })) e v

/-- MSIX_UNMASK. -/
def execMsixUnmask (who : Initiator) (v : Nat) : State → Host.Outcome State Fault Refusal :=
  access who (.msixUnmask who v) (fun d => match endpointOf who with
    | some e => regWr d who (0x80100C + 16 * (v % 64)) (fun d => msixUnmask d e v)
    | none => d)

/-- R440: Bus Master Enable changes; vectors that waited for it are sent. -/
def busMaster (d : Dev) (e : Nat) (on : Bool) : Dev :=
  if !running d || 2 ≤ e || !(epOf d e).up then d
  else
    let d := modEp d e (fun ep => { ep with bme := on })
    if on then (epOf d e).pba.foldl (fun d v => msixPending d e v) d else d

/-- BUS_MASTER_ENABLE. -/
def execBusMasterEnable (e : Nat) (on : Bool) : State → Host.Outcome State Fault Refusal := act (fun d => busMaster d e on)

/-! ## Writing entries (R458, R459, R462) -/

def setFifo (d : Dev) (f : Nat) (q : Fifo) : Dev := { d with fifos := mapPut d.fifos f q }

/-- R459: entries that a FIFO holds at most. -/
def fifoCap (d : Dev) : Nat := if compat d then 4096 else 2048

/-- R459: an entry may be written. -/
def fifoRoom (d : Dev) (f : Nat) : Bool := decide ((fifoOf d f).entries.length + 2 ≤ fifoCap d)

/-- R455, R462: LEVEL as it acts. -/
def fifoLevel (d : Dev) (f : Nat) : Nat := if d.img.fast then max 1 (fld d (0x802008 + 0x100 * f) 0 13) else 1

/-- R455, R462: LEVELHIT sends the FIFO's vector to its owner; before the fast part vector 0 of each endpoint. -/
def levelMsg (d : Dev) (f : Nat) : Dev :=
  if !d.img.fast then msixFire (msixFire d 0 0) 1 0
  else if flag d (0x802000 + 0x100 * f) 8 && evqOwner d f < 2 then
    msixFire d (evqOwner d f) (fld d (0x802000 + 0x100 * f) 16 6)
  else d

/-- R456, R458, R462: an entry is written: clamped to the last stamp, numbered, and LEVELHIT at the upward crossing. -/
def fifoPut (d : Dev) (f : Nat) (code cls : Nat) (unsync : Bool) (stamp : Nat) (data : Bytes) (bad : Bool) : Dev :=
  let q := fifoOf d f
  let low := decide (stamp < q.last)
  let at' := if low then q.last else stamp
  let en : EvEntry := { code := code, cls := cls, unsync := unsync, clamp := low, seq := q.seq, stamp := at', data := data,
                        bad := bad }
  let hit := q.armed && q.entries.length + 1 == fifoLevel d f
  let d := setFifo d f { q with entries := q.entries ++ [en], seq := (q.seq + 1) % 2 ^ 32, last := at',
                                levelHit := q.levelHit || hit, armed := q.armed && !hit }
  if hit then levelMsg d f else d

/-- R459: EVQ_LOSS is written as soon as there is room while a loss is pending. -/
def lossPut (d : Dev) (f : Nat) : Dev :=
  let q := fifoOf d f
  if q.lossCount = 0 || !fifoRoom d f then d
  else
    let d := setFifo d f { q with lossCount := 0 }
    evTrig (fifoPut d f 0x1001 0 (!synced d) q.lossStamp (eCount q.lossCount ++ e2 q.lossCode) false)
      q.lossStamp 0x1001 0

/-- R459: an event reaches one of its FIFOs: written, or dropped into the pending loss. -/
def eventTo (ev : Ev) (bad : Bool) (d : Dev) (f : Nat) : Dev :=
  let d := lossPut d f
  if fifoRoom d f then fifoPut d f ev.code ev.cls ev.unsync ev.stamp ev.data bad
  else
    let q := fifoOf d f
    let q := if q.lossCount = 0 then { q with lossCode := ev.code, lossStamp := ev.stamp } else q
    setFifo (bump d (0x802040 + 0x100 * f) 0) f { q with lossCount := q.lossCount + 1 }

/-- R455: the FIFOs that the maps in force name. -/
def evqMap (d : Dev) (code : Nat) : List Nat :=
  if d.img.fast then bitList 8 (fld d (0x800200 + 4 * (code / 256)) 0 8) else [0]

/-- R458: the event may be written: 8 µs (4,000 TIME cycles) after it occurred, and not past a freeze. -/
def evDue (d : Dev) (e : Ev) : Bool :=
  decide (e.born + 4000 ≤ d.clk.tclk) && (match freezeNs d with | some t => decide (e.stamp ≤ t) | none => true)

/-- Ascending stamp, then ascending CODE. -/
def evBefore (a b : Ev) : Bool := decide (a.stamp < b.stamp) || (a.stamp == b.stamp && decide (a.code < b.code))

/-- R458: the next event to write. -/
def nextEv (d : Dev) : Option Ev :=
  (d.evs.filter (evDue d)).foldl (fun a e => match a with
    | none => some e
    | some x => if evBefore e x then some e else some x) none

/-- R458: the collector writes one entry. -/
def entryWrite (bad : Bool) (d : Dev) : Dev :=
  if !running d then d
  else match nextEv d with
    | none => d
    | some ev => (evqMap d ev.code).foldl (eventTo ev bad) { d with evs := d.evs.erase ev }

/-- EVENT_ENTRY_WRITE. -/
def execEventEntryWrite (bad : Bool) : State → Host.Outcome State Fault Refusal := act (entryWrite bad)

/-! ## Reading (R460, R461) -/

/-- An access to EVQ_CTL of FIFO `f`. -/
def evqWr (d : Dev) (who : Initiator) (f : Nat) (g : Dev → Dev) : Dev :=
  if 8 ≤ f then d else regWr d who (0x802000 + 0x100 * f) g

/-- R460: NEXT. -/
def evqNext (f : Nat) (d : Dev) : Dev :=
  let q := fifoOf d f
  if q.rd < q.entries.length then setFifo d f { q with rd := q.rd + 1 } else d
/-- R460: MARK. -/
def evqMark (f : Nat) (d : Dev) : Dev := setFifo d f { fifoOf d f with mark := (fifoOf d f).rd }
/-- R460: REWIND. -/
def evqRewind (f : Nat) (d : Dev) : Dev := setFifo d f { fifoOf d f with rd := (fifoOf d f).mark }
/-- R459, R460, R462: RELEASE: entries before the read pointer are freed, the level is re-armed below LEVEL, and a pending
loss is written where there is room. -/
def evqRelease (f : Nat) (d : Dev) : Dev :=
  let q := fifoOf d f
  let l := q.entries.drop q.rd
  let q := { q with entries := l, rd := 0, mark := 0,
                    poisoned := q.poisoned.filter (fun s => l.any (fun e => e.seq == s)),
                    armed := q.armed || decide (l.length < fifoLevel d f) }
  lossPut (setFifo d f q) f

/-- EVQ_NEXT. -/
def execEvqNext (who : Initiator) (f : Nat) : State → Host.Outcome State Fault Refusal :=
  access who (.evqNext who f) (fun d => evqWr d who f (evqNext f))
/-- EVQ_MARK. -/
def execEvqMark (who : Initiator) (f : Nat) : State → Host.Outcome State Fault Refusal :=
  access who (.evqMark who f) (fun d => evqWr d who f (evqMark f))
/-- EVQ_REWIND. -/
def execEvqRewind (who : Initiator) (f : Nat) : State → Host.Outcome State Fault Refusal :=
  access who (.evqRewind who f) (fun d => evqWr d who f (evqRewind f))
/-- EVQ_RELEASE. -/
def execEvqRelease (who : Initiator) (f : Nat) : State → Host.Outcome State Fault Refusal :=
  access who (.evqRelease who f) (fun d => evqWr d who f (evqRelease f))

/-! ## The entry as it is read (R456, R457) -/

/-- R456: the bytes of a native entry. -/
def nativeEntry (f : Nat) (e : EvEntry) : Bytes :=
  leBytes 2 e.code ++ leBytes 1 (e.cls % 8 + e.unsync.toNat * 8 + e.clamp.toNat * 16) ++ leBytes 1 f ++ leBytes 4 e.seq ++
    leBytes 8 (stampWord e.stamp) ++ fit 16 e.data

/-- R457: the bytes of a compatibility entry. TRUNC: DATA ran past 8 bytes. -/
def compatEntry (f : Nat) (e : EvEntry) : Bytes :=
  let trunc := decide (8 < e.data.length)
  leBytes 2 e.code ++ leBytes 1 (e.cls % 8 + trunc.toNat * 8) ++ leBytes 1 f ++ leBytes 4 (e.stamp / 1000 % 2 ^ 32) ++
    fit 8 e.data

/-- R460: the entry at the read pointer. -/
def evqShown (d : Dev) (f : Nat) : Option EvEntry := (fifoOf d f).entries[(fifoOf d f).rd]?

/-- A word of EVQ_ENTRY. -/
def evqEntryWord (d : Dev) (f w : Nat) : Nat :=
  match evqShown d f with
  | none => 0
  | some e => leAt (if compat d then compatEntry f e else nativeEntry f e) (4 * w) 4

/-- R461: EVQ_ENTRY serves the entry: one with a failing word is counted once. -/
def evqServe (d : Dev) (f : Nat) : Dev :=
  match evqShown d f with
  | some e =>
    let q := fifoOf d f
    if e.bad && !q.poisoned.contains e.seq then
      setFifo (bump d (0x802048 + 0x100 * f) 0) f { q with poisoned := q.poisoned ++ [e.seq] }
    else d
  | none => d

end Sys2Proof.Machine
end

