-- ==== Sys2Proof/Machine/HostQ.lean ====
section
/-! DEFINITION. The PCIe endpoints (chapter 16): HOST_LINK_DOWN, HOST_LINK_UP, TX_TAIL_WRITE, TX_COMPLETION,
RX_BUFFER_POST, RX_DELIVERY, IRQ_ITR_EXPIRE, PAGE_DOMAIN_WRITE, what TX_RECORD does, and segmentation requests (R220 to R222). -/

namespace Sys2Proof.Machine

/-- Keys of the registers of a queue of an endpoint. -/
def tqKey (e t rel : Nat) : Nat := regKey (0x840000 + 0x40 * t + rel) e
def rqKey (e r rel : Nat) : Nat := regKey (0x810000 + 0x40 * r + rel) e

/-! ## The transmit ring (R447) -/

/-- TAIL of a transmit queue. -/
def txTail (d : Dev) (e t : Nat) : Nat := bits (tqReg d e t 4) 0 15
/-- Bytes of the ring written and not freed, and bytes written and not taken. -/
def txUsed (d : Dev) (e t : Nat) : Nat := (txTail d e t + 32768 - txHead (txOf d e t)) % 32768
def txAvail (d : Dev) (e t : Nat) : Nat := (txTail d e t + 32768 - (txOf d e t).head) % 32768

/-- Bytes of the ring from an offset, wrapping at its end. -/
def ringBytes (q : TxQ) (start n : Nat) : Bytes :=
  (List.range n).map (fun i =>
    let o := (start + i) % 32768
    BitVec.ofNat 8 (bits (mapGet (0 : Word) q.win (o / 4)).toNat (8 * (o % 4)) 8))

/-- R447: a write of the window at an offset overruns HEAD: the byte is written and not freed. -/
def txOverrun (d : Dev) (e t off : Nat) : Bool :=
  decide ((off + 32768 - txHead (txOf d e t)) % 32768 < txUsed d e t)

/-- R447: TQ_TAIL is written: what it would overrun makes it a host access error. -/
def txTailWrite (d : Dev) (who : Initiator) (e t w : Nat) : Dev :=
  if 32768 ≤ txUsed d e t + (bits w 0 15 + 32768 - txTail d e t) % 32768 then accErr d who (0x840004 + 0x40 * t) 5
  else putK d (tqKey e t 4) (bits w 0 15)

/-- TX_TAIL_WRITE. -/
def execTxTailWrite (who : Initiator) (t : Nat) (w : Word) : State → Host.Outcome State Fault Refusal :=
  access who (.txTailWrite who t w) (fun d => match endpointOf who with
    | some e => if t < 16 then regWr d who (0x840004 + 0x40 * t) (fun d => txTailWrite d who e t w.toNat) else d
    | none => d)

/-! ## Transmit records (R448, R449) -/

/-- R448: the fields of a descriptor. -/
structure TxDesc where
  len    : Nat
  path   : Bool
  tso    : Bool
  tsreq  : Bool
  route  : Nat
  w2     : Nat
  mss    : Nat
  hdrlen : Nat
  cookie : Nat
  deriving DecidableEq, Repr

def txDesc (h : Bytes) : TxDesc :=
  let w := fun i => leAt h (4 * i) 4
  { len := bits (w 0) 0 18, path := bit (w 0) 18, tso := bit (w 0) 19, tsreq := bit (w 0) 20, route := bits (w 1) 0 17,
    w2 := w 2, mss := bits (w 3) 0 14, hdrlen := bits (w 3) 14 9, cookie := w 4 }

/-- A record's bytes after its descriptor, padding included. -/
def TxDesc.padded (x : TxDesc) : Nat := ceilDiv x.len 32 * 32

/-- R172, R280, R448: the record names an entry whose every destination is a CAN channel: it is a CAN PDU, and takes its
format from FDF and BRS; any other record is an Ethernet frame (DEDUCED, log entry 21). -/
def isCanRecord (d : Dev) (x : TxDesc) : Bool :=
  let xs := entryDests d x.route (routeEntry d x.route)
  !x.path && rtValid (routeEntry d x.route) && !xs.isEmpty && xs.all (fun y => (qChannel y.q).isSome)

/-- The CAN header of a record. -/
def recordCan (x : TxDesc) : CanFrame :=
  { canNone with fmt := if !bit x.w2 30 then .classical else if bit x.w2 31 then .fdBrs else .fd,
                 xtd := bit x.w2 29, id := bits x.w2 0 29 }

/-- R448: the largest LEN of an Ethernet record: MAX_FRAME − 4 of the port that its entry names, else of any port. -/
def recordMax (d : Dev) (x : TxDesc) : Nat :=
  match (if x.path || rtMcast (routeEntry d x.route) then none
    else (entryDests d x.route (routeEntry d x.route)).head?.bind (fun y => qEthPort y.q)) with
  | some p => maxFrame d p - 4
  | none => 9212

/-- R448: a field breaks its range. -/
def badRecord (d : Dev) (x : TxDesc) : Bool :=
  if x.tso then
    x.mss < 64 || 9000 < x.mss || 256 < x.hdrlen || x.len < x.hdrlen || 65535 + x.hdrlen < x.len
  else if isCanRecord d x then !bit x.w2 29 && decide (2048 ≤ bits x.w2 0 29)
  else x.len < 60 || recordMax d x < x.len

/-- A frame of the source waits for its lookup or its admission. -/
def ofQueue (e t : Nat) (p : Pkt) : Bool := match p.tx with | some x => x.e == e && x.t == t | none => false
def txBusy (d : Dev) (e t : Nat) : Bool :=
  (mapGet [] d.rte.parse (4 + e)).any (fun i => ofQueue e t i.pkt) ||
    (mapGet [] d.rte.lookup (4 + e)).any (fun i => ofQueue e t i.pkt) ||
    (mapGet [] d.lnd.waiting (4 + e)).any (fun w => ofQueue e t w.pkt)

/-- R280: the frame of a record goes to its lookup: with a named entry, or through the parser. -/
def txSubmit (d : Dev) (e : Nat) (named : Option Nat) (p : Pkt) : Dev :=
  let d := cellsIn d (4 + e) p.size
  match named with
  | some ix => toLookup d (4 + e) { pkt := p, named := some ix, eth := false, ptype := 0 }
  | none => toParse d (4 + e) [{ pkt := p, named := none, eth := true, ptype := 4 }]

/-- An Ethernet frame from a host (R243: stored size with padding and FCS). -/
def hostFrame (d : Dev) (e : Nat) (data : Bytes) (tx : TxRef) : Pkt :=
  { kind := 0, data := data, size := max 60 data.length + 4, ingress := 0x80 + e, input := 4 + e, stamp := nowNs d,
    unsync := !synced d, tx := some tx }

/-- The completion of a new record. -/
def newComp (num cookie status : Nat) (wait : Bool) : TxComp :=
  { num := num, cookie := cookie, status := status, segs := 0, frame := none, stamp := 0, wait := wait }

/-- The transmit engine passes `n` bytes of the ring: TAKEN of the record that starts at HEAD. -/
def txTake (q : TxQ) (n : Nat) : TxQ := { q with start := q.head, head := (q.head + n) % 32768 }

/-- R449: a record completes without a frame; the bytes after `taken` are passed over. -/
def txRefuse (d : Dev) (e t : Nat) (x : TxDesc) (status taken : Nat) : Dev :=
  modTx d e t (fun q => { txTake q taken with skip := 32 + x.padded - taken, nextNum := q.nextNum + 1,
                                              comps := q.comps ++ [newComp q.nextNum x.cookie status false] })

/-! ## Segmentation (R220 to R222) -/

/-- R220: the headers of a request are Ethernet with at most two tags, IPv4 without fragmentation or IPv6 without a
Fragment header, then TCP without SYN, RST or URG, HDRLEN bytes in all. -/
def tsoHeaderOk (h : Bytes) : Bool :=
  let e := ethHdr h
  let o := e.off + 2
  let frag := if e.et = 0x0800 then be16At h (o + 6) % 0x4000 != 0
    else (ext6 h h.length 16 (byteAt h (o + 6)) (o + 40) false).2.2
  match l4Of h with
  | some (l4, _, proto) =>
    e.rtag.isNone && !frag && proto == 6 && decide (l4 + byteAt h (l4 + 12) / 16 * 4 = h.length) &&
      !bit (byteAt h (l4 + 13)) 1 && !bit (byteAt h (l4 + 13)) 2 && !bit (byteAt h (l4 + 13)) 5
  | none => false

/-- R221: segment `k` of a request. -/
def tsoSegment (h payload : Bytes) (mss k : Nat) (last : Bool) : Bytes :=
  let e := ethHdr h
  let o := e.off + 2
  let l4 := match l4Of h with | some (x, _, _) => x | none => o
  let n := h.length - o + payload.length
  let h := if e.et = 0x0800 then patch (patch h (o + 2) (beBytes 2 n)) (o + 4) (beBytes 2 (be16At h (o + 4) + k))
    else patch h (o + 4) (beBytes 2 (n - 40))
  let h := patch h (l4 + 4) (beBytes 4 ((beNat (slice h (l4 + 4) 4) + k * mss) % 2 ^ 32))
  let f := byteAt h (l4 + 13)
  let f := if k = 0 then f else setBit f 7 false
  let f := if last then f else setBit (setBit f 0 false) 3 false
  let h := patch h (l4 + 13) [BitVec.ofNat 8 f]
  let h := if e.et = 0x0800 then fixIp4 h o else h
  fixL4 (h ++ payload)

/-- The route entry that a request's frame finds, without counting. -/
def tsoEntry (d : Dev) (e : Nat) (x : TxDesc) (frame : Bytes) : Option Nat :=
  if x.path then (ethFind d (hostFrame d e frame ⟨e, 0, 0, false⟩)).2.ix else some x.route

/-- R220: a request is accepted, and the Ethernet port of its entry. -/
def tsoPort (d : Dev) (ix : Nat) : Option Nat :=
  let en := routeEntry d ix
  if !rtValid en || rtMcast en || rtVerdict en = 3 then none
  else (entryDests d ix en).head?.bind (fun y => qEthPort y.q)

def tsoAccept (d : Dev) (e : Nat) (x : TxDesc) (hdr : Bytes) : Bool × Option Nat :=
  let first := tsoSegment hdr (zeros (min x.mss (x.len - x.hdrlen))) x.mss 0 (decide (x.len - x.hdrlen ≤ x.mss))
  match tsoEntry d e x first with
  | none => (false, none)
  | some ix => match tsoPort d ix with
    | none => (false, none)
    | some p =>
      let p0 := hostFrame d e first ⟨e, 0, 0, false⟩
      let fits := match (entryDests d ix (routeEntry d ix)).head? with
        | some y => (egressDrop d p p0 y).isNone
        | none => false
      (tsoHeaderOk hdr && rtAuth (routeEntry d ix) == 0 && fits, some p)

/-- R222, R451: the next segment of a request, when its bytes are in the ring and the arrival reserve has room; a request that has
ended is passed over. -/
def tsoNext (d : Dev) (e t : Nat) (s : Tso) : Dev :=
  let q := txOf d e t
  let live := q.comps.any (fun c => c.num == s.num && c.wait)
  let n := min s.mss s.left
  let last := decide (s.left ≤ s.mss)
  if !live then modTx d e t (fun q => { q with tso := none, skip := s.left + s.pad })
  else if txAvail d e t < n || arrivalFull d (4 + e) then d
  else
    let tsreq := q.comps.any (fun c => c.num == s.num && c.frame.isSome)
    let data := tsoSegment s.hdr (ringBytes q q.head n) s.mss s.k last
    let p := { hostFrame d e data ⟨e, t, s.num, tsreq⟩ with seg := some last }
    let d := modTx d e t (fun q => { txTake q n with
      tso := if last then none else some { s with left := s.left - n, k := s.k + 1 }, skip := if last then s.pad else 0 })
    txSubmit d e s.named p

/-- R220: a segmentation request whose descriptor breaks its ranges is counted in ETH_TSOREJ of the egress port that what lies in the
ring of its header names. -/
def badTso (d : Dev) (e t : Nat) (x : TxDesc) : Dev :=
  let hdr := ringBytes (txOf d e t) ((txOf d e t).head + 32) (min (min 256 x.hdrlen) (txAvail d e t - 32))
  match (if x.tso then (tsoEntry d e x hdr).bind (tsoPort d) else none) with
  | some p => bump d (ethBase p + 0x188) 0
  | none => d

/-- R220: a segmentation request begins, or completes TSOREJ. An entry outside the send window leaves the decision to the
lookup of its first segment (R280). -/
def tsoStart (d : Dev) (e t : Nat) (x : TxDesc) : Dev :=
  let q := txOf d e t
  if txAvail d e t < 32 + x.hdrlen then d
  else
    let hdr := ringBytes q (q.head + 32) x.hdrlen
    let a := tsoAccept d e x hdr
    if !a.1 && (x.path || inSendWindow d (4 + e) x.route) then
      let d := match a.2 with | some p => bump d (ethBase p + 0x188) 0 | none => d
      txRefuse d e t x 5 (32 + x.hdrlen)
    else
      let s : Tso := { num := q.nextNum, hdr := hdr, mss := x.mss, left := x.len - x.hdrlen, pad := x.padded - x.len, k := 0,
                       named := if x.path then none else some x.route, port := a.2 }
      let c := { newComp q.nextNum x.cookie 0 true with frame := if x.tsreq then some (2 ^ 32) else none }
      let step' : TxQ → TxQ := fun q =>
        { txTake q (32 + x.hdrlen) with tso := some s, nextNum := q.nextNum + 1, comps := q.comps ++ [c] }
      tsoNext (modTx d e t step') e t s

/-! ## TX_RECORD -/

/-- R449, R451: the next record of a queue is taken, once it lies in the ring whole and the arrival reserve has room. -/
def txWhole (d : Dev) (e t : Nat) (x : TxDesc) : Dev :=
  let q := txOf d e t
  if txAvail d e t < 32 + x.padded || arrivalFull d (4 + e) then d
  else
    let data := ringBytes q (q.head + 32) x.len
    let tx : TxRef := ⟨e, t, q.nextNum, x.tsreq⟩
    let can := recordCan x
    let p := if isCanRecord d x then
        { hostFrame d e data tx with kind := fmtKind can.fmt, can := { can with data := data }, size := x.len }
      else { hostFrame d e data tx with can := can }
    let step' : TxQ → TxQ := fun q =>
      { txTake q (32 + x.padded) with nextNum := q.nextNum + 1, comps := q.comps ++ [newComp q.nextNum x.cookie 0 true] }
    txSubmit (modTx d e t step') e (if x.path then none else some x.route) p

/-- R447 to R451: the transmit engine of a queue: EN 1, no record of the queue that awaits its admission, a free completion
entry, and ingress open (R92). -/
def txRecord (d : Dev) (e t : Nat) : Dev :=
  if !running d || 2 ≤ e || 16 ≤ t || !(epOf d e).up || !d.clk.ingress || !bit (tqReg d e t 0) 0 || !txRingFree d e t ||
      txBusy d e t then d
  else
    let q := txOf d e t
    if 0 < q.skip then
      let n := min q.skip (txAvail d e t)
      modTx d e t (fun q => { txTake q n with skip := q.skip - n })
    else match q.tso with
      | some s => tsoNext d e t s
      | none =>
        if txWaits q || txAvail d e t < 32 then d
        else
          let x := txDesc (ringBytes q q.head 32)
          if badRecord d x then txRefuse (badTso d e t x) e t x 7 32 else if x.tso then tsoStart d e t x else txWhole d e t x

/-! ## Interrupt moderation (R454) -/

/-- CNT and ITR of a moderation word. -/
def modCnt (w : Nat) : Nat := bits w 16 10
def modItr (w : Nat) : Nat := bits w 0 10

/-- R454: the vector of a queue is sent. -/
def txSignal (d : Dev) (e t : Nat) : Dev := msixFire (modTx d e t (fun q => { q with unsig := 0 })) e (bits (tqReg d e t 0) 16 6)
def rxSignal (d : Dev) (e r : Nat) : Dev := msixFire (modRx d e r (fun q => { q with unsig := 0 })) e (bits (rqReg d e r 0) 16 6)

/-- R454: a completion has been written: at once with ITR 0, at CNT completions, else ITR later. -/
def txModerate (d : Dev) (e t : Nat) : Dev :=
  let w := tqReg d e t 0x20
  let d := modTx d e t (fun q => { q with unsig := q.unsig + 1, unsigAt := if q.unsig = 0 then d.clk.tclk else q.unsigAt })
  if modItr w = 0 || (modCnt w != 0 && decide (modCnt w ≤ (txOf d e t).unsig)) then txSignal d e t else d
def rxModerate (d : Dev) (e r : Nat) : Dev :=
  let w := rqReg d e r 0x20
  let d := modRx d e r (fun q => { q with unsig := q.unsig + 1, unsigAt := if q.unsig = 0 then d.clk.tclk else q.unsigAt })
  if modItr w = 0 || (modCnt w != 0 && decide (modCnt w ≤ (rxOf d e r).unsig)) then rxSignal d e r else d

/-- R454: ITR µs have passed since the first completion not signalled. -/
def itrExpire (d : Dev) (e : Nat) (tx : Bool) (q : Nat) : Dev :=
  if !running d || 2 ≤ e then d
  else if tx then
    (if 0 < (txOf d e q).unsig && decide ((txOf d e q).unsigAt + usCycles (modItr (tqReg d e q 0x20)) ≤ d.clk.tclk) then
       txSignal d e q else d)
  else if 0 < (rxOf d e q).unsig && decide ((rxOf d e q).unsigAt + usCycles (modItr (rqReg d e q 0x20)) ≤ d.clk.tclk) then
    rxSignal d e q
  else d

/-- IRQ_ITR_EXPIRE. -/
def execIrqItrExpire (e : Nat) (tx : Bool) (q : Nat) : State → Host.Outcome State Fault Refusal :=
  act (fun d => itrExpire d e tx q)

/-! ## Completions (R450) -/

/-- R450: the next index and phase of a ring: PHASE inverts at each wrap. -/
def nextPhase (widx csize : Nat) (phase : Bool) : Bool := if (widx + 1) % max 1 csize = 0 then !phase else phase

/-- A 64-bit base address of a queue. -/
def tqBase (d : Dev) (e t : Nat) : Nat := tqReg d e t 0x10 / 64 * 64 + tqReg d e t 0x14 * 2 ^ 32
def rqBase (d : Dev) (e r : Nat) : Nat := rqReg d e r 0x10 / 64 * 64 + rqReg d e r 0x14 * 2 ^ 32

/-- R450: the bytes of a transmit completion. -/
def txCompBytes (c : TxComp) (phase : Bool) : Bytes :=
  leBytes 4 c.cookie ++ leBytes 4 (c.status % 256 + c.segs % 65536 * 256 + phase.toNat * 2 ^ 31) ++ leBytes 8 (stampWord c.stamp)

/-- R449, R450: the oldest record of a queue is complete, and the ring has a free entry. -/
def txCompletion (d : Dev) (e t : Nat) : Dev :=
  if !running d || 2 ≤ e || !(epOf d e).up || !(epOf d e).bme || !txRingFree d e t then d
  else match (txOf d e t).comps with
    | [] => d
    | c :: rest =>
      if c.wait || c.frame.isSome then d
      else
        let q := txOf d e t
        let cs := bits (tqReg d e t 0x18) 0 13
        let d := emit d (.hostWrite e (tqBase d e t + 16 * (q.widx % max 1 cs)) (txCompBytes c q.phase))
        let d := modTx d e t (fun q => { q with comps := rest, widx := (q.widx + 1) % 65536,
                                                phase := nextPhase q.widx cs q.phase })
        txModerate d e t

/-- TX_COMPLETION. -/
def execTxCompletion (e t : Nat) : State → Host.Outcome State Fault Refusal := act (fun d => txCompletion d e t)

/-! ## Receive queues (R452 to R454) -/

/-- RX_BUFFER_POST: TAIL of RQ_BTAIL. -/
def execRxBufferPost (who : Initiator) (r : Nat) (w : Word) : State → Host.Outcome State Fault Refusal :=
  access who (.rxBufferPost who r w) (fun d => match endpointOf who with
    | some e => if r < 64 then regWr d who (0x810004 + 0x40 * r) (fun d => putK d (rqKey e r 4) (bits w.toNat 0 8)) else d
    | none => d)

/-- R452: the host address of buffer entry `i` of a receive queue. -/
def bufAddr (d : Dev) (e r i : Nat) : Nat :=
  let b := (epOf d e).bufs
  (mapGet (0 : Word) b (r * 512 + 2 * (i % 256))).toNat / 128 * 128 + (mapGet (0 : Word) b (r * 512 + 2 * (i % 256) + 1)).toNat * 2 ^ 32

/-- R452: frame data into consecutive buffers. -/
def fillBufs (e r size : Nat) : Nat → Nat → Bytes → Dev → Dev
  | 0, _, _, d => d
  | n + 1, i, bs, d => fillBufs e r size n (i + 1) (bs.drop size) (emit d (.hostWrite e (bufAddr d e r i) (bs.take size)))

/-- R453: the receive completion of a delivered copy. -/
def rxCompBytes (p : Pkt) (x : Dest) (ecn : Bool) (len nbuf first drops : Nat) (phase : Bool) : Bytes :=
  leBytes 4 (len % 2 ^ 18 + nbuf % 256 * 2 ^ 24) ++
    leBytes 4 (first % 256 + frameKind p % 16 * 256 + ecn.toNat * 2 ^ 12 + p.auth.toNat * 2 ^ 13 + p.de.toNat * 2 ^ 14 +
      p.ingress % 256 * 2 ^ 16 + phase.toNat * 2 ^ 31) ++
    leBytes 4 (x.route % 2 ^ 17) ++ leBytes 4 (canHdr p) ++ leBytes 8 (stampWord p.stamp) ++ leBytes 4 (drops % 65536) ++
    leBytes 4 (if p.kind = 3 then p.can.af else 0)

/-- R440, R453, R454: a staged frame is delivered: its data, its completion, its interrupt; the completion is its egress
commit. -/
def rxDeliver (d : Dev) (e r : Nat) : Dev :=
  let k := 16 * (4 + e) + r % 4
  if !running d || 2 ≤ e || 64 ≤ r || outFrozen d 0 then d
  else match (laneOf d k).items.find? (fun it => it.dest.q == qHost e r && it.got == it.n) with
    | none => d
    | some it =>
      let bs := hostBytes it.pkt it.ecn
      if !rxReady d e r bs.length then d
      else
        let q := rxOf d e r
        let n := bufsFor d e r bs.length
        let cs := bits (rqReg d e r 0x18) 0 13
        let d := fillBufs e r (bufBytes d e r) n q.bhead bs d
        let d := emit d (.hostWrite e (rqBase d e r + 32 * (q.widx % max 1 cs))
          (rxCompBytes it.pkt it.dest it.ecn bs.length n q.bhead q.drops q.phase))
        let d := modRx d e r (fun q => { q with bhead := (q.bhead + n) % 256, widx := (q.widx + 1) % 65536,
                                                phase := nextPhase q.widx cs q.phase, drops := 0 })
        let d := rxModerate d e r
        let d := modLane d k (fun l => { l with items := l.items.filter (fun o => !(o.pkt.id == it.pkt.id && o.dest.q == it.dest.q)) })
        copyCommit (unqueue d it.dest.q it.pkt.id) it.pkt.id

/-- RX_DELIVERY. -/
def execRxDelivery (e r : Nat) : State → Host.Outcome State Fault Refusal := act (fun d => rxDeliver d e r)

/-! ## Link state (R441) -/

/-- R441: the records that lie in a ring and have not been taken; `n` bounds them. -/
def txLying : Nat → TxQ → Nat → Nat → Nat
  | 0, _, _, _ => 0
  | n + 1, q, pos, left =>
    if left = 0 then 0
    else
      let k := 32 + (txDesc (ringBytes q pos 32)).padded
      1 + (if left ≤ k then 0 else txLying n q ((pos + k) % 32768) (left - k))

/-- R441: the transmit records of a queue that have not been admitted. -/
def txUnadmitted (d : Dev) (e t : Nat) : Nat :=
  let q := txOf d e t
  let a := txAvail d e t
  let inTso := match q.tso with | some s => s.left + s.pad | none => q.skip
  (q.comps.filter (fun c => c.wait)).length + txLying 1024 q ((q.head + inTso) % 32768) (a - min a inTso)

/-- R441: frames of the endpoint's host port that wait for a lookup or an admission are gone. -/
def dropHostInput (d : Dev) (e : Nat) : Dev :=
  { d with rte := { d.rte with parse := mapDel d.rte.parse (4 + e), lookup := mapDel d.rte.lookup (4 + e) },
           lnd := { d.lnd with waiting := mapDel d.lnd.waiting (4 + e) } }

/-- R338, R441: a user page's jobs complete ABORTED, and the page is zeroed. -/
def pageGone (d : Dev) (p : Nat) : Dev :=
  let n := ((pageOf d p).tail + 32 - (pageOf d p).head) % 32
  let d := (List.range n).foldl (fun d _ => complete d p 7) d
  modPage d p alarmPage

/-- R441: the user pages of an endpoint that have any state. -/
def epPages (d : Dev) (e : Nat) : List Nat :=
  (d.cry.pages.map (fun x => x.1)).filter (fun p => decide (p < 128) && pageEp d p == e + 1)

/-- R441: EN and the pointers of every queue of an endpoint, and its MSI-X table. -/
def clearQueues (d : Dev) (e : Nat) : Dev :=
  let d := (List.range 16).foldl (fun d t =>
    putK (putK (putK d (tqKey e t 0) (setBit (tqReg d e t 0) 0 false)) (tqKey e t 4) 0) (tqKey e t 0x1C) 0) d
  let d := (List.range 64).foldl (fun d r =>
    putK (putK (putK d (rqKey e r 0) (setBit (rqReg d e r 0) 0 false)) (rqKey e r 4) 0) (rqKey e r 0x1C) 0) d
  modEp d e (fun ep => { ep with tx := ep.tx.map (fun q => (q.1, { ({} : TxQ) with nextNum := q.2.nextNum })),
                                 rx := ep.rx.map (fun q => (q.1, { ({} : RxQ) with drops := q.2.drops })), msix := [], pba := [] })

/-- R199, R441: the mailbox locks of an endpoint are freed. -/
def freeMailboxes (d : Dev) (e : Nat) : Dev :=
  { d with can := d.can.map (fun c => (c.1, if c.2.mbOwner = e + 1 then { c.2 with mbOwner := 0 } else c.2)) }

/-- R441: an access of endpoint `e` that waits, at its link-down instant: one that the bridge has still to take goes on, any other
is gone with the link (DEDUCED, log entry 119). -/
def linkGone (e : Nat) (x : BrgWait) : Option BrgWait :=
  if initIx x.who ≠ e then some x else if (bridgeOp x.cmd).isSome then some { x with gone := true } else none

/-- R441: accesses that the endpoint issued still go to the far bus; the completions of its reads are discarded. -/
def deadReads (d : Dev) (e : Nat) : Dev :=
  { d with brg := { d.brg with
    queues := d.brg.queues.map (fun q => (q.1, q.2.map (fun a =>
      if a.who == e && !a.write && a.kind == 0 then { a with dead := true } else a)))
    wait := d.brg.wait.filterMap (linkGone e) } }

/-- R82, R441: the link-down instant of an endpoint; its PLL stops. -/
def hostDown (d : Dev) (e : Nat) : Dev :=
  if !running d || 2 ≤ e || !(epOf d e).up then d
  else
    let d := flushQueues d ((List.range 64).map (qHost e))
    let lost := (List.range 16).map (fun t => txUnadmitted d e t)
    let d := (lost.zipIdx).foldl (fun d n => bumpBy d (0x840028 + 0x40 * n.2) e n.1) d
    let d := clearQueues (dropHostInput d e) e
    let d := (epPages d e).foldl pageGone d
    let d := deadReads (crossOutside (freeMailboxes d e) (33 + e) 0) e
    let d := if d.rcd.readout.busy && d.rcd.readout.e == e then readoutEnd d 3 0 0 else d
    let d := pllSync (modEp d e (fun ep => { ep with up := false, bme := false }))
    raise d 0x1003 0 (e1 e ++ e1 0 ++ eCount (lost.foldl (· + ·) 0))

/-- HOST_LINK_DOWN. -/
def execHostLinkDown (e : Nat) : State → Host.Outcome State Fault Refusal := act (fun d => hostDown d e)

/-- R82, R441: the link of an endpoint comes up; its PLL runs. -/
def hostUp (d : Dev) (e : Nat) : Dev :=
  if !running d || 2 ≤ e || (epOf d e).up then d
  else raise (pllSync (modEp d e (fun ep => { ep with up := true }))) 0x1003 0 (e1 e ++ e1 1 ++ eCount 0)

/-- HOST_LINK_UP. -/
def execHostLinkUp (e : Nat) : State → Host.Outcome State Fault Refusal := act (fun d => hostUp d e)

/-! ## Pages and domains (R446) -/

/-- R446: DOM of HIF_PAGE is written by the page's endpoint: applied to an idle page with a domain of its mask, which
zeroes the page; else DOMERR. A 1 in DOMERR clears it first. -/
def pageDomain (d : Dev) (who : Initiator) (p w : Nat) : Dev :=
  let off := 0x800400 + 4 * p
  let d := if bit w 8 then putFld d off 8 1 0 else d
  match endpointOf who with
  | none => d
  | some e =>
    if pageEp d p ≠ e + 1 then d
    else if pageBusy d p || !bit (fld d (0x800010 + 4 * e) 0 16) (bits w 4 4) || bits w 4 4 = 0 then putFld d off 8 1 1
    else zeroPage (putFld d off 4 4 (bits w 4 4)) p

/-- PAGE_DOMAIN_WRITE. -/
def execPageDomainWrite (who : Initiator) (p : Nat) (w : Word) : State → Host.Outcome State Fault Refusal :=
  access who (.pageDomainWrite who p w) (fun d => if p < 128 then regWr d who (0x800400 + 4 * p) (fun d => pageDomain d who p w.toNat) else d)

end Sys2Proof.Machine
end

