-- ==== Sys2Proof/Machine/Bridge.lean ====
section
/-! DEFINITION. The Peripheral Bridge (chapter 16): BRIDGE_WRITE, BRIDGE_READ, I2C_INDIRECT_READ, BRIDGE_POLL; what
BRIDGE_FAR_DONE and BRIDGE_READ_TIMEOUT do, and what Watch entry discards (R477). -/

namespace Sys2Proof.Machine

def modBrg (d : Dev) (f : Brg → Brg) : Dev := { d with brg := f d.brg }

/-! ## Windows (R469, R470) -/

/-- The base of a window. -/
def winBase : Nat → Nat
  | 0 => 0x910000 | 1 => 0x911000 | 2 => 0x940000 | 3 => 0x980000 | 4 => 0x9C0000 | 5 => 0x9D0000 | _ => 0x9E0000

/-- The far bus of a window: MDIO0, MDIO1, PSPI0, PSPI1, I2C. -/
def farBus : Nat → Nat
  | 0 => 0 | 1 => 1 | 2 => 0 | 3 => 1 | 4 => 2 | 5 => 3 | _ => 4

/-- R473: the number of an initiator; the TAP acts as Eopod. -/
def brgNum : Initiator → Nat
  | .pcie0 => 0 | .pcie1 => 1 | .hspi => 2 | .eopod => 2 | .jtag => 2

/-- R469: the port and device addresses of a Clause 45 access, from BRG_C45SEL of its initiator and bus. -/
def c45Sel (d : Dev) (who : Initiator) (win : Nat) : Nat :=
  if win = 2 || win = 3 then regK d (regKey (0x900010 + 4 * (win - 2)) (initIx who)) % 1024 else 0

/-- R470: bytes of data of a far transaction: two on MDIO and I2C, DB on PSPI. -/
def farBytes (d : Dev) (win o : Nat) : Nat :=
  if win = 4 || win = 5 then
    (match fld d (0x900020 + 4 * (4 * (win - 4) + o / 0x4000)) 9 2 with | 0 => 1 | 1 => 2 | _ => 4)
  else 2

/-- R470: data of the far width. -/
def farData (d : Dev) (win o w : Nat) : Nat := w % 2 ^ (8 * farBytes d win o)

/-! ## Queues (R471) -/

def busQueue (d : Dev) (b : Nat) : List BrgAcc := mapGet [] d.brg.queues b
def setBus (d : Dev) (b : Nat) (l : List BrgAcc) : Dev :=
  modBrg d (fun g => { g with queues := if l.isEmpty then mapDel g.queues b else mapPut g.queues b l })

/-- The window and the offset in it of an access; an indirect read is an I2C access. -/
def accWin (a : BrgAcc) : Nat × Nat := match brgWindow a.off with | some w => w | none => (6, 0)

/-- R471: the head of a bus queue is issued: its far transaction begins. -/
def brgIssue (d : Dev) (b : Nat) : Dev :=
  match busQueue d b with
  | [] => d
  | a :: rest =>
    if a.issued then d
    else
      let w := accWin a
      let far := w.2 + a.addr * 2 ^ 20
      emit (setBus d b ({ a with issued := true } :: rest)) (.far w.1 far a.write (if a.write then farData d w.1 w.2 a.data.toNat else 0))

/-- R471: an access is accepted: it takes the next sequence number and joins its bus queue. -/
def brgAccept (d : Dev) (b : Nat) (a : BrgAcc) : Dev :=
  let a := { a with seq := d.brg.seq }
  brgIssue (setBus (modBrg d (fun g => { g with seq := (g.seq + 1) % 2 ^ 32 })) b (busQueue d b ++ [a])) b

/-- An access of an initiator to a window. -/
def newAcc (d : Dev) (who : Initiator) (win off : Nat) (write : Bool) (w : Nat) : BrgAcc :=
  { seq := 0, who := brgNum who, off := off, addr := c45Sel d who win, write := write, data := BitVec.ofNat 32 w, kind := 0,
    poll := 0, issued := false, dead := false }

/-- R471: a bus queue has a place. -/
def busRoom (d : Dev) (b : Nat) : Bool := decide ((busQueue d b).length < 32)

/-- R474: an indirect read: one outstanding per initiator; a second is refused. -/
def irdAsk (d : Dev) (who : Initiator) (w : Nat) : Dev :=
  let n := brgNum who
  if d.brg.irdOpen.contains n then modBrg d (fun g => { g with irdbusy := true })
  else
    let a : BrgAcc := { seq := 0, who := n, off := 0x9E0000 + 0x400 * bits w 0 7 + 4 * bits w 8 8, addr := 0, write := false,
                        data := BitVec.ofNat 32 w, kind := 1, poll := 0, issued := false, dead := false }
    brgAccept (modBrg d (fun g => { g with irdOpen := g.irdOpen ++ [n] })) 4 a

/-- R471: a bridge access is accepted; the data of a `dead` read is discarded (R441). -/
def brgTake (d : Dev) (who : Initiator) (op : BrgOp) (dead : Bool) : Dev :=
  match op with
  | .ird w => irdAsk d who w
  | .write off w => match brgWindow off with
    | some (win, _) => brgAccept d (farBus win) (newAcc d who win off true w)
    | none => d
  | .read off => match brgWindow off with
    | some (win, _) => brgAccept d (farBus win) { newAcc d who win off false 0 with dead := dead }
    | none => d

/-- R471: a bridge access has a place in its bus queue; a refused indirect read needs none. -/
def brgRoom (d : Dev) (who : Initiator) (op : BrgOp) : Bool :=
  match op with
  | .ird _ => busRoom d 4 || d.brg.irdOpen.contains (brgNum who)
  | .write off _ | .read off => match brgWindow off with
    | some (win, _) => busRoom d (farBus win)
    | none => true

/-- R471: a command is a bridge access that finds its bus queue full. -/
def brgFull (cmd : Instr) (who : Initiator) (off : Nat) (d : Dev) : Bool :=
  accKind d who off 4 == 0 && (match bridgeOp cmd with | some op => !brgRoom d who op | none => false)

/-- R471: a posted write to a window. -/
def brgWrite (d : Dev) (who : Initiator) (off w : Nat) : Dev := brgTake d who (.write off w) false

/-- BRIDGE_WRITE. -/
def execBridgeWrite (who : Initiator) (off : Nat) (w : Word) : State → Host.Outcome State Fault Refusal :=
  accessWhen who (.bridgeWrite who off w) (brgFull (.bridgeWrite who off w) who off)
    (fun d => regWr d who off (fun d => brgWrite d who off w.toNat))

/-- R472: a read is accepted; outside every window it reads zero at once (R11). -/
def brgRead (d : Dev) (who : Initiator) (off : Nat) : Dev :=
  if (brgWindow off).isSome then brgTake d who (.read off) false else emit d (.completion who off 0)

/-- BRIDGE_READ: an access error reads all ones (R444). -/
def execBridgeRead (who : Initiator) (off : Nat) : State → Host.Outcome State Fault Refusal :=
  accessWhen who (.bridgeRead who off) (brgFull (.bridgeRead who off) who off) (fun d =>
    if !canAccess d who then d
    else if accKind d who off 4 ≠ 0 then emit (accErr d who off (accKind d who off 4)) (.completion who off 0xFFFFFFFF)
    else if (brgWindow off).isSome then brgRead d who off
    else d)

/-! ## Failures (R472, R473) -/

/-- R473: a failure enters the log, over the oldest entry. -/
def brgLog (d : Dev) (a : BrgAcc) (who reason : Nat) : Dev :=
  let w0 := a.off % 2 ^ 24 + who % 4 * 2 ^ 24 + reason % 16 * 2 ^ 28
  let en : List Word := [BitVec.ofNat 32 w0, a.data, BitVec.ofNat 32 a.seq, BitVec.ofNat 32 (nowUs d)]
  modBrg d (fun g => { g with log := mapPut g.log (g.logNext % 64) en, logNext := g.logNext + 1 })

/-- R473: a posted write has failed. -/
def brgPostedFail (d : Dev) (a : BrgAcc) (reason : Nat) : Dev :=
  raise (bump (brgLog d a a.who reason) 0x901400 0) 0x1010 0
    (e4 a.seq ++ e4 a.off ++ e4 a.data.toNat ++ e1 a.who ++ e1 reason)

/-- The initiator of a number. -/
def brgWho : Nat → Initiator
  | 0 => .pcie0 | 1 => .pcie1 | _ => .eopod

/-- R472: a read has failed: all ones, RDERR, logged and reported. -/
def brgReadFail (d : Dev) (a : BrgAcc) (reason : Nat) : Dev :=
  let d := emit (modBrg d (fun g => { g with rderr := true })) (.completion (brgWho a.who) a.off 0xFFFFFFFF)
  raise (bump (brgLog d a a.who reason) 0x901408 0) 0x1011 0 (e4 a.seq ++ e4 a.off ++ e1 a.who ++ e1 reason)

/-- R474: an indirect read is done. -/
def brgIrdDone (d : Dev) (a : BrgAcc) (w status : Nat) : Dev :=
  let n := if bit a.data.toNat 16 then w % 65536 else w % 256
  let d := modBrg d (fun g => { g with irdOpen := g.irdOpen.filter (fun x => x != a.who),
                                       irdRes := mapPut g.irdRes a.who (n + status % 16 * 65536) })
  raise d 0x1013 0 (e4 a.seq ++ e2 n ++ e1 status)

/-- R475: a poll is done: a change of its masked bits is reported. -/
def brgPollDone (d : Dev) (a : BrgAcc) (w : Nat) : Dev :=
  let old := mapGet 0 d.brg.pollVal a.poll
  let mask := bits (reg d (0x900100 + 0xC * a.poll)) 16 16
  let d := modBrg d (fun g => { g with pollVal := mapPut g.pollVal a.poll (w % 65536) })
  if (old ^^^ (w % 65536)) &&& mask != 0 then raise d 0x1012 0 (e1 a.poll ++ e2 old ++ e2 w) else d

/-- The end of one far transaction. -/
def brgEnd (d : Dev) (a : BrgAcc) (res : FarRes) : Dev :=
  match res with
  | .ok w =>
    let x := accWin a
    if a.write || a.dead then d
    else if a.kind = 1 then brgIrdDone d a w.toNat 0
    else if a.kind = 2 then brgPollDone d a (farData d x.1 x.2 w.toNat)
    else emit d (.completion (brgWho a.who) a.off (BitVec.ofNat 32 (farData d x.1 x.2 w.toNat)))
  | .failed r =>
    if a.write then brgPostedFail d a r
    else if a.dead then d
    else if a.kind = 1 then brgIrdDone d a 0 r
    else if a.kind = 2 then bump (brgLog d a 3 r) 0x901408 0
    else brgReadFail d a r

/-- R471, R473: the transaction in progress on a far bus ends, and the next access is issued. -/
def brgFarDone (d : Dev) (b : Nat) (res : FarRes) : Dev :=
  if !running d then d
  else match busQueue d b with
    | [] => d
    | a :: rest => if a.issued then brgIssue (brgEnd (setBus d b rest) a res) b else d

/-- R472: 64 µs have passed since the acceptance of a read: a transaction begun completes on the bus with its data
discarded, one not begun is cancelled. -/
def brgTimeout (d : Dev) (seq : Nat) : Dev :=
  let hit : BrgAcc → Bool := fun a => a.seq == seq && !a.write && a.kind == 0 && !a.dead
  if !running d then d
  else match (d.brg.queues.find? (fun q => q.2.any hit)) with
    | none => d
    | some (b, l) => match l.find? hit with
      | none => d
      | some a =>
        let l := if a.issued then l.map (fun x => if hit x then { x with dead := true } else x) else l.filter (fun x => !hit x)
        brgReadFail (setBus d b l) a 5

/-! ## Indirect reads and polls (R474, R475) -/

/-- R474: BRG_IRDREQ, a posted write. -/
def irdRequest (d : Dev) (who : Initiator) (w : Nat) : Dev := brgTake d who (.ird w) false

/-- I2C_INDIRECT_READ. -/
def execI2cIndirectRead (who : Initiator) (w : Word) : State → Host.Outcome State Fault Refusal :=
  accessWhen who (.i2cIndirectRead who w) (brgFull (.i2cIndirectRead who w) who 0x900040)
    (fun d => regWr d who 0x900040 (fun d => irdRequest d who w.toNat))

/-- R475: the period of a poll entry has run out: the poll starts when nothing is queued for its bus. -/
def brgPoll (d : Dev) (k : Nat) : Dev :=
  let cfg := reg d (0x900100 + 0xC * k)
  let adr := reg d (0x900104 + 0xC * k)
  let win := bits cfg 1 3
  if !running d || 16 ≤ k || !bit cfg 0 || win = 7 || !(busQueue d (farBus win)).isEmpty then d
  else
    let sel := if win = 2 || win = 3 then bits adr 20 10 else 0
    brgAccept d (farBus win)
      { seq := 0, who := 3, off := winBase win + bits adr 0 20, addr := sel, write := false, data := 0, kind := 2, poll := k,
        issued := false, dead := false }

/-- BRIDGE_POLL. -/
def execBridgePoll (k : Nat) : State → Host.Outcome State Fault Refusal := act (fun d => brgPoll d k)

/-- R477: a write that waits for its bus queue, as the log shows it. -/
def lateWrite (d : Dev) (x : BrgWait) : Option BrgAcc :=
  match bridgeOp x.cmd with
  | some (.write off w) => some (newAcc d x.who 0 off true w)
  | _ => none

/-- R477: what is left at the end of step 2 of Watch entry is discarded, each write logged with reason 6. Accesses of other
blocks that waited behind it stay. -/
def brgWatch (d : Dev) : Dev :=
  let all := (d.brg.queues.map (fun q => q.2)).flatten
  let late := d.brg.wait.filterMap (lateWrite d)
  let d := modBrg d (fun g => { g with queues := [], wait := g.wait.filter (fun x => (bridgeOp x.cmd).isNone), irdOpen := [] })
  (all ++ late).foldl (fun d a => if a.write then brgPostedFail d a 6 else d) d

end Sys2Proof.Machine
end

