-- ==== Sys2Proof/Machine/ImageRec.lean ====
section
/-! DEFINITION. The record checks of a structure image (R111 to R129, codes 0x10 to 0x1F, 0x50 to 0x53, 0x20 and 0x21 of
R129). Each check looks at the records of its section beside `c`, the device as it would stand with the image in force,
and answers the index of the first failing record. Bits that a record format leaves at zero are not looked at (log entry
57). -/

namespace Sys2Proof.Machine

/-- The index of the first record that `p` fails, given the records before it (newest first). -/
def firstBad (p : List Nat → Nat → Bool) : List Nat → List Nat → Nat → Option Nat
  | _, [], _ => none
  | prev, r :: rest, i => if p prev r then some i else firstBad p (r :: prev) rest (i + 1)

/-- The first failing record of a section. -/
def chk (p : List Nat → Nat → Bool) (recs : List Nat) : Option Nat := firstBad p [] recs 0

/-- The first answer of a list of checks. -/
def orElse' (a b : Option Nat) : Option Nat := match a with | some i => some i | none => b

/-! ## SECURITY (R378) -/

/-- Fields of the header, of persistent record `i` and of tree record `i`. -/
def seNTree (b : Bytes) : Nat := leAt b 2 2
def seNPers (b : Bytes) : Nat := leAt b 4 2
def seMask (b : Bytes) : Nat := leAt b 6 1
def seBase (b : Bytes) : Nat := leAt b 8 2
def seLim (b : Bytes) : Nat := leAt b 10 2
def sePers (b : Bytes) (i : Nat) : Bytes := slice b (32 + 16 * i) 16
def seTree (b : Bytes) (i : Nat) : Bytes := slice b (32 + 16 * seNPers b + 32 * i) 32

/-- R378: a slot that no record may name: KS0, KS1, one of the dynamic range, one beyond KS4095, one named before. -/
def seSlotBad (b : Bytes) (used : List Nat) (s : Nat) : Bool :=
  decide (s < 2) || decide (4095 < s) || (decide (seBase b ≤ s) && decide (s ≤ seLim b)) || used.contains s

/-- What the vault knows of a parent while it checks the tree: usage, domain, level; `none` for a persistent slot with no
stored record. -/
abbrev SeNode := Option (Nat × Nat × Nat)

/-- R371, R378: one tree record against the slots named so far. Answers the slots with it, or nothing where it fails. -/
def seTreeStep (b : Bytes) (known : NMap SeNode) (t : Bytes) : Option (NMap SeNode) :=
  let s := leAt t 0 2
  let kt := leAt t 4 1
  let use := leAt t 5 1
  let dom := leAt t 6 1
  if seSlotBad b (known.map (fun e => e.1)) s || 3 < kt || 63 < use || 15 < dom || useBad kt use then none
  else match mapGet? known (leAt t 2 2) with
    | none => none
    | some none => some (mapPut known s none)
    | some (some (pu, pd, pl)) =>
      if !bit pu 4 || 4 ≤ pl || (pd ≠ dom && leAt t 2 2 ≠ 0) then none else some (mapPut known s (some (use, dom, pl + 1)))

/-- R378: the records in their order; the index of the first that fails. -/
def seTrees (b : Bytes) : Nat → NMap SeNode → Nat → Option Nat
  | 0, _, _ => none
  | n + 1, known, i =>
    match seTreeStep b known (seTree b i) with
    | none => some (seNPers b + i)
    | some k => seTrees b n k (i + 1)

/-- R378: the persistent records; `stored` gives the record of an ID in the store. -/
def sePersAll (b : Bytes) (stored : Nat → Option KeyRec) : Nat → NMap SeNode → Nat → Option Nat ⊕ NMap SeNode
  | 0, known, _ => .inr known
  | n + 1, known, i =>
    let p := sePers b i
    let s := leAt p 2 2
    let k := stored (leAt p 0 1)
    let bad := match k with | some k => k.bind % 2 != leAt p 4 1 % 2 | none => false
    if seSlotBad b (known.map (fun e => e.1)) s || bad then .inl (some i)
    else sePersAll b stored n (mapPut known s (k.map (fun k => (k.use, k.dom, 0)))) (i + 1)

/-- R378: the SECURITY section. A header that does not fit its section fails as record 0. -/
def chkSecurity (b : Bytes) (stored : Nat → Option KeyRec) : Option Nat :=
  if b.length < 32 || leAt b 0 1 ≠ 1 || 256 < seNPers b || b.length < 32 + 16 * seNPers b + 32 * seNTree b then some 0
  else match sePersAll b stored (seNPers b) [(0, some (16, 0, 0)), (1, some (48, 0, 0))] 0 with
    | .inl i => i
    | .inr known => seTrees b (seNTree b) known 0

/-! ## PIN (R61, R111 to R113) -/

/-- R61: the GPIO number of a ball, by row index and column index. -/
def gpioBall (row col : Nat) : Option Nat :=
  if 3 ≤ row ∧ row ≤ 8 ∧ col < 4 then some (4 * (row - 3) + col) else none

/-- R61, R64: a signal ball outside the boot path that is no GPIO. -/
def signalBall (row col : Nat) : Bool :=
  decide (col < 28) && (decide (row < 2) || (row == 2 && decide (24 ≤ col)) ||
    (decide (col < 4) && (decide (9 ≤ row && row ≤ 12) || decide (17 ≤ row && row ≤ 23))) ||
    (row == 15 && decide (col < 3)) || (row == 16 && (col == 1 || col == 2)) || (row == 24 && decide (col < 2)) ||
    (decide (24 ≤ col) && (decide (3 ≤ row && row ≤ 6) || decide (9 ≤ row && row ≤ 12))) ||
    ((row == 7 || row == 13) && (col == 24 || col == 25)) ||
    ((row == 19 || row == 25) && (col == 24 || col == 25 || col == 26)))

/-- Fields of a kind-0 record. -/
def pnKind (r : Nat) : Nat := bits r 62 2
def pnCol (r : Nat) : Nat := bits r 0 5
def pnRow (r : Nat) : Nat := bits r 5 5
def pnFunc (r : Nat) : Nat := bits r 10 6
def pnGpio (r : Nat) : Option Nat := gpioBall (pnRow r) (pnCol r)

/-- R112: the FUNC values of a ball. -/
def funcOk (r : Nat) : Bool :=
  match pnGpio r with
  | some g => if g < 2 then pnFunc r == 1 else pnFunc r == 0 || (decide (2 ≤ pnFunc r) && decide (pnFunc r ≤ 7))
  | none => signalBall (pnRow r) (pnCol r) && decide (pnFunc r ≤ 1)

/-- R111: eight fields of three bits that name every bit once. -/
def isPerm8 (m : Nat) : Bool := (List.range 8).all (fun b => (List.range 8).any (fun k => bits m (3 * k) 3 == b))

/-- R113. -/
def pinBad (prev : List Nat) (r : Nat) : Bool :=
  if pnKind r = 0 then
    bits r 18 2 == 3 || !funcOk r || prev.any (fun p => pnKind p == 0 && bits p 0 10 == bits r 0 10) ||
      ((pnFunc r == 4 || pnFunc r == 5) && prev.any (fun p => pnKind p == 0 && pnFunc p == pnFunc r))
  else if pnKind r = 2 then
    !isPerm8 (bits r 5 24) || prev.any (fun p => pnKind p == 2 && bits p 0 1 == bits r 0 1 &&
      (bits p 1 2 == bits r 1 2 || bits p 3 2 == bits r 3 2))
  else pnKind r == 3

/-! ## GROVE (R115) -/

/-- The grove holds a ROUTE record keyed on an ACF CAN ingress of its ports. -/
def acfKeyed (c : Dev) (g : Nat) : Bool :=
  (keyParts c).any (fun r => rkKind r == 3 &&
    (if rkIngress r = 0xFF then rkGrove r == g else decide (0x40 ≤ rkIngress r) && (rkIngress r - 0x40) / 2 == g))

/-- Engines of a PARSE type in a GROVE record. -/
def gvEngines (r ty : Nat) : Nat := ((List.range 8).filter (fun e => gvParse r e == ty)).length

/-- R115: the cases that one record shows. -/
def groveBad (c : Dev) (r : Nat) : Bool :=
  (gvCanEn r != 0 && gvEngines r 1 == 0) || (gvXlEn r != 0 && gvEngines r 2 == 0) ||
    (gvEthEn r != 0 && gvEngines r 3 == 0) || (acfKeyed c (bits r 0 2) && gvEngines r 5 == 0) ||
    (List.range 8).any (fun e => bit (gvShaperEn r) e && (List.range e).any (fun f =>
      bit (gvShaperEn r) f && gvShaper r f == gvShaper r e)) ||
    (List.range 6).any (fun ch => gvFiltCount r ch != 0 && decide (8192 < gvFiltFirst r ch + gvFiltCount r ch)) ||
    (List.range 2).any (fun p => gvCutThru r p && decide (1 < gvLaneMode r p))

/-- R115: duplicates first, then a missing grove, then the other cases. -/
def chkGrove (c : Dev) (recs : List Nat) : Option Nat :=
  match chk (fun prev r => prev.any (fun p => bits p 0 2 == bits r 0 2)) recs with
  | some i => some i
  | none => if recs.length ≠ 4 then some recs.length else chk (fun _ r => groveBad c r) recs

/-! ## SLOT (R116, R117, R142 to R146, R542) -/

/-- The 256 owner codes of a SLOT record. -/
def slOwners (r : Nat) : List Nat := (List.range 256).map (fun s => bits r (32 + 8 * s) 8)
def slRes (r : Nat) : Nat := bits r 0 8

/-- R116: an owner code of a resource. -/
def ownerOk (res code : Nat) : Bool :=
  code == 0xFE ||
    (if res < 2 then decide (code < 10) else if res = 2 then decide (0x10 ≤ code) && decide (code ≤ 0x17)
     else if res = 3 then decide (0x20 ≤ code) && decide (code ≤ 0x28)
     else if res = 4 then decide (0x30 ≤ code) && decide (code ≤ 0x3F) else decide (0x40 ≤ code) && decide (code ≤ 0x44))

/-- R143: a kerf slot. -/
def isKerf (s : Nat) : Bool := s % 32 == 31

/-- R542: endpoint `e` is used. -/
def hostUsed (c : Dev) (e : Nat) : Bool :=
  (liveEntries c).any (fun x => rtValid x.2 && decide (fld c (0x580020 + 8 * e) 0 17 ≤ x.1) &&
    decide (x.1 ≤ fld c (0x580024 + 8 * e) 0 17)) || (overlay c 13 c.img.fdb).any (fun r => fbHost r.2)

/-- R542: sequencer `s` serves a page. -/
def seqServes (c : Dev) (s : Nat) : Bool :=
  (List.range 128).any (fun p => pageEp c p != 0 && fld c (0x780100 + 4 * p) 0 4 == s) ||
    (List.range 32).any (fun i => fld c (0x780300 + 4 * i) 0 4 == s)

/-- R146: the port directions that sequencer `s` serves for MACsec. -/
def seqMacsec (c : Dev) (s : Nat) : Nat :=
  (List.range 8).foldl (fun a n =>
    if flag c (0x780400 + 4 * n) 0 then
      a + (if fld c (0x780400 + 4 * n) 8 4 = s then 1 else 0) + (if fld c (0x780400 + 4 * n) 12 4 = s then 1 else 0)
    else a) 0

/-- R542: the Trace Recorder is enabled in the image. -/
def recUsed (c : Dev) : Bool :=
  flag c 0xA00000 0 || (liveEntries c).any (fun x => rtValid x.2 && rtRec x.2) || flag c 0x580000 0

/-- A grove with a port in the image. -/
def groveUsed (c : Dev) (g : Nat) : Bool := gvCanEn (groveRec c g) != 0 || gvEthEn (groveRec c g) != 0

/-- R146: the least number of slots of an owner. -/
def minShare (c : Dev) (res code : Nat) : Nat :=
  if res < 2 then (if code < 4 && !groveUsed c code then 0 else 16)
  else if res = 2 then
    (if code < 0x14 then (if groveUsed c (code - 0x10) then 12 else 0)
     else if code = 0x14 then (if (liveEntries c).any (fun x => rtMill x.2) then 16 else 0)
     else if code = 0x17 then 4 else if hostUsed c (code - 0x15) then 8 else 0)
  else if res = 3 then (if code = 0x28 then 8 else 24)
  else if res = 4 then
    (let s := code - 0x30
     if 0 < seqMacsec c s then 13 * seqMacsec c s else if seqServes c s then 2 else 0)
  else if code ≤ 0x41 then 24 else if code = 0x42 then (if recUsed c then 2 else 0) else if code = 0x43 then 8
  else if recUsed c then 8 else 0

/-- The owner codes of a resource. -/
def resOwners (res : Nat) : List Nat :=
  if res < 2 then List.range 10 else if res = 2 then (List.range 8).map (· + 0x10)
  else if res = 3 then (List.range 9).map (· + 0x20) else if res = 4 then (List.range 16).map (· + 0x30)
  else (List.range 5).map (· + 0x40)

/-- R117: one SLOT record. -/
def slotBad (c : Dev) (prev : List Nat) (r : Nat) : Bool :=
  let o := slOwners r
  decide (5 < slRes r) || prev.any (fun p => slRes p == slRes r) ||
    (o.zipIdx).any (fun x => if isKerf x.2 then x.1 != 0xFF else !ownerOk (slRes r) x.1) ||
    (resOwners (slRes r)).any (fun k => decide ((o.filter (· == k)).length < minShare c (slRes r) k))

/-- R117: six records. -/
def chkSlot (c : Dev) (recs : List Nat) : Option Nat :=
  orElse' (chk (slotBad c) recs) (if recs.length < 6 then some recs.length else none)

/-! ## REGINIT (R118, R445) -/

/-- The offset of a record names a register with an IMG field. -/
def riNames (off : Nat) : Bool := match rowOf off with | some row => row.img != 0 | none => false

/-- R246: the queues whose own limits the values break. -/
def lndQueueBad (c : Dev) (q : Nat) : Bool :=
  decide (qMax c q < qMin c q) || decide (ecnHi c q < ecnLo c q) || decide (qMax c q < ecnHi c q)

/-- R246: the configuration that an image puts in force keeps the limits of the partitions. -/
def lndBad (c : Dev) : Bool :=
  decide (poolSize c < poolRsv c) || allQueues.any (lndQueueBad c) ||
    decide (lndCells < allQueues.foldl (fun a q => a + qMin c q) (poolSize c))

/-- R246: an offset of a register that its limits bind. -/
def lndNames (off : Nat) : Bool := (0x500010 ≤ off && off < 0x500018) || (0x501000 ≤ off && off < 0x505000)

/-- The position of the last record that `p` picks. -/
def lastRec (p : Nat → Bool) (recs : List Nat) : Option Nat :=
  (recs.zipIdx).foldl (fun a x => if p (bits x.1 0 32) then some x.2 else a) none

/-- R118, R445: the later record of two that give a domain to both endpoints fails. Values that break R246, which no code of R129
names, are rejected with it, at the last record that sets one (DESIGN CHOICE, log entry 148). -/
def chkReginit (c : Dev) (recs : List Nat) : Option Nat :=
  let both := reg c 0x800010 &&& reg c 0x800014
  orElse' (chk (fun _ r => !riNames (bits r 0 32)) recs)
    (orElse' (if both &&& 0xFFFE ≠ 0 then lastRec (fun o => o == 0x800010 || o == 0x800014) recs else none)
      (if lndBad c then lastRec lndNames recs else none))

/-! ## ROUTE (R119, R120, R278, R283, R303) -/

/-- R278: a format that two FMT fields both match. -/
def fmtMeet (a b : Nat) : Bool :=
  (bit a 0 && bit b 0) || (bit a 1 && (bit b 1 || bit b 2)) || (bit a 2 && (bit b 1 || bit b 2))

/-- R278: two keys are able to match the same PDU under one probe. -/
def keysMeet (r k : Nat) : Bool :=
  rkKind r == rkKind k && decide (rkKind r < 4) && rkIngress r == rkIngress k &&
    (rkIngress r != 0xFF || rkGrove r == rkGrove k) && rkId r == rkId k &&
    (if rkKind r = 2 then rkVcid r == rkVcid k && rkSdt r == rkSdt k && rkAf r == rkAf k
     else fmtMeet (rkFmt r) (rkFmt k) && (rkKind r != 3 || rkStream r == rkStream k))

/-- R303: the grove of a key's INGRESS. -/
def keyGrove (r : Nat) : Nat :=
  if rkIngress r = 0xFF then rkGrove r else if rkIngress r < 24 then rkIngress r / 6 else (rkIngress r - 0x40) / 2

/-- R303: the ingress sources of a record's entry, numbered as SRC of R302. -/
def entrySources (c : Dev) (r : Nat) : List Nat :=
  if rkKind r < 4 then [keyGrove r]
  else ((reachers c (rkIndex r)).map (fun s => if s < 8 then s / 2 else s - 16)).eraseDups

/-- R303: two Mill entries of one source PDU that disagree. -/
def millMeet (c : Dev) (r k : Nat) : Bool :=
  let a := rkEntry r
  let b := rkEntry k
  rtMill b && rtValid b && rtSrcPdu a == rtSrcPdu b &&
    (rtTc a != rtTc b || rtAuth a != rtAuth b || rtAuthProf a != rtAuthProf b ||
      decide (1 < (entrySources c r ++ entrySources c k).eraseDups.length))

/-- One ROUTE record beside the records before it and those of the tables that the section leaves. -/
def routeBad (c : Dev) (base prev : List Nat) (r : Nat) : Bool :=
  let e := rkEntry r
  let ing := rkIngress r
  let others := (base ++ prev).filter (fun k => rkIndex k != rkIndex r)
  decide (4 < rkKind r) || decide (4 < rtAuth e) ||
    (decide (rkKind r < 4) && !(decide (ing < 24) || (decide (0x40 ≤ ing) && decide (ing < 0x48)) || ing == 0xFF)) ||
    (decide (rkKind r < 4) && rtVerdict e == 2) ||
    (!rtMcast e && decide (rtLport e < 4) && decide (rtTarget e < 6) && decide (3 < rtTc e)) ||
    others.any (keysMeet r) ||
    (rtMill e && rtValid e && (decide (1 < (entrySources c r).length) || others.any (millMeet c r)))

/-- The records of the key store that a section of ROUTE records leaves as they are. -/
def routeBase (c : Dev) (recs : List Nat) : List Nat :=
  (keyParts c).filter (fun k => !recs.any (fun r => rkIndex r == rkIndex k))

/-! ## CANFILT, TERNARY, POLICER, SCHED, NMLAYOUT, HOLD (R121 to R127, R177, R288) -/

/-- R123: the entry positions of a grove, in ascending order. -/
def filtPositions (r : Nat) : List Nat :=
  (List.range 8192).filter (fun e => (List.range 6).any (fun ch =>
    decide (gvFiltFirst r ch ≤ e) && decide (e < gvFiltFirst r ch + gvFiltCount r ch)))

/-- R177: an entry that the image may not hold. -/
def filtBad (r : Nat) : Bool := decide (5 < bits r 61 3) || (bits r 61 3 == 5 && decide (32 < bits r 32 6))

/-- R123: runs of a wrapper and its entries: `left` entries to come, groves that had a run. A second run of one grove fails, and
a run that the section's end cuts short fails one past the last record (DESIGN CHOICE, log entry 145). -/
def chkCanFilt (c : Dev) : List Nat → Nat → List Nat → Nat → Option Nat
  | [], left, _, i => if left = 0 then none else some i
  | r :: rest, 0, seen, i =>
    let g := bits r 0 2
    let n := bits r 2 14
    if seen.contains g || (filtPositions (groveRec c g)).length < n then some i
    else chkCanFilt c rest n (g :: seen) (i + 1)
  | r :: rest, k + 1, seen, i => if filtBad r then some i else chkCanFilt c rest k seen (i + 1)

/-- A route entry has a ROUTE record. -/
def routeThere (c : Dev) (ix : Nat) : Bool := (mapGet? (liveEntries c) ix).isSome

/-- R121. -/
def ternBad (c : Dev) (_ : List Nat) (r : Nat) : Bool :=
  decide (8191 < tnIndex r) || tnAction r == 3 || (tnAction r == 0 && !routeThere c (tnRoute r))

/-- R122, R288: a policer whose fields are out of range. -/
def polBad (mode exceed rate burst : Nat) : Bool :=
  mode == 3 || exceed == 3 || rate == 0 || (mode == 1 && burst == 0) || (mode == 0 && decide (burst < 64)) ||
    (mode == 2 && burst != 0)

/-- R124. -/
def scChan (r : Nat) : Nat := bits r 0 5
def scKind (r : Nat) : Nat := bits r 5 2

/-- R125: two entries of one channel fall on one cycle and column. -/
def schedClash (a b : Nat) : Bool :=
  scKind a != 3 && scKind b != 3 && scChan a == scChan b && bits a 13 5 == bits b 13 5 &&
    bits a 7 6 % 2 ^ (min (bits a 18 3) (bits b 18 3)) == bits b 7 6 % 2 ^ (min (bits a 18 3) (bits b 18 3))

/-- R125. Two headers of a channel fail, where it has no matrix entry too (DESIGN CHOICE, log entry 146). -/
def schedBad (all prev : List Nat) (r : Nat) : Bool :=
  decide (23 < scChan r) ||
    (if scKind r = 3 then prev.any (fun p => scKind p == 3 && scChan p == scChan r)
     else bits r 18 3 == 7 || !all.any (fun p => scKind p == 3 && scChan p == scChan r) || prev.any (schedClash r) ||
       decide (256 ≤ (prev.filter (fun p => scKind p != 3 && scChan p == scChan r)).length))

/-- R126: the byte fields present, as (position, length). -/
def nmFields (r : Nat) : List (Nat × Nat) :=
  [(bits r 16 8, 1), (bits r 24 8, 1), (bits r 56 8, bits r 64 8)].filter (fun f => f.1 != 0xFF && f.2 != 0)

/-- R126. A second record of one cluster and a UDPOS at or past PDULEN, which the rule does not name, fail too (DESIGN CHOICE,
log entry 144). -/
def nmlBad (prev : List Nat) (r : Nat) : Bool :=
  let len := bits r 8 8
  let ud := bits r 72 8
  let lim := if ud = 0xFF then len else ud
  let f := nmFields r
  decide (31 < bits r 0 8) || prev.any (fun p => bits p 0 5 == bits r 0 5) || len == 0 || decide (64 < len) ||
    decide (8 < bits r 64 8) || (ud != 0xFF && decide (len ≤ ud)) || f.any (fun x => decide (lim < x.1 + x.2)) ||
    (f.zipIdx).any (fun x => (f.take x.2).any (fun y => decide (x.1.1 < y.1 + y.2) && decide (y.1 < x.1.1 + x.1.2))) ||
    [bits r 32 8, bits r 40 8, bits r 48 8].any (fun b => decide (7 < b) && b != 0xFF)

/-! ## FDB, STREAM, MCAST, GCL, AUTHPROF, SERVICE, SIGIDX (R128, R230, R232, R270, R271, R285, R302, R349) -/

/-- R285: a route entry that does not exist, in any record; a MAC and VID that another valid record holds. -/
def fdbBad (c : Dev) (prev : List Nat) (r : Nat) : Bool :=
  !routeThere c (fbRoute r) ||
    (fbValid r && prev.any (fun p => fbValid p && fbIndex p != fbIndex r && bits p 0 60 == bits r 0 60))

/-- R232. -/
def streamBad (prev : List Nat) (r : Nat) : Bool :=
  stKind r == 3 || (stKind r != 0 && decide (1023 < bits r 0 12)) ||
    (stKind r == 2 && (decide (bits (stParam r) 0 6 < 2) || decide (32 < bits (stParam r) 0 6) || bits (stParam r) 6 16 == 0)) ||
    prev.any (fun p => stKind p == stKind r && stRoute p == stRoute r && stKey p != stKey r)

/-- R120, R244: a port, channel or queue that the image defines. -/
def targetThere (c : Dev) (lport target : Nat) : Bool :=
  if lport < 4 then
    (if target < 6 then canInImage c (6 * lport + target) else decide (target < 8) && ethInImage c (2 * lport + (target - 6)))
  else if lport < 6 then decide (target < 64) else if lport = 7 then decide (target < 4)
  else if lport = 8 then decide (target < 16) else decide (lport < 10)

/-- R270, R271. -/
def mcastBad (c : Dev) (prev : List Nat) (r : Nat) : Bool :=
  let same := prev.filter (fun p => mcGroup p == mcGroup r)
  let q := fun m => qOf (mcLport m) (mcTarget m) (mcTc m)
  !targetThere c (mcLport r) (mcTarget r) || (decide (mcLport r < 4) && decide (mcTarget r < 6) && decide (3 < mcTc r)) ||
    decide (64 ≤ same.length) || decide (16384 ≤ prev.length) || same.any (fun p => q p == q r)

/-- Fields of GCL records. -/
def gcKind (r : Nat) : Nat := bits r 62 2
def gcPort (r : Nat) : Nat := bits r 59 3

/-- R230: the records of a port that a record is checked beside. -/
def gclBad (all prev : List Nat) (r : Nat) : Bool :=
  let hdr := all.find? (fun p => gcKind p == 1 && gcPort p == gcPort r)
  gcKind r == 3 || (gcKind r != 0 && prev.any (fun p => gcKind p == gcKind r && gcPort p == gcPort r)) ||
    (match hdr with
     | none => true
     | some h =>
       let alen := bits h 0 9
       if gcKind r = 1 then
         alen == 0 || decide (256 < alen) || bits r 9 32 == 0 ||
           !all.any (fun p => gcKind p == 2 && gcPort p == gcPort r) ||
           (List.range alen).any (fun i => !all.any (fun p => gcKind p == 0 && gcPort p == gcPort r && bits p 0 8 == i))
       else if gcKind r = 0 then
         bits r 16 32 == 0 || decide (alen ≤ bits r 0 8) ||
           prev.any (fun p => gcKind p == 0 && gcPort p == gcPort r && bits p 0 8 == bits r 0 8)
       else false)

/-- R349: a route whose AUTH does not suit a profile. -/
def authClash (c : Dev) (r : Nat) : Bool :=
  (liveEntries c).any (fun x => rtValid x.2 && rtAuthProf x.2 == bits r 0 12 &&
    (((rtAuth x.2 == 1 || rtAuth x.2 == 2) && apDir r == 1) || (rtAuth x.2 == 3 && apDir r == 0) ||
      (rtAuth x.2 == 4 && (match tableRec c 0x11 c.img.auth (apPair r) with | some p => apDir p != 1 | none => true))))

/-- R349. -/
def authBad (c : Dev) (_ : List Nat) (r : Nat) : Bool :=
  decide (1 < apDir r) || apHdr r == 3 || decide (64 < apFvLen r) || decide (apMacLen r < 24) || decide (128 < apMacLen r) ||
    decide (2048 < apPlen r) || (apDir r == 0 && apWindow r == 0) || authClash c r

/-- R128. -/
def svcBad (prev : List Nat) (r : Nat) : Bool :=
  decide (8 < bits r 0 8) || decide (3 < bits r 8 8) || prev.any (fun p => bits p 0 8 == bits r 0 8)

/-- R302, R303, R315. -/
def sigIdxBad (c : Dev) (_ : List Nat) (r : Nat) : Bool :=
  srcSrc r == 7 || (srcToEn r && (srcTout r == 0 || decide (fld c 0x600014 0 17 ≤ bits r 0 16))) ||
    (keyParts c).any (fun k => rtMill (rkEntry k) && rtValid (rkEntry k) && rtSrcPdu (rkEntry k) == bits r 0 16 &&
      (entrySources c k).any (fun s => s != srcSrc r))

/-! ## Codes 0x20 and 0x21 -/

/-- R129 code 0x20: a queue with QMIN below C_q. -/
def limitBad (c : Dev) : Bool := (limitMap c).any (fun e => decide (qMin c e.1 < cells e.2))

/-- R129 code 0x21: an entry that names what the image does not define, in a field that it can act on. -/
def namesBad (c : Dev) (r : Nat) : Bool :=
  let e := rkEntry r
  let acts := rtVerdict e == 0 || rtVerdict e == 2
  rtValid e &&
    ((acts && ((if rtMcast e then (mapGet [] c.img.mcast (rtGroup e)).isEmpty else !targetThere c (rtLport e) (rtTarget e)) ||
       (rtAuth e != 0 && (tableRec c 0x11 c.img.auth (rtAuthProf e)).isNone) ||
       (rtMill e && (tableRec c 0x20 c.img.sigIdx (rtSrcPdu e)).isNone))) ||
     (rtPolEn e && rtVerdict e != 1 && (polRec c (rtPolicer e)).isNone))

end Sys2Proof.Machine
end

