-- ==== Sys2Proof/Machine/Image.lean ====
section
/-! DEFINITION. The structure image as a file (R106 to R110), its checks in the order of R129, what it puts in force
(R118, R130) and the checks of a delta (R137, R138). -/

namespace Sys2Proof.Machine

/-! ## Container (R106 to R108) -/

/-- R108: a directory entry. -/
structure DirEnt where
  type  : Nat
  fast  : Bool
  mand  : Bool
  off   : Nat
  len   : Nat
  count : Nat
  dig   : Bytes
  deriving DecidableEq, Repr

/-- R107, R108: an image as read: header, signed region, signature, directory, and the bytes of its sections by TYPE. The
bytes of SIGBLOCK and PDUIMG are not read here (R131), but for a delta's. -/
structure ImgFile where
  hdr    : Bytes
  signed : Bytes
  sig    : Bytes
  dirs   : List DirEnt
  secs   : NMap Bytes
  deriving DecidableEq, Repr

def dirEnt (b : Bytes) : DirEnt :=
  { type := leAt b 0 2, fast := bit (leAt b 2 2) 0, mand := bit (leAt b 2 2) 1, off := leAt b 4 4, len := leAt b 8 4,
    count := leAt b 12 4, dig := slice b 16 48 }

/-- Header fields. -/
def ihImgLen (h : Bytes) : Nat := leAt h 8 4
def ihFlags (h : Bytes) : Nat := leAt h 12 4
def ihSecver (h : Bytes) : Nat := leAt h 16 2
def ihSections (h : Bytes) : Nat := leAt h 36 2
def ihKeyIdx (h : Bytes) : Nat := leAt h 38 1
def ihFastLen (h : Bytes) : Nat := leAt h 44 4
def ihStart (h : Bytes) : Nat := leAt h 21 1
def ihStartGroves (h : Bytes) : Nat := leAt h 22 1
def ihWakeMode (h : Bytes) : Nat := leAt h 23 1
def ihWakeGroves (h : Bytes) : Nat := leAt h 24 8

/-- R109: the section types. -/
def typeKnown (t : Nat) : Bool := (decide (1 ≤ t) && decide (t ≤ 0x12)) || (decide (0x20 ≤ t) && decide (t ≤ 0x23))
def typeDelta (t : Nat) : Bool := [6, 8, 9, 13, 14, 0x11, 0x20, 0x23].contains t
def typeSlow (t : Nat) : Bool := t == 0x22 || t == 0x23

/-- R109: the record size of a section type; 0 where it varies. -/
def secRecSize (t : Nat) : Nat :=
  match t with
  | 2 => 8 | 3 => 64 | 4 => 260 | 5 => 8 | 6 => 32 | 7 => 8 | 8 => 96 | 9 => 16 | 10 => 8 | 11 => 16 | 12 => 4 | 13 => 16
  | 14 => 32 | 15 => 16 | 16 => 8 | 0x11 => 32 | 0x12 => 4 | 0x20 => 16 | 0x21 => 48 | 0x23 => 32 | _ => 0

/-- An image of `len` bytes read through `rd` (offset, length). -/
def imgRead (rd : Nat → Nat → Bytes) (len : Nat) (delta : Bool) : ImgFile :=
  let h := rd 0 256
  let n := ihSections h
  let dirs := (List.range n).map (fun i => dirEnt (rd (256 + 64 * i) 64))
  { hdr := h, signed := rd 0 (256 + 64 * n), sig := rd (len - 128) 96, dirs := dirs,
    secs := dirs.foldl (fun m e =>
      if typeKnown e.type && (delta || !typeSlow e.type) && (mapGet? m e.type).isNone then mapPut m e.type (rd e.off e.len)
      else m) [] }

/-- The directory entry of a type. -/
def entOf (f : ImgFile) (t : Nat) : Option DirEnt := f.dirs.find? (fun e => e.type == t)

/-- The bytes of a section. -/
def secBytes (f : ImgFile) (t : Nat) : Bytes := mapGet [] f.secs t

/-- The records of a section as little-endian numbers: COUNT of them, as far as its bytes reach. -/
def secRecs (f : ImgFile) (t : Nat) : List Nat :=
  let n := match entOf f t with | some e => e.count | none => 0
  let b := secBytes f t
  let z := secRecSize t
  if z = 0 then [] else (List.range (min n (b.length / z))).map (fun i => leAt b (z * i) z)

/-! ## What an image holds (R118 to R128) -/

/-- Records into a table by an index field. -/
def byIndex (ix : Nat → Nat) (recs : List Nat) : NMap Nat := recs.foldl (fun m r => mapPut m (ix r) r) []

/-- R123: the filter entries of a section, by 8192 * grove + entry. -/
def filtMap (grove : NMap Nat) : List Nat → List Nat → NMap Nat → NMap Nat
  | [], _, m => m
  | r :: rest, [], m =>
    let g := bits r 0 2
    filtMap grove rest (((filtPositions (mapGet 0 grove g)).take (bits r 2 14)).map (fun e => 8192 * g + e)) m
  | r :: rest, k :: ks, m => filtMap grove rest ks (mapPut m k r)

/-- The image part of the state with a file in force: header fields and tables. -/
def imgOf (f : ImgFile) (dig : Bytes) : Img :=
  let h := f.hdr
  let grove := byIndex (fun r => bits r 0 2) (secRecs f 3)
  let routes := secRecs f 6
  let b := secBytes f 0x21
  let slow := fun t => match entOf f t with | some e => (e.off, e.len, e.dig) | none => (0, 0, [])
  { fast := true, flags := ihFlags h, secver := ihSecver h, start := ihStart h, startGroves := ihStartGroves h % 16,
    wakeMode := ihWakeMode h, wakeGroves := ihWakeGroves h, imageId := leAt h 32 4, digest := dig, keyIdx := ihKeyIdx h,
    compat := bit (ihFlags h) 0, security := secBytes f 1, pins := secRecs f 2, grove := grove,
    reginit := (secRecs f 5).map (fun r => (bits r 0 32, bits r 32 32)), routeKeys := routes,
    route := routes.foldl (fun m r => mapPut m (rkIndex r) (rkEntry r)) [],
    canFilt := filtMap grove (secRecs f 7) [] [], tern := byIndex tnIndex (secRecs f 8), pol := byIndex plIndex (secRecs f 9),
    sched := secRecs f 10, nml := byIndex (fun r => bits r 0 5) (secRecs f 11),
    hold := (secRecs f 12).foldl (fun m r => mapPut m (bits r 0 17) (bit r 17)) [],
    fdb := byIndex fbIndex (secRecs f 13), stream := byIndex stKey (secRecs f 14),
    mcast := (secRecs f 15).foldl (fun m r => mapMod [] m (mcGroup r) (fun l => l ++ [r])) [],
    gcl := secRecs f 16, auth := byIndex (fun r => bits r 0 12) (secRecs f 0x11),
    svc := (secRecs f 0x12).foldl (fun m r => mapPut m (bits r 0 8) (bits r 8 8)) [],
    sigIdx := byIndex (fun r => bits r 0 16) (secRecs f 0x20),
    blockDig := (List.range (b.length / 48)).map (fun i => slice b (48 * i) 48),
    sigLen := (slow 0x23).2.1, sigOff := (slow 0x23).1, pduLen := (slow 0x22).2.1, pduOff := (slow 0x22).1,
    pduDig := (slow 0x22).2.2 }

/-- R118: one REGINIT record: the fields marked IMG take its value; a field that is also marked AON only at the first load
after PORST_N (R13). -/
def regInit (d : Dev) (x : Nat × Nat) : Dev :=
  match rowOf x.1 with
  | none => d
  | some row =>
    let m := if d.clk.aonImg then row.img &&& (full ^^^ row.aon) else row.img
    if m = 0 then d else putReg d x.1 (mergeMask (reg d x.1) x.2 m)

/-- R118: a REGINIT record names the register. -/
def regNamed (im : Img) (off : Nat) : Bool := im.reginit.any (fun x => x.1 == off)

/-- R19, R118, R208: without a record for CAN_CTL ORDER is 1 in compatibility mode. -/
def orderDefault (d : Dev) (ch : Nat) : Dev :=
  if compat d && !regNamed d.img (canBase ch) then putFld d (canBase ch) 9 1 1 else d

/-- R118, R446: without a record for its HIF_PAGE a user page belongs to PCIE0 below 64 and to PCIE1 from there, with the lowest
domain of that endpoint's mask. -/
def pageDefault (d : Dev) (p : Nat) : Dev :=
  let off := 0x800400 + 4 * p
  let e := p / 64
  let dom := ((bitList 16 (fld d (0x800010 + 4 * e) 0 16)).head?).getD 0
  if regNamed d.img off then d else putReg d off (setBits (setBits (reg d off) 0 2 (e + 1)) 4 4 dom)

/-- R118: the defaults that a field's description names, where the image has no record; the masks that they look at have their
records already. -/
def imgDefaults (d : Dev) : Dev := (List.range 128).foldl pageDefault ((List.range 24).foldl orderDefault d)

/-- R116, R142: the owner tables of the SLOT section. -/
def ownersOf (recs : List Nat) : NMap (List Nat) := recs.foldl (fun m r => mapPut m (slRes r) (slOwners r)) []

/-- R130: tables, register fields, owner tables and the vault's header fields of an image in force. -/
def imgApply (d : Dev) (f : ImgFile) (dig : Bytes) : Dev :=
  let im := { imgOf f dig with rejCode := d.img.rejCode, rejRec := d.img.rejRec }
  let s := im.security
  let d := imgDefaults (im.reginit.foldl regInit { d with img := im })
  { d with whl := { d.whl with owners := ownersOf (secRecs f 4) },
           kvt := { d.kvt with alarmMask := seMask s, dynBase := seBase s, dynLim := seLim s },
           clk := { d.clk with aonImg := true } }

/-! ## Keys and signatures (R500) -/

/-- R500: key index `i` of a slot header's KEYS is fused and not revoked. -/
def keyFused (d : Dev) (hdr : Bytes) (i : Nat) : Bool :=
  decide (i < 4) && sha384 (slice hdr (0xB0 + 97 * i) 97) == nth [] d.fuses.keyDig i && !bit d.fuses.revoke i

/-- R107, R500: the image's signature verifies under its KEYIDX with the keys of the slot header. -/
def imgSigOk (d : Dev) (slotHdr : Bytes) (f : ImgFile) : Bool :=
  let i := ihKeyIdx f.hdr
  keyFused d slotHdr i && ecdsaVerify (slice slotHdr (0xB0 + 97 * i) 97) (sha384 f.signed) f.sig

/-! ## The checks (R129) -/

/-- A rejection: its code and REJREC. -/
abbrev Rej := Option (Nat × Nat)

/-- The first of a list of checks, each with the code that it fails under, that fails. -/
def firstRej : List (Nat × Option Nat) → Rej
  | [] => none
  | (c, some r) :: _ => some (c, r)
  | (_, none) :: rest => firstRej rest

/-- A check without a record index. -/
def need (ok : Bool) : Option Nat := if ok then none else some 0

/-- Codes 0x01 to 0x05. -/
def rejHead (d : Dev) (slotHdr : Bytes) (f : ImgFile) (len : Nat) : List (Nat × Option Nat) :=
  let h := f.hdr
  [(0x01, need (h.take 4 == [0x55, 0x4D, 0x49, 0x47] && leAt h 4 2 == 1 && leAt h 6 2 == 0x100)),
   (0x02, need (leAt h 18 2 == 0x7440 && decide (leAt h 20 1 ≤ Config.siliconRev))),
   (0x03, need (ihImgLen h == len && leAt h 40 4 == 0x100 && decide (1 ≤ ihSections h) && decide (ihSections h ≤ 512) &&
     decide (256 + 64 * ihSections h + 128 ≤ len) && decide (ihFastLen h ≤ len))),
   (0x04, need (imgSigOk d slotHdr f)),
   (0x05, need (decide (d.fuses.imgcnt ≤ ihSecver h)))]

/-- R108: directory entries in order: offsets rise without overlap from `at'`, fast sections first in ascending TYPE. A TYPE
that stands twice is left to code 0x08. -/
def dirsOk (lim : Nat) : Nat → Option Nat → Bool → List DirEnt → Bool
  | _, _, _, [] => true
  | at', prev, slow, e :: rest =>
    e.off % 64 == 0 && decide (at' ≤ e.off) && decide (e.off + e.len ≤ lim) && !(slow && e.fast) &&
      (!e.fast || (match prev with | some t => decide (t ≤ e.type) | none => true)) &&
      (!typeKnown e.type || e.fast != typeSlow e.type) &&
      dirsOk lim (e.off + e.len) (if e.fast then some e.type else prev) (slow || !e.fast) rest

/-- R110. -/
def sizesOk (f : ImgFile) : Bool :=
  decide (ihFastLen f.hdr ≤ 6 * 1048576) &&
    (match entOf f 0x22 with | some e => decide (e.len ≤ 4 * 1048576) | none => true) &&
    (match entOf f 0x23 with | some e => decide (e.len ≤ 32 * 1048576) | none => true)

/-- R109: the required sections of a full image. -/
def requiredOk (f : ImgFile) : Bool :=
  [1, 2, 3, 4, 5, 6, 0x12].all (fun t => (entOf f t).isSome) &&
    ((entOf f 0x23).isNone || ((entOf f 0x21).isSome && (entOf f 0x22).isSome))

/-- No TYPE stands twice. -/
def typesOnce : List DirEnt → Bool
  | [] => true
  | e :: r => !r.any (fun x => x.type == e.type) && typesOnce r

/-- Codes 0x06 to 0x0A. -/
def rejDir (f : ImgFile) (len : Nat) (delta : Bool) : List (Nat × Option Nat) :=
  let h := f.hdr
  [(0x06, need (dirsOk (len - 128) (256 + 64 * ihSections h) none false f.dirs && sizesOk f)),
   (0x07, need (f.dirs.all (fun e => typeKnown e.type || !e.mand))),
   (0x08, need (typesOnce f.dirs && (delta || requiredOk f))),
   (0x09, need (f.dirs.all (fun e => !typeKnown e.type || (!delta && !e.fast) || e.type == 0x23 ||
     sha384 (secBytes f e.type) == e.dig))),
   (0x0A, need ((ihStart h == 2 || ihStart h == 3 || ihStart h == 4) && (ihWakeMode h == 2 || ihWakeMode h == 3) &&
     decide (ihStartGroves h < 16) && decide (ihWakeGroves h < 2 ^ 40) && (ihStart h != 2 || bit (ihFlags h) 3)))]

/-- COUNT of a section of fixed records against its LENGTH: where they differ, the first record that is not there whole
or not counted fails (DEDUCED, log entry 57). -/
def countBad (f : ImgFile) (t : Nat) : Option Nat :=
  match entOf f t with
  | none => none
  | some e =>
    let z := secRecSize t
    if z = 0 || e.count * z = e.len then none else some (min e.count (e.len / z))

/-- A section's record check after its count. -/
def secChk (f : ImgFile) (t : Nat) (p : List Nat → Option Nat) : Option Nat :=
  if (entOf f t).isNone then none else orElse' (p (secRecs f t)) (countBad f t)

/-- R131: one record for each signal block. -/
def blockListBad (f : ImgFile) : Option Nat :=
  let blocks := ceilDiv ((match entOf f 0x23 with | some e => e.len | none => 0)) 65536
  let n := match entOf f 0x21 with | some e => e.count | none => 0
  if n = blocks then countBad f 0x21 else some (min n blocks)

/-- The records of a table that a delta leaves as they are. -/
def leftOf (m : NMap Nat) (ix : Nat → Nat) (recs : List Nat) : List Nat :=
  (m.filter (fun e => !recs.any (fun r => ix r == e.1))).map (fun e => e.2)

/-- R129: codes 0x10 to 0x1F, 0x50 to 0x53, 0x20 and 0x21, over the device `c` with the image in force. `stored` gives the
records of the vault's store. -/
def rejRecs (c : Dev) (f : ImgFile) (delta : Bool) (stored : Nat → Option KeyRec) : List (Nat × Option Nat) :=
  [(0x10, if delta then none else chkSecurity (secBytes f 1) stored),
   (0x11, secChk f 2 (chk pinBad)),
   (0x12, secChk f 3 (chkGrove c)),
   (0x13, secChk f 4 (chkSlot c)),
   (0x14, secChk f 5 (chkReginit c)),
   (0x15, secChk f 6 (fun l => chk (routeBad c (if delta then routeBase c l else [])) l)),
   (0x16, secChk f 7 (fun l => chkCanFilt c l 0 [] 0)),
   (0x17, secChk f 8 (chk (ternBad c))),
   (0x18, secChk f 9 (chk (fun _ r => polBad (plMode r) (plExceed r) (plRate r) (plBurst r)))),
   (0x19, secChk f 10 (fun l => chk (schedBad l) l)),
   (0x1A, secChk f 11 (chk nmlBad)),
   (0x1B, secChk f 12 (chk (fun prev _ => decide (1024 ≤ prev.length)))),
   (0x1C, secChk f 13 (fun l => firstBad (fdbBad c) (if delta then leftOf c.img.fdb fbIndex l else []) l 0)),
   (0x1D, secChk f 14 (fun l => firstBad streamBad (if delta then leftOf c.img.stream stKey l else []) l 0)),
   (0x1E, secChk f 15 (chk (mcastBad c))),
   (0x1F, secChk f 16 (fun l => chk (gclBad l) l)),
   (0x50, secChk f 0x11 (chk (authBad c))),
   (0x51, secChk f 0x12 (chk svcBad)),
   (0x52, secChk f 0x20 (chk (sigIdxBad c))),
   (0x53, if delta then none else blockListBad f),
   (0x20, need (!limitBad c)),
   (0x21, secChk f 6 (chk (fun _ r => namesBad c r)))]

/-- The device as it would stand with a full image in force, from reset. -/
def imgCandidate (f : ImgFile) (dig : Bytes) : Dev := imgApply {} f dig

/-- R129: the checks of a full image of `len` bytes, with the keys of its slot header. -/
def imgRej (d : Dev) (slotHdr : Bytes) (f : ImgFile) (len : Nat) (stored : Nat → Option KeyRec) : Rej :=
  firstRej (rejHead d slotHdr f len ++ rejDir f len false ++ rejRecs (imgCandidate f (sha384 f.signed)) f false stored)

/-! ## Delta images (R137 to R139, R330) -/

/-- R330: the runs of a delta's SIGBLOCK: headers as records of type 0x123, entries as records of 0x23. -/
def sigRuns : Nat → Bytes → List Graft
  | 0, _ => []
  | n + 1, b =>
    if b.length < 32 then []
    else
      let h := leAt b 0 32
      let first := bits h 0 20
      let k := min (bits h 32 32) (b.length / 32 - 1)
      { type := 0x123, index := first, val := h } ::
        (List.range k).map (fun i => { type := 0x23, index := first + i, val := leAt b (32 + 32 * i) 32 }) ++
        sigRuns n (b.drop (32 + 32 * k))

/-- The index of a record of a section that a delta may carry. -/
def grIndex (t r : Nat) : Nat :=
  if t = 6 then rkIndex r else if t = 13 then fbIndex r else if t = 14 then stKey r
  else if t = 0x11 then bits r 0 12 else bits r 0 16

/-- The graft that a delta makes, in the order of its sections. -/
def deltaGraft (f : ImgFile) : List Graft :=
  (([6, 8, 9, 13, 14, 0x11, 0x20] : List Nat).map (fun t =>
    (secRecs f t).map (fun r => ({ type := t, index := grIndex t r, val := r } : Graft)))).flatten ++
    sigRuns (secBytes f 0x23).length (secBytes f 0x23)

/-- R138: codes 0x30 to 0x35. -/
def rejDelta (d : Dev) (f : ImgFile) : List (Nat × Option Nat) :=
  let h := f.hdr
  [(0x30, need (bit (ihFlags h) 1 && slice h 48 48 == d.img.digest)),
   (0x31, need (ihSecver h == d.img.secver && bit (ihFlags h) 0 == d.img.compat)),
   (0x32, need (f.dirs.all (fun e => !typeKnown e.type || typeDelta e.type))),
   (0x33, if 4096 < (deltaGraft f).length then some 4096 else none),
   (0x34, need (!d.com.graftOn && !d.com.delta && d.com.live.isEmpty)),
   (0x35, need (d.clk.mode != .m5 && d.clk.mode != .m6 && d.clk.mode != .m7))]

/-- R138: the checks of a delta: the later codes over the tables with its records laid over them. -/
def deltaRej (d : Dev) (slotHdr : Bytes) (f : ImgFile) (len : Nat) : Rej :=
  let c := { d with com := { d.com with live := deltaGraft f } }
  firstRej (rejHead d slotHdr f len ++ rejDelta d f ++ rejDir f len true ++ rejRecs c f true (fun _ => none))

/-- R139: one record folds into its main table. -/
def foldRec (d : Dev) (g : Graft) : Dev :=
  let im := d.img
  let im := match g.type with
    | 6 => { im with route := mapPut im.route g.index (rkEntry g.val),
                     routeKeys := im.routeKeys.filter (fun r => rkIndex r != g.index) ++ [g.val] }
    | 8 => { im with tern := mapPut im.tern g.index g.val }
    | 9 => { im with pol := mapPut im.pol g.index g.val }
    | 13 => { im with fdb := mapPut im.fdb g.index g.val }
    | 14 => { im with stream := mapPut im.stream g.index g.val }
    | 0x11 => { im with auth := mapPut im.auth g.index g.val }
    | 0x20 => { im with sigIdx := mapPut im.sigIdx g.index g.val }
    | _ => im
  { d with img := im }

end Sys2Proof.Machine
end

