-- ==== Sys2Proof/Machine/Commit.lean ====
section
/-! DEFINITION. Commits (R14, R32, R133 to R139, R141): COMMIT_REGS, COMMIT_DELTA, what the kerf slot stages, and what a
commit boundary puts in force with the check of each group (R167, R231, R268, R288, R315, R423). -/

namespace Sys2Proof.Machine

/-! ## The commit window (R135) -/

/-- R141: a write of GLB_COMMIT takes effect: the window opens. -/
def commitOpen (d : Dev) (w : Nat) : Dev :=
  let delta := bit w 1 && d.com.graftOn
  let err := d.com.deltaErr || (bit w 1 && !d.com.graftOn)
  { d with com := { d.com with window := true, due := false, winDelta := delta, deltaErr := err } }

/-- R135, R141: a write of GLB_COMMIT; inside the window it is stalled, and with both bits at 0 it has no effect. -/
def commitWrite (d : Dev) (who : Initiator) (w : Word) : Dev :=
  if w.toNat % 4 = 0 then d
  else if d.com.window then { d with com := { d.com with stalled := d.com.stalled ++ [(who, 0x20, w)] } }
  else commitOpen d (w.toNat % 4)

/-- R14, R135: a write of an RWS register; inside the window it is stalled. -/
def rwsWrite (d : Dev) (who : Initiator) (off : Nat) (w : Word) : Dev :=
  if d.com.window then { d with com := { d.com with stalled := d.com.stalled ++ [(who, off, w)] } }
  else match locate off with
    | none => d
    | some l => match rowAt l, groupOf l with
      | some row, some g => putShadow d off (mergeMask (shadowWord d off) w.toNat row.rws) g
      | _, _ => d

/-- COMMIT_REGS. -/
def execCommitRegs (who : Initiator) : State → Host.Outcome State Fault Refusal :=
  access who (.commitRegs who) (fun d => regWr d who 0x20 (fun d => commitWrite d who 1))

/-- COMMIT_DELTA. -/
def execCommitDelta (who : Initiator) (regs : Bool) : State → Host.Outcome State Fault Refusal :=
  access who (.commitDelta who regs) (fun d => regWr d who 0x20 (fun d => commitWrite d who (if regs then 3 else 2)))

/-! ## The kerf slot that applies the commit (R14, R135, R149) -/

/-- R135: the stalled writes land in their order, up to a second GLB_COMMIT write, which opens the next window. -/
def landStalled : List (Initiator × Nat × Word) → Dev → Dev
  | [], d => d
  | (who, off, w) :: rest, d =>
    if off = 0x20 then landStalled rest (commitWrite d who w) else landStalled rest (rwsWrite d who off w)

/-- R14, R32: the kerf slot takes the dirty groups into the staging copy, and the window closes. -/
def commitStage (d : Dev) : Dev :=
  let gs := d.com.dirty
  let vals := ((gs.map groupRegs).flatten).foldl (fun m off => mapPut m off (BitVec.ofNat 32 (shadowWord d off))) []
  let held := d.com.stalled
  landStalled held
    { d with com := { d.com with window := false, due := false, staged := true, groups := gs, values := vals, dirty := [],
                                 stalled := [], delta := d.com.winDelta, winDelta := false,
                                 graftOn := d.com.graftOn && !d.com.winDelta } }

/-! ## Checks of groups at their commit -/

/-- A staged value. -/
def stagedReg (d : Dev) (off : Nat) : Nat := match mapGet? d.com.values off with | some w => w.toNat | none => reg d off

/-- The members of a group take their staged values; a shadow equal to its value is no longer listed. -/
def applyGroup (d : Dev) (g : Nat) : Dev :=
  (groupRegs g).foldl (fun d off =>
    let v := stagedReg d off
    let d := putReg d off v
    if shadowWord d off = v then { d with shadow := mapDel d.shadow off } else d) d

/-- A refused group keeps its shadows and stays dirty. -/
def refuseGroup (d : Dev) (g : Nat) : Dev := markDirty d g

/-- R268, pass 1: the lowest REASON that a CG_LNDQ group breaks. -/
def lndqReason (d : Dev) (lim : NMap Nat) (q : Nat) : Nat :=
  let b := lndqBase q
  let v := fun k => stagedReg d (b + 4 * k) % 2 ^ 19
  let c := match mapGet? lim q with | some s => cells s | none => 0
  if v 1 < v 0 then 1 else if v 3 < v 2 || v 1 < v 3 then 2 else if v 0 < c then 3 else 0

/-- A refusal of the Landing: group kind 0 to 2, queue, reason. -/
def lndReject (d : Dev) (x : Nat × Nat × Nat) : Dev := raise d 0x0901 0 (e1 x.1 ++ e2 x.2.1 ++ e1 x.2.2)

/-- Insertion by queue, for the order of R268. -/
def insByQueue (x : Nat × Nat × Nat) : List (Nat × Nat × Nat) → List (Nat × Nat × Nat)
  | [] => [x]
  | y :: r => if x.2.1 < y.2.1 then x :: y :: r else y :: insByQueue x r

/-- R268: what the two passes refuse: groups as (group, kind, queue, reason). -/
def lndRefusals (d : Dev) : List (Nat × Nat × Nat × Nat) :=
  let gs := d.com.groups
  let lim := limitMap d
  let lq := gs.filter (fun g => g / 65536 == GroupKind.lndQ.code)
  let pool := gs.filter (fun g => g / 65536 == GroupKind.lndPool.code)
  let eth := gs.filter (fun g => g / 65536 == GroupKind.ethFrame.code)
  let r1 := (lq.filter (fun g => lndqReason d lim (g % 65536) != 0)).map (fun g =>
    (g, 0, g % 65536, lndqReason d lim (g % 65536)))
  let bad1 := r1.map (fun x => x.1)
  let qminAfter := fun q =>
    let g := groupId .lndQ q
    if gs.contains g && !bad1.contains g then stagedReg d (lndqBase q) % 2 ^ 19 else qMin d q
  let rp := (pool.filter (fun _ => decide (stagedReg d 0x500010 % 2 ^ 19 < stagedReg d 0x500014 % 2 ^ 19))).map (fun g =>
    (g, 1, 0x1FF, 5))
  let re := eth.filterMap (fun g =>
    let p := g % 65536
    let lim' := limitMap (putReg d (ethBase p + 8) (stagedReg d (ethBase p + 8)))
    (lim'.find? (fun e => decide (qminAfter e.1 < cells e.2))).map (fun e => (g, 2, e.1, 3)))
  let psize := if pool.isEmpty || !rp.isEmpty then poolSize d else stagedReg d 0x500010 % 2 ^ 19
  let total := allQueues.foldl (fun a q => a + qminAfter q) psize
  let ok1 := lq.filter (fun g => !bad1.contains g)
  let sum := if total ≤ lndCells then []
    else ok1.map (fun g => (g, 0, g % 65536, 4)) ++ (if rp.isEmpty then pool.map (fun g => (g, 1, 0x1FF, 4)) else [])
  r1 ++ rp ++ re ++ sum

/-- R268: the Landing's groups of a commit are applied or refused, with the events in their order; answers how many were
applied. -/
def commitLanding (d : Dev) : Dev × Nat :=
  let mine := d.com.groups.filter (fun g => [GroupKind.lndQ.code, GroupKind.lndPool.code, GroupKind.ethFrame.code].contains (g / 65536))
  let rej := lndRefusals d
  let good := mine.filter (fun g => !rej.any (fun x => x.1 == g))
  let d := good.foldl applyGroup d
  let d := rej.foldl (fun d x => refuseGroup d x.1) d
  let pools := (rej.filter (fun x => x.2.1 == 1)).map (fun x => x.2)
  let rest := (rej.filter (fun x => x.2.1 != 1)).foldl (fun l x => insByQueue x.2 l) []
  let evs := pools ++ rest
  let d := match evs with
    | [] => d
    | x :: _ => { d with lnd := { d.lnd with cfgErr := true, reason := x.2.2, errQ := x.2.1 } }
  (evs.foldl lndReject d, good.length)

/-- R139, R288: a policer is written: its record in force, and its state back to full tokens. -/
def setPol (d : Dev) (ix r : Nat) : Dev :=
  polReset { d with
    img := { d.img with pol := mapPut d.img.pol ix r }
    com := { d.com with live := d.com.live.map (fun g => if g.type == 9 && g.index == ix then { g with val := r } else g) } } ix r

/-- R288: CG_POLWIN. -/
def commitPol (d : Dev) (g : Nat) : Dev × Bool :=
  let v := fun k => stagedReg d (0x580030 + 4 * k)
  if polBad (v 3 % 4) (v 3 / 4 % 4) (v 1) (v 2) then
    (refuseGroup { d with rte := { d.rte with polErr := true } } g, false)
  else
    let ix := v 0 % 65536
    (setPol (applyGroup d g) ix (ix + v 3 % 16 * 2 ^ 16 + v 1 * 2 ^ 32 + v 2 * 2 ^ 64), true)

/-- R423: CG_NMTIMER. -/
def commitNm (d : Dev) (g : Nat) : Dev × Bool :=
  let c := g % 65536
  let v := fun k => stagedReg d (nmcBase c + 0x10 + 4 * k) % 65536
  if 10 ≤ v 0 ∧ v 0 < v 1 ∧ v 0 ≤ v 3 ∧ v 3 ≤ v 1 ∧ 10 ≤ v 2 ∧ v 2 ≤ 60000 then (applyGroup d g, true)
  else (raise (refuseGroup { d with nmc := { d.nmc with cfgErr := true } } g) 0x0F07 0 (e1 c), false)

/-- R315: CG_MILTO. -/
def commitMil (d : Dev) (g : Nat) : Dev × Bool :=
  let per := stagedReg d 0x600010 % 2 ^ 14
  let cnt := stagedReg d 0x600014 % 2 ^ 17
  if 100 ≤ per ∧ per ≤ 10000 ∧ cnt ≤ 400 * per then (applyGroup d g, true)
  else (raise (refuseGroup { d with mil := { d.mil with cfgErr := true } } g) 0x0B06 0 (e2 per ++ e4 cnt), false)

/-- One group outside the Landing, applied or refused; answers whether it was applied. -/
def commitGroup (d : Dev) (g : Nat) : Dev × Bool :=
  match g / 65536 with
  | 0 => (initUpdate (applyGroup (latchPast d (g % 65536)) g) (g % 65536), true)
  | 1 => (applyGroup (latchPast d (g % 65536)) g, true)
  | 3 => (cbsUpdate (applyGroup d g) (g % 65536 / 8), true)
  | 6 => commitPol d g
  | 7 => commitNm d g
  | 8 => commitMil d g
  | _ => (applyGroup d g, true)

/-! ## The commit boundary (R14, R139) -/

/-- R351: a generate profile halted at the end of its counter starts again from 0 with a new key handle. -/
def authRekey (d : Dev) (ix new : Nat) : Dev :=
  let f := freshOf d ix
  if apDir new = 1 && f.halt && !f.refused && apKey new != apKey (authRec d ix) then
    modFresh d ix (fun f => { f with val := 0, ckpt := 0, halt := false })
  else d

/-- R139: the staged delta's records come in force: signal entries at once, policers with full tokens, all others through
the graft until they fold in. -/
def deltaFlip (d : Dev) : Dev :=
  let g := d.com.graft
  let was := if g.any (fun x => x.type = 0x20) then readySources d else []
  let d := g.foldl (fun d x => if x.type = 0x11 then authRekey d x.index x.val else d) d
  let d := { d with com := { d.com with live := g, graft := [] },
                    img := { d.img with digest := d.com.newDig } }
  g.foldl (fun d x =>
    if x.type = 9 then polReset d x.index x.val
    else if x.type = 0x20 then graftSource d was x.index x.val
    else if x.type = 0x23 then graftEntry d x.index x.val else d) d

/-- R141: COMMIT_DONE. -/
def commitDone (d : Dev) (seq groups : Nat) (delta : Bool) : Dev :=
  raise d 0x0506 0 (e4 seq ++ eCount groups ++ eFlag delta)

/-- R54, R386: a commit is an input of the Landing's twin, a graft flip one of the Route Engine's: recorded in their input
journals until the next mark. -/
def commitJournal (d : Dev) (delta : Bool) : Dev :=
  let d := journalAdd { d with flt := { d.flt with commits := d.flt.commits + 1 } } 0 0
  if delta then journalAdd d 1 0 else d

/-- R14, R54: the commit boundary: every group of the commit in force or refused, the delta with them; COMMIT_DONE, or at the
end of fold-in for a delta. -/
def commitBoundary (d : Dev) : Dev :=
  let gs := d.com.groups.filter (fun g => !([GroupKind.lndQ.code, GroupKind.lndPool.code, GroupKind.ethFrame.code] : List Nat).contains (g / 65536))
  let l := commitLanding d
  let r := gs.foldl (fun (s : Dev × Nat) g => let x := commitGroup s.1 g; (x.1, if x.2 then s.2 + 1 else s.2)) l
  let delta := d.com.delta
  let seq := (d.com.seq + 1) % 2 ^ 32
  let d := { r.1 with com := { r.1.com with staged := false, delta := false, groups := [], values := [], seq := seq } }
  let d := commitJournal d delta
  if delta then
    let d := deltaFlip d
    let d := { d with com := { d.com with liveGrps := r.2, liveSeq := seq } }
    if d.com.live.isEmpty then commitDone d seq r.2 true else d
  else commitDone d seq r.2 false

/-- R139, R149: fold-in retires one graft record; with the last COMMIT_DONE is raised. -/
def foldStep (d : Dev) : Dev :=
  match d.com.live with
  | [] => d
  | g :: rest =>
    let d := foldRec { d with com := { d.com with live := rest } } g
    if rest.isEmpty then commitDone d d.com.liveSeq d.com.liveGrps true else d

end Sys2Proof.Machine
end

