-- ==== Sys2Proof/Machine/Boot.lean ====
section
/-! DEFINITION. Resets and boot (R63 to R70, R363 to R368, R375, R376, R378, R504 to R509, R522, R523): what a reset and
Dormant leave, the roots and the key tree, the choice and the checks of a slot, and the application of the image with the
pin section. -/

namespace Sys2Proof.Machine

/-! ## What a reset keeps (R13, R16, R49, R63, R65, R86) -/

/-- R381, R382: a lifecycle state blown before comes into force. -/
def fuseLc (d : Dev) : Fuses := { d.fuses with lc := lcFused d }

/-- R63: PORST_N is low: everything is at its reset value but flash, fuses and the real-time counter; rails and time go
on. -/
def porstDev (d : Dev) : Dev :=
  { ({} : Dev) with
    flash := d.flash, fuses := fuseLc d, out := .ballsZ :: d.out
    clk := { ({} : Clk) with rtc := d.clk.rtc, rtcAcc := d.clk.rtcAcc, tclk := d.clk.tclk, alwaysOn := d.clk.alwaysOn, retained := d.clk.retained,
                             switched := d.clk.switched, wrstLow := d.clk.wrstLow } }

/-- The AON bits of the stored registers (R13). -/
def aonRegs (d : Dev) : NMap Word :=
  d.regs.foldl (fun m e =>
    match rowOf (e.1 % 16777216) with
    | some row =>
      let z := resetWord (e.1 % 16777216)
      mapStore (BitVec.ofNat 32 z) m e.1 (BitVec.ofNat 32 (mergeMask z e.2.toNat row.aon))
    | none => m) []

/-- R16, R385: the Tally counters in AON. -/
def aonTally (d : Dev) : NMap Nat := d.tally.filter (fun e => e.1 == 0x7C0218)

/-- Clocks and pins as a WRST_N or Dormant leaves them: AON contents and the straps. -/
def aonClk (d : Dev) : Clk :=
  { ({} : Clk) with
    rtc := d.clk.rtc, rtcAcc := d.clk.rtcAcc, rtcXtal := d.clk.rtcXtal, tclk := d.clk.tclk, alwaysOn := d.clk.alwaysOn
    retained := d.clk.retained, switched := d.clk.switched, wakeTime := d.clk.wakeTime, wakeFirst := d.clk.wakeFirst
    wakeChan := d.clk.wakeChan, porstLow := false, cmpt := d.clk.cmpt, bootsel := d.clk.bootsel, testen := d.clk.testen
    aonImg := d.clk.aonImg, xspi := d.clk.xspi }

/-- R380, R383: what AON keeps of the vault. -/
def aonKvt (d : Dev) : Kvt :=
  { ({} : Kvt) with armed := d.kvt.armed, alarmRec := d.kvt.alarmRec, openScope := d.kvt.openScope }

/-- R105: PORST and WRST of CKP_WAKESRC, which AON does not keep: the start that it is. -/
def wakeBits (d : Dev) (porst wrst : Bool) : Dev :=
  putReg d 0x10040 (setBit (setBit (reg d 0x10040) 10 porst) 11 wrst)

/-- R65: the retention latches drive DDR0_RESET_N and DDR1_RESET_N high while a frozen trace is held, and leave them Z
otherwise. -/
def ddrHold (r : Rec) (out : List Output) : List Output :=
  if r.sr then .line 9 true :: .line 8 true :: out else .lineZ 9 :: .lineZ 8 :: out

/-- R63, R65, R383, R415, R434, R490: WRST_N is low. F3 latches, the fault record, the offender log and a frozen trace are
kept; debug that is armed opens. -/
def wrstDev (d : Dev) : Dev :=
  let k := aonKvt d
  let k := match k.armed with | some sc => { k with openScope := some sc, armed := none } | none => k
  let o : Dev :=
    { ({} : Dev) with
      flash := d.flash, fuses := fuseLc d, out := ddrHold (recWrst d.rcd) (.ballsZ :: d.out), clk := { aonClk d with wakeFirst := 11, wakeChan := 0 }
      regs := aonRegs d, tally := aonTally d, aonEvs := d.aonEvs, kvt := k
      flt := { ({} : Flt) with record := d.flt.record, f3 := d.flt.f3, worst := if d.flt.f3 then 3 else 0 }
      nmc := { ({} : Nmc) with log := d.nmc.log }, rcd := recWrst d.rcd }
  wakeBits o false true

/-- R518: a self-reset acts as WRST_N; its boot comes with the next WRST_RELEASE (DESIGN CHOICE, log entry 13). -/
def selfReset (d : Dev) : Dev := let o := wrstDev d; { o with clk := { o.clk with selfReset := true } }

/-- R86, R434, R456, R491: M0 Dormant is in force: AON is left, with the pin records of the balls that it drives (DEDUCED, log
entry 138); both latches stay (R415), the trace and the offender log are gone, and event numbers go on (DEDUCED, log entry
67). -/
def dormantDev (d : Dev) : Dev :=
  let o : Dev :=
    { ({} : Dev) with
      flash := d.flash, fuses := d.fuses, out := ddrHold {} d.out, img := { pins := d.img.pins }, regs := aonRegs d, tally := aonTally d, aonEvs := d.aonEvs
      clk := { aonClk d with mode := .m0, target := .m0, islands := 0, pinsOn := d.clk.pinsOn, enRet := false, enSw := false }
      kvt := { aonKvt d with lcNext := d.kvt.lcNext }
      flt := { ({} : Flt) with record := d.flt.record, f3 := d.flt.f3, f4 := d.flt.f4, worst := d.flt.worst }
      nmc := { ({} : Nmc) with clusters := d.nmc.clusters, inh := d.nmc.inh, inhHold := d.nmc.inhHold }
      whl := { ({} : Whl) with xings := aonXings (isolateWatch d) }
      fifos := d.fifos.map (fun e => (e.1, { seq := e.2.seq })) }
  wakeBits o false false

/-- PORST_ASSERT. -/
def execPorstAssert : State → Host.Outcome State Fault Refusal := act (fun d => if d.clk.porstLow then d else porstDev d)

/-- R66: WRST_N is ignored in M0 Dormant and M1 Watch, up to the wake. -/
def wrstIgnored (d : Dev) : Bool :=
  decide (d.clk.mode.num < 2) && (match d.clk.trans with | .wake _ => false | _ => true)

/-- WRST_N falls. A fall that R66 ignores is forgotten: the spec does not say whether a level that is still low once the device
has woken then resets it, and the model's runs on (DESIGN CHOICE, log entry 104). -/
def wrstLower (d : Dev) : Dev :=
  if d.clk.wrstLow then d
  else if d.clk.porstLow then { d with clk := { d.clk with wrstLow := true } }
  else if wrstIgnored d then d
  else let o := wrstDev d; { o with clk := { o.clk with wrstLow := true } }

/-- WRST_ASSERT. -/
def execWrstAssert : State → Host.Outcome State Fault Refusal := act wrstLower

/-! ## The PUF root (R363 to R365) -/

/-- The majority of the reads of one byte. -/
def majByte (reads : List Bytes) (i : Nat) : Byte :=
  BitVec.ofNat 8 ((List.range 8).foldl (fun a b =>
    let ones := (reads.filter (fun r => bit ((r[i]?).getD 0).toNat b)).length
    if reads.length < 2 * ones then a + 2 ^ b else a) 0)

/-- R363: the array of 4 KiB, each bit majority-voted. -/
def pufVote (reads : List Bytes) : Bytes := (List.range 4096).map (majByte reads)

/-- R363: the root of recovered message bits. -/
def pufRoot (message : Bytes) : Bytes := (sha384 message).take 32

/-- R364: the check value of a root. -/
def pufCheck (root : Bytes) : Bytes := kdf root (label "JG7440-CHECK") [] 16

/-- R364: a valid copy of the helper record: its code offsets and check value. -/
def helperAt (d : Dev) (c : Nat) : Option (Bytes × Bytes) :=
  let a := 0x2000 + 0x1000 * c
  if flUsed d a 1024 && flByte d a == Config.helperFormat then some (flRead d (a + 1) 510, flRead d (a + 511) 16) else none

/-- R363: one regeneration against a copy of the helper record. -/
def pufTry (reads : List Bytes) (h : Option (Bytes × Bytes)) : Option Bytes :=
  match h with
  | none => none
  | some (off, chk) =>
    match Config.bchMessage (pufVote reads) off with
    | none => none
    | some m => if pufCheck (pufRoot m) == chk then some (pufRoot m) else none

/-- R364: enrolment writes both copies of the helper record. Answers the root. -/
def pufEnrol (d : Dev) (e : EnrolInput) : Dev × Bytes :=
  let root := pufRoot e.message
  let body := fit 1024 ([Config.helperFormat] ++ fit 510 (Config.bchOffset (pufVote e.reads) e.message) ++ pufCheck root)
  let put := fun (d : Dev) a => flProg (flErase d a 4096) a body
  (put (put d 0x2000) 0x3000, root)

/-- R363 to R365: the root of a boot: at most three attempts, against either copy. -/
def pufStart (d : Dev) (b : BootInput) : Dev :=
  let h0 := helperAt d 0
  let h1 := helperAt d 1
  if h0.isNone && h1.isNone && decide (d.fuses.lc < 2) then
    let e := pufEnrol d b.enrol
    { e.1 with kvt := { e.1.kvt with root := some e.2 } }
  else
    match (b.puf.take 3).findSome? (fun r => match pufTry r h0 with | some x => some x | none => pufTry r h1) with
    | some x => { d with kvt := { d.kvt with root := some x } }
    | none => raiseF4 { d with kvt := { d.kvt with pufFail := true } } 0x0D02 (e1 3)

/-! ## Measurement and roots (R366, R367) -/

/-- R366: an accumulator is extended. -/
def maExtend (ma dig : Bytes) : Bytes := sha384 (ma ++ dig)

/-- R366: the state record. -/
def stateRecord (d : Dev) : Bytes :=
  fit 16 (leBytes 1 d.fuses.lc ++ eFlag d.kvt.openScope.isSome ++ leBytes 1 (d.kvt.openScope.getD 0))

/-- R366, R507: the ROM starts, or starts again with the other slot: accumulators and derivation state are cleared, MA2 is
extended. -/
def romStart (d : Dev) : Dev :=
  { d with kvt := { d.kvt with ma0 := zeros 48, ma1 := zeros 48, ma3 := zeros 48, sealed := false, slots := []
                               ma2 := maExtend (zeros 48) (sha384 (stateRecord d)) } }

/-- R367: s of the store root. -/
def storeClass (d : Dev) : Nat := if (d.fuses.lc == 1 || d.fuses.lc == 2) && d.kvt.openScope.isNone then 1 else 0

/-- R366 to R368: the accumulators are sealed and the two roots formed; without a root their slots stay empty (R365). -/
def sealRoots (d : Dev) : Dev :=
  let k := d.kvt
  let d := { d with kvt := { k with sealed := true } }
  match k.root with
  | none => d
  | some r =>
    let d := fillSlot d 0 (kdf r (label "JG7440-MROOT") (k.ma0 ++ k.ma1 ++ k.ma2 ++ k.ma3) 32) 3 16 0 0 0 none
    fillSlot d 1 (kdf r (label "JG7440-STORE") (leBytes 1 (storeClass d)) 32) 2 48 0 0 0 none

/-! ## The key tree (R376, R378) -/

/-- R376, R378: a persistent slot takes its latest complete record. -/
def loadPers (d : Dev) (p : Bytes) : Dev :=
  let id := leAt p 0 1
  match latestRec d id with
  | some r => fillSlot d (leAt p 2 2) (r.mat.take (ktypeLen r.kt)) r.kt r.use r.dom 0 0 (some (id, r.seq))
  | none => raise d 0x0D04 0 (e1 id)

/-- R371, R378: a tree slot is derived; below an empty slot it stays empty. -/
def loadTree (d : Dev) (t : Bytes) : Dev :=
  let p := slotOf d (leAt t 2 2)
  if !p.full then d
  else
    let s := leAt t 0 2
    let kt := leAt t 4 1
    let use := leAt t 5 1
    let dom := leAt t 6 1
    fillSlot d s (childMat p.mat (slice t 8 16) s kt use dom) kt use dom (handleOf d (leAt t 2 2)) (p.level + 1) none

/-- R378: persistent slots first, then tree records in section order; none without roots. -/
def loadKeys (d : Dev) : Dev :=
  if !(slotOf d 0).full then d
  else
    let b := d.img.security
    let d := (List.range (seNPers b)).foldl (fun d i => loadPers d (sePers b i)) d
    (List.range (seNTree b)).foldl (fun d i => loadTree d (seTree b i)) d

/-! ## Freshness and the store at boot (R353, R522, R523) -/

/-- R522: the ring as the flash holds it: its newest sector, and the number of the next record. -/
def ringScan (d : Dev) : Dev :=
  let used := (List.range 64).filter (fun s => flUsed d (ringAddr d s) 4)
  let num := fun s => leNat (flRead d (ringAddr d s) 4)
  let head := used.foldl (fun a s => if num a < num s || !used.contains a then s else a) 0
  let recs := ((List.range 64).map (ringRecords d)).flatten
  let fill := ((List.range 127).filter (fun i => flUsed d (ringAddr d head + 32 + 32 * i) 32)).length
  { d with store := { d.store with head := head, fill := fill, ring := if used.isEmpty then 0 else num head,
                                   recSeq := recs.foldl (fun a r => max a (r.2.2.2 + 1)) 1 } }

/-- R353, R522: a profile's freshness after a reset or Dormant: its checkpoint, and 2^16 beyond it for generation. -/
def freshBoot (recs : List (Nat × Nat × Nat × Nat)) (d : Dev) (prof : Nat) : Dev :=
  let best := (recs.filter (fun r => r.1 == prof)).foldl
    (fun (a : Nat × Nat) r => if a.2 < r.2.2.2 then (r.2.2.1, r.2.2.2) else a) (0, 0)
  let val := if apDir (authRec d prof) = 1 then min (best.1 + 2 ^ 16) (2 ^ 64 - 1) else best.1
  modFresh d prof (fun _ => { val := val, ckpt := best.1, seq := best.2 })

/-- R353: every profile of the image. -/
def freshStart (d : Dev) : Dev :=
  let d := ringScan d
  let recs := ((List.range 64).map (ringRecords d)).flatten
  (profiles d).foldl (freshBoot recs) d

/-- R523: positions that hold neither a complete record nor erased bytes are to be erased; without roots no record can be
told complete, and nothing is. -/
def storeSweep (d : Dev) : Dev :=
  if !(slotOf d 0).full then d
  else
  let bad := (List.range 512).filter (fun l => flUsed d (secAddr d l) 4096 && (keyRecAt d (l / 2) (l % 2)).isNone)
  { d with store := { d.store with erase := d.store.erase ++ bad } }

/-! ## Slots (R498 to R501) -/

/-- R499: the slot header. -/
def slotHdr (d : Dev) (s : Nat) : Bytes := flRead d (slotBase s) 0x360
def shFwSec (h : Bytes) : Nat := leAt h 6 2
def shKeyIdx (h : Bytes) : Nat := leAt h 8 1
def shRevoke (h : Bytes) : Nat := leAt h 9 1 % 16
def shTrialBoots (h : Bytes) : Nat := let n := leAt h 0xA 1; if n = 0 then 3 else n
def shTrialSecs (h : Bytes) : Nat := let n := leAt h 0xC 2; if n = 0 then 300 else n
def shBfwLen (h : Bytes) : Nat := leAt h 0x10 4
def shSfwLen (h : Bytes) : Nat := leAt h 0x14 4
def shImgLen (h : Bytes) : Nat := leAt h 0x18 4

/-- R499 to R501: codes 0x40 to 0x43. -/
def slotHeadRej (d : Dev) (h : Bytes) : Option Nat :=
  let key := slice h (0xB0 + 97 * shKeyIdx h) 97
  if h.take 4 != [0x55, 0x46, 0x57, 0x53] || leAt h 4 2 != 1 || decide (0x80000 < shBfwLen h) || decide (0x200000 < shSfwLen h) ||
      decide (45 * 1048576 < shImgLen h) then some 0x40
  else if !keyFused d h (shKeyIdx h) then some 0x41
  else if !ecdsaVerify key (sha384 (h.take 0x300)) (slice h 0x300 96) then some 0x42
  else if shFwSec h < d.fuses.fwcnt then some 0x43
  else none

/-- The digests of the two firmware parts. -/
def slotFw (d : Dev) (s : Nat) (h : Bytes) : Bytes × Bytes :=
  (sha384 (flRead d (slotBase s + 0x1000) (shBfwLen h)), sha384 (flRead d (slotBase s + 0x81000) (shSfwLen h)))

/-- R501: codes 0x44 and 0x45. -/
def slotFwRej (h : Bytes) (dig : Bytes × Bytes) : Option Nat :=
  if dig.1 != slice h 0x20 48 then some 0x44 else if dig.2 != slice h 0x50 48 then some 0x45 else none

/-- The image of a slot; nothing beyond its stored length is read. -/
def slotImage (d : Dev) (s : Nat) (h : Bytes) : ImgFile :=
  imgRead (fun o n => if o + n ≤ shImgLen h then flRead d (slotBase s + 0x300000 + o) n else []) (shImgLen h) false

/-- R129, R501: the checks of a slot's image, and of its digest against IMGDIG. -/
def slotImgRej (d : Dev) (h : Bytes) (f : ImgFile) : Rej :=
  match imgRej d h f (shImgLen h) (latestRec d) with
  | some r => some r
  | none => if sha384 f.signed == slice h 0x80 48 then none else some (Config.imgDigCode.toNat, 0)

/-- R381: the lifecycle state boots to M7 Provision without an image. -/
def provisioning (d : Dev) : Bool := decide (d.fuses.lc < 2)

/-- R504 steps 4 to 9: a slot is measured and checked. Answers its rejection code, and its image where there is one. -/
def slotTry (d : Dev) (s : Nat) : Dev × Nat × Option ImgFile :=
  let h := slotHdr d s
  match slotHeadRej d h with
  | some c => (d, c, none)
  | none =>
    let dig := slotFw d s h
    let d := { d with upd := { d.upd with booted := s } }
    match slotFwRej h dig with
    | some c => (d, c, none)
    | none =>
      let d := { d with kvt := { d.kvt with ma0 := maExtend d.kvt.ma0 dig.1, ma3 := maExtend d.kvt.ma3 dig.2 } }
      if provisioning d then (d, 0, none)
      else
        let f := slotImage d s h
        let d := sealRoots { d with kvt := { d.kvt with ma1 := maExtend d.kvt.ma1 (sha384 (secBytes f 1)) } }
        match slotImgRej d h f with
        | some r => ({ d with img := { d.img with rejCode := r.1, rejRec := r.2 } }, r.1, none)
        | none => (d, 0, some f)

/-! ## Anti-rollback fuses (R508, R509) -/

/-- R509: FUSE_EXHAUSTED when a counter reaches 128, once. -/
def fuseSpent (d : Dev) (i cnt : Nat) : Dev :=
  if 128 ≤ cnt && !bit d.fuses.spent i then
    raise { d with fuses := { d.fuses with spent := setBit d.fuses.spent i true } } 0x1205 0 (e1 i)
  else d

/-- R509: the counters rise to the versions of a confirmed slot, and the indices that its header names are revoked. Answers
the steps blown. -/
def blowFuses (d : Dev) (s : Nat) : Dev × Nat :=
  let b := d.upd.brec
  let fw := max d.fuses.fwcnt (min 128 (if s = 0 then b.fwSecA else b.fwSecB))
  let im := max d.fuses.imgcnt (min 128 (if s = 0 then b.imgSecA else b.imgSecB))
  let n := (fw - d.fuses.fwcnt) + (im - d.fuses.imgcnt)
  let d := { d with fuses := { d.fuses with fwcnt := fw, imgcnt := im, revoke := d.fuses.revoke ||| shRevoke (slotHdr d s) } }
  (fuseSpent (fuseSpent d 0 fw) 1 im, n)

/-- R509: step 3 of every boot. -/
def bootFuses (d : Dev) : Dev :=
  if d.upd.brec.stateA = 4 then (blowFuses d 0).1 else if d.upd.brec.stateB = 4 then (blowFuses d 1).1 else d

/-! ## The choice of the slot (R505 to R507, R517) -/

/-- R505: a slot that may be booted in place of the other: CONFIRMED, BACKUP or VERIFIED. -/
def slotBootable (b : BootRec) (s : Nat) : Bool := slotState b s == 4 || slotState b s == 5 || slotState b s == 2

/-- R517: the boot record makes the other slot ACTIVE, the trial slot becomes FAILED, and UPD_FALLBACK is raised. -/
def fallBack (d : Dev) (s reason : Nat) : Dev :=
  raise (brecWrite d (fun b => { setSlotState b s 6 with active := 1 - s, lastFb := reason })) 0x1204 0 (e1 s ++ e1 reason)

/-- What a boot has come to: the device, the first rejection code, whether the slot changed, the image. -/
structure BootRun where
  dev   : Dev
  first : Nat
  other : Bool
  file  : Option ImgFile

/-- R505, R507: the other slot is booted, if its state allows; else there is none. -/
def bootOther (d : Dev) (s first : Nat) : BootRun :=
  if slotBootable d.upd.brec (1 - s) then
    let r := slotTry (romStart { d with upd := { d.upd with booted := 1 - s } }) (1 - s)
    { dev := r.1, first := if first = 0 then r.2.1 else first, other := true, file := r.2.2 }
  else { dev := d, first := first, other := false, file := none }

/-- R505, R506: the slot of this boot. -/
def bootChoose (d : Dev) : BootRun :=
  let only := fun s => let r := slotTry { d with upd := { d.upd with booted := s } } s
    ({ dev := r.1, first := r.2.1, other := false, file := r.2.2 } : BootRun)
  if d.clk.bootsel = 1 then only 0
  else if d.clk.bootsel = 2 then only 1
  else
    let b := d.upd.brec
    let a := b.active
    let st := slotState b a
    let d := { d with upd := { d.upd with booted := a } }
    if st = 3 && b.left = 0 then bootOther (fallBack d a 1) a 0
    else if st = 3 then
      let r := slotTry (brecWrite d (fun b => { b with left := b.left - 1 })) a
      if r.2.1 = 0 then { dev := r.1, first := 0, other := false, file := r.2.2 }
      else bootOther (fallBack r.1 a 3) a r.2.1
    else if slotBootable b a then
      let r := slotTry d a
      if r.2.1 = 0 then { dev := r.1, first := 0, other := false, file := r.2.2 } else bootOther r.1 a r.2.1
    else bootOther d a 0

/-! ## The pin section (R64, R67, R112) -/

/-- The GPIO numbers of ball records with a role. -/
def roleGpios (d : Dev) (func : Nat) : List Nat := (roleRecs d func).filterMap pnGpio

/-- R112, R67: a general output at its level, INV included. -/
def pinOut (d : Dev) (r : Nat) : Dev :=
  match pnGpio r with
  | some g => emit d (.line (32 + g) (bit r 23 != bit r 22))
  | none => d

/-- R77, R111: the polarity of an Ethernet lane. -/
def laneOut (d : Dev) (p : Nat) : Dev :=
  let r := d.img.pins.find? (fun r => pnKind r == 1 && bits r 0 3 == p)
  if ethInImage d p then emit d (.lane p (bit (r.getD 0) 3) (bit (r.getD 0) 4)) else d

/-- R64, R66, R67: every ball of the pin section reaches its configured state: CAN TXD of the image's channels recessive,
RSTOUT_N high, both supply enables high, PHY_RST_N low. -/
def pinsApply (d : Dev) : Dev :=
  let d := { d with clk := { d.clk with pinsOn := true, pinsAt := d.clk.tclk, phyOut := [], safeOut := false, enSw := true, enRet := true } }
  let d := drive (drive (drive d 3 true) 4 true) 5 true
  let d := (List.range 24).foldl (fun d ch => if canInImage d ch then drive d (64 + ch) true else d) d
  let d := (List.range 4).foldl (fun d j => drive d (16 + j) (inhLevel d j)) d
  let d := (roleGpios d 6).foldl (fun d g => drive d (32 + g) false) d
  let d := (roleRecs d 2).foldl pinOut d
  drive ((List.range 8).foldl laneOut d) 6 false

/-- R64, R66: the boot-path balls with a level of their own: FSPI_RST_N is high from the first flash access, and the memory
controller releases the DRAM's reset (DEDUCED, log entry 139). -/
def bootBalls (d : Dev) : Dev := emit (emit (emit d (.line 7 true)) (.line 8 true)) (.line 9 true)

/-! ## The image comes into force (R130, R229) -/

/-- R230: the GCL section loads the administrative lists. -/
def gclLoad (d : Dev) (r : Nat) : Dev :=
  let b := ethBase (gcPort r)
  match gcKind r with
  | 0 => putReg (putReg d (b + 0x1000 + 8 * bits r 0 8) (bits r 16 32)) (b + 0x1004 + 8 * bits r 0 8) (bits r 8 8)
  | 1 => putReg (putReg (putFld d (b + 0x40) 16 9 (bits r 0 9)) (b + 0x48) (bits r 9 32)) (b + 0x4C) (bits r 41 18)
  | 2 => putReg (putReg d (b + 0x50) (bits r 0 30 + bits r 30 2 * 2 ^ 30)) (b + 0x54) (bits r 32 27)
  | _ => d

/-- R235: a port of the image whose ENABLE is 1 is DOWN from the start. -/
def ethBoot (d : Dev) : Dev :=
  (List.range 9).foldl (fun d p =>
    if ethInImage d p && flag d (ethBase p) 0 then modEth d p (fun e => { e with st := 1 }) else d) d

/-- R130, R231, R504 steps 9 and 10: the fast part is applied and the pin section with it; shaper groups that are not valid are
reported. -/
def imageStart (d : Dev) (f : ImgFile) : Dev :=
  let d := imgApply d f (sha384 f.signed)
  let d := d.img.gcl.foldl gclLoad d
  let d := freshStart (storeSweep (loadKeys { d with cry := { d.cry with progs := true } }))
  let d := ethBoot (pinsApply d)
  let d := recSync (recBoot (raise d 0x0501 0 (e4 d.img.imageId ++ e4 (Config.loadTime % 2 ^ 32))))
  (List.range 8).foldl cbsUpdate d

/-! ## The boot up to routing open (R504) -/

/-- R527: UPD_BOOTREP. -/
def bootReport (d : Dev) (first : Nat) (other : Bool) (cause : Nat) : Nat :=
  d.upd.booted % 2 + d.clk.bootsel * 2 + d.clk.cmpt.toNat * 8 + (d.clk.bootsel == 3).toNat * 16 + other.toNat * 32 +
    first % 256 * 256 + cause * 65536

/-- R64, R74, R82, R480, R504 steps 1 to 3: the rails are up, since the balls of both enables are Z in reset and their pull-ups
restore the groups (DEDUCED, log entry 140); sources and DRAM found, the boot record and the store map read. -/
def bootBegin (d : Dev) (b : BootInput) (cause : Nat) : Dev :=
  let scope := if d.fuses.lc = 0 then some 3 else d.kvt.openScope
  let d := { d with clk := { d.clk with porstLow := false, wrstLow := false, selfReset := false, rtcXtal := b.rtcXtal, xtalOk := true,
                                        islands := 0x1FE,
                                        retained := true, switched := true }
                    kvt := { d.kvt with openScope := scope }
                    rcd := { d.rcd with dens := min b.dens0 b.dens1, rate := b.ddrRate } }
  let d := bootBalls d
  let d := { d with store := smapRead d, upd := { ({} : Upd) with brec := brecRead d, cause := cause } }
  { d with clk := { d.clk with xspi := d.upd.brec.xspi } }

/-- R504, up to routing open: the device, and whether an image is in force. -/
def bootRun (d : Dev) (b : BootInput) (cause : Nat) : Dev × Bool :=
  let d := bootFuses (romStart (pufStart (bootBegin d b cause) b))
  let r := bootChoose d
  let rep := fun (d : Dev) => { d with upd := { d.upd with bootRep := bootReport d r.first r.other cause } }
  match r.file with
  | some f => (rep (imageStart r.dev f), true)
  | none =>
    let d := if r.dev.kvt.sealed then r.dev else sealRoots r.dev
    (rep (recBoot d), false)

/-- R71: TESTEN 1: the ROM does not run; the device stays as in reset (DEDUCED, log entry 69). -/
def testHeld (d : Dev) : Bool := d.clk.testen

end Sys2Proof.Machine
end

