-- ==== Sys2Proof/Machine/ModeOps.lean ====
section
/-! DEFINITION. Shared operations of mode changes (R86 to R97, R127, R265, R346, R396, R428): conditions and chains of
transitions, power of the groves and of the Mill, safe outputs, hold-route modes, and routing open. -/

namespace Sys2Proof.Machine

/-- Change the clock and mode state. -/
def modClk (d : Dev) (f : Clk → Clk) : Dev := { d with clk := f d.clk }

/-! ## Marks (R396) -/

/-- R396, R397, R401: a twin takes a mark: its commit log is emptied. What the Route Engine has journalled is released: every
result has gone to another twin (R397, R400). -/
def twinMark (d : Dev) (t : Nat) : Dev :=
  modTwin d t (fun w => { w with log := [], markEcs := w.ecs, unmarked := false, fill := if t = 1 then 0 else w.fill })

/-- R397: the Landing's frames have been marked past, and the commits that it has journalled are released. -/
def frameMark (d : Dev) : Dev :=
  let d := (List.range d.flt.commits).foldl (fun d _ => journalFree d 0 0) d
  freeCells { d with flt := { d.flt with commits := 0 },
                     lnd := { d.lnd with frames := d.lnd.frames.map (fun e => (e.1, { e.2 with marked := true })) } }

/-! ## Conditions -/

/-- R106: WATCH_OK and GATE_OK of the image. -/
def watchOk (d : Dev) : Bool := bit d.img.flags 2
def gateOk (d : Dev) : Bool := bit d.img.flags 3

/-- R353, R428: the shutdown checkpoint of every profile is stored. -/
def allShut (d : Dev) : Bool := (profiles d).all (fun p => (freshOf d p).shut)

/-- R428: an enabled channel of the image belongs to a cluster that is ASLEEP, and an enabled port. -/
def canIdle (d : Dev) (ch : Nat) : Bool :=
  !canInImage d ch || bit (canCtl d ch) 0 ||
    (match canCluster d ch with | some c => (clusterOf d c).st == 0 | none => false)
def ethIdle (d : Dev) (p : Nat) : Bool :=
  !ethInImage d p || !flag d (ethBase p) 0 ||
    (match ethCluster d p with | some c => (clusterOf d c).st == 0 | none => false)

def groveChans (g : Nat) : List Nat := (List.range 6).map (fun i => 6 * g + i)
def grovePorts (g : Nat) : List Nat := [2 * g, 2 * g + 1]

/-- R428: grove `g` may be gated. -/
def groveIdle (d : Dev) (g : Nat) : Bool := (groveChans g).all (canIdle d) && (grovePorts g).all (ethIdle d)

/-- The masks of groves powered, and of groves named in CKP_GROVEAWAKE. -/
def groveMask (d : Dev) : Nat := bits d.clk.islands 1 4
def awakeMask (d : Dev) : Nat := fld d 0x10008 0 4

/-- R89: a transition runs. -/
def modeBusy (d : Dev) : Bool := d.clk.trans != .idle || !d.clk.chain.isEmpty

/-- The twins of the Mill and the service cores run, none in recovery (R413). -/
def splitTwinsRun (d : Dev) : Bool := !((List.range 5).any (fun i => frozen d (10 + i)))

/-! ## Requests (R89, R90) -/

/-- R89: the chain of transitions from one mode to another. -/
def pathTo (m t : Mode) : Option (List Mode) :=
  match m with
  | .m2 => (match t with
    | .m2 => some [.m2] | .m3 => some [.m3] | .m4 => some [.m3, .m4] | .m1 => some [.m1] | .m0 => some [.m1, .m0]
    | .m6 => some [.m6] | .m7 => some [.m3, .m7] | .m5 => none)
  | .m3 => (match t with
    | .m2 => some [.m2] | .m4 => some [.m4] | .m1 => some [.m1] | .m0 => some [.m1, .m0] | .m6 => some [.m6]
    | .m7 => some [.m7] | .m3 => none | .m5 => none)
  | .m4 => (match t with
    | .m3 => some [.m3] | .m2 => some [.m3, .m2] | .m1 => some [.m3, .m1] | .m0 => some [.m3, .m1, .m0]
    | .m6 => some [.m6] | .m7 => some [.m3, .m7] | .m4 => none | .m5 => none)
  | .m5 => (match t with
    | .m1 => some [.m1] | .m0 => some [.m1, .m0] | .m6 => some [.m6] | .m2 => none | .m3 => none | .m4 => none
    | .m5 => none | .m7 => none)
  | .m7 => (match t with
    | .m6 => some [.m6] | .m0 => none | .m1 => none | .m2 => none | .m3 => none | .m4 => none | .m5 => none | .m7 => none)
  | .m0 => none
  | .m1 => none
  | .m6 => none

/-- R89, R428: Watch entry on request: 0, or the reason against it. -/
def watchReason (d : Dev) : Nat := if !allAsleep d then 2 else if !watchOk d || !d.clk.holdDone then 1 else 0

/-- R87, R428: M2 on request: 0, or the reason against it. -/
def partialReason (d : Dev) : Nat :=
  let want := awakeMask d
  if !gateOk d || want = 15 || (d.clk.mode == .m2 && want == groveMask d) then 1
  else if (bitList 4 (groveMask d)).all (fun g => bit want g || groveIdle d g) then 0
  else 2

/-- R89, R105: the reason against a request, 0 for none (DEDUCED, log entry 71). -/
def reqReason (d : Dev) (t : Mode) : Nat :=
  match pathTo d.clk.mode t with
  | none => if d.clk.mode == .m6 || (d.clk.mode == .m5 && decide (2 ≤ t.num)) then 5 else 1
  | some _ => if t == .m1 || t == .m0 then watchReason d else if t == .m2 then partialReason d else 0

/-- R89: MODE_REQ_REJECT. -/
def modeReject (d : Dev) (t : Mode) (reason : Nat) : Dev :=
  raise (modClk d (fun c => { c with lastRej := reason })) 0x0402 0 (e1 t.num ++ e1 reason)

/-- The next transition of the chain begins: a change of groves under R87 takes its masks; the others begin with their own
commands. -/
def chainStart (d : Dev) : Dev :=
  let now := groveMask d
  let want := if d.clk.chain.head? == some .m2 then awakeMask d else 15
  let regroup := modClk d (fun c => { c with trans := .regroup (want &&& (15 ^^^ now)) (now &&& (15 ^^^ want)) })
  let d := match d.clk.chain.head? with | some m => modClk d (fun c => { c with target := m }) | none => d
  match d.clk.chain.head? with
  | some .m2 => { regroup with clk := { regroup.clk with target := .m2 } }
  | some .m3 => if d.clk.mode == .m2 then { regroup with clk := { regroup.clk with target := .m3 } } else d
  | _ => d

/-- R89: a request is decided. -/
def modeDecide (d : Dev) (t : Mode) : Dev :=
  if reqReason d t ≠ 0 then modeReject d t (reqReason d t)
  else match pathTo d.clk.mode t with
    | some l => chainStart (modClk d (fun c => { c with chain := l, trig := 0 }))
    | none => d

/-- R90: a request while a transition runs becomes the pending request. -/
def modePend (d : Dev) (t : Mode) : Dev :=
  let d := match d.clk.pendReq with | some o => modeReject d o 4 | none => d
  modClk d (fun c => { c with pendReq := some t })

/-- R91: the pending request is rejected by a fault. -/
def pendFault (d : Dev) : Dev :=
  match d.clk.pendReq with
  | some o => modeReject (modClk d (fun c => { c with pendReq := none })) o 5
  | none => d

/-- R90: a pending request is decided. -/
def reqSettle (d : Dev) (req : Option Mode) : Dev := match req with | some t => modeDecide d t | none => d

/-- R90: the pending request is decided at the end of a transition. -/
def pendSettle (d : Dev) : Dev := reqSettle (modClk d (fun c => { c with pendReq := none })) d.clk.pendReq

/-- R90, R91: a transition has ended: a fault that waits comes first, then the rest of the chain, then the pending request. -/
def modeSettle (d : Dev) : Dev :=
  let d := modClk d (fun c => { c with trans := .idle, chain := c.chain.drop 1 })
  if d.clk.f4Pend || d.clk.f3Pend then modClk d (fun c => { c with chain := [] })
  else if !d.clk.chain.isEmpty then chainStart d
  else pendSettle d

/-- MODE_CHANGE: a mode is in force. -/
def modeEnter (d : Dev) (m : Mode) (trig : Nat) : Dev :=
  let old := d.clk.mode
  raise (modClk d (fun c => { c with mode := m, target := m })) 0x0401 0 (e1 old.num ++ e1 m.num ++ e1 trig)

/-! ## Power of groves and Mill (R35, R87, R136, R321) -/

/-- R229, R230: a port with a GCL header requests its list. -/
def gclHeader (d : Dev) (p : Nat) : Bool := d.img.gcl.any (fun r => gcKind r == 1 && gcPort r == p)

/-- R235: an enabled port of the image is DOWN; one in SLEEP stays (R238). -/
def portStart (d : Dev) (p : Nat) : Dev :=
  let d := if ethInImage d p && flag d (ethBase p) 0 && (ethOf d p).st == 0 then modEth d p (fun e => { e with st := 1 }) else d
  if gclHeader d p then gclRequest d p else d

/-- R87: grove `g` is powered with its configuration: its channels leave INIT, its ports start. -/
def grovePower (d : Dev) (g : Nat) : Dev :=
  if groveOn d g then d
  else
    let d := pllSync (modClk d (fun c => { c with islands := setBit c.islands (1 + g) true, gating := setBit c.gating g false }))
    let d := (groveChans g).foldl (fun d ch => if canInImage d ch then initDemand d ch false else d) d
    (grovePorts g).foldl portStart d

/-- A port of a grove that is powered off: its frames are flushed and its wire is cut; no event says so (DEDUCED, log entry 72). -/
def portOff (d : Dev) (p : Nat) : Dev :=
  let keep := (ethOf d p).st == 4
  let req := (ethOf d p).sleepReq
  let d := if ethInImage d p then portCut d p 0 else d
  { d with eth := mapPut d.eth p { st := if keep then 4 else 0, sleepReq := req } }

/-- R87: the island of grove `g` is isolated and powered off; what it held beside its configuration is lost. -/
def groveOff (d : Dev) (g : Nat) : Dev :=
  let d := (grovePorts g).foldl portOff d
  let d := (groveChans g).foldl (fun d ch => { d with can := mapDel d.can ch }) d
  let d := dropLookups d g
  let d := { d with flt := { d.flt with twins := mapDel (mapDel d.flt.twins (2 + g)) (6 + g) } }
  pllSync (modClk d (fun c => { c with islands := setBit c.islands (1 + g) false, gating := setBit c.gating g false }))

/-- R87: gating begins: admission closes, the queues are flushed, the channels are to enter INIT. -/
def groveClose (d : Dev) (g : Nat) : Dev :=
  let d := modClk d (fun c => { c with gating := setBit c.gating g true })
  let d := flushQueues d (groveQueues g)
  (groveChans g).foldl (fun d ch => if canInImage d ch then initDemand d ch true else d) d

/-- Every channel of the grove is in INIT. -/
def groveInit (d : Dev) (g : Nat) : Bool := (groveChans g).all (fun ch => (canOf d ch).state == 0)

/-- R35: whether the Mill is powered in a mode with these groves. -/
def millWanted (d : Dev) (m : Mode) : Bool :=
  m != .m2 || (bitList 4 (groveMask d)).any (fun g => gvMillUse (groveRec d g))

/-- R35, R321: the MILL island follows the groves. -/
def millPower (d : Dev) (m : Mode) : Dev :=
  let on := bit d.clk.islands 6
  if millWanted d m && !on then milStart (modClk d (fun c => { c with islands := setBit c.islands 6 true }))
  else if !millWanted d m && on then
    modClk (milStop (flushQueues d ((List.range 8).map qMil))) (fun c => { c with islands := setBit c.islands 6 false })
  else d

/-- R87: the change of groves is complete. -/
def regroupEnd (d : Dev) : Dev :=
  match d.clk.trans with
  | .regroup 0 0 =>
    let m : Mode := if d.clk.chain.head? == some .m3 then .m3 else .m2
    modeSettle (modeEnter (millPower d m) m d.clk.trig)
  | _ => d

/-! ## Safe outputs (R66, R86, R111) -/

/-- R66: the line of an output ball: GPIO with an output role, or INH_OUT. -/
def safeLine (r : Nat) : Option Nat :=
  match pnGpio r with
  | some g => if pnFunc r = 2 || pnFunc r = 6 then some (32 + g) else none
  | none => if pnRow r = 0 && decide (24 ≤ pnCol r) && decide (pnCol r < 28) && pnFunc r == 1 then some (16 + (pnCol r - 24)) else none

/-- R111: one ball takes its SAFE state: 0 Z, 1 low, 2 high, 3 as driven at entry. -/
def safeBall (d : Dev) (r : Nat) : Dev :=
  match safeLine r with
  | none => d
  | some n =>
    match bits r 20 2 with
    | 0 => emit d (.lineZ n)
    | 1 => emit d (.line n false)
    | 2 => emit d (.line n true)
    | _ => d

/-- R66, R86: outputs take their image-defined safe states. -/
def safeOutputs (d : Dev) : Dev :=
  if !d.clk.pinsOn || d.clk.safeOut then d
  else (d.img.pins.filter (fun r => pnKind r == 0)).foldl safeBall (modClk d (fun c => { c with safeOut := true }))

/-! ## M6 and M7 (R91, R127, R265, R321, R346) -/

/-- R265: a copy of a hold route stays; a keep-alive where R428 lets it be sent; none bound for the Mill (R321). -/
def holdCopy (d : Dev) (x : Dest) : Bool :=
  decide (x.q < 416) && (if x.route < 2 ^ 17 then holdRoute d x.route else nmHolds d (x.route - 2 ^ 17))

/-- A buffered frame of a channel that goes on: a mailbox frame on a channel with a hold route. -/
def holdBuf (d : Dev) (ch : Nat) (x : XbFrame) : Bool :=
  if x.mbox then holdChannel d ch
  else match x.item with
    | some it => holdCopy d it.dest
    | none => holdRoute d x.flow.2.1

/-- R66: the buffers of a channel: the frame in progress finishes, the others of routes that do not hold are withdrawn, and
so are stored ones. -/
def holdChan (d : Dev) (ch : Nat) : Dev :=
  let d := [0, 1, 2].foldl (fun d b =>
    match xbOf (canOf d ch) b with
    | none => d
    | some x =>
      if holdBuf d ch x then d
      else if x.onBus then modCan d ch (fun c => setXb c b (some { x with last := true }))
      else flushXb d ch b) d
  let n := ((canOf d ch).store.filter (fun e => !holdCopy d e.2.dest)).length
  let d := bumpBy d (canBase ch + 0x148) 0 n
  modCan d ch (fun c => { c with store := c.store.filter (fun e => holdCopy d e.2.dest) })

/-- A copy that awaits admission is dropped and counted. -/
def dropWait (keep : Dest → Bool) (d : Dev) (w : Decided) : Dev :=
  (w.dests.filter (fun x => !keep x)).foldl (fun d x => hostLoss (bumpQ d 0x500068 x.q) x.q) d

/-- R265: copies that await admission and that `keep` does not pick are dropped. -/
def flushWaiting (d : Dev) (keep : Dest → Bool) : Dev :=
  let all := (d.lnd.waiting.map (fun e => e.2)).flatten
  let d := all.foldl (dropWait keep) d
  let rest := d.lnd.waiting.map (fun e =>
    (e.1, (e.2.map (fun (w : Decided) => { w with dests := w.dests.filter keep })).filter (fun w => !w.dests.isEmpty)))
  { d with lnd := { d.lnd with waiting := rest } }

/-- The recovery of every twin is abandoned: they run. -/
def twinsRun (d : Dev) : Dev :=
  { d with flt := { d.flt with twins := d.flt.twins.map (fun e => (e.1, { e.2 with phase := 0 })) } }

/-- R86, R127, R265, R321, R346: M6 or M7 is entered at the wheel boundary: every island powered, non-hold routes stopped,
outputs safe, user pages held. -/
def holdEntry (d : Dev) (m : Mode) (trig : Nat) : Dev :=
  let d := twinsRun (modClk d (fun c => { c with trans := .idle, chain := [], gating := 0, ingress := true }))
  let d := (List.range 4).foldl grovePower d
  let d := millPower d .m3
  let old := d.clk.mode
  let d := modClk d (fun c => { c with mode := m, target := m })
  let d := (List.range 24).foldl (fun d ch => if canInImage d ch && (canOf d ch).demand then initDemand d ch false else d) d
  let d := (liveQueues d).foldl (fun d q => flushQueue d q (fun c => !holdCopy d c.2)) d
  let d := flushWaiting d (holdCopy d)
  let d := (List.range 24).foldl holdChan d
  let d := safeOutputs { d with cry := { d.cry with hold := true } }
  raise d 0x0401 0 (e1 old.num ++ e1 m.num ++ e1 trig)

/-- R91: M6 Safe-Hold is entered, and the Trace Recorder is triggered (R488). -/
def safeHold (d : Dev) : Dev :=
  let trig := if d.clk.f4Pend then 2 else 0
  let d := pendFault (modClk d (fun c => { c with f4Pend := false, f3Pend := false }))
  recTrig (holdEntry d .m6 trig) 5 (nowNs d) 0

/-- R87: the modes that an F3 fault leaves for M5 Degraded. -/
def f3Leaves (m : Mode) : Bool := m == .m2 || m == .m3 || m == .m4

/-- R87, R91: M5 Degraded is entered at a wheel boundary after an F3 fault: split twins return to lock, every grove and the
Mill are powered. In M5 to M7 a further F3 changes no mode. -/
def degradedEntry (d : Dev) : Dev :=
  if d.clk.f3Pend && d.clk.trans == .idle && !f3Leaves d.clk.mode then modClk d (fun c => { c with f3Pend := false })
  else if d.clk.f3Pend && !d.clk.f4Pend && d.clk.trans == .idle then
    let d := pendFault (modClk d (fun c => { c with f3Pend := false, chain := [] }))
    let d := if d.clk.mode == .m4 then milForce (writeBackAll d) false else d
    modeEnter (millPower ((List.range 4).foldl grovePower d) .m5) .m5 2
  else d

/-! ## Routing open (R96, R97, R504) -/

/-- R86, R114: the islands of a mode with a set of groves. -/
def islandsOf (d : Dev) (m : Mode) (groves : Nat) : Nat :=
  if m == .m2 then
    0x1A0 + 2 * groves + 0x40 * ((bitList 4 groves).any (fun g => gvMillUse (groveRec d g))).toNat
  else 0x1FE

/-- R409: the degraded twin of the fault record. -/
def recordTwin (d : Dev) : Dev :=
  match d.flt.record with
  | some r => { d with flt := { d.flt with degraded := some (r.1, r.2.1, r.2.2.1), f3 := true } }
  | none => d

/-- R418, R433: FWTIME runs from routing open; a cluster that does not take part is ASLEEP. -/
def listenStart (d : Dev) : Dev :=
  (List.range 32).foldl (fun d c =>
    let k := clusterOf d c
    if k.st = 0 then d
    else if nmTakesPart d c then modNm d c (fun k => { k with t0 := d.clk.tclk, len := if k.st = 1 then fwTime d c else k.len })
    else modNm d c (fun _ => {})) d

/-- R85: device time is seeded from the real-time counter and unsynchronised: RTC periods of 2^-15 s, in units of 2^-39 ns. The
spec does not say how periods of the AON clock / 32 become device time where no crystal is detected: the model takes the
same 2^-15 s (DESIGN CHOICE, log entry 142). -/
def timeSeed (d : Dev) : Dev :=
  putReg (modClk d (fun c => { c with dtime := c.rtc * 1000000000 * 2 ^ 24 })) 0xC80020 (setBit (reg d 0xC80020) 0 false)

/-- R104, R105: CKP_WAKEFIRST. -/
def wakeFirstWord (d : Dev) : Nat := d.clk.wakeFirst % 32 + d.clk.wakeChan % 32 * 256

/-- R458: what AON stored is written after WAKE_REPORT, stamped 2 ns after it. -/
def aonRaise (d : Dev) : Dev :=
  let l := d.aonEvs.map (fun (e : Ev) => { e with stamp := nowNs d + 2, born := d.clk.tclk, unsync := true })
  { d with evs := d.evs ++ l, aonEvs := [] }

/-- R96 step 8: a mode is in force with routing open, `groves` powered. In M2 CKP_GROVEAWAKE then names them, the image's start or
wake groves (DEDUCED, log entry 70). R96 step 7 and R97 step 8 let channels integrate before routing opens, and R164
lets INIT be left only while routing is open: the channels leave INIT here (DEDUCED, log entry 143). -/
def routingStart (d : Dev) (m : Mode) (groves : Nat) : Dev :=
  let d := if m == .m2 then putFld d 0x10008 0 4 groves else d
  let d := modClk d (fun c => { c with mode := m, target := m, trans := .idle, chain := [], routing := true, ingress := true,
                                       routingAt := c.tclk, holdDone := false, islands := islandsOf d m groves, gating := 0 })
  let d := pllSync d
  let d := listenStart d
  let d := (List.range 24).foldl (fun d ch => if canLive d ch then initDemand d ch false else d) d
  let d := (List.range 8).foldl (fun d p => if groveOn d (p / 2) then portStart d p else d) d
  let d := portStart d 8
  let d := milOpen d
  let d := if m == .m4 then milForce d true else d
  needAll (recOpen d)

/-- R97, R504: BOOT_REPORT. -/
def bootEvent (d : Dev) : Dev := raise d 0x1201 0 (e4 d.upd.bootRep)

/-- R504: the end of a boot: routing opens in the image's start mode, or in M5 with an F3 record (R87); without an image M7
Provision is entered with its ports high-impedance. -/
def bootOpen (d : Dev) (image : Bool) : Dev :=
  let old := d.clk.mode
  if image then
    let m : Mode := if d.flt.record.isSome then .m5 else if d.img.start = 2 then .m2 else if d.img.start = 4 then .m4 else .m3
    let d := routingStart (recordTwin d) m d.img.startGroves
    bootEvent (raise d 0x0401 0 (e1 old.num ++ e1 m.num ++ e1 4))
  else
    let d := modClk d (fun c => { c with mode := .m7, target := .m7, trans := .idle, islands := 0x1FE })
    bootEvent (raise (pllSync { d with cry := { d.cry with hold := true } }) 0x0401 0 (e1 old.num ++ e1 7 ++ e1 4))

end Sys2Proof.Machine
end

