-- ==== Sys2Proof/Machine/Modes.lean ====
section
/-! DEFINITION. The commands that change modes (R86 to R95, R411, R412): PORST_RELEASE, WRST_RELEASE, MODE_REQUEST, GROVE_GATE,
GROVE_RESTORE, WATCH_ENTRY_START, WATCH_RAIL_RELEASE, WATCH_LIMIT_EXPIRE, TRACE_HOLD_EXPIRE, LOCK_TO_SPLIT,
SPLIT_TO_LOCK, SAFE_HOLD_ENTRY, and what WATCH_ENTRY_FLUSH does. -/

namespace Sys2Proof.Machine

/-! ## Resets released (R70, R71, R504) -/

/-- R504: the boot to routing open; with TESTEN 1 the device stays as in reset (DEDUCED, log entry 69). -/
def bootFull (d : Dev) (b : BootInput) (cause : Nat) : Dev :=
  let r := bootRun d b cause
  bootOpen r.1 r.2

/-- R70: PORST_N rises: the straps are sampled; the boot runs unless WRST_N is still low. -/
def porstRelease (d : Dev) (s : Straps) (b : BootInput) : Dev :=
  if !d.clk.porstLow then d
  else
    let d := modClk d (fun c => { c with cmpt := s.cmpt, bootsel := s.bootsel.toNat, testen := s.testen })
    let d := modClk d (fun c => { c with alwaysOn := true, retained := true, switched := true })
    if testHeld d then d
    else if d.clk.wrstLow then modClk d (fun c => { c with porstLow := false })
    else bootFull d b 0

/-- PORST_RELEASE. -/
def execPorstRelease (straps : Straps) (b : BootInput) : State → Host.Outcome State Fault Refusal :=
  act (fun d => porstRelease d straps b)

/-- R504, R518, R527: WRST_N rises, or the boot of a self-reset: CAUSE 1 WRST_N, 3 self-reset, 0 where PORST_N rose first. -/
def wrstRelease (d : Dev) (b : BootInput) : Dev :=
  if d.clk.porstLow then modClk d (fun c => { c with wrstLow := false })
  else if d.clk.wrstLow then bootFull d b (if flag d 0x10040 11 then 1 else 0)
  else if d.clk.selfReset then bootFull d b 3
  else d

/-- WRST_RELEASE. -/
def execWrstRelease (b : BootInput) : State → Host.Outcome State Fault Refusal := act (fun d => wrstRelease d b)

/-! ## Requests (R89, R90, R105) -/

/-- R89, R105: a write of GLB_MODE: REQ is stored; with GO it is a request. A request for M7 without provisioning
authorisation is rejected at the write. -/
def modeRequest (d : Dev) (w : Nat) (auth : Bool) : Dev :=
  let t := Mode.ofNum (bits w 8 3)
  let d := putFld d 0x10 8 3 (bits w 8 3)
  if !bit w 11 then d
  else if t == .m7 && !auth then modeReject d t (if (pathTo d.clk.mode t).isNone then reqReason d t else 3)
  else if modeBusy d then modePend d t
  else modeDecide d t

/-- MODE_REQUEST. -/
def execModeRequest (who : Initiator) (w : Word) (auth : Bool) : State → Host.Outcome State Fault Refusal :=
  access who (.modeRequest who w auth) (fun d => regWr d who 0x10 (fun d => modeRequest d w.toNat auth))

/-! ## Groves (R87, R428) -/

/-- R428, R87: automatic gating in M2 and M3: every cluster of the grove sleeps and the image permits it. CKP_GROVEAWAKE then
names the groves that stay (DEDUCED, log entry 70). -/
def autoGate (d : Dev) (g : Nat) : Dev :=
  if (d.clk.mode == .m2 || d.clk.mode == .m3) && !modeBusy d && !d.clk.f4Pend && !d.clk.f3Pend && gateOk d && groveOn d g &&
      groveIdle d g then
    let d := putFld d 0x10008 0 4 (groveMask d &&& (15 ^^^ 2 ^ g))
    modClk d (fun c => { c with trans := .regroup 0 (2 ^ g), chain := [.m2], target := .m2, trig := 1 })
  else d

/-- R87: one grove of the change is gated: its admission closes, and when its channels are in INIT it is powered off. A grove
with a cluster that has woken meanwhile stays, and CKP_GROVEAWAKE names it. -/
def gateStep (d : Dev) (g : Nat) : Dev :=
  match d.clk.trans with
  | .regroup 0 drop =>
    if !bit drop g then d
    else if !groveIdle d g then
      let d := putFld d 0x10008 0 4 (awakeMask d ||| 2 ^ g)
      let d := (groveChans g).foldl (fun d ch => if (canOf d ch).demand then initDemand d ch false else d) d
      regroupEnd (modClk d (fun c => { c with trans := .regroup 0 (setBit drop g false), gating := setBit c.gating g false }))
    else
      let d := if bit d.clk.gating g then d else groveClose d g
      if groveInit d g then
        regroupEnd (modClk (groveOff d g) (fun c => { c with trans := .regroup 0 (setBit drop g false) }))
      else d
  | _ => d

/-- GROVE_GATE. -/
def execGroveGate (g : Nat) : State → Host.Outcome State Fault Refusal :=
  act (fun d => if g < 4 && running d then gateStep (autoGate d g) g else d)

/-- R87: a cluster with a member in the grove is awake. -/
def groveCalled (d : Dev) (g : Nat) : Bool :=
  (List.range 32).any (fun c => nmTakesPart d c && (clusterOf d c).st != 0 &&
    ((nmCans d c).any (fun ch => ch / 6 == g) || (nmEths d c).any (fun p => p / 2 == g)))

/-- R87, R105: a wake of an NM cluster in a gated grove sets its bit of CKP_GROVEAWAKE. -/
def autoRestore (d : Dev) (g : Nat) : Dev :=
  if d.clk.mode == .m2 && !modeBusy d && !d.clk.f4Pend && !d.clk.f3Pend && !groveOn d g && groveCalled d g then
    let d := putFld d 0x10008 0 4 (awakeMask d ||| 2 ^ g)
    let m : Mode := if (groveMask d ||| 2 ^ g) = 15 then .m3 else .m2
    modClk d (fun c => { c with trans := .regroup (2 ^ g) 0, chain := [m], target := m, trig := 1 })
  else d

/-- R87: one grove of the change is powered. -/
def restoreStep (d : Dev) (g : Nat) : Dev :=
  match d.clk.trans with
  | .regroup add drop =>
    if bit add g then regroupEnd (modClk (grovePower d g) (fun c => { c with trans := .regroup (setBit add g false) drop })) else d
  | _ => d

/-- GROVE_RESTORE. -/
def execGroveRestore (g : Nat) : State → Host.Outcome State Fault Refusal :=
  act (fun d => if g < 4 && running d then restoreStep (autoRestore d g) g else d)

/-! ## Watch entry (R92 to R94, R428) -/

/-- R87, R428: Watch entry may begin of itself. -/
def watchAuto (d : Dev) : Bool :=
  (d.clk.mode == .m2 || d.clk.mode == .m3 || d.clk.mode == .m5) && !modeBusy d && watchOk d && allAsleep d && d.clk.holdDone

/-- R92 step 1, R514: ingress admission closes; an open update session ends. -/
def watchBegin (d : Dev) : Dev :=
  let to0 := d.clk.chain == [.m1, .m0]
  let d := { d with upd := { d.upd with sess := 0, busy := false, staging := [] } }
  modClk d (fun c => { c with trans := .watchEntry c.mode to0 false, ingress := false, target := .m1 })

/-- R92, R428: a requested entry begins once the shutdown checkpoints are stored; one whose clusters have woken is rejected, and
the pending request is decided (R90). -/
def watchStart (d : Dev) : Dev :=
  if !running d || !d.clk.routing || d.clk.f4Pend || d.clk.f3Pend || d.clk.trans != .idle then d
  else if d.clk.chain.head? == some .m1 then
    (if !allAsleep d then
      pendSettle (modeReject (modClk d (fun c => { c with chain := [], target := c.mode })) (if d.clk.chain == [.m1, .m0] then .m0 else .m1) 2)
     else if allShut d then watchBegin d else d)
  else if watchAuto d && allShut d then watchBegin (modClk d (fun c => { c with chain := [.m1], trig := 1 }))
  else d

/-- WATCH_ENTRY_START. -/
def execWatchEntryStart : State → Host.Outcome State Fault Refusal := act watchStart

/-- R92 step 2: what is still queued is flushed and counted; the channels are to enter INIT; the recorder and the bridge stop
(R490). Frames whose lookup has not been decided are counted by the Route Engine (DEDUCED, log entry 73). -/
def watchFlush (d : Dev) : Dev :=
  match d.clk.trans with
  | .watchEntry src to0 false =>
    let d := flushQueues (flushWaiting d (fun _ => false)) (liveQueues d)
    let d := (List.range 10).foldl dropLookups d
    let d := (List.range 24).foldl (fun d ch => if canLive d ch then initDemand d ch true else d) d
    modClk (recWatch (brgWatch d)) (fun c => { c with trans := .watchEntry src to0 true })
  | _ => d

/-- R93: the entry is abandoned: the source mode resumes with routing open. -/
def watchAbort (d : Dev) (src : Nat) : Dev :=
  let d := modClk d (fun c => { c with trans := .idle, chain := [], ingress := true, target := c.mode })
  let d := (List.range 24).foldl (fun d ch => if (canOf d ch).demand then initDemand d ch false else d) d
  needAll (recSync (modeSettle (raise d 0x0403 0 (e1 src))))

/-- R458: the collector writes every event that it still holds, in order. -/
def flushEvents : Nat → Dev → Dev
  | 0, d => d
  | n + 1, d =>
    match d.evs.foldl (fun (a : Option Ev) e => match a with
      | none => some e
      | some x => if evBefore e x then some e else some x) none with
    | none => d
    | some ev => flushEvents n ((evqMap d ev.code).foldl (eventTo ev false) { d with evs := d.evs.erase ev })

/-- A channel and a port in M1: what is in no retention is lost (DEDUCED, log entry 74). -/
def watchCan (c : CanCh) : CanCh := { mbOn := c.mbOn, bterr := c.bterr }
def watchEth (e : EthP) : EthP := { st := if e.st = 0 then 0 else if e.st = 4 then 4 else 1, sleepReq := e.sleepReq }

/-- R16, R86, R92: what M1 Watch leaves of the device (DEDUCED, log entry 74): of the Tally counters those in AON. -/
def watchKeep (d : Dev) : Dev :=
  { d with
    whl := { d.whl with slot := 0, turn := 0, xings := aonXings (isolateCommons d) }, lnd := { ({} : Lnd) with nextId := d.lnd.nextId }, rte := {}
    mil := { ({} : Mil) with pduBad := d.mil.pduBad }
    img := { d.img with active := [], pduOn := false, preLost := 0, sigEvent := false }
    can := d.can.map (fun e => (e.1, watchCan e.2)), eth := d.eth.map (fun e => (e.1, watchEth e.2))
    cry := { d.cry with pages := [], cur := [], served := [], txSa := [], rxSa := [], wReady := false, wData := [] }
    eps := [], hspi := {}, pairs := [], brg := {}, flt := { d.flt with twins := [], commits := 0 }, rcd := recSleep d.rcd
    tally := aonTally d, clears := d.clears.filter (fun c => c.covers 0x7C0218) }

/-- R65, R66: the balls as M1 Watch drives them. -/
def watchPins (d : Dev) : Dev :=
  if !d.clk.pinsOn then d
  else
    let d := emit (emit (drive (drive d 4 false) 3 false) (.lineZ 1)) (.lineZ 7)
    let d := (List.range 24).foldl (fun d ch => if canInImage d ch then emit d (.lineZ (64 + ch)) else d) d
    let d := (roleGpios d 2 ++ roleGpios d 6).foldl (fun d g => emit d (.lineZ (32 + g))) d
    emit { d with out := ddrHold d.rcd d.out } (.lineZ 6)

/-- R87, R104: M0 Dormant is in force. Its MODE_CHANGE carries `trig`: 0 after a request. None of the triggers of R104 is named
for a WATCH_LIMIT that has elapsed: the model gives 1, NM (DESIGN CHOICE, log entry 141). -/
def dormantEnter (d : Dev) (trig : Nat) : Dev :=
  let d := dormantDev d
  drive (raise (modClk d (fun c => { c with mode := .m0, retained := false })) 0x0401 0 (e1 1 ++ e1 0 ++ e1 trig)) 5 false

/-- R92 step 5, R93: the rail-release instant: the collector writes all that it holds, MODE_CHANGE the last of it (DEDUCED,
log entry 135); M1 Watch is in force; on a request for M0, M0 at once. An F3 fault that waits leaves its record to the wake
(R87), and the pending request is decided at this end of the transition (R90). -/
def watchEnter (d : Dev) (src : Mode) (to0 : Bool) : Dev :=
  let trig := d.clk.trig
  let req := d.clk.pendReq
  let d := hostDown (hostDown d 0) 1
  let d := raise d 0x0401 0 (e1 src.num ++ e1 1 ++ e1 trig)
  let d := watchPins (watchKeep (flushEvents d.evs.length d))
  let d := modClk d (fun c =>
    { c with mode := .m1, target := .m1, trans := .idle, chain := [], pendReq := none, f3Pend := false, routing := false, enSw := false, switched := false,
             xtalOk := false, pllRun := 0, pllLock := 0, islands := 1 + 0x200 * d.rcd.sr.toNat, watchAt := c.tclk, sag := {} })
  reqSettle (if to0 then dormantEnter d 0 else d) req

/-- R92, R428, R518: the rail-release instant, once every channel is in INIT; after a trial fallback a self-reset in place of
M1. A cluster that has woken since abandons the entry. -/
def railRelease (d : Dev) : Dev :=
  match d.clk.trans with
  | .watchEntry src to0 true =>
    if d.clk.f4Pend || !(List.range 24).all (fun ch => (canOf d ch).state == 0) then d
    else if !allAsleep d then watchAbort d Config.abortSource.toNat
    else if d.upd.expired then selfReset d
    else watchEnter d src to0
  | _ => d

/-- WATCH_RAIL_RELEASE. -/
def execWatchRailRelease : State → Host.Outcome State Fault Refusal := act (fun d => if running d then railRelease d else d)

/-! ## M1 to M0 (R87, R95, R105) -/

/-- M1 Watch is in force and nothing wakes. -/
def watching (d : Dev) : Bool := outOfReset d && d.clk.mode == .m1 && d.clk.trans == .idle

/-- TIME cycles of a minute. -/
def minuteCycles : Nat := 60 * secCycles

/-- R105: TRACE_HOLD hours have passed since M1 came into force (DEDUCED, log entry 64), or no frozen trace defers M0. -/
def holdOver (d : Dev) : Bool :=
  !d.rcd.sr || decide (d.clk.watchAt + 60 * minuteCycles * fld d 0x10050 16 16 ≤ d.clk.tclk)

/-- R87, R105: WATCH_LIMIT has elapsed. -/
def limitOver (d : Dev) : Bool :=
  fld d 0x10050 0 16 != 0 && decide (d.clk.watchAt + minuteCycles * fld d 0x10050 0 16 ≤ d.clk.tclk)

/-- WATCH_LIMIT_EXPIRE. -/
def execWatchLimitExpire : State → Host.Outcome State Fault Refusal :=
  act (fun d => if watching d && limitOver d && holdOver d then dormantEnter d 1 else d)

/-- R105, R491: TRACE_HOLD has expired: the frozen trace is discarded and the event stored; M0 follows where WATCH_LIMIT has
elapsed too. TRACE_HOLD 0 defers nothing and expires never. -/
def traceHold (d : Dev) : Dev :=
  if watching d && d.rcd.sr && fld d 0x10050 16 16 != 0 && holdOver d then
    let d := raise (modClk { d with rcd := recDiscard d.rcd } (fun c => { c with islands := 1 })) 0x0404 0 []
    let d := if d.clk.pinsOn then { d with out := ddrHold d.rcd d.out } else d
    if limitOver d then dormantEnter d 1 else d
  else d

/-- TRACE_HOLD_EXPIRE. -/
def execTraceHoldExpire : State → Host.Outcome State Fault Refusal := act traceHold

/-! ## Lock, split, Safe-Hold (R91, R411 to R413) -/

/-- The Mill's and the service cores' twins take a mark. -/
def splitMark (d : Dev) : Dev := (List.range 5).foldl (fun d i => twinMark d (10 + i)) d

/-- R411, R413: lock to split, at the boundary after a request, or after the resume of a recovery. -/
def lockToSplit (d : Dev) : Dev :=
  if running d && d.clk.mode == .m3 && d.clk.trans == .idle && d.clk.chain.head? == some .m4 && !d.clk.f4Pend && splitTwinsRun d then
    modeSettle (modeEnter (splitMark (milForce d true)) .m4 d.clk.trig)
  else d

/-- LOCK_TO_SPLIT. -/
def execLockToSplit : State → Host.Outcome State Fault Refusal := act lockToSplit

/-- R412: split to lock: the work in hand completes, dirty lines are written back, state is copied again. -/
def splitToLock (d : Dev) : Dev :=
  if running d && d.clk.mode == .m4 && d.clk.trans == .idle && d.clk.chain.head? == some .m3 && !d.clk.f4Pend then
    modeSettle (modeEnter (splitMark (writeBackAll (milForce d false))) .m3 d.clk.trig)
  else d

/-- SPLIT_TO_LOCK. -/
def execSplitToLock : State → Host.Outcome State Fault Refusal := act splitToLock

/-- R91: M6 entry is due: by an F4 fault, or by a request. -/
def holdDue (d : Dev) : Bool :=
  running d && d.clk.mode != .m6 && (d.clk.f4Pend || (d.clk.trans == .idle && d.clk.chain.head? == some .m6))

/-- SAFE_HOLD_ENTRY. -/
def execSafeHoldEntry : State → Host.Outcome State Fault Refusal := act (fun d => if holdDue d then safeHold d else d)

end Sys2Proof.Machine
end

