-- ==== Sys2Proof/Machine/Wake.lean ====
section
/-! DEFINITION. Wakes (R93, R95 to R97, R203 to R206, R435): WAKE_IN_EDGE, PHY_INT_N_EDGE, SWK_MATCH, SWK_FEC_WAKE, RTC_ALARM,
RETAINED_POWER_GOOD, POWER_GOOD, ROUTING_OPEN. -/

namespace Sys2Proof.Machine

/-! ## The device wake event (R93, R95, R96) -/

/-- R105: the bit of a source in CKP_WAKESRC. -/
def wakeSrcSet (d : Dev) (src : Nat) (first : Bool) : Dev :=
  let w := reg d 0x10040
  putReg d 0x10040 (setBit (if first then setBits w 0 10 0 else w) src true)

/-- R96 step 1: the event is recorded (DEDUCED, log entry 66). -/
def wakeRecord (d : Dev) (src chan : Nat) : Dev :=
  modClk (wakeSrcSet d src true) (fun c => { c with wakeFirst := src, wakeChan := chan, wakeTime := c.rtc })

/-- R93, R95 to R97: a device wake event: it abandons a Watch entry before the rail-release instant, starts the wake sequence
in M1 and M0, and joins one that runs. -/
def wakeEvent (d : Dev) (src chan : Nat) : Dev :=
  if !outOfReset d then d
  else match d.clk.trans with
    | .watchEntry _ _ _ => if d.clk.f4Pend then d else watchAbort d src
    | .wake _ => wakeSrcSet d src false
    | _ =>
      if d.clk.mode == .m1 then
        drive (modClk (wakeRecord d src chan) (fun c => { c with trans := .wake false, enSw := true })) 4 true
      else if d.clk.mode == .m0 then
        drive (modClk (wakeRecord d src chan) (fun c => { c with trans := .wake true, enRet := true })) 5 true
      else d

/-! ## Sources (R435, R105, R206) -/

/-- R435: a cluster woken by an input: in M0 Dormant AON holds no image, and the cluster that it maps is checked when routing
opens. -/
def inputWake (src : Nat) (d : Dev) (c : Nat) : Dev :=
  if decide (2 ≤ d.clk.mode.num) || d.clk.mode == .m1 then nmEvent d c src
  else if (clusterOf d c).st = 0 then inhUpdate (modNm d c (fun k => { k with st := 1, src := src })) else d

/-- R435: the edge is one that EDGE takes. -/
def edgeTaken (d : Dev) (i : Nat) (rising : Bool) : Bool :=
  match fld d (0x7E0100 + 8 * i) 1 2 with
  | 1 => !rising
  | 2 => true
  | _ => rising

/-- R238: a remote TC10 wake that the PHYs report through WAKE_IN: the sleeping ports of the clusters that the input wakes. -/
def portsWake (d : Dev) (mask : Nat) : Dev :=
  (List.range 8).foldl (fun d p => match ethCluster d p with
    | some c => if bit mask c && (ethOf d p).st = 4 then tc10Wake d p else d
    | none => d) d

/-- R238, R435: an accepted WAKE_IN edge. -/
def wakeIn (d : Dev) (i : Nat) (rising : Bool) : Dev :=
  if !outOfReset d || 8 ≤ i || !flag d (0x7E0100 + 8 * i) 0 || !edgeTaken d i rising then d
  else
    let m := reg d (0x7E0104 + 8 * i)
    wakeEvent ((bitList 32 m).foldl (inputWake 3) (portsWake d m)) i 0

/-- WAKE_IN_EDGE. -/
def execWakeInEdge (i : Nat) (rising : Bool) : State → Host.Outcome State Fault Refusal := act (fun d => wakeIn d i rising)

/-- R112, R238, R435: a PHY_INT_N ball reports a TC10 wake of the port that its PARAM names. The ball is Z in M0 and M1
(R66). -/
def phyInt (d : Dev) (g : Nat) : Dev :=
  match (roleRecs d 7).find? (fun r => pnGpio r == some g) with
  | none => d
  | some r =>
    let p := bits r 23 4
    if !running d || !d.clk.pinsOn || 8 ≤ p || !flag d (ethBase p + 0x20) 0 then d
    else
      let d := tc10Wake d p
      match ethCluster d p with
      | some c => nmEvent d c 5
      | none => d

/-- PHY_INT_N_EDGE. -/
def execPhyIntNEdge (gpio : Nat) : State → Host.Outcome State Fault Refusal := act (fun d => phyInt d gpio)

/-- R203: the data condition of a pattern. -/
def swkData (d : Dev) (b : Nat) (f : CanFrame) : Bool :=
  let data := leNat (fit 8 f.data)
  let want := regPair d (b + 0x10)
  let mask := regPair d (b + 0x18)
  match fld d (b + 8) 5 2 with
  | 1 => data &&& mask != 0
  | 2 => data &&& mask == want &&& mask
  | _ => true

/-- R203: a frame with data length code `dlc` matches pattern `k`. -/
def swkHit (d : Dev) (ch k dlc : Nat) (f : CanFrame) : Bool :=
  let b := canBase ch + 0x80 + 0x20 * k
  let idm := fld d (b + 4) 0 29
  flag d (canBase ch + 0x70) (1 + k) && (f.xtd == flag d b 29) && (f.id &&& idm == fld d b 0 29 &&& idm) &&
    (!flag d (b + 8) 4 || dlc == fld d (b + 8) 0 4) && swkData d b f

/-- R206: the wake of a watched channel: of its cluster, and of the device. -/
def swkWake (d : Dev) (ch : Nat) : Dev :=
  let d := match canCluster d ch with | some c => nmEvent d c 4 | none => d
  wakeEvent d 8 ch

/-- R203 to R206: a frame on a watched channel: FD and XL frames count as nothing; a valid Classical frame lowers the error
counter, and the first pattern that it matches wakes the device; the wake frame counts in CKP_WAKEDROP (R96). -/
def swkFrame (d : Dev) (ch dlc : Nat) (f : CanFrame) : Dev :=
  if !swkWatched d ch || f.fmt != .classical then d
  else
    let d := modCan d ch (fun c => { c with swkFec := c.swkFec - 1 })
    match (List.range 4).find? (fun k => swkHit d ch k dlc f) with
    | some k => swkWake (modCan (bump d 0x10028 0) ch (fun c => { c with swkPat := k, swkMatch := true })) ch
    | none => d

/-- SWK_MATCH. -/
def execSwkMatch (ch : Nat) (f : SwkFrame) : State → Host.Outcome State Fault Refusal :=
  act (fun d => swkFrame d ch f.dlc f.frame)

/-- R204: the frame error counter is above FECTHR. -/
def swkFecWake (d : Dev) (ch : Nat) : Dev :=
  if swkWatched d ch && flag d (canBase ch + 0x70) 5 && decide (fld d (canBase ch + 0x70) 6 6 < (canOf d ch).swkFec) then
    swkWake (modCan d ch (fun c => { c with swkFecW := true })) ch
  else d

/-- SWK_FEC_WAKE. -/
def execSwkFecWake (ch : Nat) : State → Host.Outcome State Fault Refusal := act (fun d => swkFecWake d ch)

/-- R87, R105: CKP_RTC equals the alarm, which is not 0. The alarm wakes no cluster (R428). -/
def rtcAlarm (d : Dev) : Dev :=
  let a := regPair d 0x10038
  if a != 0 && d.clk.rtc == a then wakeEvent d 9 0 else d

/-- RTC_ALARM. -/
def execRtcAlarm : State → Host.Outcome State Fault Refusal := act rtcAlarm

/-! ## The wake sequences (R96, R97) -/

/-- R97 step 2: the retained rails are in tolerance: SUPPLY_EN_SW is driven high. -/
def retainedGood (d : Dev) : Dev :=
  if d.clk.trans == .wake true && !d.clk.enSw then
    drive (modClk d (fun c => { c with enSw := true, retained := true })) 4 true
  else d

/-- RETAINED_POWER_GOOD. -/
def execRetainedPowerGood : State → Host.Outcome State Fault Refusal := act retainedGood

/-- R97: SRC of CKP_WAKEFIRST names the wake's source, and WAKEGROVES its groves (R106). -/
def wakeGroves (d : Dev) : Nat := bits d.img.wakeGroves (4 * d.clk.wakeFirst) 4

/-- R87, R106, R410: the mode that a wake opens: M5 with a fault record, else the image's wake mode. -/
def wakeTarget (d : Dev) : Mode := if d.flt.record.isSome then .m5 else if d.img.wakeMode = 2 then .m2 else .m3

/-- R96 steps 3 to 7: crystal and PLLs start, the islands of the wake's mode are powered and WATCH is isolated, balls are as
configured. -/
def wakePower (d : Dev) : Dev :=
  let d := isolateWatch d
  let d := modClk d (fun c => { c with xtalOk := true, islands := islandsOf d (wakeTarget d) (wakeGroves d), target := wakeTarget d })
  pinsApply (bootBalls (pllSync d))

/-- R96, R97: the switched rails are in tolerance: a wake from M1 restores what was retained, one from M0 boots with CAUSE 2. -/
def powerGood (d : Dev) (b : BootInput) : Dev :=
  if d.clk.xtalOk || !d.clk.enSw || !outOfReset d then d
  else
    let d := modClk d (fun c => { c with switched := true })
    match d.clk.trans with
    | .wake false => wakePower d
    | .wake true => (bootRun d b 2).1
    | _ => d

/-- POWER_GOOD. -/
def execPowerGood (b : BootInput) : State → Host.Outcome State Fault Refusal := act (fun d => powerGood d b)

/-- R435, R437: after M0 Dormant, the clusters that an input has woken and that take part report it. -/
def dormantWakes (d : Dev) : Dev :=
  (List.range 32).foldl (fun d c =>
    if (clusterOf d c).st = 1 && nmTakesPart d c then nmWakeEvent d c (clusterOf d c).src else d) d

/-- R96 step 8, R85, R104: routing opens after a wake: WAKE_REPORT first, then what AON stored, and MODE_CHANGE stamped with
it (DEDUCED, log entry 75). -/
def routingOpen (d : Dev) : Dev :=
  if !waking d || !outOfReset d then d
  else match d.clk.trans with
    | .wake dorm =>
      let old := d.clk.mode
      let m : Mode := if d.img.fast then wakeTarget d else .m7
      let millWas := bit d.clk.islands 6
      let d := modClk d (fun c => { c with mode := m, target := m, trans := .idle })
      let was := synced d
      let d := aonRaise (raise (timeSeed { d with evs := [] }) 0x0430 0 (e2 (wakeFirstWord d)))
      let d := if was then raise d 0x080A 0 (eFlag false) else d
      let d := raiseAt d (nowNs d + 2) 0x0401 0 (e1 old.num ++ e1 m.num ++ e1 3)
      let d := if d.img.fast then routingStart (recordTwin d) m (wakeGroves d)
        else pllSync (modClk { d with cry := { d.cry with hold := true } } (fun c => { c with islands := 0x1FE }))
      let d := if millWas && !dorm then milStart d else d
      if dorm then bootEvent (dormantWakes d) else d
    | _ => d

/-- ROUTING_OPEN. -/
def execRoutingOpen : State → Host.Outcome State Fault Refusal := act routingOpen

end Sys2Proof.Machine
end

