-- ==== Sys2Proof/Machine/Power.lean ====
section
/-! DEFINITION. Supply sag, clock faults, rails and PHY resets (R67, R75, R98 to R102): SAG_DETECTOR_REPORT, SAG_HOLD_END,
SAG_STEP_END, SAG_PERSIST, PLL_UNLOCK, XTAL_FAIL, SDS_PLL_RELOCK_RETRY, PHY_RST_RELEASE, RAIL_LOSS. -/

namespace Sys2Proof.Machine

/-! ## The slowdown episode (R99, R101) -/

/-- Change the episode. -/
def modSag (d : Dev) (f : Sag → Sag) : Dev := modClk d (fun c => { c with sag := f c.sag })

/-- R101, R105: PERSIST_LIM as it acts, in µs. -/
def persistLim (d : Dev) : Nat := clamp 100 10000 (fld d 0x10010 16 14)

/-- R84, R99: the clock is halved: a new ratio begins with edge 0 of a group. -/
def sagReport (d : Dev) (det : Nat) : Dev :=
  if !running d || 8 ≤ det then d
  else
    let now := d.clk.tclk
    let lim := persistLim d
    if d.clk.sag.active then
      modSag d (fun s => if s.phase = 1 then { s with since := now } else { s with phase := 1, since := now, n := 4, edge := 0 })
    else
      modSag d (fun s => { s with active := true, phase := 1, firstDet := det, limit := lim, start := now, since := now, n := 4, edge := 0
                                  overLimit := false })

/-- SAG_DETECTOR_REPORT. -/
def execSagDetectorReport (det : Nat) : State → Host.Outcome State Fault Refusal := act (fun d => sagReport d det)

/-- R99: 2 µs (1,000 TIME cycles) have passed with no report: step 1 at 500 MHz. -/
def sagHoldEnd (d : Dev) : Dev :=
  let s := d.clk.sag
  if s.active && s.phase == 1 && decide (s.since + 1000 ≤ d.clk.tclk) then
    modSag d (fun s => { s with phase := 2, since := d.clk.tclk, n := 5, edge := 0 })
  else d

/-- SAG_HOLD_END. -/
def execSagHoldEnd : State → Host.Outcome State Fault Refusal := act sagHoldEnd

/-- R105: the µs of an episode, rounded to the nearest: 500 TIME cycles each. -/
def sagMicros (d : Dev) : Nat := (d.clk.tclk - d.clk.sag.start + 250) / 500

/-- R99, R104: the end of the episode: counted, its time added, and reported with EVT_EN. -/
def sagOver (d : Dev) : Dev :=
  let us := sagMicros d
  let det := d.clk.sag.firstDet
  let d := bumpBy (bump d 0x10018 0) 0x10020 0 us
  let d := modSag d (fun s => { s with active := false, phase := 0 })
  if flag d 0x10010 31 then raiseF d 0x0410 1 (e4 us ++ e1 det) else d

/-- R99: 500 ns (250 TIME cycles) of a step have passed: the next step, or the end of the episode after step 4. -/
def sagStepEnd (d : Dev) : Dev :=
  let s := d.clk.sag
  if !s.active || s.phase < 2 || d.clk.tclk < s.since + 250 then d
  else if s.phase < 5 then
    modSag d (fun s => { s with phase := s.phase + 1, since := d.clk.tclk, n := min 8 (s.n + 1), edge := 0 })
  else sagOver d

/-- SAG_STEP_END. -/
def execSagStepEnd : State → Host.Outcome State Fault Refusal := act sagStepEnd

/-- R101: the episode is longer than the limit in force at its start. PERSIST is sticky; the episode goes on. -/
def sagPersist (d : Dev) : Dev :=
  let s := d.clk.sag
  if s.active && !s.overLimit && decide (s.start + usCycles s.limit < d.clk.tclk) then
    raiseF4 (modSag d (fun s => { s with persist := true, overLimit := true })) 0x0411 (e4 s.limit)
  else d

/-- SAG_PERSIST. -/
def execSagPersist : State → Host.Outcome State Fault Refusal := act sagPersist

/-! ## Clock faults (R102) -/

/-- The ports served by a SerDes PLL. -/
def sdsPorts (n : Nat) : List Nat := (List.range 4).map (fun i => 4 * n + i)

/-- R102: a PLL that runs has lost its lock. -/
def pllUnlock (d : Dev) (p : Nat) : Dev :=
  if !running d || 8 ≤ p || !bit d.clk.pllLock p then d
  else
    let d := modClk d (fun c => { c with pllLock := setBit c.pllLock p false })
    if p < 4 then raiseF4 (modClk d (fun c => { c with backup := c.backup || p == 0 })) 0x0420 (e1 p)
    else
      let d := raise d 0x0420 0 (e1 p)
      if p < 6 then (sdsPorts (p - 4)).foldl (fun d n => linkFault d n .sdsPll) d else hostDown d (p - 6)

/-- PLL_UNLOCK. -/
def execPllUnlock (pll : Nat) : State → Host.Outcome State Fault Refusal := act (fun d => pllUnlock d pll)

/-- R102: the crystal has failed: the core is on the backup oscillator, and M6 keeps no hold routes. -/
def xtalFail (d : Dev) : Dev :=
  if !running d || !d.clk.xtalOk then d
  else raiseF4 (modClk d (fun c => { c with xtalOk := false, backup := true, noHold := true })) 0x0421 []

/-- XTAL_FAIL. -/
def execXtalFail : State → Host.Outcome State Fault Refusal := act xtalFail

/-- R102: a lost SerDes PLL is tried again. -/
def sdsRetry (d : Dev) (n : Nat) (locked : Bool) : Dev :=
  if running d && decide (n < 2) && bit d.clk.pllRun (4 + n) && locked then
    modClk d (fun c => { c with pllLock := setBit c.pllLock (4 + n) true })
  else d

/-- SDS_PLL_RELOCK_RETRY. -/
def execSdsPllRelockRetry (sds : Nat) (locked : Bool) : State → Host.Outcome State Fault Refusal :=
  act (fun d => sdsRetry d sds locked)

/-! ## Balls and rails (R67, R75) -/

/-- R67, R112: the delay of a PHY_RST_N role, PARAM [7:0] in ms, has passed since the pin section was applied: the ball is
released. -/
def phyRelease (d : Dev) (g : Nat) : Dev :=
  match (roleRecs d 6).find? (fun r => pnGpio r == some g) with
  | none => d
  | some r =>
    if !running d || !d.clk.pinsOn || d.clk.phyOut.contains g || d.clk.tclk < d.clk.pinsAt + usCycles (1000 * bits r 23 8) then d
    else
      let d := modClk d (fun c => { c with phyOut := c.phyOut ++ [g] })
      if d.clk.safeOut then d else emit d (.line (32 + g) (!bit r 22))

/-- PHY_RST_RELEASE. -/
def execPhyRstRelease (gpio : Nat) : State → Host.Outcome State Fault Refusal := act (fun d => phyRelease d gpio)

/-- R75: the rails of a group are lost. With the always-on group the board asserts PORST_N. What flash, fuses and the vault's
store hold is not corrupted (DESIGN CHOICE, log entry 5). -/
def railLoss (d : Dev) (g : RailGroup) : Dev :=
  match g with
  | .alwaysOn => modClk (if d.clk.porstLow then d else porstDev d) (fun c => { c with alwaysOn := false })
  | .retained => modClk d (fun c => { c with retained := false })
  | .switched => modClk d (fun c => { c with switched := false })

/-- RAIL_LOSS. -/
def execRailLoss (g : RailGroup) : State → Host.Outcome State Fault Refusal := act (fun d => railLoss d g)

end Sys2Proof.Machine
end

