-- ==== Sys2Proof/Machine/Wheel.lean ====
section
/-! DEFINITION. The slot wheel (R14, R16, R32, R149 to R151, R396): WHEEL_BOUNDARY and KERF_SLOT. -/

namespace Sys2Proof.Machine

/-- Change the wheel. -/
def modWhl (d : Dev) (f : Whl → Whl) : Dev := { d with whl := f d.whl }

/-! ## The boundary -/

/-- R396: a mark is due for a twin at this turn. -/
def markDue (d : Dev) (w : Twin) : Bool := d.whl.turn % 8 == 0 || w.unmarked || Config.undoPressure d.whl.turn

/-- R396, R397: marks; none is taken from freeze to resume. -/
def takeMarks (d : Dev) : Dev :=
  let zero := markDue d (twinOf d 0) && !frozen d 0
  let d := (d.flt.twins.filter (fun e => e.2.phase == 0 && markDue d e.2)).foldl (fun d e => twinMark d e.1) d
  if zero then frameMark d else d

/-- R14: a staged commit comes in force; an open window waits for the kerf slot after this boundary (R32). -/
def boundaryCommit (d : Dev) : Dev :=
  let d := if d.com.staged then commitBoundary d else d
  if d.com.window then { d with com := { d.com with due := true } } else d

/-- R53, R253, R300, R328, R350, R432: counts of losses that have waited out their 100 µs are reported. -/
def boundaryLosses (d : Dev) : Dev := authDropDue (milLossDue (pncLossDue (rteLossDue (hostLossDue d))))

/-- R87: M7 Provision is entered on an authorised request. -/
def provisionEntry (d : Dev) : Dev :=
  if d.clk.trans == .idle && d.clk.chain.head? == some .m7 && d.clk.mode == .m3 && !d.clk.f4Pend then
    modeSettle (holdEntry d .m7 d.clk.trig)
  else d

/-- R91, R87: what modes do at a boundary: the end of a change of groves, M7 entry, M5 entry. -/
def boundaryModes (d : Dev) : Dev := degradedEntry (provisionEntry (regroupEnd d))

/-- WHEEL_BOUNDARY: a turn ends and a new one begins. An UPD RESET that waits acts now, as WRST_N (R512). -/
def wheelBoundary (d : Dev) : Dev :=
  if !running d then d
  else
    let d := modWhl d (fun w => { w with slot := 0, turn := (w.turn + 1) % 2 ^ 64 })
    let d := takeMarks (boundaryLosses (applyClears (boundaryCommit d)))
    let d := recReleaseDue { d with nmc := { d.nmc with gate := pncMask d } }
    if d.upd.resetDue then selfReset d else boundaryModes d

/-- WHEEL_BOUNDARY. -/
def execWheelBoundary : State → Host.Outcome State Fault Refusal := act wheelBoundary

/-! ## Kerf slots (R149 to R151) -/

/-- R150: the rows of a scrubbed memory. -/
def memRows (m : Nat) : Nat :=
  if m = 0 then 65536 else if m = 1 then 32768 else if m = 2 then 32768 else if m = 3 then 16384 else 4096

/-- The signal line that a row of the cache holds: row = way * 8,192 + set (DEDUCED, log entry 79). -/
def cacheRowLine (d : Dev) (row : Nat) : Option Nat :=
  ((d.mil.cache.filter (fun e => e.1 % 8192 == row % 8192))[row / 8192]?).map (fun e => e.1)

/-- R325: what the owner of a memory does about an uncorrectable error; the chapters of the route table and of the key slots
state nothing (DEDUCED, log entry 79), and a cell's is found again when it is read (R267). -/
def memDamage (d : Dev) (m row : Nat) : Dev :=
  if m = 2 then (match cacheRowLine d row with | some l => lineReload d l 0 | none => d)
  else if m = 3 then pduDamage d row
  else d

/-- R150: one finding of the row scrubbed. -/
def scrubFinding (row : Nat) (d : Dev) (f : EccFinding) : Dev :=
  if f.uncorr then memDamage (memUnc d f.mem row) f.mem row else memCorr d f.mem row

/-- R150: one memory scrubs its next row. -/
def scrubRow (ecc : List EccFinding) (d : Dev) (m : Nat) : Dev :=
  let row := mapGet 0 d.whl.scrub m
  let d := modWhl d (fun w => { w with scrub := mapStore 0 w.scrub m ((row + 1) % memRows m) })
  (ecc.filter (fun f => f.mem == m)).foldl (scrubFinding row) d

/-- R151: an owner table's own lane: a corrected error is F1; an uncorrectable one disables its slot. -/
def ownerFinding (d : Dev) (o : OwnerEcc) : Dev :=
  if !o.uncorr then noteClass d 1
  else
    raiseF4 (modWhl d (fun w => { w with damaged := if w.damaged.contains (256 * o.res + o.slot) then w.damaged
                                                    else w.damaged ++ [256 * o.res + o.slot] })) 0x0605 (e1 o.res ++ e1 o.slot)

/-- R325: uncorrectable errors stand in source records from now on. -/
def srcErrors (d : Dev) (src : List Nat) : Dev :=
  src.foldl (fun d x => if d.mil.srcErr.contains x then d else { d with mil := { d.mil with srcErr := d.mil.srcErr ++ [x] } }) d

/-- R149: one kerf slot: every memory performs the first duty due. -/
def kerfSlot (d : Dev) (ecc : KerfEcc) (owner : Option OwnerEcc) : Dev :=
  if !running d then d
  else
    let d := srcErrors d ecc.src
    let d := match owner with | some o => ownerFinding d o | none => d
    if d.com.due then commitStage d
    else
      let fold := !d.com.live.isEmpty
      let orph := d.kvt.slots.any (fun e => orphaned d e.1)
      let d := if fold then foldStep d else d
      let d := if orph then purge d 1 else d
      let free := [0] ++ (if fold then [] else [1, 2]) ++ [3] ++ (if orph then [] else [4])
      free.foldl (scrubRow ecc.scrub) d

/-- KERF_SLOT. -/
def execKerfSlot (ecc : KerfEcc) (owner : Option OwnerEcc) : State → Host.Outcome State Fault Refusal :=
  act (fun d => kerfSlot d ecc owner)

end Sys2Proof.Machine
end

