-- ==== Sys2Proof/Machine/Update.lean ====
section
/-! DEFINITION. Updates (R510 to R518, R138): UPD_OPEN, UPD_OPEN_DELTA, UPD_WRITE, UPD_VERIFY, UPD_ARM, UPD_ABORT, UPD_CONFIRM,
UPD_RESET, FALLBACK, TRIAL_EXPIRE. A command completes in the step that issues it (DEDUCED, log entry 81). -/

namespace Sys2Proof.Machine

/-- Change the update state. -/
def modUpd (d : Dev) (f : Upd → Upd) : Dev := { d with upd := f d.upd }

/-- R526, R527: a command completes: UPD_STAT, and UPD_DONE. -/
def updDone (d : Dev) (op status : Nat) : Dev :=
  raise (modUpd d (fun u => { u with status := status })) 0x1202 0 (e1 op ++ e1 status ++ e1 d.upd.code)

/-- R511: the target slot. -/
def targetSlot (d : Dev) : Nat := 1 - d.upd.booted % 2

/-- R505: the boot record may be written under these straps. -/
def strapsFree (d : Dev) : Bool := d.clk.bootsel != 1 && d.clk.bootsel != 2

/-- R514: the modes in which commands are refused. -/
def updMode (d : Dev) : Bool := d.clk.mode == .m6 || (match d.clk.trans with | .watchEntry _ _ _ => true | _ => false)

/-- R510: a session command of another initiator than the owner's; the JTAG TAP opens none. -/
def updOther (d : Dev) (who : Initiator) : Bool := ownerNum who == 4 || (d.upd.sess != 0 && d.upd.owner != ownerNum who)

/-- R34, R510, R514: a session command, or the status that turns it away first. While the pair of the update service is stopped
nobody takes the command. -/
def sessCmd (op : Nat) (who : Initiator) (f : Dev → Dev) (d : Dev) : Dev :=
  if !svcUp d 7 then d
  else if updMode d then updDone d op 4 else if updOther d who then updDone d op 2 else f d

/-- Session bytes. -/
def updLen (d : Dev) : Nat := fld d 0xB00008 0 26

/-- R512: the target is armed. -/
def targetArmed (d : Dev) : Bool :=
  d.upd.sess == 4 || (d.upd.brec.active == targetSlot d && slotState d.upd.brec (targetSlot d) == 3)

/-- R512, R513: OPEN. Under a BOOTSEL that fixes the slot the boot record cannot be written, and a full session is refused
(DEDUCED, log entry 81). -/
def updOpen (d : Dev) (who : Initiator) (delta : Bool) : Dev :=
  if slotState d.upd.brec d.upd.booted = 3 then updDone d 1 5
  else if targetArmed d || d.upd.sess ≠ 0 then updDone d 1 3
  else if !delta && !strapsFree d then updDone d 1 13
  else if (if delta then 262144 else 48 * 1048576) < updLen d then updDone d 1 6
  else
    let t := targetSlot d
    let d := if delta then d else brecWrite d (fun b => setSlotState b t 1)
    let d := modUpd d (fun u => { u with sess := 1, owner := ownerNum who, target := t, isDelta := delta, prog := [], erased := [],
                                         done := 0, staging := [] })
    updDone d 1 0

/-- UPD_OPEN. -/
def execUpdOpen (who : Initiator) : State → Host.Outcome State Fault Refusal :=
  access who (.updOpen who) (fun d => regWr d who 0xB00000 (sessCmd 1 who (fun d => updOpen d who false)))

/-- UPD_OPEN_DELTA. -/
def execUpdOpenDelta (who : Initiator) : State → Host.Outcome State Fault Refusal :=
  access who (.updOpenDelta who) (fun d => regWr d who 0xB00000 (sessCmd 1 who (fun d => updOpen d who true)))

/-- R527: the bytes of UPD_BUF. -/
def updBuf (d : Dev) (n : Nat) : Bytes :=
  (((List.range ((n + 3) / 4)).map (fun i => leBytes 4 (reg d (0xB01000 + 4 * i)))).flatten).take n

/-- R512: a byte of the session has been programmed. -/
def progAt (d : Dev) (o : Nat) : Bool := d.upd.prog.any (fun r => decide (r.1 ≤ o) && decide (o < r.1 + r.2))

/-- A byte of the session as it stands. -/
def sessByte (d : Dev) (o : Nat) : Byte :=
  if d.upd.isDelta then mapGet 0 d.upd.staging o else flByte d (slotBase d.upd.target + o)

/-- R514: streaming is over: ALLSIG, a failed block, or no image in force (DEDUCED, log entry 81). -/
def streamOver (d : Dev) : Bool :=
  !d.img.fast || d.img.active.length == d.img.blockDig.length || !d.img.failed.isEmpty

/-- R512: each 64 KiB block of the slot is erased before its first write. -/
def blockErase (d : Dev) (b : Nat) : Dev :=
  if d.upd.erased.contains b then d
  else modUpd (flErase d (slotBase d.upd.target + 65536 * b) 65536) (fun u => { u with erased := u.erased ++ [b] })

/-- R512: a good block is programmed, or staged. -/
def blockProg (d : Dev) (off : Nat) (data : Bytes) : Dev :=
  let n := ((List.range data.length).filter (fun i => !progAt d (off + i))).length
  let d :=
    if d.upd.isDelta then
      modUpd d (fun u => { u with staging := (data.zipIdx).foldl (fun m b => mapPut m (off + b.2) b.1) u.staging })
    else
      let d := blockErase (blockErase d (off / 65536)) ((off + data.length - 1) / 65536)
      flProg d (slotBase d.upd.target + off) data
  bump (modUpd d (fun u => { u with prog := u.prog ++ [(off, data.length)], done := u.done + n })) 0xB00040 0

/-- R512: WRITE. -/
def updWrite (d : Dev) (res : FlashRes) : Dev :=
  let off := fld d 0xB0000C 0 26
  let len := fld d 0xB00010 0 13
  let data := updBuf d len
  let bad := fun st => updDone (bump d 0xB00048 0) 2 st
  if d.upd.sess ≠ 1 then updDone d 2 3
  else if !streamOver d then updDone d 2 14
  else if len = 0 || 4096 < len || updLen d < off + len then bad 6
  else if crc32 data ≠ reg d 0xB00014 then bad 7
  else if (List.range len).any (fun i => progAt d (off + i) && sessByte d (off + i) != (data[i]?).getD 0) then bad 8
  else if res = .fail && !d.upd.isDelta then
    updDone (modUpd (bump d 0xB00048 0) (fun u => { u with sess := 0 })) 2 9
  else updDone (blockProg d off data) 2 0

/-- UPD_WRITE. -/
def execUpdWrite (who : Initiator) (res : FlashRes) : State → Host.Outcome State Fault Refusal :=
  access who (.updWrite who res) (fun d => regWr d who 0xB00000 (sessCmd 2 who (fun d => updWrite d res)))

/-! ## VERIFY (R501, R512, R138) -/

/-- R501: code 0x46: no version below those of the CONFIRMED slot. -/
def versionLow (d : Dev) (h : Bytes) (f : ImgFile) : Bool :=
  let b := d.upd.brec
  (b.stateA == 4 && (decide (shFwSec h < b.fwSecA) || decide (ihSecver f.hdr < b.imgSecA))) ||
    (b.stateB == 4 && (decide (shFwSec h < b.fwSecB) || decide (ihSecver f.hdr < b.imgSecB)))

/-- R501, R512: the checks of the target slot, in order. -/
def slotVerify (d : Dev) (s : Nat) : Option Nat :=
  let h := slotHdr d s
  match slotHeadRej d h with
  | some c => some c
  | none =>
    match slotFwRej h (slotFw d s h) with
    | some c => some c
    | none =>
      let f := slotImage d s h
      match slotImgRej d h f with
      | some r => some r.1
      | none => if versionLow d h f then some 0x46 else none

/-- R502: a slot is written VERIFIED with its security versions. -/
def slotVersions (b : BootRec) (s fw im : Nat) : BootRec :=
  let b := setSlotState b s 2
  if s = 0 then { b with fwSecA := fw, imgSecA := im } else { b with fwSecB := fw, imgSecB := im }

/-- R141: REJCODE and REJREC show the last rejection of R129 or R138. -/
def noteRej (d : Dev) (code rec : Nat) : Dev := { d with img := { d.img with rejCode := code, rejRec := rec } }

/-- R129, R141: where a checked slot fails by its image, REJCODE and REJREC show it, as at boot (DEDUCED, log entry 137). -/
def noteSlotRej (d : Dev) (s : Nat) : Dev :=
  let h := slotHdr d s
  if (slotHeadRej d h).isSome || (slotFwRej h (slotFw d s h)).isSome then d
  else match slotImgRej d h (slotImage d s h) with
    | some r => noteRej d r.1 r.2
    | none => d

/-- R512: VERIFY of a full session. -/
def verifyFull (d : Dev) : Dev :=
  let t := d.upd.target
  match slotVerify d t with
  | some c => updDone (modUpd (noteSlotRej d t) (fun u => { u with code := c })) 3 10
  | none =>
    let h := slotHdr d t
    let d := brecWrite d (fun b => slotVersions b t (shFwSec h) (ihSecver (slotImage d t h).hdr))
    updDone (modUpd d (fun u => { u with sess := 3, code := 0 })) 3 0

/-- The staged bytes of a delta session. -/
def stagedBytes (d : Dev) (o n : Nat) : Bytes := (List.range n).map (fun i => mapGet 0 d.upd.staging (o + i))

/-- R138, R513: VERIFY of a delta session: the delta is checked and held in the graft. -/
def verifyDelta (d : Dev) : Dev :=
  let len := updLen d
  let f := imgRead (fun o n => if o + n ≤ len then stagedBytes d o n else []) len true
  match deltaRej d (slotHdr d d.upd.booted) f len with
  | some r => updDone (raise (modUpd (noteRej d r.1 r.2) (fun u => { u with code := r.1 })) 0x0505 0 (e1 r.1 ++ e4 r.2)) 3 10
  | none =>
    let g := deltaGraft f
    let d := { d with com := { d.com with graft := g, graftOn := true, newDig := sha384 f.signed } }
    updDone (raise (modUpd d (fun u => { u with sess := 3, code := 0 })) 0x0504 0 (eCount g.length)) 3 0

/-- R512: VERIFY, once every byte of UPD_LEN has been written. -/
def updVerify (d : Dev) : Dev :=
  if d.upd.sess ≠ 1 || d.upd.done ≠ updLen d then updDone d 3 3
  else if d.upd.isDelta then verifyDelta d else verifyFull d

/-- UPD_VERIFY. -/
def execUpdVerify (who : Initiator) : State → Host.Outcome State Fault Refusal :=
  access who (.updVerify who) (fun d => regWr d who 0xB00000 (sessCmd 3 who updVerify))

/-! ## ARM, ABORT, RESET (R512, R513) -/

/-- R512: ARM: the target becomes ACTIVE on trial, with the limits of UPD_ARMCFG or of its header. -/
def updArm (d : Dev) : Dev :=
  if d.upd.sess ≠ 3 || d.upd.isDelta then updDone d 4 3
  else
    let t := d.upd.target
    let h := slotHdr d t
    let boots := fld d 0xB0001C 0 3
    let secs := fld d 0xB0001C 16 16
    let d := brecWrite d (fun b => { setSlotState b t 3 with active := t, left := if boots = 0 then shTrialBoots h else boots
                                                             secs := if secs = 0 then shTrialSecs h else secs })
    updDone (modUpd d (fun u => { u with sess := 4 })) 4 0

/-- UPD_ARM. -/
def execUpdArm (who : Initiator) : State → Host.Outcome State Fault Refusal :=
  access who (.updArm who) (fun d => regWr d who 0xB00000 (sessCmd 4 who updArm))

/-- R512: ABORT: the session ends; an armed target is disarmed and stays VERIFIED. -/
def updAbort (d : Dev) : Dev :=
  if d.upd.sess = 0 then updDone d 5 3
  else
    let t := d.upd.target
    let d := if d.upd.sess = 4 then brecWrite d (fun b => { setSlotState b t 2 with active := d.upd.booted }) else d
    updDone (modUpd d (fun u => { u with sess := 0, staging := [] })) 5 0

/-- UPD_ABORT. -/
def execUpdAbort (who : Initiator) : State → Host.Outcome State Fault Refusal :=
  access who (.updAbort who) (fun d => regWr d who 0xB00000 (sessCmd 5 who updAbort))

/-- R512, R513: RESET waits for the wheel boundary. -/
def updReset (d : Dev) : Dev :=
  if d.upd.sess ≠ 0 && d.upd.isDelta then updDone d 7 3
  else updDone (modUpd d (fun u => { u with resetDue := true })) 7 0

/-- UPD_RESET. -/
def execUpdReset (who : Initiator) : State → Host.Outcome State Fault Refusal :=
  access who (.updReset who) (fun d => regWr d who 0xB00000 (sessCmd 7 who updReset))

/-! ## Trial (R515 to R517) -/

/-- R515: whole seconds of device time that the trial timer has counted. -/
def trialSecs (d : Dev) : Nat := d.upd.trialAcc / (1000000000 * 2 ^ 39)

/-- R505, R515: the expiry instant has been reached while the booted slot is in TRIAL. -/
def trialOver (d : Dev) : Bool :=
  strapsFree d && slotState d.upd.brec d.upd.booted == 3 && decide (d.upd.brec.secs ≤ trialSecs d)

/-- R517: the other slot becomes ACTIVE and the trial slot FAILED; EXPIRED is set. -/
def trialFall (d : Dev) (reason : Nat) : Dev := modUpd (fallBack d d.upd.booted reason) (fun u => { u with expired := true })

/-- TRIAL_EXPIRE. -/
def execTrialExpire : State → Host.Outcome State Fault Refusal :=
  act (fun d => if running d && trialOver d then trialFall d 0 else d)

/-- R509, R516: the booted slot is CONFIRMED, a CONFIRMED other slot BACKUP, and fuses are blown. -/
def confirm (d : Dev) : Dev :=
  let s := d.upd.booted
  let b := d.upd.brec
  let d := brecWrite d (fun b => let b := setSlotState b s 4; if slotState b (1 - s) = 4 then setSlotState b (1 - s) 5 else b)
  let r := blowFuses d s
  let fw := if s = 0 then b.fwSecA else b.fwSecB
  let im := if s = 0 then b.imgSecA else b.imgSecB
  updDone (raise r.1 0x1203 0 (e1 s ++ e1 fw ++ e1 im ++ e2 r.2)) 6 0

/-- R516: CONFIRM; at or after the expiry instant the fallback stands. -/
def updConfirm (d : Dev) (slotB : Bool) : Dev :=
  if updMode d || d.clk.mode == .m5 then updDone d 6 4
  else if !strapsFree d then updDone d 6 13
  else if d.upd.expired then updDone d 6 11
  else if slotB.toNat ≠ d.upd.booted || slotState d.upd.brec d.upd.booted ≠ 3 then updDone d 6 12
  else if trialOver d then updDone (trialFall d 0) 6 11
  else confirm d

/-- UPD_CONFIRM. -/
def execUpdConfirm (who : Initiator) (slotB : Bool) : State → Host.Outcome State Fault Refusal :=
  access who (.updConfirm who slotB) (fun d => regWr d who 0xB00000 (fun d => updConfirm d slotB))

/-- R517, R518: FALLBACK does at once what an expired trial does: the boot record names the other slot, and a self-reset
follows (DEDUCED, log entry 82). -/
def updFallback (d : Dev) : Dev :=
  if updMode d then updDone d 8 4
  else if !strapsFree d then updDone d 8 13
  else if !slotBootable d.upd.brec (1 - d.upd.booted) then updDone d 8 15
  else selfReset (updDone (trialFall d 2) 8 0)

/-- FALLBACK. -/
def execFallback (who : Initiator) : State → Host.Outcome State Fault Refusal :=
  access who (.fallback who) (fun d => regWr d who 0xB00000 updFallback)

end Sys2Proof.Machine
end

