-- ==== Sys2Proof/Machine/Twins.lean ====
section
/-! DEFINITION. Twins, recovery and the Fault Manager (R380, R400 to R410, R414): TWIN_MISMATCH, REPLAY_START, TWIN_RESUME,
COMMIT_NOTICE, DEGRADED_CHECK_FAIL, SC_STOPPED, FM_RAIL. -/

namespace Sys2Proof.Machine

/-! ## Which twins are compared (R386, R408, R411) -/

/-- R35, R386: the twin's island is powered. -/
def twinPowered (d : Dev) (t : Nat) : Bool :=
  decide (t < 32) && (if 2 ≤ t && t ≤ 5 then groveOn d (t - 2) else if 6 ≤ t && t ≤ 9 then groveOn d (t - 6)
    else if t = 10 then bit d.clk.islands 6 else true)

/-- R411: the twin runs split. -/
def twinSplit (d : Dev) (t : Nat) : Bool := d.clk.mode == .m4 && decide (10 ≤ t) && decide (t ≤ 14)

/-- R408: the twin runs on one copy. -/
def twinDegraded (d : Dev) (t : Nat) : Bool := match d.flt.degraded with | some x => x.1 == t | none => false

/-- R417: the twin is compared. -/
def twinLocked (d : Dev) (t : Nat) : Bool := running d && twinPowered d t && !twinSplit d t && !twinDegraded d t

/-! ## Mismatch and freeze (R402 to R407) -/

/-- R407: the mismatches of the last second. -/
def window (d : Dev) (w : Twin) : List Miss := w.misses.filter (fun m => decide (d.clk.tclk < m.at' + secCycles))

/-- R401, R403: a cut-through frame on the wire whose tail is not staged: stomped, its commit withdrawn, and staged again. -/
def stompAgain (d : Dev) (o : Nat) : Dev :=
  let k := ethLane o
  match (ethOf d o).cutFrame, (laneOf d k).items.find? (fun it => it.sent) with
  | some id, some it =>
    match mapGet? d.lnd.frames id with
    | none => stomp d o (sentBytes d o)
    | some f =>
      let w := twinOf d 0
      let fly := w.flight.contains id
      let d := modTwin d 0 (fun w => if fly then { w with flight := w.flight.erase id } else { w with log := w.log.erase id })
      let f' := { f with left := f.left + 1, open' := if fly then f.open' else f.open' + 1 }
      let d := { d with lnd := { d.lnd with frames := mapPut d.lnd.frames id f' } }
      let d := setQueue d it.dest.q ((id, it.dest) :: queueOf d it.dest.q)
      let d := modLane (stomp d o (sentBytes d o)) k (fun l => { l with items := { it with sent := false } :: l.items })
      d
  | _, _ => d

/-- Insertion of a buffer, the one filled last first. -/
def insByFill (x : Nat × XbFrame) : List (Nat × XbFrame) → List (Nat × XbFrame)
  | [] => [x]
  | y :: r => if y.2.order < x.2.order then x :: y :: r else y :: insByFill x r

/-- The buffers of a channel whose frame the Landing gave and no SOF has been sent of, the one filled last first. -/
def unsentBufs (d : Dev) (ch : Nat) : List (Nat × XbFrame) :=
  ([0, 1, 2].filterMap (fun b =>
    (xbOf (canOf d ch) b).bind (fun x => if x.sof || x.mbox then none else some (b, x)))).foldr insByFill []

/-- R183: a buffer is emptied without a count, and the replay fills it again with the same frame: a Landing frame returns to the head
of its class queue with its tag, a stored one is loaded again in its column (DEDUCED, log entry 153). -/
def freezeXb (d : Dev) (ch : Nat) (b : Nat) (x : XbFrame) : Dev :=
  let d := putBack (clearXb d ch b) ch x
  if x.store.isSome then modCan d ch (fun c => { c with schLoad := x.store }) else d

/-- R183: the CAN buffers of a twin's channels before their first SOF. -/
def freezeCan (d : Dev) (chs : List Nat) : Dev :=
  chs.foldl (fun d ch => (unsentBufs d ch).foldl (fun d p => freezeXb d ch p.1 p.2) d) d

/-- R403: an Ethernet port's staging before the first bit is emptied, and a cut-through frame on the wire whose tail is not staged is
stomped. -/
def freezePort (d : Dev) (p : Nat) : Dev := stompAgain (unstageAll d p (stagedItems d p)) p

/-- R183, R403: the Landing or an egress scheduler freezes: what its CAN buffers and Ethernet ports hold and have not committed. -/
def freezeLanding (d : Dev) (t : Nat) : Dev :=
  if t = 0 then (List.range 8).foldl freezePort (freezeCan d (List.range 24))
  else if 6 ≤ t && t ≤ 9 then
    [2 * (t - 6), 2 * (t - 6) + 1].foldl freezePort (freezeCan d ((List.range 6).map (fun i => 6 * (t - 6) + i)))
  else d

/-- R404: the copy that the state is copied from: 0 none, 1 main, 2 checker. -/
def recopyOf (m : Mismatch) : Nat := if m.rail || m.evMain == m.evChecker then 0 else if m.evMain then 2 else 1

/-- R407: the healthy copy and the basis of a permanent fault, or none. -/
def classify (l : List Miss) : Option (Nat × Nat) :=
  let main := l.any (fun m => m.main)
  let check := l.any (fun m => m.check)
  if l.all (fun m => m.rail) then some (0, 1) else if main && !check then some (1, 0) else if check && !main then some (0, 0) else none

/-- R407, R409, R410: the third mismatch of the window. -/
def permanent (d : Dev) (t : Nat) (l : List Miss) : Dev :=
  let d := modTwin d t (fun w => { w with misses := [] })
  match classify l with
  | none => raiseF4 d 0x0E03 (e1 t)
  | some (h, basis) =>
    if d.flt.degraded.isSome then raiseF4 d 0x0E02 (e1 t ++ e1 h ++ e1 basis)
    else raiseF3 { d with flt := { d.flt with degraded := some (t, h, basis), record := some (t, h, basis, d.clk.rtc % 2 ^ 32) } }
      0x0E02 (e1 t ++ e1 h ++ e1 basis)

/-- R402, R405, R407: a comparator reports a disagreement. -/
def mismatch (d : Dev) (t : Nat) (m : Mismatch) : Dev :=
  if !twinLocked d t then d
  else if t = 31 then vaultAlarm (bump d 0x20040 31) 5
  else
    let w := twinOf d t
    if w.phase = 1 then d
    else
      let again := w.phase == 2 || w.unmarked
      let l := window d w ++ [{ at' := d.clk.tclk, rail := m.rail, main := m.evMain, check := m.evChecker }]
      let rc := recopyOf m
      let d := bump d 0x20040 t
      let d := if m.rail then bump d 0x20048 t else d
      let d := if again then bump d 0x20050 t else d
      let d := if rc ≠ 0 then bump d 0x20058 t else d
      let d := freezeLanding d t
      let d := modTwin d t (fun w =>
        { w with phase := 1, misses := l, rail := m.rail, again := again, recopy := rc,
                 freezeNs := if w.phase = 0 then nowNs d else w.freezeNs, freezeT := if w.phase = 0 then d.clk.tclk else w.freezeT })
      if 3 ≤ l.length then permanent d t l else d

/-- TWIN_MISMATCH. -/
def execTwinMismatch (twin : Nat) (m : Mismatch) : State → Host.Outcome State Fault Refusal := act (fun d => mismatch d twin m)

/-! ## Replay and resume (R398, R401, R402) -/

/-- R398, R449: a frame of the Landing that cannot be replayed is dropped whole and its cells are freed; a record that waits for
its timestamp completes. -/
def dropFrame (d : Dev) (id : Nat) : Dev :=
  let d := (liveQueues d).foldl (fun d q => if (queueOf d q).any (fun c => c.1 == id) then unstage (unqueue d q id) q id else d) d
  let d := match mapGet? d.lnd.frames id with
    | some f =>
      let d := journalFree d 0 f.pkt.size
      (match f.pkt.tx with | some tx => if tx.tsreq then txStamp d tx id f.egress else d | none => d)
    | none => d
  { d with lnd := { d.lnd with frames := mapDel d.lnd.frames id } }

/-- R398: a lane delivery that cannot be replayed: the copy is dropped. -/
def dropStaged (d : Dev) (it : LaneItem) : Dev :=
  let d := unstage (unqueue d it.dest.q it.pkt.id) it.dest.q it.pkt.id
  if it.sent then d else copyDrop d it.pkt.id

/-- R398: the poisoned copies that wait in the lanes named: what is left, how many there were, and those bound for a host. -/
def poisonLanes (d : Dev) (lanes poisoned : List Nat) (host : LaneItem → Bool) : Dev × Nat × Nat :=
  let hit := (lanes.map (fun k => (laneOf d k).items.filter (fun it => poisoned.contains it.pkt.id))).flatten
  (hit.foldl dropStaged d, hit.length, (hit.filter host).length)

/-- R386: the lanes of a grove's egress scheduler: six channels and two Ethernet ports. -/
def groveLanes (g : Nat) : List Nat := (List.range 8).map (fun i => 16 * g + i)

/-- The number by which a poisoned job of a page is named (DEDUCED, log entry 83): 2^32 plus the page. -/
def poisonJob (p : Nat) : Nat := 2 ^ 32 + p

/-- R398: the pages of a sequencer whose job in hand is poisoned. -/
def poisonPages (d : Dev) (s : Nat) (poisoned : List Nat) : List Nat :=
  (d.cry.pages.map (fun e => e.1)).filter (fun p =>
    sqOf d p == s && (pageOf d p).job.isSome && poisoned.contains (poisonJob p))

/-- R398: a job that cannot be replayed is dropped: it leaves its page without a status word, and what it holds is zeroed. -/
def dropJob (d : Dev) (p : Nat) : Dev :=
  modPage (journalFree d (sqTwin (sqOf d p)) 32) p (fun g => { zeroHeld g with job := none, head := (g.head + 1) % 32 })

/-- R398: the frame of a sequencer's queue that cannot be replayed: its copies are lost as those of a failed job, and a record
that waits for its timestamp completes. -/
def dropAuth (d : Dev) (k : Nat) (it : LaneItem) : Dev :=
  let d := modLane d k (fun l => { l with items := l.items.filter (fun x => x.pkt.id != it.pkt.id) })
  let d := if it.sent then d else copyDrop (unqueue d it.dest.q it.pkt.id) it.pkt.id
  match it.pkt.tx with
  | some tx => if tx.tsreq then txSet d tx (fun c => { c with frame := none, status := 8 }) else d
  | none => d

/-- The entries of a list but those at the positions named. -/
def dropAt {α : Type} (l : List α) (pos : List Nat) : List α := (l.zipIdx.filter (fun x => !pos.contains x.2)).map (fun x => x.1)

/-- R398: the poisoned lookups of the Route Engine, by their place in their client's queue. The entry that a lookup names tells
whether its frame is bound for a host; one that a key would find is bound for none yet. -/
def poisonLookups (d : Dev) (poisoned : List Nat) : Dev × Nat × Nat :=
  let hit := (d.rte.lookup.map (fun e => (e.2.zipIdx.filter (fun x => poisoned.contains x.2)).map (fun x => x.1))).flatten
  let host := hit.filter (fun it => match it.named with
    | some ix => (entryDests d ix (routeEntry d ix)).any (fun x => qIsHost x.q)
    | none => false)
  let d := hit.foldl (fun d it => txDrop d it.pkt 2) d
  ({ d with rte := { d.rte with lookup := d.rte.lookup.map (fun e => (e.1, dropAt e.2 poisoned)) } }, hit.length, host.length)

/-- R398: poisoned items of a twin, as frame numbers where a frame has one and as positions in the stage of a classifier or of
the Route Engine (DEDUCED, log entry 83): what is left, the items dropped, and those bound for a host. -/
def poisonItems (d : Dev) (t : Nat) (poisoned : List Nat) : Dev × Nat × Nat :=
  if t = 0 then
    let hit := poisoned.eraseDups.filter (fun id => (mapGet? d.lnd.frames id).isSome)
    let host := hit.filter (fun id => match mapGet? d.lnd.frames id with | some f => f.placed.any qIsHost | none => false)
    (hit.foldl dropFrame d, hit.length, host.length)
  else if t = 1 then
    poisonLookups d poisoned
  else if t ≤ 5 then
    let l := mapGet [] d.rte.parse (t - 2)
    ({ d with rte := { d.rte with parse := mapPut d.rte.parse (t - 2) (dropAt l poisoned) } }, l.length - (dropAt l poisoned).length, 0)
  else if t ≤ 9 then poisonLanes d (groveLanes (t - 6)) poisoned (fun _ => false)
  else if t = 10 then
    let hit := d.mil.slices.filter (fun s => poisoned.contains s.2.pkt.id)
    let d := hit.foldl (fun d s => journalFree d 10 s.2.pkt.size) d
    ({ d with mil := { d.mil with slices := d.mil.slices.filter (fun s => !poisoned.contains s.2.pkt.id) } }, hit.length,
     (hit.filter (fun s => feedsHost d s.2.src)).length)
  else if t ≤ 14 then poisonLanes d [96 + (t - 11)] poisoned (fun _ => false)
  else if t ≤ 30 then
    let k := 128 + (t - 15)
    let pages := poisonPages d (t - 15) poisoned
    let hit := (laneOf d k).items.filter (fun it => poisoned.contains it.pkt.id)
    (pages.foldl dropJob (hit.foldl (fun d it => dropAuth d k it) d), hit.length + pages.length,
     (hit.filter (fun it => it.pkt.plan.any (fun x => qIsHost x.q))).length + (pages.filter (fun p => decide (p < 128))).length)
  else (d, 0, 0)

/-- R402 step 7, R398: replay starts; what cannot be replayed is dropped, counted and reported. -/
def replayStart (d : Dev) (t : Nat) (poisoned : List Nat) : Dev :=
  if !running d || (twinOf d t).phase ≠ 1 then d
  else
    let d := modTwin d t (fun w => { w with phase := 2 })
    let r := poisonItems d t poisoned
    if r.2.1 = 0 then r.1
    else raise (bumpBy r.1 0x20060 t r.2.1) 0x0E05 0 (e1 t ++ eCount r.2.1 ++ eCount r.2.2)

/-- REPLAY_START. -/
def execReplayStart (twin : Nat) (poisoned : List Nat) : State → Host.Outcome State Fault Refusal :=
  act (fun d => replayStart d twin poisoned)

/-- R401: the outputs since the rewind mark that have committed, which the replay makes again and the logs suppress. -/
def suppressed (d : Dev) (t : Nat) : Nat :=
  let w := twinOf d t
  let l := w.log ++ w.flight
  if t = 0 then (l.filter (fun id => match mapGet? d.lnd.frames id with | some f => !f.marked | none => false)).length
  else (l.filter (fun e => decide ((e + 2 ^ 32 - w.markEcs) % 2 ^ 32 < 2 ^ 31))).length

/-- R402 step 8, R417: the twin takes its waiting inputs again; the recovery is reported with its length in 10 ns units. -/
def twinResume (d : Dev) (t : Nat) : Dev :=
  let w := twinOf d t
  if !running d || w.phase ≠ 2 then d
  else
    let len := min ((d.clk.tclk - w.freezeT) / 5) 0xFFFF
    let d := bumpBy d 0x20068 0 (suppressed d t)
    let d := modTwin d t (fun w => { w with phase := 0, unmarked := true })
    let d := { d with flt := { d.flt with recMax := max d.flt.recMax len } }
    if twinDegraded d t then d
    else raiseF d 0x0E01 2 (e1 t ++ e1 w.misses.length ++ eFlag w.rail ++ eFlag w.again ++ e1 w.recopy ++ e2 len)

/-- TWIN_RESUME. -/
def execTwinResume (twin : Nat) : State → Host.Outcome State Fault Refusal := act (fun d => twinResume d twin)

/-! ## Commit notices (R400, R401) -/

/-- R252, R400: the notice of an output reaches its twin and is logged; a frame of the Landing has one copy less in flight. -/
def commitNotice (d : Dev) (t seq : Nat) : Dev :=
  let w := twinOf d t
  if !running d || !w.flight.contains seq then d
  else
    let d := modTwin d t (fun w => { w with flight := w.flight.erase seq, log := w.log ++ [seq] })
    if t ≠ 0 then d
    else match mapGet? d.lnd.frames seq with
      | some f => freeCells { d with lnd := { d.lnd with frames := mapPut d.lnd.frames seq { f with open' := f.open' - 1 } } }
      | none => d

/-- COMMIT_NOTICE. -/
def execCommitNotice (twin seq : Nat) : State → Host.Outcome State Fault Refusal := act (fun d => commitNotice d twin seq)

/-! ## Other faults (R409, R414) -/

/-- R409: a code check of the degraded twin fails; where both fail the predicted code is named. -/
def degradedFail (d : Dev) (out pred : Bool) : Dev :=
  match d.flt.degraded with
  | some x => if running d && (out || pred) then raiseF4 d 0x0E04 (e1 x.1 ++ eFlag pred) else d
  | none => d

/-- DEGRADED_CHECK_FAIL. -/
def execDegradedCheckFail (outputCode predicted : Bool) : State → Host.Outcome State Fault Refusal :=
  act (fun d => degradedFail d outputCode predicted)

/-- R414: a service core pair is held in reset until the next boot. -/
def scStopped (d : Dev) (p : Nat) : Dev :=
  if !running d || 4 ≤ p || d.flt.scDown.contains p then d
  else raise { d with flt := { d.flt with scDown := d.flt.scDown ++ [p] } } 0x0E0A 0 (e1 p)

/-- SC_STOPPED. -/
def execScStopped (pair : Nat) : State → Host.Outcome State Fault Refusal := act (fun d => scStopped d pair)

/-- R414: the Fault Manager's rails disagree. -/
def fmRail (d : Dev) : Dev :=
  if outOfReset d && !d.flt.rail then raiseF4 { d with flt := { d.flt with rail := true } } 0x0E0B [] else d

/-- FM_RAIL. -/
def execFmRail : State → Host.Outcome State Fault Refusal := act fmRail

end Sys2Proof.Machine
end

