-- ==== Sys2Proof/Machine/Clears.lean ====
section
/-! DEFINITION. The clear controls of the Tally counters: each asks for its clear, which takes effect at the next wheel
boundary (R16). -/

namespace Sys2Proof.Machine

/-- Ask for a clear where bit `i` of the written word is set. -/
def clrBit (w i lo hi : Nat) (inst : Option Nat) (d : Dev) : Dev := if bit w i then askClear d lo hi inst else d

/-- R105: CKP_CLR. -/
def ckpClear (w : Nat) (d : Dev) : Dev :=
  clrBit w 2 0x10028 0x10028 none (clrBit w 1 0x10020 0x10020 none (clrBit w 0 0x10018 0x10018 none d))
/-- CKP_CLR. -/
def execCkpClr (who : Initiator) (w : Word) : State → Host.Outcome State Fault Refusal :=
  access who (.ckpClr who w) (fun d => regWr d who 0x10070 (ckpClear w.toNat))

/-- R161: the table key of the crossing that SWH_XSEL selects. -/
def selXing (d : Dev) : Nat := xKey (fld d 0x30020 0 6) (flag d 0x30020 6)
/-- R161: SWH_CLR. -/
def swhClear (w : Nat) (d : Dev) : Dev :=
  clrBit w 1 0x30028 0x30048 none (clrBit w 0 0x30028 0x30048 (some (selXing d)) d)
/-- SWH_CLR. -/
def execSwhClr (who : Initiator) (w : Word) : State → Host.Outcome State Fault Refusal :=
  access who (.swhClr who w) (fun d => regWr d who 0x30070 (swhClear w.toNat))

/-- R208: CAN_CLR. -/
def canClear (ch w : Nat) (d : Dev) : Dev := clrBit w 0 (canBase ch + 0x100) (canBase ch + 0x188) none d
/-- CAN_CLR. -/
def execCanClr (who : Initiator) (ch : Nat) (w : Word) : State → Host.Outcome State Fault Refusal :=
  access who (.canClr who ch w) (fun d => if ch < 24 then regWr d who (canBase ch + 0x1F0) (canClear ch w.toNat) else d)

/-- R240: ETH_CLR. -/
def ethClear (p w : Nat) (d : Dev) : Dev := clrBit w 0 (ethBase p + 0x100) (ethBase p + 0x1A0) none d
/-- ETH_CLR. -/
def execEthClr (who : Initiator) (port : Nat) (w : Word) : State → Host.Outcome State Fault Refusal :=
  access who (.ethClr who port w) (fun d => if port < 9 then regWr d who (ethBase port + 0x1F0) (ethClear port w.toNat) else d)

/-- R273: LND_CLR. -/
def lndClear (w : Nat) (d : Dev) : Dev :=
  clrBit w 2 0x500040 0x5000C0 none (clrBit w 1 0x500080 0x500090 (some (fld d 0x500034 0 4))
    (clrBit w 0 0x500040 0x500078 (some (fld d 0x500030 0 9)) d))
/-- LND_CLR. -/
def execLndClr (who : Initiator) (w : Word) : State → Host.Outcome State Fault Refusal :=
  access who (.lndClr who w) (fun d => regWr d who 0x5000F0 (lndClear w.toNat))

/-- R301: RTE_CLR. -/
def rteClear (w : Nat) (d : Dev) : Dev :=
  clrBit w 1 rteAllMark 0x580378 none (clrBit w 0 0x580300 0x580378 (some (fld d 0x580044 0 3)) d)
/-- RTE_CLR. -/
def execRteClr (who : Initiator) (w : Word) : State → Host.Outcome State Fault Refusal :=
  access who (.rteClr who w) (fun d => regWr d who 0x5800F4 (rteClear w.toNat))

/-- R332: MIL_CLR. -/
def milClear (w : Nat) (d : Dev) : Dev := clrBit w 0 0x600100 0x600180 none d
/-- MIL_CLR. -/
def execMilClr (who : Initiator) (w : Word) : State → Host.Outcome State Fault Refusal :=
  access who (.milClr who w) (fun d => regWr d who 0x6001F0 (milClear w.toNat))

/-- R362: CRY_CLR. -/
def cryClear (w : Nat) (d : Dev) : Dev :=
  clrBit w 1 0x780800 0x780860 none (clrBit w 0 0x780840 0x780860 (some (fld d 0x780020 0 3)) d)
/-- CRY_CLR. -/
def execCryClr (who : Initiator) (w : Word) : State → Host.Outcome State Fault Refusal :=
  access who (.cryClr who w) (fun d => regWr d who 0x7808F0 (cryClear w.toNat))

/-- R385: KVT_CLR: not KVT_ALARMS, which is AON. -/
def kvtClear (w : Nat) (d : Dev) : Dev := clrBit w 0 0x7C0200 0x7C0210 none d
/-- KVT_CLR. -/
def execKvtClr (who : Initiator) (w : Word) : State → Host.Outcome State Fault Refusal :=
  access who (.kvtClr who w) (fun d => regWr d who 0x7C02F0 (kvtClear w.toNat))

/-- R417: FLT_CLR. FLT_RECMAX is no Tally counter: it is cleared by the write (DEDUCED, log entry 84). -/
def fltClear (w : Nat) (d : Dev) : Dev :=
  let d := clrBit w 0 0x20040 0x20060 (some (fld d 0x20010 0 5)) d
  let d := clrBit w 1 0x20040 0x20068 none d
  if bit w 1 then { d with flt := { d.flt with recMax := 0 } } else d
/-- FLT_CLR. -/
def execFltClr (who : Initiator) (w : Word) : State → Host.Outcome State Fault Refusal :=
  access who (.fltClr who w) (fun d => regWr d who 0x200F0 (fltClear w.toNat))

/-- R438: NMC_CLR. NMC_PNCDROP counts for all PNCs and belongs to no cluster. The offender log is cleared by the write (log
entry 84). -/
def nmcClear (w : Nat) (d : Dev) : Dev :=
  let c := some (fld d 0x7E0020 0 5)
  let d := clrBit w 0 0x7E00C8 0x7E00C8 c (clrBit w 0 0x7E0080 0x7E00B8 c d)
  let d := clrBit w 1 0x7E0080 0x7E00C8 none d
  if bit w 2 then { d with nmc := { d.nmc with log := [] } } else d
/-- NMC_CLR. -/
def execNmcClr (who : Initiator) (w : Word) : State → Host.Outcome State Fault Refusal :=
  access who (.nmcClr who w) (fun d => regWr d who 0x7E00F0 (nmcClear w.toNat))

/-- R479: HIF_CLR: the counters of HIF, those of the event FIFOs that the writer owns, and those of the bridge. -/
def hifClear (who : Initiator) (w : Nat) (d : Dev) : Dev :=
  if !bit w 0 then d
  else
    let d := askClear d hifCount hifCount none
    let d := (List.range 16).foldl (fun d t => askClear d (0x840028 + 0x40 * t) (0x840028 + 0x40 * t) none) d
    let own := (List.range 8).filter (fun f => evqOwner d f == ownerNum who)
    let d := own.foldl (fun d f => askClear d (0x802040 + 0x100 * f) (0x802048 + 0x100 * f) none) d
    askClear d 0x901400 0x901408 none
/-- HIF_CLR. -/
def execHifClr (who : Initiator) (w : Word) : State → Host.Outcome State Fault Refusal :=
  access who (.hifClr who w) (fun d => regWr d who 0x8000F0 (hifClear who w.toNat))

/-- R495: REC_CLR. -/
def recClear (w : Nat) (d : Dev) : Dev := clrBit w 0 0xA00100 0xA00130 none d
/-- REC_CLR. -/
def execRecClr (who : Initiator) (w : Word) : State → Host.Outcome State Fault Refusal :=
  access who (.recClr who w) (fun d => regWr d who 0xA001F0 (recClear w.toNat))

/-- R527: UPD_CLR. -/
def updClear (w : Nat) (d : Dev) : Dev := clrBit w 0 0xB00040 0xB00050 none d
/-- UPD_CLR. -/
def execUpdClr (who : Initiator) (w : Word) : State → Host.Outcome State Fault Refusal :=
  access who (.updClr who w) (fun d => regWr d who 0xB000F0 (updClear w.toNat))

end Sys2Proof.Machine
end

