-- ==== Sys2Proof/Machine/RegRead.lean ====
section
/-! DEFINITION. What a read of a register word returns and does (R11, R12, R14 to R16, R444): stored fields, RWS shadows,
Tally counters, and the fields that show the state of a block; then REGISTER_PAIR_LOW_READ. -/

namespace Sys2Proof.Machine

/-! ## Words that are stored -/

/-- R12: a stored word: an RWS field reads its shadow; bits that no field covers read zero (R11). -/
def storedWord (d : Dev) (who : Initiator) (off : Nat) (l : Loc) : Nat :=
  match rowAt l with
  | none => 0
  | some r => if r.rws ≠ 0 then shadowWord d off &&& r.rws
              else regK d (placeKey who off l) &&& (r.rw ||| r.w1c ||| r.img)

/-- R16: a word of a Tally counter pair in a range of low-word offsets `lo` to `hi` of a block. -/
def tallyView (d : Dev) (l : Loc) (off lo hi inst : Nat) : Option Nat :=
  if lo ≤ l.rel ∧ l.rel < hi + 8 then
    let r := (l.rel - lo) % 8
    some (bits (tallyPair (tallyOf d (off - r) inst)) (8 * r) 32)
  else none

/-- A word of a 64-bit quantity: `hi` picks the high one. -/
def pairWord (v : Nat) (hi : Bool) : Nat := if hi then bits v 32 32 else bits v 0 32

/-! ## The views of each block: `none` where the word is stored or unassigned -/

/-- R105, R141. -/
def glbView (d : Dev) (rel : Nat) : Option Nat :=
  if rel = 0x10 then
    some (d.clk.mode.num + 8 * (modeBusy d).toNat + 16 * (if modeBusy d then d.clk.target else d.clk.mode).num +
      (reg d 0x10 &&& 0x700) + 65536 * d.clk.lastRej)
  else if rel = 0x24 then
    some (d.com.window.toNat + 2 * (!d.com.dirty.isEmpty).toNat + 4 * d.com.graftOn.toNat +
      8 * (!d.com.live.isEmpty).toNat + 16 * d.com.deltaErr.toNat + 65536 * (d.com.live.length % 8192))
  else if rel = 0x28 then some (d.com.seq % 2 ^ 32)
  else if rel = 0x30 then
    let all := d.img.fast && d.img.active.length == d.img.blockDig.length
    some (d.img.fast.toNat + 2 * all.toNat + 4 * (compat d).toNat + 8 * d.clk.cmpt.toNat + 16 * d.img.active.length +
      65536 * d.img.rejCode)
  else if rel = 0x34 then some (d.img.rejRec % 2 ^ 32)
  else if 0x40 ≤ rel ∧ rel < 0x70 then some (leAt (fit 48 d.img.digest) (rel - 0x40) 4)
  else none

/-- R105. -/
def ckpView (d : Dev) (l : Loc) (off : Nat) : Option Nat :=
  let rel := l.rel
  let c := d.clk
  if rel = 0 then
    some (c.pllLock + 256 * c.pllRun + 65536 * c.xtalOk.toNat + 131072 * c.rtcXtal.toNat + 262144 * c.backup.toNat)
  else if rel = 4 then some c.islands
  else if rel = 0x14 then some (c.sag.active.toNat + 2 * c.sag.phase + 256 * c.sag.firstDet + 65536 * c.sag.persist.toNat)
  else if rel = 0x30 ∨ rel = 0x34 then some (pairWord c.rtc (rel == 0x34))
  else if rel = 0x44 then some (wakeFirstWord d)
  else if rel = 0x48 ∨ rel = 0x4C then some (pairWord c.wakeTime (rel == 0x4C))
  else tallyView d l off 0x18 0x28 0

/-- A mask of the twins that `p` picks. -/
def twinMask (p : Nat → Bool) : Nat := (List.range 32).foldl (fun a t => if p t then a + 2 ^ t else a) 0

/-- R417. -/
def fltView (d : Dev) (l : Loc) (off : Nat) : Option Nat :=
  let rel := l.rel
  let t := fld d 0x20010 0 5
  if rel = 0 then
    let low := (d.flt.f3 || d.flt.f4) && d.clk.pinsOn && !pinOff d 2
    let dg := match d.flt.degraded with | some x => 16 + 32 * x.1 + 1024 * x.2.1 + 2048 * x.2.2 | none => 0
    some (d.flt.worst + 8 * low.toNat + dg)
  else if rel = 4 then some (twinMask (twinLocked d))
  else if rel = 8 then some (twinMask (twinSplit d))
  else if rel = 0x14 then
    let w := twinOf d t
    some (min 2 (window d w).length + 4 * (w.phase != 0).toNat + 16 * w.fill)
  else if rel = 0x18 then some (if t < 31 then journalLevel d t else 0)
  else if rel = 0x1C then some d.flt.recMax
  else if rel = 0x20 then
    some (match d.flt.record with | some x => x.1 + 32 * x.2.1 + 64 * x.2.2.1 + 128 | none => 0)
  else if rel = 0x24 then some (match d.flt.record with | some x => x.2.2.2 % 2 ^ 32 | none => 0)
  else if 0x68 ≤ rel ∧ rel < 0x70 then tallyView d l off 0x68 0x68 0
  else tallyView d l off 0x40 0x60 t

/-- R147: the positions of an owner in a resource's table. -/
def ownerSlots (d : Dev) (res owner : Nat) : List Nat :=
  ((mapGet [] d.whl.owners res).zipIdx.filter (fun x => x.1 == owner)).map (fun x => x.2)

/-- R147: W_k of an owner with these positions. -/
def waitOf (p : List Nat) (k : Nat) : Nat :=
  (List.range p.length).foldl (fun a i =>
    max a (nth 0 p ((i + k) % p.length) + 256 * ((i + k) / p.length) - nth 0 p i)) 0

/-- R148, R161: SWH_GAPVAL. -/
def gapValue (d : Dev) : Nat :=
  let w := reg d 0x30010
  let p := ownerSlots d (bits w 0 3) (bits w 8 8)
  let k := bits w 16 9
  (if 1 ≤ k ∧ k ≤ p.length then waitOf p k + 2 ^ 31 else 0) + 65536 * (p.length % 256)

/-- R161: a mask of the stalled crossings from `base`. -/
def stallMask (d : Dev) (base : Nat) : Nat :=
  (List.range 32).foldl (fun a i =>
    if (xOf d (base + i) false).stalled || (xOf d (base + i) true).stalled then a + 2 ^ i else a) 0

/-- R161. -/
def swhView (d : Dev) (l : Loc) (off : Nat) : Option Nat :=
  let rel := l.rel
  let x := fld d 0x30020 0 6
  if rel = 0 ∨ rel = 4 then some (pairWord d.whl.turn (rel == 4))
  else if rel = 8 then some (d.whl.slot % 256 + 256 * (d.whl.slot % 32 == 31).toNat)
  else if rel = 0x14 then some (gapValue d)
  else if rel = 0x24 then
    if 40 < x then some 0
    else
      let g := xOf d x (flag d 0x30020 6)
      some ((xRing x).toNat + 2 * (xHs x).toNat + 4 * (xPulse x).toNat + 8 * g.stalled.toNat + 16 * g.timed.toNat +
        32 * (g.repair != 0).toNat + 65536 * min 2048 (xFill g))
  else if rel = 0x60 then some (stallMask d 0)
  else if rel = 0x64 then some (stallMask d 32)
  else if 40 < x ∧ 0x28 ≤ rel ∧ rel < 0x50 then some 0
  else tallyView d l off 0x28 0x48 (selXing d)

/-- R208: STATEb and CANREQb of a buffer. -/
def xbState (x : Option XbFrame) : Nat :=
  match x with
  | none => 0
  | some f => (if f.onBus then 2 else if f.failed then 3 else 1) + 8 * f.cancel.toNat

/-- R208: CAN_XBTAG. -/
def xbTag (x : Option XbFrame) : Nat :=
  match x with
  | none => 0
  | some f => f.tag % 65536 + 65536 + 131072 * f.store.isSome.toNat + 262144 * f.mbox.toNat

/-- R208. -/
def canView (d : Dev) (who : Initiator) (l : Loc) (off : Nat) : Option Nat :=
  let ch := l.inst
  let c := canOf d ch
  let rel := l.rel
  if rel = 0 then some ((reg d off &&& 0x3FFEEF) + 16 * (xlEn d ch).toNat)
  else if rel = 4 then
    some (c.state + 8 * c.bterr.toNat + 16 * c.tec + 8192 * (c.rec' % 256) + 2097152 * (c.tdcv % 256) + 2 ^ 29 * c.tdcErr.toNat)
  else if rel = 0x30 then
    some (xbState c.xb0 + 16 * xbState c.xb1 + 256 * xbState c.xb2 +
      (match c.next with | some b => 65536 * b + 262144 | none => 0))
  else if rel = 0x34 then some (xbTag c.xb0)
  else if rel = 0x38 then some (xbTag c.xb1)
  else if rel = 0x3C then some (xbTag c.xb2)
  else if rel = 0x44 then some (c.cBuf + 4 * c.cRes + 65536 * c.cTag)
  else if rel = 0x50 then some (c.mbOwner + 65536 * (mbNum who == some c.mbOwner).toNat)
  else if rel = 0x58 then
    let busy := match c.xb2 with | some f => f.mbox | none => false
    some (busy.toNat + 2 * c.mbDone.toNat + 4 * c.mbRef.toNat + 8 * c.mbReason + 64 * c.mbResult + 65536 * c.mbTag)
  else if rel = 0x60 then some (c.schCyc + 64 * c.schCol + 2048 * c.schRun.toNat + 4096 * c.schExcl.toNat)
  else if rel = 0x78 then some (c.swkPat + 4 * c.swkMatch.toNat + 8 * c.swkFecW.toNat + 16 * (c.swkFec % 64))
  else tallyView d l off 0x100 0x188 0

/-- R229: a time in ns as a gate register pair shows it: [29:0] ns, [61:30] seconds. -/
def gateStamp (ns : Nat) : Nat := ns % 1000000000 + ns / 1000000000 % 2 ^ 32 * 2 ^ 30

/-- R240. -/
def ethView (d : Dev) (l : Loc) (off : Nat) : Option Nat :=
  let e := ethOf d l.inst
  let rel := l.rel
  if rel = 4 then
    let left := if e.st = 2 then ceilDiv (e.dbStart + msCycles e.dbMs - d.clk.tclk) (msCycles 1) else 0
    some (e.st + 8 * (!e.pcs).toNat + 16 * e.lfault.toNat + 32 * e.rfault.toNat + 64 * e.anmis.toNat +
      128 * e.paused.toNat + 256 * (e.cbsErr % 256) + 65536 * (left % 1024))
  else if rel = 0x44 then
    some (e.pend.isSome.toNat + 256 * (e.entry % 256) +
      65536 * (match e.oper with | some g => g.entries.length % 512 | none => 0))
  else if rel = 0x58 ∨ rel = 0x5C then some (pairWord (gateStamp e.cct) (rel == 0x5C))
  else if rel = 0x60 then some (match e.oper with | some g => g.cycle % 2 ^ 32 | none => 0)
  else if 0x1800 ≤ rel ∧ rel < 0x2000 then
    let x := match e.oper with | some g => nth (0, 0) g.entries ((rel - 0x1800) / 8) | none => (0, 0)
    some (if rel % 8 = 0 then x.1 % 2 ^ 32 else x.2 % 256)
  else tallyView d l off 0x100 0x1A0 0

/-- R273: the queue exists in the image: its channel or port does. -/
def qInImage (d : Dev) (q : Nat) : Bool :=
  qExists q && (match qChannel q with | some ch => canInImage d ch | none => true) &&
    (match qEthPort q with | some p => ethInImage d p | none => true)

/-- R247, R252, R273: cells that no frame holds, stored or in an arrival reserve. -/
def freeCount (d : Dev) : Nat :=
  let stored := d.lnd.frames.foldl (fun a f => a + f.2.n) 0
  262144 - (List.range 10).foldl (fun a i => a + arrivalCells d i) stored

/-- R273. -/
def lndView (d : Dev) (l : Loc) (off : Nat) : Option Nat :=
  let rel := l.rel
  if rel = 4 then some (d.lnd.cfgErr.toNat + 2 * d.lnd.reason + 65536 * d.lnd.errQ)
  else if rel = 0x18 then some (poolUsed d)
  else if rel = 0x1C then some (freeCount d)
  else if rel = 0x20 then some (allQueues.foldl (fun a q => a + qMin d q) 0)
  else if 0x1000 ≤ rel ∧ rel < 0x5000 then
    let q := (rel - 0x1000) / 0x20
    let r := rel % 0x20
    if r = 0x10 then some (depthCells d q)
    else if r = 0x14 then some (ownCells d q)
    else if r = 0x18 then
      let c := match mapGet? (limitMap d) q with | some s => cells s | none => 0
      some (reg d off % 2 + 65536 * (c % 256) + 2 ^ 31 * (qInImage d q).toNat)
    else none
  else if rel < 0x80 then tallyView d l off 0x40 0x78 (fld d 0x500030 0 9)
  else if rel < 0x98 then tallyView d l off 0x80 0x90 (fld d 0x500034 0 4)
  else tallyView d l off 0xC0 0xC0 0

/-- R301. -/
def rteView (d : Dev) (l : Loc) (off : Nat) : Option Nat :=
  let rel := l.rel
  if rel = 0 then some ((reg d off &&& 7) + 8 * d.rte.polErr.toNat)
  else if rel = 0x50 then some ((reg d off &&& 0x1FFFF7) + 2 ^ 31 * d.rte.twReady.toNat)
  else if 0x60 ≤ rel ∧ rel < 0xC0 then some (nth (0 : Word) d.rte.twData ((rel - 0x60) / 4)).toNat
  else if 0x100 ≤ rel ∧ rel < 0x200 ∧ rel % 0x20 = 0x18 then some (mapGet 0 d.rte.tunSeq ((rel - 0x100) / 0x20) % 256)
  else tallyView d l off 0x300 0x378 (fld d 0x580044 0 3)

/-- R332. -/
def milView (d : Dev) (l : Loc) (off : Nat) : Option Nat :=
  let rel := l.rel
  if rel = 0 then some (d.mil.cfgErr.toNat + 2 * d.mil.split.toNat + 4 * d.img.pduOn.toNat + 8 * d.mil.late.toNat)
  else if rel = 0x18 ∨ rel = 0x1C then some (pairWord d.mil.ticks (rel == 0x1C))
  else if rel = 0x20 then some ((reg d off &&& 0x3FFFFFFF) + 2 ^ 31 * d.mil.wReady.toNat)
  else if 0x40 ≤ rel ∧ rel < 0x80 then some (nth (0 : Word) d.mil.wData ((rel - 0x40) / 4)).toNat
  else tallyView d l off 0x100 0x180 0

/-- R339, R362: a user page. -/
def pageView (d : Dev) (l : Loc) : Option Nat :=
  let g := pageOf d l.inst
  let rel := l.rel
  if rel = 4 then
    some ((pageBusy d l.inst).toNat + 2 * (!g.held.isEmpty).toNat + 4 * d.cry.locked.toNat + 8 * g.donePend.toNat)
  else if rel = 8 then some (g.head + 256 * g.tail)
  else if 0x100 ≤ rel ∧ rel < 0x180 then some (mapGet (0 : Word) g.jstat ((rel - 0x100) / 4)).toNat
  else if 0x400 ≤ rel ∧ rel < 0xC00 then some (mapGet (0 : Word) g.mem (rel / 4)).toNat
  else if 0xC00 ≤ rel ∧ rel < 0x1000 then
    some (leNat ((List.range 4).map (fun i =>
      if isHeld g (rel - 0xC00 + i) then 0 else mapGet (0 : Byte) g.out (rel - 0xC00 + i))))
  else none

/-- R362. -/
def cryView (d : Dev) (l : Loc) (off : Nat) : Option Nat :=
  let rel := l.rel
  if rel = 0 then some (d.cry.locked.toNat + 2 * d.cry.progs.toNat)
  else if rel = 0x40 then some ((reg d off &&& 0x7FFF) + 2 ^ 31 * d.cry.wReady.toNat)
  else if 0x60 ≤ rel ∧ rel < 0xA0 then some (nth (0 : Word) d.cry.wData ((rel - 0x60) / 4)).toNat
  else if 0x400 ≤ rel ∧ rel < 0x420 then
    let p := (rel - 0x400) / 4
    some ((reg d off &&& 0xFF01) + 2 * (mapGet 0 d.cry.suite p % 4) + 8 * (mapGet 0 d.cry.txAn p % 4) +
      32 * (msEn d p && (txSaNow d p).isNone).toNat)
  else if rel < 0x838 then tallyView d l off 0x800 0x830 0
  else tallyView d l off 0x840 0x860 (fld d 0x780020 0 3)

/-- R385. -/
def kvtView (d : Dev) (who : Initiator) (l : Loc) (off : Nat) : Option Nat :=
  let rel := l.rel
  let s := fld d 0x7C0030 0 12
  let k := slotOf d s
  let shown := k.full && kvtMay d who k.domain
  if rel = 0 then
    some (d.kvt.sealed.toNat + 2 * d.kvt.pufFail.toNat + 4 * d.kvt.locked.toNat + 8 * (d.fuses.lc % 4) +
      32 * d.kvt.openScope.isSome.toNat + 64 * d.kvt.armed.isSome.toNat + 128 * d.store.keyRo.toNat)
  else if rel = 8 then some (mapGet 0 d.kvt.status (initIx who))
  else if rel = 0xC then some (mapGet 0 d.kvt.result (initIx who) % 2 ^ 32)
  else if rel = 0x34 then some (if shown then handleOf d s else 0)
  else if rel = 0x38 then
    some (if shown then k.ktype + 4 * k.usage + 256 * k.domain + 4096 * k.level + 32768 * k.retired.toNat +
        65536 * (match k.pers with | some x => x.2 % 65536 | none => 0)
      else if !k.full && kvtMay d who k.domain then 32768 * k.retired.toNat else 0)
  else if rel = 0x40 then some (match d.kvt.alarmRec with | some x => x.1 % 8 + 8 | none => 0)
  else if rel = 0x44 then some (match d.kvt.alarmRec with | some x => x.2 % 2 ^ 32 | none => 0)
  else if 0x50 ≤ rel ∧ rel < 0x60 then some (leAt (fit 16 d.fuses.devid) (rel - 0x50) 4)
  else if 0x60 ≤ rel ∧ rel < 0x70 then
    some (match d.kvt.chal with | some c => leAt (fit 16 c) (rel - 0x60) 4 | none => 0)
  else if 0x100 ≤ rel ∧ rel < 0x1C0 then
    let n := (rel - 0x100) / 0x30
    let m := if n = 0 then d.kvt.ma0 else if n = 1 then d.kvt.ma1 else if n = 2 then d.kvt.ma2 else d.kvt.ma3
    some (leAt (fit 48 m) ((rel - 0x100) % 0x30) 4)
  else tallyView d l off 0x200 0x218 0

/-- R434: an entry of the offender log. -/
def logEntry (o : Offender) : Nat :=
  o.cluster + 32 * o.isOpen.toNat + 64 * o.eth.toNat + 128 * (o.port % 32) + 4096 * (o.node % 256) +
    2 ^ 20 * (o.cbv % 256) + 2 ^ 32 * (o.first % 2 ^ 32) + 2 ^ 64 * (o.secs % 2 ^ 32) + 2 ^ 96 * (o.pdus % 2 ^ 32)

/-- R422, R438: NMC_CSTAT. -/
def clusterStat (d : Dev) (c : Nat) : Nat :=
  let x := clusterOf d c
  x.st + 8 * (localNeed d c).toNat + 16 * x.rewake.isSome.toNat +
    65536 * (ceilDiv (x.t0 + msCycles x.len - d.clk.tclk) (msCycles 1) % 65536)

/-- R438. -/
def nmcView (d : Dev) (l : Loc) (off : Nat) : Option Nat :=
  let rel := l.rel
  if rel = 0 then some ((List.range 32).foldl (fun a c => if (clusterOf d c).st != 0 then a + 2 ^ c else a) 0)
  else if rel = 4 then some d.nmc.cfgErr.toNat
  else if rel = 0x10 ∨ rel = 0x14 then some (pairWord (pncMask d) (rel == 0x14))
  else if 0x28 ≤ rel ∧ rel < 0x38 then
    some (match nth none d.nmc.log (fld d 0x7E0024 0 6) with | some o => bits (logEntry o) (8 * (rel - 0x28)) 32 | none => 0)
  else if 0x1000 ≤ rel ∧ rel < 0x1800 ∧ rel % 0x40 = 0 then some (clusterStat d ((rel - 0x1000) / 0x40))
  else if 0xC0 ≤ rel ∧ rel < 0xC8 then tallyView d l off 0xC0 0xC0 0
  else tallyView d l off 0x80 0xC8 (fld d 0x7E0020 0 5)

/-- R479: EPID of HIF_STAT. -/
def epid : Initiator → Nat
  | .pcie0 => 1 | .pcie1 => 2 | .hspi => 3 | .eopod => 0 | .jtag => 0

/-- R444, R479. -/
def hifView (d : Dev) (who : Initiator) (rel : Nat) : Option Nat :=
  let a := mapGet {} d.acc (initIx who)
  let ep := match endpointOf who with | some e => epOf d e | none => {}
  if rel = 0 then some (ep.up.toNat + 2 * ep.bme.toNat + 4 * epid who + 16 * a.err.toNat)
  else if rel = 4 then some (a.off % 2 ^ 24 + 2 ^ 24 * (a.kind % 8))
  else none

/-- R460, R479: an event FIFO. -/
def evqView (d : Dev) (l : Loc) (off : Nat) : Option Nat :=
  let q := fifoOf d l.inst
  let rel := l.rel
  if rel = 4 then
    let bad := match evqShown d l.inst with | some e => e.bad | none => false
    some (q.entries.length % 8192 + 65536 * (decide (q.rd < q.entries.length)).toNat + 131072 * bad.toNat +
      262144 * q.levelHit.toNat + (reg d off &&& 0x300000))
  else if rel = 0xC then some (q.rd + 65536 * q.mark)
  else if 0x20 ≤ rel ∧ rel < 0x40 then some (evqEntryWord d l.inst ((rel - 0x20) / 4))
  else tallyView d l off 0x40 0x48 0

/-- R442, R479: a place of the reading endpoint's own host port; other initiators have none. -/
def portView (d : Dev) (who : Initiator) (l : Loc) (off : Nat) : Option Nat :=
  match endpointOf who with
  | none => some 0
  | some e =>
    match l.blk with
    | .rq => if l.rel = 8 then some (rxOf d e l.inst).bhead else none
    | .tq => if l.rel = 8 then some (txHead (txOf d e l.inst)) else tallyView d l off 0x28 0x28 e
    | .rqBuf => some (mapGet (0 : Word) (epOf d e).bufs (512 * l.inst + l.rel / 4)).toNat
    | .txWin => some (mapGet (0 : Word) (txOf d e l.inst).win (l.rel / 4)).toNat
    | .msix => some (msixWord (epOf d e) (l.rel / 4))
    | .pba => some (pairWord ((epOf d e).pba.foldl (fun a v => a + 2 ^ v) 0) (l.rel == 4))
    | _ => none

/-- The GPIO numbers of general inputs, as a mask (R112). -/
def gpioInMask (d : Dev) : Nat := (roleGpios d 3).foldl (fun a g => a ||| 2 ^ g) 0

/-- R479. -/
def brgView (d : Dev) (who : Initiator) (l : Loc) (off : Nat) : Option Nat :=
  let rel := l.rel
  if rel = 0 then
    let wait := (busQueue d (farBus (fld d 0x900008 0 3))).filter (fun a => !a.issued)
    some (d.brg.rderr.toNat + 2 * d.brg.irdbusy.toNat + 16 * (wait.length % 32))
  else if rel = 4 then some (d.brg.seq % 2 ^ 32)
  else if rel = 0x44 then some (mapGet 0 d.brg.irdRes (brgNum who))
  else if rel = 0x54 then some ((Config.gpioIn d.clk.tclk).toNat &&& gpioInMask d)
  else if 0x100 ≤ rel ∧ rel < 0x1C0 ∧ (rel - 0x100) % 0xC = 8 then some (mapGet 0 d.brg.pollVal ((rel - 0x100) / 0xC) % 65536)
  else if 0x1000 ≤ rel ∧ rel < 0x1400 then
    some (nth (0 : Word) (mapGet [] d.brg.log ((rel - 0x1000) / 16)) (rel % 16 / 4)).toNat
  else tallyView d l off 0x1400 0x1408 0

/-- R495. -/
def recView (d : Dev) (l : Loc) (off : Nat) : Option Nat :=
  let r := d.rcd
  let rel := l.rel
  if rel = 0 then some ((reg d off &&& 0x3F00) + (flag d off 0 && decide (2 ≤ slotsOf d 5 0x42)).toNat)
  else if rel = 4 then
    some (r.st + 4 * r.retained.toNat + 8 * r.why + 64 * r.wrap.toNat + 256 * r.src + 2048 * r.relErr.toNat)
  else if rel = 0x28 ∨ rel = 0x2C then some (pairWord r.wptr (rel == 0x2C))
  else if rel = 0x30 ∨ rel = 0x34 then some (pairWord r.trigPtr (rel == 0x34))
  else if rel = 0x38 ∨ rel = 0x3C then some (pairWord (stampWord r.trigTime) (rel == 0x3C))
  else if rel = 0x40 then some (r.seq % 2 ^ 32)
  else if rel = 0x68 then some (r.readout.result + 4 * r.readout.done.toNat + 8 * r.readout.busy.toNat)
  else if rel = 0x70 then some (r.dens + 4 * r.rate + 16 * r.sr.toNat + 32 * recMaxSize r.dens)
  else tallyView d l off 0x100 0x130 0

/-- R515, R527: SECSLEFT: whole seconds that the trial timer has left while the booted slot is in TRIAL. -/
def secsLeft (d : Dev) : Nat :=
  if slotState d.upd.brec d.upd.booted = 3 then d.upd.brec.secs - trialSecs d else 0

/-- R527. -/
def updView (d : Dev) (l : Loc) (off : Nat) : Option Nat :=
  let u := d.upd
  let b := u.brec
  let rel := l.rel
  if rel = 4 then
    some (u.sess + 8 * u.busy.toNat + 16 * u.owner + 64 * u.target + 256 * (u.status % 256) + 65536 * (u.code % 256))
  else if rel = 0x18 then some u.done
  else if rel = 0x20 then some (u.bootRep % 2 ^ 32)
  else if rel = 0x24 then some (b.stateA + 256 * b.fwSecA + 65536 * b.imgSecA)
  else if rel = 0x28 then some (b.stateB + 256 * b.fwSecB + 65536 * b.imgSecB)
  else if rel = 0x2C then some (b.left % 8 + 8 * u.expired.toNat + 65536 * (secsLeft d % 65536))
  else if rel = 0x30 then some (d.fuses.fwcnt + 256 * d.fuses.imgcnt + 65536 * d.fuses.revoke)
  else if rel = 0x34 then
    some (spares d % 65536 + 65536 * d.store.keyRo.toNat + 131072 * d.store.freshRo.toNat + 262144 * d.store.mapRo.toNat)
  else tallyView d l off 0x40 0x50 0

/-- R241. -/
def tbsView (d : Dev) (rel : Nat) : Option Nat :=
  let s := nowNs d / 1000000000
  if rel = 0 then some (nowNs d % 1000000000)
  else if rel = 4 then some (s % 2 ^ 32)
  else if rel = 8 then some (s / 2 ^ 32 % 65536)
  else if rel = 0x28 ∨ rel = 0x2C then some (pairWord (gateStamp d.clk.ppsIn) (rel == 0x2C))
  else none

/-- The view of a place. -/
def viewOf (d : Dev) (who : Initiator) (l : Loc) (off : Nat) : Option Nat :=
  match l.blk with
  | .glb => glbView d l.rel
  | .ckp => ckpView d l off
  | .flt => fltView d l off
  | .swh => swhView d l off
  | .grv => none
  | .can => canView d who l off
  | .filt => some (pairWord (filtEntry d l.inst (l.rel / 8)) (l.rel % 8 == 4))
  | .eth => ethView d l off
  | .lnd => lndView d l off
  | .rte => rteView d l off
  | .mil => milView d l off
  | .page => pageView d l
  | .cry => cryView d l off
  | .kvt => kvtView d who l off
  | .nmc => nmcView d l off
  | .hif => hifView d who l.rel
  | .evq => evqView d l off
  | .msix | .pba | .rq | .rqBuf | .tq | .txWin => portView d who l off
  | .brg => brgView d who l off
  | .brgWin => some 0
  | .rec' => recView d l off
  | .upd => updView d l off
  | .tbs => tbsView d l.rel

/-! ## Reads -/

/-- Places that read zero and ignore writes: a CAN channel that is not in the image (R163), what ETHM lacks (R211), the
shaper registers of a class without an engine (R240), queue indices that do not exist (R273). -/
def absent (d : Dev) (l : Loc) : Bool :=
  match l.blk with
  | .can => !canInImage d l.inst
  | .eth =>
    (l.inst == 8 && !(decide (l.rel < 0x18) || (decide (0x100 ≤ l.rel) && decide (l.rel < 0x200)))) ||
      (decide (0x400 ≤ l.rel) && decide (l.rel < 0x480) && !hasShaper d l.inst ((l.rel - 0x400) / 0x10))
  | .lnd => decide (0x1000 ≤ l.rel) && decide (l.rel < 0x5000) && !qExists ((l.rel - 0x1000) / 0x20)
  | _ => false

/-- R11, R12: the value of a word, before the latch of R15. A read of the mailbox shadow by an endpoint that does not hold the
lock of R198 answers its contents (DESIGN CHOICE, log entry 154). -/
def wordNow (d : Dev) (who : Initiator) (off : Nat) (l : Loc) : Nat :=
  if absent d l then 0 else (viewOf d who l off).getD (storedWord d who off l)

/-- R16: whether an offset of a block is the low word of a Tally counter. -/
def tallyLow (l : Loc) : Bool :=
  let within := fun (lo hi : Nat) => decide (lo ≤ l.rel) && decide (l.rel ≤ hi) && (l.rel - lo) % 8 == 0
  match l.blk with
  | .ckp => within 0x18 0x28
  | .flt => within 0x40 0x68
  | .swh => within 0x28 0x48
  | .can => within 0x100 0x188
  | .eth => within 0x100 0x1A0
  | .lnd => within 0x40 0x90 || within 0xC0 0xC0
  | .rte => within 0x300 0x378
  | .mil => within 0x100 0x180
  | .cry => within 0x800 0x830 || within 0x840 0x860
  | .kvt => within 0x200 0x218
  | .nmc => within 0x80 0xC8
  | .evq => within 0x40 0x48
  | .tq => within 0x28 0x28
  | .brg => within 0x1400 0x1408
  | .rec' => within 0x100 0x130
  | .upd => within 0x40 0x50
  | _ => false

/-- R15: whether a place is the low word of a register pair. -/
def pairLow (l : Loc) : Bool :=
  tallyLow l || (match rowAt l with | some r => r.pair == 1 | none => false) ||
    (match l.blk with
     | .ckp => l.rel == 0x30 || l.rel == 0x48
     | .swh => l.rel == 0
     | .filt => l.rel % 8 == 0
     | .eth => l.rel == 0x58 || (decide (0x1800 ≤ l.rel) && decide (l.rel < 0x2000) && l.rel % 8 == 0)
     | .mil => l.rel == 0x18
     | .nmc => l.rel == 0x10
     | .rec' => l.rel == 0x28 || l.rel == 0x30 || l.rel == 0x38
     | .tbs => l.rel == 0 || l.rel == 0x28
     | _ => false)

/-- R15, R241: what stands above the low word at `off`: the high word, and for TBS_TIME0 the two words above it. -/
def aboveLow (d : Dev) (who : Initiator) (off : Nat) (l : Loc) : Nat :=
  wordNow d who (off + 4) { l with rel := l.rel + 4 } +
    (if off = 0xC80000 then 2 ^ 32 * wordNow d who (off + 8) { l with rel := l.rel + 8 } else 0)

/-- R15: the read latch of an initiator takes what stands above the low word. -/
def latchPair (d : Dev) (who : Initiator) (off : Nat) (l : Loc) : Dev :=
  { d with pairs := mapPut d.pairs (initIx who) { pairOf d who with latch := some (off, aboveLow d who off l) } }

/-- R15: the latched word of a pair, where the initiator's latch was last filled from it. -/
def latched (d : Dev) (who : Initiator) (off : Nat) (l : Loc) : Option Nat :=
  match (pairOf d who).latch with
  | some (o, v) =>
    if o + 4 = off && pairLow { l with rel := l.rel - 4 } then some (v % 2 ^ 32)
    else if o = 0xC80000 && off = 0xC80008 then some (v / 2 ^ 32)
    else none
  | none => none

/-- What a read does besides: EVQ_ENTRY checks the parity of its entry (R461), a read of held output is counted (R347). -/
def readEffect (d : Dev) (l : Loc) : Dev :=
  match l.blk with
  | .evq => if 0x20 ≤ l.rel ∧ l.rel < 0x40 then evqServe d l.inst else d
  | .page =>
    if 0xC00 ≤ l.rel ∧ l.rel < 0x1000 ∧ (List.range 4).any (fun i => isHeld (pageOf d l.inst) (l.rel - 0xC00 + i))
    then bump d 0x780820 0 else d
  | _ => d

/-- A read of a word that the initiator may access: its effects, and the value. -/
def readWord (d : Dev) (who : Initiator) (off : Nat) (l : Loc) : Dev × Nat :=
  let v := (latched d who off l).getD (wordNow d who off l)
  let d := if pairLow l then latchPair d who off l else d
  (readEffect d l, v)

/-- R10, R444: a read of `size` bytes by an initiator; an access error reads all ones. A bridge window answers later (R472). -/
def regRead (d : Dev) (who : Initiator) (off size : Nat) : Dev :=
  if !canAccess d who then d
  else if accKind d who off size ≠ 0 then emit (accErr d who off (accKind d who off size)) (.completion who off 0xFFFFFFFF)
  else match locate off with
    | none => d
    | some l =>
      if l.blk = .brgWin then brgRead d who off
      else
        let r := readWord d who off l
        emit r.1 (.completion who off (BitVec.ofNat 32 r.2))

/-- REGISTER_PAIR_LOW_READ. -/
def execRegisterPairLowRead (who : Initiator) (r : ReadAt) : State → Host.Outcome State Fault Refusal :=
  accessWhen who (.registerPairLowRead who r) (brgFull (.registerPairLowRead who r) who r.off)
    (fun d => regRead d who r.off r.size)

end Sys2Proof.Machine
end

