-- ==== Sys2Proof/Machine/RegWrite.lean ====
section
/-! DEFINITION. What a write of a register word does (R11, R12, R14, R15, R444): stored fields, shadows, pair holds, and the
registers whose write acts on a block; then REGISTER_WRITE. A register with a row of its own in the table acts through the
operation of that row. -/

namespace Sys2Proof.Machine

/-! ## Stored words -/

/-- R12: a stored word after a write: RW fields set, W1C bits cleared where the written bit is 1. -/
def storeWord (d : Dev) (key w rw w1c : Nat) : Dev :=
  let v := mergeMask (regK d key) w rw
  putK d key (mergeMask v 0 (w &&& w1c))

/-- R15: a write to the high word of a pair: with the held low word both apply, else the high word alone. -/
def storePair (d : Dev) (who : Initiator) (off : Nat) (l : Loc) (w : Nat) (r : RegRow) : Dev :=
  let key := placeKey who off l
  match heldLow d who (off - 4) with
  | none => storeWord d key w r.rw 0
  | some lo =>
    let lowRw := match rowAt { l with rel := l.rel - 4 } with | some x => x.rw | none => 0
    storeWord (storeWord (dropHold d who) (key - 4) lo lowRw 0) key w r.rw 0

/-- R12, R14, R15: a write by the access type of its fields; a place of no stored register ignores it (R11). -/
def storeAt (d : Dev) (who : Initiator) (off : Nat) (l : Loc) (w : Nat) : Dev :=
  match rowAt l with
  | none => d
  | some r =>
    if r.rws ≠ 0 then rwsWrite d who off (BitVec.ofNat 32 w)
    else if r.pair = 1 then holdLow d who off (BitVec.ofNat 32 w)
    else if r.pair = 2 then storePair d who off l w r
    else storeWord d (placeKey who off l) w r.rw r.w1c

/-! ## Registers whose write acts -/

/-- Do `f` where bit `i` of the written word is set. -/
def onBit (w i : Nat) (f : Dev → Dev) (d : Dev) : Dev := if bit w i then f d else d

/-- R105, R141. -/
def glbWrite (d : Dev) (who : Initiator) (rel w : Nat) : Option Dev :=
  if rel = 0x10 then some (modeRequest d w false)
  else if rel = 0x20 then some (commitWrite d who (BitVec.ofNat 32 w))
  else if rel = 0x24 then some (onBit w 4 (fun d => { d with com := { d.com with deltaErr := false } }) d)
  else none

/-- R105. -/
def ckpWrite (d : Dev) (rel w : Nat) : Option Dev :=
  if rel = 0x14 then some (onBit w 16 (fun d => modSag d (fun s => { s with persist := false })) d)
  else if rel = 0x70 then some (ckpClear w d)
  else none

/-- R399, R417. FLT_JLEVEL reaches the level of the selected twin. -/
def fltWrite (d : Dev) (rel w : Nat) : Option Dev :=
  let t := fld d 0x20010 0 5
  if rel = 0x18 then some (if t < 31 then putReg d (0x20100 + 4 * t) (bits w 0 19) else d)
  else if rel = 0xF0 then some (fltClear w d)
  else none

/-- R208: CAN_CTL: OPMODE 3 leaves its field unchanged; INIT and RECOVER act, and MBEN waits for XB2 to be empty (R181). -/
def canCtlWrite (d : Dev) (ch w : Nat) : Dev :=
  let b := canBase ch
  let m := if bits w 1 2 = 3 then 0x3FFEE8 else 0x3FFEEE
  let d := storeWord d b w m 0
  let d := if bit w 0 then initRequest d ch else initLeave d ch
  onBit w 8 (fun d => canRecover d ch) (mbSync d ch)

/-- R198, R199: a write to the mailbox shadow by the holder of the lock; any other is counted. -/
def shadowWrite (d : Dev) (who : Initiator) (off : Nat) (l : Loc) (w : Nat) : Dev :=
  if (rowAt l).isNone then d
  else if mbNum who == some (canOf d l.inst).mbOwner then storeAt d who off l w
  else bumpC d l.inst 0x180

/-- R208. -/
def canWrite (d : Dev) (who : Initiator) (off : Nat) (l : Loc) (w : Nat) : Option Dev :=
  let ch := l.inst
  let rel := l.rel
  if rel = 0 then some (canCtlWrite d ch w)
  else if rel = 4 then some (onBit w 29 (fun d => modCan d ch (fun c => { c with tdcErr := false })) d)
  else if rel = 0x40 then some (cancelRequest d ch w)
  else if rel = 0x50 then some (onBit w 9 (fun d => mbRel d who ch) (onBit w 8 (fun d => mbAcq d who ch) d))
  else if rel = 0x54 then some (onBit w 0 (fun d => mbGo d who ch) d)
  else if rel = 0x58 then
    some (onBit w 2 (fun d => modCan d ch (fun c => { c with mbRef := false }))
      (onBit w 1 (fun d => modCan d ch (fun c => { c with mbDone := false })) d))
  else if rel = 0x78 then
    some (onBit w 3 (fun d => modCan d ch (fun c => { c with swkFecW := false }))
      (onBit w 2 (fun d => modCan d ch (fun c => { c with swkMatch := false })) d))
  else if rel = 0x1F0 then some (canClear ch w d)
  else if 0x800 ≤ rel ∧ rel < 0x850 then some (shadowWrite d who off l w)
  else none

/-- R180: a write to the filter memory window: an entry is a register pair, and changes whole. -/
def filtWrite (d : Dev) (who : Initiator) (off : Nat) (l : Loc) (w : Nat) : Dev :=
  let key := 8192 * l.inst + l.rel / 8
  if l.rel % 8 = 0 then holdLow d who off (BitVec.ofNat 32 w)
  else
    let old := filtEntry d l.inst (l.rel / 8)
    let lo := (heldLow d who (off - 4)).getD (old % 2 ^ 32)
    let d := if (heldLow d who (off - 4)).isSome then dropHold d who else d
    { d with img := { d.img with canFilt := mapStore 0 d.img.canFilt key (lo + w * 2 ^ 32) } }

/-- R229, R235, R240. -/
def ethWrite (d : Dev) (l : Loc) (w : Nat) : Option Dev :=
  let p := l.inst
  let b := ethBase p
  if l.rel = 0 then some (ethEnable (loopWrite d p (bit w 1)) p (bit w 0))
  else if l.rel = 0x40 then
    some (onBit w 1 (fun d => gclRequest d p) (putReg d (b + 0x40) (mergeMask (reg d (b + 0x40)) w 0x01FF0001)))
  else if l.rel = 0x1F0 then some (ethClear p w d)
  else none

/-- R266, R273. -/
def lndWrite (d : Dev) (rel w : Nat) : Option Dev :=
  if rel = 4 then some (onBit w 0 (fun d => { d with lnd := { d.lnd with cfgErr := false } }) d)
  else if rel = 0x28 then some (queueFlush d w)
  else if rel = 0xF0 then some (lndClear w d)
  else none

/-- R298, R299, R301. -/
def rteWrite (d : Dev) (rel w : Nat) : Option Dev :=
  if rel = 0 then
    some (onBit w 3 (fun d => { d with rte := { d.rte with polErr := false } }) (storeWord d 0x580000 w 7 0))
  else if rel = 0x40 then some (streamUnblock d w)
  else if rel = 0x50 then some (tableSelect d w)
  else if rel = 0xF4 then some (rteClear w d)
  else none

/-- R332. -/
def milWrite (d : Dev) (rel w : Nat) : Option Dev :=
  if rel = 0 then
    some (onBit w 3 (fun d => { d with mil := { d.mil with late := false } })
      (onBit w 0 (fun d => { d with mil := { d.mil with cfgErr := false } }) d))
  else if rel = 0x20 then some (milSelect d w)
  else if rel = 0x1F0 then some (milClear w d)
  else none

/-- R339, R342, R345, R362: a user page. Its registers and buffers lie in the CRYPTO island. -/
def pageWrite (d : Dev) (l : Loc) (off w : Nat) : Dev :=
  let p := l.inst
  if !bit d.clk.islands 7 then d
  else if l.rel = 0 then onBit w 1 (fun d => pageAbort d p) (storeWord d off w 1 0)
  else if l.rel = 4 then onBit w 3 (fun d => modPage d p (fun g => { g with donePend := false })) d
  else if l.rel = 8 then submitJobs d p w
  else if 0x400 ≤ l.rel ∧ l.rel < 0xC00 then
    modPage d p (fun g => { g with mem := mapStore (0 : Word) g.mem (l.rel / 4) (BitVec.ofNat 32 w) })
  else d

/-- R362. -/
def cryWrite (d : Dev) (rel w : Nat) : Option Dev :=
  if rel = 0x40 then some (crySelect d w)
  else if rel = 0x8F0 then some (cryClear w d)
  else none

/-- R374: a write of KVT_CMD. REPLACE and NEWCHAL take from outside the device what their own rows carry (flash results,
entropy), so a plain write of these OPs is no event of this row (DESIGN CHOICE, log entry 1). -/
def kvtOp (d : Dev) (who : Initiator) (op : Nat) : Dev :=
  if op = 1 ∨ op = 2 ∨ op = 3 ∨ op = 6 then kvtCmd d ⟨who, op, [], []⟩ else d

/-- R385. -/
def kvtWrite (d : Dev) (who : Initiator) (rel w : Nat) : Option Dev :=
  if rel = 4 then some (kvtOp d who (bits w 0 4))
  else if rel = 0x2F0 then some (kvtClear w d)
  else none

/-- R429, R436, R438: a write of what local need and the INH_OUT balls follow. -/
def nmcWrite (d : Dev) (who : Initiator) (off : Nat) (l : Loc) (w : Nat) : Option Dev :=
  let rel := l.rel
  if rel = 4 then some (onBit w 0 (fun d => { d with nmc := { d.nmc with cfgErr := false } }) d)
  else if rel = 0xF0 then some (nmcClear w d)
  else if rel = 0x1C ∨ (0x400 ≤ rel ∧ rel < 0x800) then some (needAll (storeAt d who off l w))
  else if 0x200 ≤ rel ∧ rel < 0x220 then
    let r := inhUpdate (storeAt d who off l w)
    some ((List.range 4).foldl (fun r j =>
      if d.clk.pinsOn && !holdMode d && inhLevel r j != inhLevel d j && bit r.nmc.inh j == bit d.nmc.inh j
      then drive r (16 + j) (inhLevel r j) else r) r)
  else if 0x1000 ≤ rel ∧ rel < 0x1800 ∧ rel % 0x40 = 4 then some (nmRequest d ((rel - 0x1000) / 0x40) w)
  else none

/-- R444, R446, R479. -/
def hifWrite (d : Dev) (who : Initiator) (rel w : Nat) : Option Dev :=
  if rel = 0 then
    some (onBit w 4 (fun d => { d with acc := mapMod {} d.acc (initIx who) (fun a => { a with err := false, off := 0, kind := 0 }) }) d)
  else if rel = 0xF0 then some (hifClear who w d)
  else if 0x400 ≤ rel ∧ rel < 0x600 then some (pageDomain d who ((rel - 0x400) / 4) w)
  else none

/-- R460, R462: EVQ_CTL and EVQ_STAT; several controls act in bit order. -/
def evqWrite (d : Dev) (f rel off w : Nat) : Option Dev :=
  if rel = 0 then
    let d := storeWord d off w 0x003F0300 0
    some (onBit w 3 (evqRelease f) (onBit w 2 (evqRewind f) (onBit w 1 (evqMark f) (onBit w 0 (evqNext f) d))))
  else if rel = 4 then some (onBit w 18 (fun d => setFifo d f { fifoOf d f with levelHit := false }) d)
  else none

/-- R439, R463: a word of the MSI-X table; clearing a mask sends a pending vector. Of vector control only the mask is
held. -/
def msixWrite (d : Dev) (e i w : Nat) : Dev :=
  let v := if i % 4 = 3 then w % 2 else w
  msixPending (modEp d e (fun ep => { ep with msix := mapPut ep.msix i (BitVec.ofNat 32 v) })) e (i / 4)

/-- R442, R447, R452: a place of the writing endpoint's own host port. -/
def portWrite (d : Dev) (who : Initiator) (l : Loc) (off w : Nat) : Dev :=
  match endpointOf who with
  | none => d
  | some e =>
    match l.blk with
    | .rq => storeAt d who off l w
    | .tq => if l.rel = 4 then txTailWrite d who e l.inst w else storeAt d who off l w
    | .rqBuf =>
      modEp d e (fun ep => { ep with bufs := mapStore (0 : Word) ep.bufs (512 * l.inst + l.rel / 4) (BitVec.ofNat 32 w) })
    | .txWin =>
      if txOverrun d e l.inst l.rel then accErr d who off 5
      else modTx d e l.inst (fun q => { q with win := mapStore (0 : Word) q.win (l.rel / 4) (BitVec.ofNat 32 w) })
    | .msix => msixWrite d e (l.rel / 4) w
    | _ => d

/-- R112, R479: the general outputs take the levels of BRG_GPIOOUT, unless SAFE of the pin section holds them (R66). -/
def gpioOut (d : Dev) (w : Nat) : Dev :=
  let d := storeWord d 0x900050 w 0xFFFFFC 0
  if !d.clk.pinsOn || d.clk.safeOut then d
  else (roleRecs d 2).foldl (fun d r => match pnGpio r with
    | some g => emit d (.line (32 + g) (bit w g != bit r 22))
    | none => d) d

/-- R472, R474, R479. -/
def brgCtlWrite (d : Dev) (who : Initiator) (rel w : Nat) : Option Dev :=
  if rel = 0 then
    some (onBit w 1 (fun d => modBrg d (fun g => { g with irdbusy := false }))
      (onBit w 0 (fun d => modBrg d (fun g => { g with rderr := false })) d))
  else if rel = 0x40 then some (irdRequest d who w)
  else if rel = 0x50 then some (gpioOut d w)
  else none

/-- R487, R492, R495, R542: REC_CTL: a write of EN 1 has no effect while the recorder owns fewer than 2 DRAM command
slots. -/
def recCtlWrite (d : Dev) (w : Nat) : Dev :=
  let m := if bit w 0 && decide (slotsOf d 5 0x42 < 2) then 0x3F00 else 0x3F01
  let d := recSync (storeWord d 0xA00000 w m 0)
  onBit w 2 recRelease (onBit w 1 (fun d => recTrig d 1 (nowNs d) 0) d)

/-- R493, R495. -/
def recCtl (d : Dev) (who : Initiator) (rel w : Nat) : Option Dev :=
  if rel = 0 then some (recCtlWrite d w)
  else if rel = 4 then some (onBit w 11 (fun d => modRec d (fun r => { r with relErr := false })) d)
  else if rel = 0x64 then
    let go := fun d => match endpointOf who with | some e => readoutGo d e | none => d
    some (onBit w 1 readoutAbort (onBit w 0 go d))
  else if rel = 0x68 then
    some (onBit w 2 (fun d => modRec d (fun r => { r with readout := { r.readout with done := false } })) d)
  else if rel = 0x1F0 then some (recClear w d)
  else none

/-- R512, R527: a write of UPD_CMD: the operation of its row, on flash that takes what is written. -/
def updOp (d : Dev) (who : Initiator) (w : Nat) : Dev :=
  match bits w 0 4 with
  | 1 => sessCmd 1 who (fun d => updOpen d who (bit w 4)) d
  | 2 => sessCmd 2 who (fun d => updWrite d .ok) d
  | 3 => sessCmd 3 who updVerify d
  | 4 => sessCmd 4 who updArm d
  | 5 => sessCmd 5 who updAbort d
  | 6 => updConfirm d (bit w 8)
  | 7 => sessCmd 7 who updReset d
  | 8 => updFallback d
  | _ => d

/-- R527: UPD_BUF is written only by the session owner. -/
def updCtl (d : Dev) (who : Initiator) (rel w : Nat) : Option Dev :=
  if rel = 0 then some (updOp d who w)
  else if rel = 0xF0 then some (updClear w d)
  else if 0x1000 ≤ rel ∧ rel < 0x2000 then
    (if d.upd.sess ≠ 0 ∧ d.upd.owner = ownerNum who then none else some d)
  else none

/-- R226, R227, R241: TBS_STEP and SYNC; a change of SYNC raises TIME_SYNC. -/
def tbsWrite (d : Dev) (who : Initiator) (rel w : Nat) : Option Dev :=
  if rel = 0x18 then some (holdLow d who 0xC80018 (BitVec.ofNat 32 w))
  else if rel = 0x1C then some (stepWrite d who w)
  else if rel = 0x20 then
    let r := storeWord d 0xC80020 w 3 0
    some (if synced r != synced d then raise r 0x080A 0 (eFlag (synced r)) else r)
  else none

/-- The effect of a write on a place whose write acts; `none` where the word is only stored. -/
def actsAt (d : Dev) (who : Initiator) (off : Nat) (l : Loc) (w : Nat) : Option Dev :=
  match l.blk with
  | .glb => glbWrite d who l.rel w
  | .ckp => ckpWrite d l.rel w
  | .flt => fltWrite d l.rel w
  | .swh => if l.rel = 0x70 then some (swhClear w d) else none
  | .grv => some d
  | .can => canWrite d who off l w
  | .filt => some (filtWrite d who off l w)
  | .eth => ethWrite d l w
  | .lnd => lndWrite d l.rel w
  | .rte => rteWrite d l.rel w
  | .mil => milWrite d l.rel w
  | .page => some (pageWrite d l off w)
  | .cry => cryWrite d l.rel w
  | .kvt => kvtWrite d who l.rel w
  | .nmc => nmcWrite d who off l w
  | .hif => hifWrite d who l.rel w
  | .evq => evqWrite d l.inst l.rel off w
  | .msix | .pba | .rq | .rqBuf | .tq | .txWin => some (portWrite d who l off w)
  | .brg => brgCtlWrite d who l.rel w
  | .brgWin => some (brgWrite d who off w)
  | .rec' => recCtl d who l.rel w
  | .upd => updCtl d who l.rel w
  | .tbs => tbsWrite d who l.rel w

/-! ## Writes -/

/-- A write of a word that the initiator may access. -/
def writeWord (d : Dev) (who : Initiator) (off : Nat) (w : Word) : Dev :=
  match locate off with
  | none => d
  | some l =>
    if absent d l then d
    else match actsAt d who off l w.toNat with
      | some r => r
      | none => storeAt d who off l w.toNat

/-- R10, R12, R444: a write of `size` bytes at an offset: with an access error it has no effect and is counted. -/
def regWrite (d : Dev) (who : Initiator) (off size : Nat) (w : Word) : Dev :=
  if !canAccess d who then d
  else if accKind d who off size ≠ 0 then accErr d who off (accKind d who off size)
  else writeWord d who off w

/-- R447: a write into a transmit window whose ring is full. -/
def windowOver (d : Dev) (who : Initiator) (off : Nat) : Bool :=
  match endpointOf who, locate off with
  | some e, some l => l.blk == .txWin && txOverrun d e l.inst l.rel
  | _, _ => false

/-- R451: while the arrival reserve of the host port is full, a write into a window whose ring is full waits. -/
def windowFull (who : Initiator) (off : Nat) (d : Dev) : Bool :=
  windowOver d who off && (match endpointOf who with | some e => arrivalFull d (4 + e) | none => false)

/-- REGISTER_WRITE. -/
def execRegisterWrite (who : Initiator) (off size : Nat) (w : Word) : State → Host.Outcome State Fault Refusal :=
  accessWhen who (.registerWrite who off size w)
    (fun d => brgFull (.registerWrite who off size w) who off d || accKind d who off size == 0 && windowFull who off d)
    (fun d => regWrite d who off size w)

end Sys2Proof.Machine
end

