-- ==== Sys2Proof/Machine/Held.lean ====
section
/-! DEFINITION. Register accesses that waited take effect in issue order (R45, R451, R471), and the commands that free a place
for them: BRIDGE_FAR_DONE, BRIDGE_READ_TIMEOUT, TX_RECORD, WATCH_ENTRY_FLUSH. -/

namespace Sys2Proof.Machine

/-- The meaning of a command that is a register access; any other has none here. -/
def accessOf : Instr → State → Host.Outcome State Fault Refusal
  | .modeRequest who w auth => execModeRequest who w auth
  | .commitRegs who => execCommitRegs who
  | .commitDelta who regs => execCommitDelta who regs
  | .canInitRequest who ch => execCanInitRequest who ch
  | .canInitLeave who ch => execCanInitLeave who ch
  | .canRecover who ch => execCanRecover who ch
  | .canCancelRequest who ch w => execCanCancelRequest who ch w
  | .canMbAcq who ch => execCanMbAcq who ch
  | .canMbRel who ch => execCanMbRel who ch
  | .canMbGo who ch => execCanMbGo who ch
  | .timeStepWrite who hi => execTimeStepWrite who hi
  | .gclCfgchg who port => execGclCfgchg who port
  | .streamUnblock who w => execStreamUnblock who w
  | .ethEnableWrite who port en => execEthEnableWrite who port en
  | .queueFlush who w => execQueueFlush who w
  | .tableWindowSelect who w => execTableWindowSelect who w
  | .milTableWindow who w => execMilTableWindow who w
  | .jobSubmit who page w => execJobSubmit who page w
  | .pageAbort who page => execPageAbort who page
  | .cryTableWindow who w => execCryTableWindow who w
  | .derive who => execDerive who
  | .invalidate who => execInvalidate who
  | .unwrap who => execUnwrap who
  | .replace who res => execReplace who res
  | .newchal who entropy => execNewchal who entropy
  | .token who => execToken who
  | .nmRequest who c w => execNmRequest who c w
  | .txTailWrite who t w => execTxTailWrite who t w
  | .rxBufferPost who r w => execRxBufferPost who r w
  | .msixUnmask who v => execMsixUnmask who v
  | .pageDomainWrite who p w => execPageDomainWrite who p w
  | .evqNext who f => execEvqNext who f
  | .evqMark who f => execEvqMark who f
  | .evqRewind who f => execEvqRewind who f
  | .evqRelease who f => execEvqRelease who f
  | .bridgeWrite who off w => execBridgeWrite who off w
  | .bridgeRead who off => execBridgeRead who off
  | .i2cIndirectRead who w => execI2cIndirectRead who w
  | .recSoftTrigger who => execRecSoftTrigger who
  | .recRelease who => execRecRelease who
  | .readoutGo who => execReadoutGo who
  | .readoutAbort who => execReadoutAbort who
  | .updOpen who => execUpdOpen who
  | .updOpenDelta who => execUpdOpenDelta who
  | .updWrite who res => execUpdWrite who res
  | .updVerify who => execUpdVerify who
  | .updArm who => execUpdArm who
  | .updAbort who => execUpdAbort who
  | .updConfirm who slotB => execUpdConfirm who slotB
  | .updReset who => execUpdReset who
  | .fallback who => execFallback who
  | .ckpClr who w => execCkpClr who w
  | .swhClr who w => execSwhClr who w
  | .canClr who ch w => execCanClr who ch w
  | .ethClr who port w => execEthClr who port w
  | .lndClr who w => execLndClr who w
  | .rteClr who w => execRteClr who w
  | .milClr who w => execMilClr who w
  | .cryClr who w => execCryClr who w
  | .kvtClr who w => execKvtClr who w
  | .fltClr who w => execFltClr who w
  | .nmcClr who w => execNmcClr who w
  | .hifClr who w => execHifClr who w
  | .recClr who w => execRecClr who w
  | .updClr who w => execUpdClr who w
  | .registerPairLowRead who r => execRegisterPairLowRead who r
  | .registerWrite who off size w => execRegisterWrite who off size w
  | _ => act (fun d => d)

/-- The device after a meaning. -/
def effectOf (m : State → Host.Outcome State Fault Refusal) (d : Dev) : Dev :=
  match m { dev := d, pending := [] } with
  | .next s => s.dev
  | _ => d

/-- R447: the transmit window of a held write has freed the place. -/
def windowReady (d : Dev) : Instr → Bool
  | .registerWrite who off size _ => size != 4 || !windowOver d who off
  | _ => true

/-- R451, R471: a held access finds its place. -/
def heldReady (d : Dev) (x : BrgWait) : Bool :=
  match bridgeOp x.cmd with
  | some op => brgRoom d x.who op
  | none => windowReady d x.cmd

/-- R45, R441: one held access: it waits on behind an earlier one of its initiator, or for its place; else it takes effect. -/
def heldStep (d : Dev) (x : BrgWait) : Dev :=
  if waitsBehind d x.who || !heldReady d x then modBrg d (fun g => { g with wait := g.wait ++ [x] })
  else if x.gone then (match bridgeOp x.cmd with | some op => brgTake d x.who op true | none => d)
  else effectOf (accessOf x.cmd) d

/-- R45, R451, R471: the accesses that waited take effect as places free, in the order in which they were issued. -/
def admitHeld (d : Dev) : Dev := d.brg.wait.foldl heldStep (modBrg d (fun g => { g with wait := [] }))

/-- BRIDGE_FAR_DONE. -/
def execBridgeFarDone (bus : Nat) (res : FarRes) : State → Host.Outcome State Fault Refusal :=
  act (fun d => admitHeld (brgFarDone d bus res))

/-- BRIDGE_READ_TIMEOUT. -/
def execBridgeReadTimeout (seq : Nat) : State → Host.Outcome State Fault Refusal := act (fun d => admitHeld (brgTimeout d seq))

/-- TX_RECORD: the transmit engine also finds the places that have been freed in its windows (DEDUCED, log entry 119). -/
def execTxRecord (e t : Nat) : State → Host.Outcome State Fault Refusal := act (fun d => admitHeld (txRecord d e t))

/-- WATCH_ENTRY_FLUSH: what waited behind the bridge's queues follows them. -/
def execWatchEntryFlush : State → Host.Outcome State Fault Refusal :=
  act (fun d => if running d then admitHeld (watchFlush d) else d)

end Sys2Proof.Machine
end

