-- ==== Sys2Proof/Machine/Hspi.lean ====
section
/-! DEFINITION. The host SPI port (R465 to R468): HSPI_WRITE, HSPI_READ, HSPI_BAD_CMD and HSPI_CS_RISE. A transaction is
given by its MOSI bytes from CMD on. -/

namespace Sys2Proof.Machine

/-- R465: the fields of a transaction: CMD, BAR0 offset, words. -/
def hspiOp (mosi : Bytes) : Nat := leAt mosi 0 1
def hspiOff (mosi : Bytes) : Nat := beNat (slice mosi 1 3)
def hspiWords (mosi : Bytes) : Nat := leAt mosi 4 1 + 1

/-- R465: the words of a transaction are 1 to 64 (DEDUCED, log entry 86). -/
def hspiCountOk (mosi : Bytes) : Bool := decide (hspiWords mosi ≤ 64)

/-- R467: the status byte. -/
def hspiStatus (d : Dev) : Nat :=
  0xA0 + d.hspi.wcrc.toNat + 2 * d.hspi.acc.toNat + 4 * (hspiLow d).toNat + 8 * d.hspi.cut.toNat

/-- R467: the status byte goes out, and WCRC, ACCERR and CUT clear. -/
def statusSent (d : Dev) : Dev := { d with hspi := { d.hspi with wcrc := false, acc := false, cut := false } }

/-- MISO bytes of a transaction that is over. R62: with VDDIO_B off HSPI_MISO is high-impedance, and nothing leaves. -/
def misoOut (bs : Bytes) (d : Dev) : Dev := if d.clk.switched then emit { d with hspi := { d.hspi with miso := bs } } (.miso bs) else d

/-- R466: what MISO carries while a write is taken: the status byte; its clearing bits show once. -/
def statusBytes (d : Dev) (n : Nat) : Bytes :=
  List.replicate (min 5 n) (BitVec.ofNat 8 (hspiStatus d)) ++
    List.replicate (n - 5) (BitVec.ofNat 8 (hspiStatus (statusSent d)))

/-- R468: a transaction cut short is a one-side reset of crossing 35 (R155, R156), and CUT shows it. -/
def hspiCut (d : Dev) : Dev := crossOutside { d with hspi := { d.hspi with cut := true } } 35 0

/-- R466: an unknown CMD is ignored until HSPI_CS_N rises, and counted. -/
def hspiUnknown (d : Dev) (n : Nat) : Dev := misoOut (statusBytes d n) (bump (statusSent d) hifCount 0)

/-- R45, R466: the words of a write, as posted writes in ascending order. -/
def hspiPost (off : Nat) : List Nat → Dev → Dev
  | [], d => d
  | w :: rest, d => hspiPost (off + 4) rest (regWrite d .hspi off 4 (BitVec.ofNat 32 w))

/-- R466, R468: a write transaction at the rise of HSPI_CS_N, all its bytes received. -/
def hspiWriteAll (d : Dev) (mosi : Bytes) : Dev :=
  let n := hspiWords mosi
  let len := 5 + 4 * n
  if !running d || hspiOp mosi ≠ 2 || mosi.length ≤ len && hspiCountOk mosi then d
  else if !hspiCountOk mosi then hspiUnknown d mosi.length
  else
    let bs := statusBytes d mosi.length
    let d := statusSent d
    if crc8 (mosi.take len) ≠ leAt mosi len 1 then
      misoOut bs (bump { d with hspi := { d.hspi with wcrc := true } } hifCount 2)
    else misoOut bs (hspiPost (hspiOff mosi) ((List.range n).map (fun k => leAt mosi (5 + 4 * k) 4)) d)

/-- HSPI_WRITE. -/
def execHspiWrite (mosi : Bytes) : State → Host.Outcome State Fault Refusal := act (fun d => hspiWriteAll d mosi)

/-- R466: one word of a read is fetched: its side effects happen now; an access error reads all ones and sets ACCERR. -/
def hspiFetch (d : Dev) (off : Nat) : Dev × Nat :=
  if accKind d .hspi off 4 ≠ 0 then (accErr d .hspi off (accKind d .hspi off 4), full)
  else match locate off with
    | none => (d, full)
    | some l => readWord d .hspi off l

/-- R466: `n` words from an offset, with their bytes. -/
def hspiFetchAll (off : Nat) : Nat → Dev → Dev × Bytes
  | 0, d => (d, [])
  | n + 1, d =>
    let r := hspiFetch d off
    let s := hspiFetchAll (off + 4) n r.1
    (s.1, leBytes 4 r.2 ++ s.2)

/-- R466, R468: a read transaction: `fetched` words were fetched before HSPI_CS_N rose; fewer than N + 1 is a read cut
short. -/
def hspiReadAll (d : Dev) (mosi : Bytes) (fetched : Nat) : Dev :=
  let n := hspiWords mosi
  if !running d || hspiOp mosi ≠ 0x0B || mosi.length < 5 then d
  else if !hspiCountOk mosi then hspiUnknown d mosi.length
  else
    let st := List.replicate 5 (BitVec.ofNat 8 (hspiStatus d))
    let wait := zeros (min 7 (Config.hspiWait d.clk.tclk))
    let r := hspiFetchAll (hspiOff mosi) (min fetched n) (statusSent d)
    let head := st ++ wait ++ [0xA5] ++ r.2
    if fetched < n then misoOut head (hspiCut r.1)
    else misoOut (head ++ leBytes 1 (crc8 r.2)) r.1

/-- HSPI_READ. -/
def execHspiRead (mosi : Bytes) (fetched : Nat) : State → Host.Outcome State Fault Refusal :=
  act (fun d => hspiReadAll d mosi fetched)

/-- HSPI_BAD_CMD. -/
def execHspiBadCmd (cmd : Byte) : State → Host.Outcome State Fault Refusal :=
  act (fun d => if running d && cmd != 2 && cmd != 0x0B then hspiUnknown d 5 else d)

/-- R468: HSPI_CS_N rises before the last CRC bit of a write, which is discarded whole and counted; or before a read has
fetched a word. -/
def hspiRise (d : Dev) (mosi : Bytes) : Dev :=
  if !running d then d
  else if hspiOp mosi = 2 && decide (mosi.length ≤ 5 + 4 * hspiWords mosi) then
    misoOut (statusBytes d mosi.length) (hspiCut (bump (statusSent d) hifCount 1))
  else if hspiOp mosi = 0x0B then misoOut (statusBytes d (min 5 mosi.length)) (hspiCut (statusSent d))
  else d

/-- HSPI_CS_RISE. -/
def execHspiCsRise (mosi : Bytes) : State → Host.Outcome State Fault Refusal := act (fun d => hspiRise d mosi)

end Sys2Proof.Machine
end

