-- ==== Sys2Proof/Machine/Dispatch.lean ====
section
/-! DEFINITION. The dispatch of commands: one arm per constructor, in the order of the table. -/

namespace Sys2Proof.Machine

/-- The effect of one command on everything but the queue. -/
def exec (i : Instr) (s : State) : Host.Outcome State Fault Refusal :=
  match i with
  | .porstAssert => Sys2Proof.Machine.execPorstAssert s
  | .porstRelease straps b => Sys2Proof.Machine.execPorstRelease straps b s
  | .wrstAssert => Sys2Proof.Machine.execWrstAssert s
  | .wrstRelease b => Sys2Proof.Machine.execWrstRelease b s
  | .phyRstRelease gpio => Sys2Proof.Machine.execPhyRstRelease gpio s
  | .railLoss g => Sys2Proof.Machine.execRailLoss g s
  | .powerGood b => Sys2Proof.Machine.execPowerGood b s
  | .routingOpen => Sys2Proof.Machine.execRoutingOpen s
  | .signalBlockLoad blk reads => Sys2Proof.Machine.execSignalBlockLoad blk reads s
  | .pduimgLoad reads => Sys2Proof.Machine.execPduimgLoad reads s
  | .modeRequest who w auth => Sys2Proof.Machine.execModeRequest who w auth s
  | .groveGate g => Sys2Proof.Machine.execGroveGate g s
  | .groveRestore g => Sys2Proof.Machine.execGroveRestore g s
  | .watchEntryStart => Sys2Proof.Machine.execWatchEntryStart s
  | .watchEntryFlush => Sys2Proof.Machine.execWatchEntryFlush s
  | .watchRailRelease => Sys2Proof.Machine.execWatchRailRelease s
  | .watchLimitExpire => Sys2Proof.Machine.execWatchLimitExpire s
  | .traceHoldExpire => Sys2Proof.Machine.execTraceHoldExpire s
  | .lockToSplit => Sys2Proof.Machine.execLockToSplit s
  | .splitToLock => Sys2Proof.Machine.execSplitToLock s
  | .safeHoldEntry => Sys2Proof.Machine.execSafeHoldEntry s
  | .sagDetectorReport det => Sys2Proof.Machine.execSagDetectorReport det s
  | .sagHoldEnd => Sys2Proof.Machine.execSagHoldEnd s
  | .sagStepEnd => Sys2Proof.Machine.execSagStepEnd s
  | .sagPersist => Sys2Proof.Machine.execSagPersist s
  | .pllUnlock pll => Sys2Proof.Machine.execPllUnlock pll s
  | .xtalFail => Sys2Proof.Machine.execXtalFail s
  | .sdsPllRelockRetry sds locked => Sys2Proof.Machine.execSdsPllRelockRetry sds locked s
  | .rtcAlarm => Sys2Proof.Machine.execRtcAlarm s
  | .wheelBoundary => Sys2Proof.Machine.execWheelBoundary s
  | .kerfSlot ecc owner => Sys2Proof.Machine.execKerfSlot ecc owner s
  | .commitRegs who => Sys2Proof.Machine.execCommitRegs who s
  | .commitDelta who regs => Sys2Proof.Machine.execCommitDelta who regs s
  | .ringCommit x out words => Sys2Proof.Machine.execRingCommit x out words s
  | .ringRelease x out => Sys2Proof.Machine.execRingRelease x out s
  | .handshakeSend x out w => Sys2Proof.Machine.execHandshakeSend x out w s
  | .handshakeAck x out => Sys2Proof.Machine.execHandshakeAck x out s
  | .pulseLaunch x out before inCycle => Sys2Proof.Machine.execPulseLaunch x out before inCycle s
  | .pulseAck x out during => Sys2Proof.Machine.execPulseAck x out during s
  | .crossingReset x out reader uncommitted => Sys2Proof.Machine.execCrossingReset x out reader uncommitted s
  | .crossRepair x out => Sys2Proof.Machine.execCrossRepair x out s
  | .crossStall x out => Sys2Proof.Machine.execCrossStall x out s
  | .crossTimeout x out => Sys2Proof.Machine.execCrossTimeout x out s
  | .crossProgress x out => Sys2Proof.Machine.execCrossProgress x out s
  | .canFrameReceived ch f => Sys2Proof.Machine.execCanFrameReceived ch f s
  | .canFilterVerdict ch => Sys2Proof.Machine.execCanFilterVerdict ch s
  | .canRxError ch steps => Sys2Proof.Machine.execCanRxError ch steps s
  | .canTxError ch e => Sys2Proof.Machine.execCanTxError ch e s
  | .canArbLost ch => Sys2Proof.Machine.execCanArbLost ch s
  | .canFrameSent ch => Sys2Proof.Machine.execCanFrameSent ch s
  | .canSelection ch => Sys2Proof.Machine.execCanSelection ch s
  | .canSof ch => Sys2Proof.Machine.execCanSof ch s
  | .canBufferRefill ch => Sys2Proof.Machine.execCanBufferRefill ch s
  | .canInitRequest who ch => Sys2Proof.Machine.execCanInitRequest who ch s
  | .canInitLeave who ch => Sys2Proof.Machine.execCanInitLeave who ch s
  | .canInitEntry ch => Sys2Proof.Machine.execCanInitEntry ch s
  | .canIntegrated ch => Sys2Proof.Machine.execCanIntegrated ch s
  | .canRecover who ch => Sys2Proof.Machine.execCanRecover who ch s
  | .canBusOn ch => Sys2Proof.Machine.execCanBusOn ch s
  | .canStateParity ch => Sys2Proof.Machine.execCanStateParity ch s
  | .canColumnStart ch => Sys2Proof.Machine.execCanColumnStart ch s
  | .canColumnEnd ch => Sys2Proof.Machine.execCanColumnEnd ch s
  | .canCancelRequest who ch w => Sys2Proof.Machine.execCanCancelRequest who ch w s
  | .canMbAcq who ch => Sys2Proof.Machine.execCanMbAcq who ch s
  | .canMbRel who ch => Sys2Proof.Machine.execCanMbRel who ch s
  | .canMbGo who ch => Sys2Proof.Machine.execCanMbGo who ch s
  | .swkMatch ch f => Sys2Proof.Machine.execSwkMatch ch f s
  | .swkFecWake ch => Sys2Proof.Machine.execSwkFecWake ch s
  | .ethFrameReceived port ev => Sys2Proof.Machine.execEthFrameReceived port ev s
  | .ethPauseReceived port quanta => Sys2Proof.Machine.execEthPauseReceived port quanta s
  | .ethPauseEnd port => Sys2Proof.Machine.execEthPauseEnd port s
  | .ethStagingInstant port => Sys2Proof.Machine.execEthStagingInstant port s
  | .ethTxStart port => Sys2Proof.Machine.execEthTxStart port s
  | .timeStepWrite who hi => Sys2Proof.Machine.execTimeStepWrite who hi s
  | .timeStep => Sys2Proof.Machine.execTimeStep s
  | .gclEntryAdvance port => Sys2Proof.Machine.execGclEntryAdvance port s
  | .gclCfgchg who port => Sys2Proof.Machine.execGclCfgchg who port s
  | .gclChanged port => Sys2Proof.Machine.execGclChanged port s
  | .streamUnblock who w => Sys2Proof.Machine.execStreamUnblock who w s
  | .cbRecoveryReset idx => Sys2Proof.Machine.execCbRecoveryReset idx s
  | .linkDown port f => Sys2Proof.Machine.execLinkDown port f s
  | .linkGood port => Sys2Proof.Machine.execLinkGood port s
  | .linkUp port => Sys2Proof.Machine.execLinkUp port s
  | .ethEnableWrite who port en => Sys2Proof.Machine.execEthEnableWrite who port en s
  | .tc10SleepRequest port => Sys2Proof.Machine.execTc10SleepRequest port s
  | .tc10Poll port status => Sys2Proof.Machine.execTc10Poll port status s
  | .ppsInEdge => Sys2Proof.Machine.execPpsInEdge s
  | .ppsOutPulse => Sys2Proof.Machine.execPpsOutPulse s
  | .parseComplete src => Sys2Proof.Machine.execParseComplete src s
  | .routeLookup client => Sys2Proof.Machine.execRouteLookup client s
  | .bufferAdmission input => Sys2Proof.Machine.execBufferAdmission input s
  | .hostAdmissionRetry input => Sys2Proof.Machine.execHostAdmissionRetry input s
  | .waitlimExpire input => Sys2Proof.Machine.execWaitlimExpire input s
  | .cellTime => Sys2Proof.Machine.execCellTime s
  | .cellRead input unc => Sys2Proof.Machine.execCellRead input unc s
  | .queueFlush who w => Sys2Proof.Machine.execQueueFlush who w s
  | .tableWindowSelect who w => Sys2Proof.Machine.execTableWindowSelect who w s
  | .rteWindowCopy => Sys2Proof.Machine.execRteWindowCopy s
  | .diagRoutingActivation tester addr => Sys2Proof.Machine.execDiagRoutingActivation tester addr s
  | .diagRequest tester target payload => Sys2Proof.Machine.execDiagRequest tester target payload s
  | .diagResponse target payload => Sys2Proof.Machine.execDiagResponse target payload s
  | .diagTimeout target ncr => Sys2Proof.Machine.execDiagTimeout target ncr s
  | .diagConnectionClose tester => Sys2Proof.Machine.execDiagConnectionClose tester s
  | .milSliceStart side r => Sys2Proof.Machine.execMilSliceStart side r s
  | .cacheRefill r bad0 bad1 => Sys2Proof.Machine.execCacheRefill r bad0 bad1 s
  | .cacheWriteback line => Sys2Proof.Machine.execCacheWriteback line s
  | .timeoutSweep => Sys2Proof.Machine.execTimeoutSweep s
  | .emissionTick => Sys2Proof.Machine.execEmissionTick s
  | .emissionSnapshot r => Sys2Proof.Machine.execEmissionSnapshot r s
  | .milTableWindow who w => Sys2Proof.Machine.execMilTableWindow who w s
  | .milWindowCopy => Sys2Proof.Machine.execMilWindowCopy s
  | .jobSubmit who page w => Sys2Proof.Machine.execJobSubmit who page w s
  | .blockBoundary sq => Sys2Proof.Machine.execBlockBoundary sq s
  | .jobComplete page => Sys2Proof.Machine.execJobComplete page s
  | .enc page blocks => Sys2Proof.Machine.execEnc page blocks s
  | .dec page blocks => Sys2Proof.Machine.execDec page blocks s
  | .gmul page blocks => Sys2Proof.Machine.execGmul page blocks s
  | .ctrx page blocks => Sys2Proof.Machine.execCtrx page blocks s
  | .hinit page => Sys2Proof.Machine.execHinit page s
  | .gacc page blocks => Sys2Proof.Machine.execGacc page blocks s
  | .gfinal page => Sys2Proof.Machine.execGfinal page s
  | .subkey page => Sys2Proof.Machine.execSubkey page s
  | .macc page blocks => Sys2Proof.Machine.execMacc page blocks s
  | .mfinal page => Sys2Proof.Machine.execMfinal page s
  | .ctr page => Sys2Proof.Machine.execCtr page s
  | .cbcEnc page => Sys2Proof.Machine.execCbcEnc page s
  | .cbcDec page => Sys2Proof.Machine.execCbcDec page s
  | .cmacGen page => Sys2Proof.Machine.execCmacGen page s
  | .cmacVer page => Sys2Proof.Machine.execCmacVer page s
  | .gcmSeal page => Sys2Proof.Machine.execGcmSeal page s
  | .gcmOpen page => Sys2Proof.Machine.execGcmOpen page s
  | .pageAbort who page => Sys2Proof.Machine.execPageAbort who page s
  | .cryEngineFault engine sq => Sys2Proof.Machine.execCryEngineFault engine sq s
  | .authVerify sq => Sys2Proof.Machine.execAuthVerify sq s
  | .authGenerate sq => Sys2Proof.Machine.execAuthGenerate sq s
  | .authVerifyGenerate sq => Sys2Proof.Machine.execAuthVerifyGenerate sq s
  | .freshCheckpoint prof res => Sys2Proof.Machine.execFreshCheckpoint prof res s
  | .shutdownCheckpoint => Sys2Proof.Machine.execShutdownCheckpoint s
  | .macsecRx port frame => Sys2Proof.Machine.execMacsecRx port frame s
  | .macsecTx port => Sys2Proof.Machine.execMacsecTx port s
  | .cryTableWindow who w => Sys2Proof.Machine.execCryTableWindow who w s
  | .cryWindowCopy => Sys2Proof.Machine.execCryWindowCopy s
  | .derive who => Sys2Proof.Machine.execDerive who s
  | .invalidate who => Sys2Proof.Machine.execInvalidate who s
  | .unwrap who => Sys2Proof.Machine.execUnwrap who s
  | .replace who res => Sys2Proof.Machine.execReplace who res s
  | .kvtStoreDone => Sys2Proof.Machine.execKvtStoreDone s
  | .storeBackgroundErase => Sys2Proof.Machine.execStoreBackgroundErase s
  | .newchal who entropy => Sys2Proof.Machine.execNewchal who entropy s
  | .token who => Sys2Proof.Machine.execToken who s
  | .kvtAlarm src => Sys2Proof.Machine.execKvtAlarm src s
  | .twinMismatch twin m => Sys2Proof.Machine.execTwinMismatch twin m s
  | .replayStart twin poisoned => Sys2Proof.Machine.execReplayStart twin poisoned s
  | .twinResume twin => Sys2Proof.Machine.execTwinResume twin s
  | .commitNotice twin seq => Sys2Proof.Machine.execCommitNotice twin seq s
  | .degradedCheckFail outputCode predicted => Sys2Proof.Machine.execDegradedCheckFail outputCode predicted s
  | .scStopped pair => Sys2Proof.Machine.execScStopped pair s
  | .fmRail => Sys2Proof.Machine.execFmRail s
  | .nmPduReceived c src pdu => Sys2Proof.Machine.execNmPduReceived c src pdu s
  | .nmRequest who c w => Sys2Proof.Machine.execNmRequest who c w s
  | .nmTmsgExpire c => Sys2Proof.Machine.execNmTmsgExpire c s
  | .nmTrepeatExpire c => Sys2Proof.Machine.execNmTrepeatExpire c s
  | .nmTtimeoutExpire c => Sys2Proof.Machine.execNmTtimeoutExpire c s
  | .nmTwaitExpire c => Sys2Proof.Machine.execNmTwaitExpire c s
  | .sleepCommitPoint c => Sys2Proof.Machine.execSleepCommitPoint c s
  | .sleepComplete c => Sys2Proof.Machine.execSleepComplete c s
  | .nmSleepTimeout c => Sys2Proof.Machine.execNmSleepTimeout c s
  | .nmFalseWake c => Sys2Proof.Machine.execNmFalseWake c s
  | .pncExpire p => Sys2Proof.Machine.execPncExpire p s
  | .offenderLogInterval c => Sys2Proof.Machine.execOffenderLogInterval c s
  | .inhHoldExpire j => Sys2Proof.Machine.execInhHoldExpire j s
  | .wakeholdExpire => Sys2Proof.Machine.execWakeholdExpire s
  | .wakeInEdge input rising => Sys2Proof.Machine.execWakeInEdge input rising s
  | .phyIntNEdge gpio => Sys2Proof.Machine.execPhyIntNEdge gpio s
  | .hostLinkDown e => Sys2Proof.Machine.execHostLinkDown e s
  | .hostLinkUp e => Sys2Proof.Machine.execHostLinkUp e s
  | .txTailWrite who t w => Sys2Proof.Machine.execTxTailWrite who t w s
  | .txRecord e t => Sys2Proof.Machine.execTxRecord e t s
  | .txCompletion e t => Sys2Proof.Machine.execTxCompletion e t s
  | .rxBufferPost who r w => Sys2Proof.Machine.execRxBufferPost who r w s
  | .rxDelivery e r => Sys2Proof.Machine.execRxDelivery e r s
  | .irqItrExpire e tx q => Sys2Proof.Machine.execIrqItrExpire e tx q s
  | .msixUnmask who v => Sys2Proof.Machine.execMsixUnmask who v s
  | .pageDomainWrite who p w => Sys2Proof.Machine.execPageDomainWrite who p w s
  | .eventEntryWrite bad => Sys2Proof.Machine.execEventEntryWrite bad s
  | .evqNext who f => Sys2Proof.Machine.execEvqNext who f s
  | .evqMark who f => Sys2Proof.Machine.execEvqMark who f s
  | .evqRewind who f => Sys2Proof.Machine.execEvqRewind who f s
  | .evqRelease who f => Sys2Proof.Machine.execEvqRelease who f s
  | .hspiWrite mosi => Sys2Proof.Machine.execHspiWrite mosi s
  | .hspiRead mosi fetched => Sys2Proof.Machine.execHspiRead mosi fetched s
  | .hspiBadCmd cmd => Sys2Proof.Machine.execHspiBadCmd cmd s
  | .hspiCsRise mosi => Sys2Proof.Machine.execHspiCsRise mosi s
  | .bridgeWrite who off w => Sys2Proof.Machine.execBridgeWrite who off w s
  | .bridgeRead who off => Sys2Proof.Machine.execBridgeRead who off s
  | .bridgeFarDone bus res => Sys2Proof.Machine.execBridgeFarDone bus res s
  | .bridgeReadTimeout seq => Sys2Proof.Machine.execBridgeReadTimeout seq s
  | .i2cIndirectRead who w => Sys2Proof.Machine.execI2cIndirectRead who w s
  | .bridgePoll k => Sys2Proof.Machine.execBridgePoll k s
  | .recordWrite => Sys2Proof.Machine.execRecordWrite s
  | .recSoftTrigger who => Sys2Proof.Machine.execRecSoftTrigger who s
  | .crashIn => Sys2Proof.Machine.execCrashIn s
  | .recPostmsExpire => Sys2Proof.Machine.execRecPostmsExpire s
  | .recRelease who => Sys2Proof.Machine.execRecRelease who s
  | .readoutGo who => Sys2Proof.Machine.execReadoutGo who s
  | .readoutAbort who => Sys2Proof.Machine.execReadoutAbort who s
  | .recReadoutDone r => Sys2Proof.Machine.execRecReadoutDone r s
  | .updOpen who => Sys2Proof.Machine.execUpdOpen who s
  | .updOpenDelta who => Sys2Proof.Machine.execUpdOpenDelta who s
  | .updWrite who res => Sys2Proof.Machine.execUpdWrite who res s
  | .updVerify who => Sys2Proof.Machine.execUpdVerify who s
  | .updArm who => Sys2Proof.Machine.execUpdArm who s
  | .updAbort who => Sys2Proof.Machine.execUpdAbort who s
  | .updConfirm who slotB => Sys2Proof.Machine.execUpdConfirm who slotB s
  | .updReset who => Sys2Proof.Machine.execUpdReset who s
  | .fallback who => Sys2Proof.Machine.execFallback who s
  | .trialExpire => Sys2Proof.Machine.execTrialExpire s
  | .ckpClr who w => Sys2Proof.Machine.execCkpClr who w s
  | .swhClr who w => Sys2Proof.Machine.execSwhClr who w s
  | .canClr who ch w => Sys2Proof.Machine.execCanClr who ch w s
  | .ethClr who port w => Sys2Proof.Machine.execEthClr who port w s
  | .lndClr who w => Sys2Proof.Machine.execLndClr who w s
  | .rteClr who w => Sys2Proof.Machine.execRteClr who w s
  | .milClr who w => Sys2Proof.Machine.execMilClr who w s
  | .cryClr who w => Sys2Proof.Machine.execCryClr who w s
  | .kvtClr who w => Sys2Proof.Machine.execKvtClr who w s
  | .fltClr who w => Sys2Proof.Machine.execFltClr who w s
  | .nmcClr who w => Sys2Proof.Machine.execNmcClr who w s
  | .hifClr who w => Sys2Proof.Machine.execHifClr who w s
  | .recClr who w => Sys2Proof.Machine.execRecClr who w s
  | .updClr who w => Sys2Proof.Machine.execUpdClr who w s
  | .registerPairLowRead who r => Sys2Proof.Machine.execRegisterPairLowRead who r s
  | .registerWrite who off size w => Sys2Proof.Machine.execRegisterWrite who off size w s
  | .retainedPowerGood => Sys2Proof.Machine.execRetainedPowerGood s
  | .linkFault port f => Sys2Proof.Machine.execLinkFault port f s
  | .shaperCreditZero port cls => Sys2Proof.Machine.execShaperCreditZero port cls s
  | .sakInstall port a => Sys2Proof.Machine.execSakInstall port a s
  | .busMasterEnable e on => Sys2Proof.Machine.execBusMasterEnable e on s

end Sys2Proof.Machine
end

