-- ==== Sys2Proof/Machine/Idle.lean ====
section
/-! DEFINITION. The clocks of a device that nobody commands (R28, R84, R85, R102, R225, R231, R241): one cycle of the TIME
clock, 2 ns (DESIGN CHOICE, log entry 2). -/

namespace Sys2Proof.Machine

/-- R28, R81: the real-time counter counts at 32.768 kHz, or at 32 kHz with no crystal: 500,000,000 TIME cycles a second. -/
def rtcTick (d : Dev) : Dev :=
  if !d.clk.alwaysOn || d.clk.porstLow then d
  else
    let a := d.clk.rtcAcc + (if d.clk.rtcXtal then 32768 else 32000)
    if 500000000 ≤ a then modClk d (fun c => { c with rtcAcc := a - 500000000, rtc := (c.rtc + 1) % 2 ^ 64 })
    else modClk d (fun c => { c with rtcAcc := a })

/-- R225, R241: the advance of device time in one TIME cycle, in units of 2^-39 ns: RATE is at most 500 ppm. -/
def timeAdvance (d : Dev) : Nat :=
  let v := reg d 0xC80010
  let r : Int := if v < 2 ^ 31 then (v : Int) else (v : Int) - 2 ^ 32
  ((2 : Int) ^ 40 + max (-549755813) (min 549755813 r)).toNat

/-- R225: device time runs in M2 to M7 (R85). -/
def timeTick (d : Dev) : Dev :=
  let t := timeAdvance d
  modClk { d with upd := { d.upd with trialAcc := d.upd.trialAcc + t } } (fun c => { c with dtime := (c.dtime + t) % timeWrap })

/-- R241: PPS_OUT falls 10 ms after the whole second. -/
def ppsTick (d : Dev) : Dev :=
  if d.clk.ppsOut && decide (10000000 ≤ nowNs d % 1000000000) then drive (modClk d (fun c => { c with ppsOut := false })) 6 false
  else d

/-- R84: PLL edge `k` of a group of 8 is passed by the sag divider. -/
def edgePassed (n k : Nat) : Bool := decide ((n * k + 7) / 8 < (n * (k + 1) + 7) / 8)

/-- R30: one core cycle: the slot advances; a turn ends after slot 255; a kerf slot has its duties. -/
def coreCycle (d : Dev) : Dev :=
  if !running d then d
  else if 255 ≤ d.whl.slot then wheelBoundary d
  else
    let d := modWhl d (fun w => { w with slot := w.slot + 1 })
    if d.whl.slot % 32 = 31 then kerfSlot d {} none else d

/-- R84: one edge of the 800 MHz PLL through the sag divider. -/
def pllEdge (d : Dev) : Dev :=
  let s := d.clk.sag
  let d := modClk d (fun c => { c with sag := { s with edge := (s.edge + 1) % 8 } })
  if edgePassed s.n s.edge then coreCycle d else d

/-- PLL edges in a TIME cycle of 2 ns: 8 in every 5; on the backup oscillator of 100 MHz 1 in every 5 (R102). -/
def edgesIn (d : Dev) : Nat :=
  let p := d.clk.pllPhase
  if d.clk.backup then (p + 1) / 5 else 8 * (p + 1) / 5 - 8 * p / 5

/-- The core cycles of one TIME cycle. -/
def coreTick (d : Dev) : Dev :=
  let n := edgesIn d
  let b := d.clk.backup
  let d := modClk d (fun c => { c with pllPhase := (c.pllPhase + 1) % 5 })
  (List.range n).foldl (fun d _ => if b then coreCycle d else pllEdge d) d

/-- R231: the credits of the shaped classes of every port that runs. -/
def creditTicks (d : Dev) : Dev := (List.range 8).foldl (fun d p => if ethLive d p then creditStep d p else d) d

/-- R240: frames whose last bit has left. -/
def txTicks (d : Dev) : Dev := (List.range 8).foldl txDone d

/-- One cycle of the TIME clock: time in every mode; in M2 to M7 device time, frames on the wire, credits, diagnostic transfers and the wheel. -/
def idleTick (d : Dev) : Dev :=
  let d := rtcTick (modClk d (fun c => { c with tclk := c.tclk + 1 }))
  if running d then coreTick (diagTick (creditTicks (txTicks (ppsTick (timeTick d))))) else d

end Sys2Proof.Machine
end

