-- ==== Sys2Proof/WellFormed.lean ====
section
/-! DEFINITION. The commands whose operands name something that the device has: the sender's side of the interface. The
machine itself is total, and a command outside these ranges acts as its meaning says. -/

namespace Sys2Proof

/-! ## What the operands number -/

/-- R162: CAN0 to CAN23. -/
def isChannel (n : Nat) : Bool := decide (n < 24)

/-- R209: ETH0 to ETH7. -/
def isPort (n : Nat) : Bool := decide (n < 8)

/-- R211: ETH0 to ETH7, and ETHM as 8. -/
def isMac (n : Nat) : Bool := decide (n ≤ 8)

/-- R68: GPIO0 to GPIO23. -/
def isGpio (n : Nat) : Bool := decide (n < 24)

/-- R20: groves 0 to 3. -/
def isGrove (n : Nat) : Bool := decide (n < 4)

/-- R244: the ten inputs of the Landing: groves, HA, HB, SVC, REC, CRY, MIL. -/
def isInput (n : Nat) : Bool := decide (n < 10)

/-- R439: PCIe endpoints 0 and 1. -/
def isEndpoint (n : Nat) : Bool := decide (n < 2)

/-- R155: crossings 0 to 40. -/
def isCrossing (n : Nat) : Bool := decide (n ≤ 40)

/-- R386: the twins by index. -/
def isTwin (n : Nat) : Bool := decide (n < 32)

/-- R418: NM clusters 0 to 31. -/
def isCluster (n : Nat) : Bool := decide (n < 32)

/-- R336: user pages 0 to 127 and internal pages 128 to 159. -/
def isPage (n : Nat) : Bool := decide (n < 160)

/-- R333: sequencers 0 to 15. -/
def isSequencer (n : Nat) : Bool := decide (n < 16)

/-- R455: event FIFOs 0 to 7. -/
def isFifo (n : Nat) : Bool := decide (n < 8)

/-- R9: an offset in BAR0 of 16 MiB that an access of `size` bytes can name. -/
def isOffset (size n : Nat) : Bool := decide (n % size = 0) && decide (n < 16777216)

/-- R162: the lengths of a data field by frame format. -/
def canLength (f : CanFmt) (n : Nat) : Bool :=
  match f with
  | .classical => decide (n ≤ 8)
  | .fd | .fdBrs => decide (n ≤ 8) || [12, 16, 20, 24, 32, 48, 64].contains n
  | .xl => decide (1 ≤ n) && decide (n ≤ 2048)

/-- R162: a frame that CAN can carry. -/
def CanFrame.wf (f : CanFrame) : Bool :=
  decide (f.id < (if f.xtd then 2 ^ 29 else 2 ^ 11)) && canLength f.fmt f.data.length &&
    decide (f.vcid < 256) && decide (f.sdt < 256) && decide (f.af < 2 ^ 32)

/-- R150: memories 0 to 4. -/
def EccFinding.wf (f : EccFinding) : Bool := decide (f.mem < 5)

/-- R142, R151: an owner entry: a slot of the turn. -/
def OwnerEcc.wf (o : OwnerEcc) : Bool := decide (o.slot < 256)

/-- R419: an arrival of an NM PDU. -/
def NmPort.wf : NmPort → Bool
  | .can ch id => isChannel ch && decide (id < 2 ^ 29)
  | .eth p => isPort p

/-- R356: an SA that SC1 can install. -/
def SakArgs.wf (a : SakArgs) : Bool :=
  decide (a.an < 4) && decide (2 ≤ a.slot) && decide (a.slot < 4096) && decide (a.sci < 2 ^ 64) && decide (a.ssci < 2 ^ 32)

/-- The operands of a command name what the device has. -/
def Instr.wf : Instr → Bool
  | .porstAssert | .wrstAssert | .railLoss _ | .routingOpen | .pduimgLoad _ | .modeRequest _ _ _ => true
  | .porstRelease _ b | .wrstRelease b | .powerGood b => decide (b.ddrRate < 2 ^ 32)
  | .phyRstRelease g | .phyIntNEdge g => isGpio g
  | .signalBlockLoad b _ => decide (b < 512)
  | .groveGate g | .groveRestore g => isGrove g
  | .watchEntryStart | .watchEntryFlush | .watchRailRelease | .watchLimitExpire | .traceHoldExpire => true
  | .lockToSplit | .splitToLock | .safeHoldEntry | .sagHoldEnd | .sagStepEnd | .sagPersist | .xtalFail | .rtcAlarm => true
  | .sagDetectorReport det => decide (det < 256)
  | .pllUnlock p => decide (p < 8)
  | .sdsPllRelockRetry s _ => decide (s < 2)
  | .wheelBoundary | .commitRegs _ | .commitDelta _ _ => true
  | .kerfSlot ecc o => ecc.scrub.all EccFinding.wf && ecc.src.all (fun x => decide (x < 65536)) && (match o with | some o => o.wf | none => true)
  | .ringCommit x _ _ | .ringRelease x _ | .handshakeSend x _ _ | .handshakeAck x _ | .pulseLaunch x _ _ _ => isCrossing x
  | .pulseAck x _ _ | .crossingReset x _ _ _ | .crossRepair x _ | .crossStall x _ | .crossTimeout x _ => isCrossing x
  | .crossProgress x _ => isCrossing x
  | .canFrameReceived ch f => isChannel ch && f.frame.wf
  | .swkMatch ch f => isChannel ch && decide (f.dlc < 16) && f.frame.wf
  | .canFilterVerdict ch | .canRxError ch _ | .canTxError ch _ | .canArbLost ch | .canFrameSent ch | .canSelection ch => isChannel ch
  | .canSof ch | .canBufferRefill ch | .canInitRequest _ ch | .canInitLeave _ ch | .canInitEntry ch => isChannel ch
  | .canIntegrated ch | .canRecover _ ch | .canBusOn ch | .canStateParity ch | .canColumnStart ch => isChannel ch
  | .canColumnEnd ch | .canCancelRequest _ ch _ | .canMbAcq _ ch | .canMbRel _ ch | .canMbGo _ ch | .swkFecWake ch => isChannel ch
  | .ethFrameReceived p _ | .ethPauseEnd p | .ethStagingInstant p | .ethTxStart p | .linkDown p _ | .linkGood p => isMac p
  | .linkUp p | .ethEnableWrite _ p _ | .linkFault p _ => isMac p
  | .ethPauseReceived p q => isMac p && decide (q < 65536)
  | .timeStepWrite _ _ | .timeStep | .streamUnblock _ _ | .ppsInEdge | .ppsOutPulse => true
  | .gclEntryAdvance p | .gclCfgchg _ p | .gclChanged p | .tc10SleepRequest p | .tc10Poll p _ => isPort p
  | .cbRecoveryReset i => decide (i < 1024)
  | .parseComplete s | .routeLookup s | .bufferAdmission s | .hostAdmissionRetry s | .waitlimExpire s | .cellRead s _ => isInput s
  | .cellTime | .queueFlush _ _ | .tableWindowSelect _ _ | .rteWindowCopy => true
  | .diagRoutingActivation t a => decide (t < 4) && decide (a < 65536)
  | .diagRequest t a _ => decide (t < 4) && decide (a < 65536)
  | .diagResponse a _ | .diagTimeout a _ => decide (a < 65536)
  | .diagConnectionClose t => decide (t < 4)
  | .milSliceStart _ r => decide (r.slice < 8) && r.crc.all (fun l => decide (l < 524288))
  | .cacheRefill r _ _ => decide (r.corr < 3) && decide (r.line < 524288) && r.crc.all (fun c => decide (c < 524288))
  | .cacheWriteback l => decide (l < 524288)
  | .timeoutSweep => true
  | .emissionTick | .milTableWindow _ _ | .milWindowCopy => true
  | .emissionSnapshot r => decide (r.pdu < 32768)
  | .jobSubmit _ p _ | .jobComplete p | .enc p _ | .dec p _ | .gmul p _ | .ctrx p _ | .hinit p | .gacc p _ | .gfinal p => isPage p
  | .subkey p | .macc p _ | .mfinal p | .ctr p | .cbcEnc p | .cbcDec p | .cmacGen p | .cmacVer p | .gcmSeal p => isPage p
  | .gcmOpen p | .pageAbort _ p => isPage p
  | .blockBoundary s | .authVerify s | .authGenerate s | .authVerifyGenerate s => isSequencer s
  | .cryEngineFault e s => decide (e < 256) && isSequencer s
  | .freshCheckpoint p _ => decide (p < 4096)
  | .shutdownCheckpoint | .cryTableWindow _ _ | .cryWindowCopy => true
  | .macsecRx p _ | .macsecTx p => isPort p
  | .derive _ | .invalidate _ | .unwrap _ | .replace _ _ | .kvtStoreDone | .storeBackgroundErase | .newchal _ _ | .token _ => true
  | .kvtAlarm s => decide (s < 256)
  | .twinMismatch t _ | .replayStart t _ | .twinResume t | .commitNotice t _ => isTwin t
  | .degradedCheckFail _ _ | .fmRail => true
  | .scStopped p => decide (p < 4)
  | .nmPduReceived c s _ => isCluster c && s.wf
  | .nmRequest _ c _ | .nmTmsgExpire c | .nmTrepeatExpire c | .nmTtimeoutExpire c | .nmTwaitExpire c => isCluster c
  | .sleepCommitPoint c | .sleepComplete c | .nmSleepTimeout c | .nmFalseWake c | .offenderLogInterval c => isCluster c
  | .pncExpire p => decide (p < 64)
  | .inhHoldExpire j => decide (j < 4)
  | .wakeholdExpire => true
  | .wakeInEdge i _ => decide (i < 8)
  | .hostLinkDown e | .hostLinkUp e | .busMasterEnable e _ => isEndpoint e
  | .txTailWrite _ t _ => decide (t < 16)
  | .txRecord e t | .txCompletion e t => isEndpoint e && decide (t < 16)
  | .rxBufferPost _ r _ => decide (r < 64)
  | .rxDelivery e r => isEndpoint e && decide (r < 64)
  | .irqItrExpire e _ q => isEndpoint e && decide (q < 64)
  | .msixUnmask _ v => decide (v < 64)
  | .pageDomainWrite _ p _ => decide (p < 128)
  | .eventEntryWrite _ => true
  | .evqNext _ f | .evqMark _ f | .evqRewind _ f | .evqRelease _ f => isFifo f
  | .hspiWrite _ | .hspiBadCmd _ | .hspiCsRise _ => true
  | .hspiRead _ n => decide (n ≤ 64)
  | .bridgeWrite _ o _ | .bridgeRead _ o => isOffset 4 o
  | .bridgeFarDone b _ => decide (b < 5)
  | .bridgeReadTimeout _ | .i2cIndirectRead _ _ => true
  | .bridgePoll k => decide (k < 16)
  | .recordWrite | .recSoftTrigger _ | .crashIn | .recPostmsExpire | .recRelease _ | .readoutGo _ | .readoutAbort _ => true
  | .recReadoutDone _ => true
  | .updOpen _ | .updOpenDelta _ | .updWrite _ _ | .updVerify _ | .updArm _ | .updAbort _ | .updConfirm _ _ | .updReset _ => true
  | .fallback _ | .trialExpire => true
  | .ckpClr _ _ | .swhClr _ _ | .lndClr _ _ | .rteClr _ _ | .milClr _ _ | .cryClr _ _ | .kvtClr _ _ | .fltClr _ _ => true
  | .nmcClr _ _ | .hifClr _ _ | .recClr _ _ | .updClr _ _ => true
  | .canClr _ ch _ => isChannel ch
  | .ethClr _ p _ => isMac p
  | .registerPairLowRead _ ⟨o, size⟩ | .registerWrite _ o size _ => decide (0 < size) && decide (size ≤ 8) && isOffset 1 o
  | .retainedPowerGood => true
  | .shaperCreditZero p c => isPort p && decide (c < 8)
  | .sakInstall p a => isPort p && a.wf

end Sys2Proof
end

