-- ==== Sys2Proof/Safety.lean ====
section
/-! DEFINITION. The terms that claims are stated in: the state after a command, what a command yields, the events it raises,
and what holds in every state that a step reaches. -/

namespace Sys2Proof.Machine

/-- The state after a command whose effect leaves the device as `d`: IRQ_N, HSPI_IRQ_N and FAULT_N follow (R415, R464), and
the queue stays. -/
def after (s : State) (d : Dev) : State := { s with dev := settle d }

/-- The command completes: exec answers a next state with the same queue, and `P` holds of its device. -/
def Yields (c : Instr) (s : State) (P : Dev → Prop) : Prop :=
  ∃ t, exec c s = .next t ∧ t.pending = s.pending ∧ P t.dev

/-- R45, R444: a write of a word at `off` by an initiator waits behind no earlier access of its own and meets no access error. -/
def MayWrite (d : Dev) (who : Initiator) (off : Nat) : Prop :=
  canAccess d who = true ∧ waitsBehind d who = false ∧ accKind d who off 4 = 0

/-- R163: a write to a register of a CAN channel acts. -/
def MayWriteCan (d : Dev) (who : Initiator) (ch rel : Nat) : Prop :=
  ch < 24 ∧ canInImage d ch = true ∧ MayWrite d who (canBase ch + rel)

/-- Only the CAN channel `ch` differs from `old`, and the lines that follow. -/
def OnlyCan (old : Dev) (ch : Nat) (d : Dev) : Prop :=
  (∀ c, c ≠ ch → canOf d c = canOf old c) ∧ d = settle { old with can := d.can }

/-- R111, R112: the ball of a line shows a level, inverted by INV, where the pin section assigns it. -/
def Shows (d : Dev) (out : List Output) (n : Nat) (high : Bool) : Prop :=
  pinOff d n = false → lineOf out n = some (high != pinInv d n)

/-- Only the Ethernet port `p` differs from `old`, and the lines that follow. -/
def OnlyEth (old : Dev) (p : Nat) (d : Dev) : Prop :=
  (∀ q, q ≠ p → ethOf d q = ethOf old q) ∧ d = settle { old with eth := d.eth }

/-- The event that a unit raises now (R456, R458). -/
def evNow (d : Dev) (code cls : Nat) (data : Bytes) : Ev :=
  { stamp := nowNs d, born := d.clk.tclk, code := code, cls := cls, data := data.take 16, unsync := !synced d }

/-- An open-drain line is driven low exactly while its condition holds. -/
def DrainFollows (d : Dev) (n : Nat) (low : Bool) : Prop := (lineOf d.out n = some false) ↔ low = true

/-- A job in hand of a page whose next block can run now: its sequencer serves the page alone, and nothing ends it (R344 to
R346). -/
def JobRuns (d : Dev) (p : Nat) (j : Job) : Prop :=
  cryOn d = true ∧ p < 160 ∧ frozen d (sqTwin (sqOf d p)) = false ∧ servesPage d p = true ∧ othersReady d p = false ∧
    (pageOf d p).job = some j ∧ j.ends = none ∧ j.done < jobSteps j ∧ (pageOf d p).aborts = 0 ∧
    (d.cry.hold && decide (p < 128)) = false ∧ jobKey d p j = 0

/-- Only the page `p` differs from `old` among what software and the datapath see, and it is now `g`. -/
def OnlyPage (old : Dev) (p : Nat) (g : Page) (d : Dev) : Prop :=
  pageOf d p = g ∧ (∀ q, q ≠ p → pageOf d q = pageOf old q) ∧ d.kvt = old.kvt ∧ d.regs = old.regs ∧ d.lnd = old.lnd ∧
    d.evs = old.evs

/-- R374: the vault takes a command of an initiator: no Alarm lock, its root is formed, no Watch entry is in progress, and no
REPLACE runs. -/
def KvtTakes (d : Dev) (who : Initiator) : Prop :=
  MayWrite d who 0x7C0004 ∧ d.kvt.locked = false ∧ d.kvt.root.isSome = true ∧ watchEntering d = false ∧ d.kvt.swap = none ∧
    d.kvt.wait = []

/-- KVT_CMDSTAT of an initiator. -/
def kvtStatus (d : Dev) (who : Initiator) : Nat := mapGet 0 d.kvt.status (initIx who)

/-- R415, R464: IRQ_N and HSPI_IRQ_N follow their FIFOs, and FAULT_N the fault latches from the application of the pin
section, where the section assigns its ball (R64); INV inverts it (R111). -/
def LinesFollow (d : Dev) : Prop :=
  DrainFollows d 0 (irqLow d) ∧ DrainFollows d 1 (hspiLow d) ∧
    (d.clk.pinsOn = true → pinOff d 2 = false → lineOf d.out 2 = some (faultHigh d != pinInv d 2))

end Sys2Proof.Machine
end

