-- ==== Sys2Proof/Certificates/Slice0/Obligations.lean ====
section
/-! DEFINITION. The statements for the provers. Each says what a command or the machine does, by the rules that
OBLIGATIONS.json cites for it. -/

open Sys2Proof Sys2Proof.Machine

/-- A step runs the front command, and an empty queue passes one TIME cycle. A step with command c at the front of the queue
is exec of c on the state with the queue's rest; with an empty queue it is one cycle of the TIME clock (the model's
choice, log entry 2), after which the lines follow. -/
def Obligations.StepRunsFrontCommand : Prop :=
  (∀ (c : Instr) (d : Dev) (rest : List Instr),
    step { dev := d, pending := c :: rest } = exec c { dev := d, pending := rest }) ∧
  (∀ d : Dev, step { dev := d, pending := [] } = .next (after { dev := d, pending := [] } (idleTick d)))

/-- Every command answers a next state that does not depend on the queue. For every command and every device there is one
device after it, whatever commands wait: exec never faults or refuses, and it leaves the queue alone. -/
def Obligations.EveryCommandCompletes : Prop :=
  ∀ (c : Instr) (d : Dev), ∃ d' : Dev, ∀ q : List Instr,
    exec c { dev := d, pending := q } = .next { dev := d', pending := q }

/-- Commands that wait run in the order in which they came. Running a queue l ++ m for as many steps as it holds commands
leaves what running l to its end and then m leaves: the commands of l come first, none is lost and none is run twice. -/
def Obligations.QueueRunsFirstInFirstOut : Prop :=
  ∀ (l m : List Instr) (d : Dev), ∃ d1 : Dev,
    Host.Core.run core l.length { dev := d, pending := l } = .next { dev := d1, pending := [] } ∧
    Host.Core.run core (l ++ m).length { dev := d, pending := l ++ m } =
      Host.Core.run core m.length { dev := d1, pending := m }

/-- After every step the interrupt and fault lines follow their sources. Whatever state a step starts from and whatever
command it runs, in the state that it reaches IRQ_N is low exactly while a FIFO with IRQNEN 1 has LEVELHIT set (with the
pin section in force and its ball assigned, in M2 to M7; the other way round under INV), HSPI_IRQ_N is low exactly while a
FIFO that asserts it has LEVELHIT set and the switched rails are present, and FAULT_N shows the fault latches from the
application of the pin section, inverted by INV. The statement needs no premise on the state before the step. -/
def Obligations.LinesFollowAfterEveryStep : Prop :=
  ∀ s t : State, step s = .next t → LinesFollow t.dev

/-- At reset the lines follow their sources and no command waits. The state right after reset meets the line invariant: no
output has left the device, no FIFO has an entry, no fault is latched, the pin section is not in force; and the queue is
empty. -/
def Obligations.LinesFollowAtReset : Prop :=
  LinesFollow State.reset.dev ∧ State.reset.pending = [] ∧ (∀ n, lineOf State.reset.dev.out n = none) ∧
    State.reset.dev.clk.porstLow = true ∧ State.reset.dev.clk.pinsOn = false ∧ State.reset.dev.flt.f3 = false ∧
    State.reset.dev.flt.f4 = false ∧ (∀ f, (fifoOf State.reset.dev f).entries = [])

/-- Programmed flash and written registers read back, and everything else is as before. After a program of bytes at an address
each of these bytes reads back, every other byte of the flash reads as before, the flash keeps its canonical form, and
nothing of the device but the flash changes; an erase leaves 0xFF in its range and every other byte as before. In a
register file in its sorted form, a word written at an offset reads back modulo 2^32, every other offset reads as before,
the file keeps its sorted form, and nothing of the device but the register file changes. -/
def Obligations.FlashAndRegistersReadBack : Prop :=
  (∀ (d : Dev) (a : Nat) (bs : Bytes), mapWf (0xFF : Byte) d.flash = true →
    (∀ i, i < bs.length → flByte (flProg d a bs) (a + i) = nth 0 bs i) ∧
    (∀ k, k < a ∨ a + bs.length ≤ k → flByte (flProg d a bs) k = flByte d k) ∧
    mapWf (0xFF : Byte) (flProg d a bs).flash = true ∧
    flProg d a bs = { d with flash := (flProg d a bs).flash }) ∧
  (∀ (d : Dev) (a n : Nat), mapWf (0xFF : Byte) d.flash = true →
    (∀ k, flByte (flErase d a n) k = if a ≤ k ∧ k < a + n then 0xFF else flByte d k) ∧
    mapWf (0xFF : Byte) (flErase d a n).flash = true ∧
    flErase d a n = { d with flash := (flErase d a n).flash }) ∧
  (∀ (d : Dev) (off v : Nat), mapSorted d.regs = true →
    reg (putReg d off v) off = v % 2 ^ 32 ∧ (∀ o, o ≠ off → reg (putReg d off v) o = reg d o) ∧
    mapSorted (putReg d off v).regs = true ∧ putReg d off v = { d with regs := (putReg d off v).regs })

/-- An event is stamped with device time at its source and appended to those that wait. In M2 to M7 an event joins the events
that wait, with its code, class, the first 16 bytes of its data, device time in ns as its stamp and whether time is
synchronised; in M0 and M1 it is stored in AON; the lines, the flash, the fuses, the registers and the mode stay. -/
def Obligations.RaiseStampsAnEvent : Prop :=
  ∀ (d : Dev) (code cls : Nat) (data : Bytes),
    (2 ≤ d.clk.mode.num → (raise d code cls data).evs = d.evs ++ [evNow d code cls data] ∧
      (raise d code cls data).aonEvs = d.aonEvs) ∧
    (d.clk.mode.num < 2 → raise d code cls data = { d with aonEvs := d.aonEvs ++ [evNow d code cls data] }) ∧
    (raise d code cls data).out = d.out ∧ (raise d code cls data).flash = d.flash ∧ (raise d code cls data).fuses = d.fuses ∧
    (raise d code cls data).regs = d.regs ∧ (raise d code cls data).clk = d.clk

/-- What PORST_N, WRST_N and the loss of a rail leave. PORST_N low: every ball is high-impedance, flash, the real-time counter
and the queue stay, and every queue, journal, counter, register and event is at its reset value. WRST_N low, where it is
not ignored: balls high-impedance but for the resets of a DDR that holds a frozen trace, which stay high, the F4 latch
cleared, the F3 latch and the fault record kept, queues, crossings and events reset. A lost rail of the retained or switched group only changes its presence; with the always-on group everything
goes as under PORST_N. -/
def Obligations.ResetPinsLeaveTheResetState : Prop :=
  (∀ s : State, s.dev.clk.porstLow = false →
    Yields .porstAssert s (fun d => d.clk.porstLow = true ∧ d.flash = s.dev.flash ∧ d.clk.rtc = s.dev.clk.rtc ∧
      (∀ n, lineOf d.out n = none) ∧ d.lnd = {} ∧ d.tally = [] ∧ d.regs = [] ∧ d.evs = [] ∧ d.aonEvs = [] ∧ d.flt = {} ∧
      d.rte = {} ∧ d.mil = {} ∧ d.cry = {} ∧ d.can = [] ∧ d.eth = [] ∧ d.eps = [] ∧ d.fifos = [] ∧ d.whl = {})) ∧
  (∀ s : State, s.dev.clk.porstLow = false → s.dev.clk.wrstLow = false → 2 ≤ s.dev.clk.mode.num →
    Yields .wrstAssert s (fun d => d.clk.wrstLow = true ∧ d.clk.porstLow = false ∧ d.flash = s.dev.flash ∧
      d.clk.rtc = s.dev.clk.rtc ∧ (∀ n, n ≠ 8 → n ≠ 9 → lineOf d.out n = none) ∧
      (∀ n, n = 8 ∨ n = 9 → lineOf d.out n = if s.dev.rcd.st = 2 ∨ s.dev.rcd.st = 3 then some true else none) ∧
      d.flt.f4 = false ∧ d.flt.f3 = s.dev.flt.f3 ∧
      d.flt.record = s.dev.flt.record ∧ d.lnd = {} ∧ d.rte = {} ∧ d.mil = {} ∧ d.evs = [] ∧ d.fifos = [] ∧ d.whl = {} ∧
      flag d 0x10040 11 = true ∧ flag d 0x10040 10 = false)) ∧
  (∀ s : State, exec (.railLoss .retained) s = .next (after s { s.dev with clk := { s.dev.clk with retained := false } })) ∧
  (∀ s : State, exec (.railLoss .switched) s = .next (after s { s.dev with clk := { s.dev.clk with switched := false } })) ∧
  (∀ s : State, s.dev.clk.porstLow = false →
    Yields (.railLoss .alwaysOn) s (fun d => d.clk.porstLow = true ∧ d.clk.alwaysOn = false ∧ d.flash = s.dev.flash ∧
      d.lnd = {} ∧ d.tally = [] ∧ (∀ n, lineOf d.out n = none)))

/-- A boot that finds no image samples the straps and enters M7 Provision. When PORST_N rises with WRST_N high and TESTEN 0,
or WRST_N rises with PORST_N high, and the boot finds no image that it may use, the device leaves reset, and M7 Provision
is in force with user pages held and the two events of the boot raised last. PORST_N rising with WRST_N low only samples
the straps; TESTEN 1 leaves the device as in reset. -/
def Obligations.BootWithoutAnImageOpensProvision : Prop :=
  (∀ (s : State) (st : Straps) (b : BootInput), s.dev.clk.porstLow = true → s.dev.clk.wrstLow = true → st.testen = false →
    exec (.porstRelease st b) s = .next (after s { s.dev with clk := { s.dev.clk with
      cmpt := st.cmpt, bootsel := st.bootsel.toNat, testen := false, alwaysOn := true, retained := true, switched := true, porstLow := false } })) ∧
  (∀ (s : State) (st : Straps) (b : BootInput), s.dev.clk.porstLow = true → st.testen = true →
    exec (.porstRelease st b) s = .next (after s { s.dev with clk := { s.dev.clk with
      cmpt := st.cmpt, bootsel := st.bootsel.toNat, testen := true, alwaysOn := true, retained := true, switched := true } })) ∧
  (∀ (s : State) (st : Straps) (b : BootInput), s.dev.clk.porstLow = true → s.dev.clk.wrstLow = false → st.testen = false →
    (bootRun { s.dev with clk := { s.dev.clk with
      cmpt := st.cmpt, bootsel := st.bootsel.toNat, testen := false, alwaysOn := true, retained := true, switched := true } } b 0).2 = false →
    Yields (.porstRelease st b) s (fun d => d.clk.mode = .m7 ∧ d.clk.trans = .idle ∧ d.clk.islands = 0x1FE ∧ d.cry.hold = true ∧
      (∃ l e, d.evs = l ++ [e, evNow d 0x1201 0 (e4 d.upd.bootRep)] ∧ e.code = 0x0401))) ∧
  (∀ (s : State) (b : BootInput), s.dev.clk.porstLow = false → s.dev.clk.wrstLow = true →
    (bootRun s.dev b (if flag s.dev 0x10040 11 then 1 else 0)).2 = false →
    Yields (.wrstRelease b) s (fun d => d.clk.mode = .m7 ∧ d.clk.trans = .idle ∧ d.clk.islands = 0x1FE ∧ d.cry.hold = true ∧
      (∃ l e, d.evs = l ++ [e, evNow d 0x1201 0 (e4 d.upd.bootRep)] ∧ e.code = 0x0401))) ∧
  (∀ (s : State) (b : BootInput), s.dev.clk.porstLow = true →
    exec (.wrstRelease b) s = .next (after s { s.dev with clk := { s.dev.clk with wrstLow := false } }))

/-- A supply sag slows the clock and gives it back, and clock faults take their response. The first detector report of an
episode sets 4 of 8 PLL edges and takes the persistence limit, held to 100 to 10,000 µs; a report in a later phase halves
again from edge 0; 2 µs after the last report come 5 of 8 edges, and every 500 ns one edge more, up to 8; 500 ns after
step 4 the episode is over and counted with its time; an episode longer than its limit is an F4 fault once and goes on.
Loss of the CORE PLL puts the core on the backup oscillator with an F4 fault; TIME, CANP and DDR PLL are F4 faults; the
crystal is an F4 fault with the backup oscillator and no hold routes; a lost PCIE PLL is an F0 event and takes its link
down; a SerDes PLL that is tried again has its lock back. The release of a PHY reset, at the delay of its record after the
pin section was applied, drives its ball. -/
def Obligations.SagAndClockFaultsTakeTheirResponse : Prop :=
  (∀ (s : State) (det : Nat), running s.dev = true → det < 8 → s.dev.clk.sag.active = false →
    exec (.sagDetectorReport det) s = .next (after s { s.dev with clk := { s.dev.clk with sag := { s.dev.clk.sag with
      active := true, phase := 1, firstDet := det, limit := clamp 100 10000 (fld s.dev 0x10010 16 14), start := s.dev.clk.tclk,
      since := s.dev.clk.tclk, n := 4, edge := 0, overLimit := false } } })) ∧
  (∀ (s : State) (det : Nat), running s.dev = true → det < 8 → s.dev.clk.sag.active = true → s.dev.clk.sag.phase ≠ 1 →
    exec (.sagDetectorReport det) s = .next (after s { s.dev with clk := { s.dev.clk with sag := { s.dev.clk.sag with
      phase := 1, since := s.dev.clk.tclk, n := 4, edge := 0 } } })) ∧
  (∀ (s : State) (det : Nat), running s.dev = true → det < 8 → s.dev.clk.sag.active = true → s.dev.clk.sag.phase = 1 →
    exec (.sagDetectorReport det) s = .next (after s { s.dev with clk := { s.dev.clk with sag := { s.dev.clk.sag with
      since := s.dev.clk.tclk } } })) ∧
  (∀ s : State, s.dev.clk.sag.active = true → s.dev.clk.sag.phase = 1 → s.dev.clk.sag.since + 1000 ≤ s.dev.clk.tclk →
    exec .sagHoldEnd s = .next (after s { s.dev with clk := { s.dev.clk with sag := { s.dev.clk.sag with
      phase := 2, since := s.dev.clk.tclk, n := 5, edge := 0 } } })) ∧
  (∀ s : State, s.dev.clk.sag.active = true → 2 ≤ s.dev.clk.sag.phase → s.dev.clk.sag.phase < 5 →
    s.dev.clk.sag.since + 250 ≤ s.dev.clk.tclk →
    exec .sagStepEnd s = .next (after s { s.dev with clk := { s.dev.clk with sag := { s.dev.clk.sag with
      phase := s.dev.clk.sag.phase + 1, since := s.dev.clk.tclk, n := min 8 (s.dev.clk.sag.n + 1), edge := 0 } } })) ∧
  (∀ s : State, s.dev.clk.sag.active = true → s.dev.clk.sag.phase = 5 → s.dev.clk.sag.since + 250 ≤ s.dev.clk.tclk →
    flag s.dev 0x10010 31 = false → mapSorted s.dev.tally = true →
    Yields .sagStepEnd s (fun d => d.clk.sag.active = false ∧ d.clk.sag.phase = 0 ∧
      tallyOf d 0x10018 0 = min (tallyOf s.dev 0x10018 0 + 1) tallyMax ∧
      tallyOf d 0x10020 0 = min (tallyOf s.dev 0x10020 0 + (s.dev.clk.tclk - s.dev.clk.sag.start + 250) / 500) tallyMax ∧
      d.evs = s.dev.evs ∧ d.regs = s.dev.regs ∧ d.flt = s.dev.flt ∧ d.flash = s.dev.flash)) ∧
  (∀ s : State, s.dev.clk.sag.active = true → s.dev.clk.sag.overLimit = false → 2 ≤ s.dev.clk.mode.num →
    s.dev.clk.sag.start + 500 * s.dev.clk.sag.limit < s.dev.clk.tclk →
    Yields .sagPersist s (fun d => d.flt.f4 = true ∧ d.clk.f4Pend = true ∧ d.clk.sag.persist = true ∧ d.clk.sag.active = true ∧
      d.evs = s.dev.evs ++ [evNow s.dev 0x0411 4 (e4 s.dev.clk.sag.limit)] ∧ d.regs = s.dev.regs ∧ d.flash = s.dev.flash)) ∧
  (∀ (s : State) (p : Nat), running s.dev = true → p < 4 → bit s.dev.clk.pllLock p = true →
    Yields (.pllUnlock p) s (fun d => d.clk.pllLock = setBit s.dev.clk.pllLock p false ∧
      d.clk.backup = (s.dev.clk.backup || p == 0) ∧ d.flt.f4 = true ∧ d.clk.f4Pend = true ∧ d.clk.noHold = s.dev.clk.noHold ∧
      d.evs = s.dev.evs ++ [evNow s.dev 0x0420 4 (e1 p)] ∧ d.regs = s.dev.regs ∧ d.lnd = s.dev.lnd)) ∧
  (∀ s : State, running s.dev = true → s.dev.clk.xtalOk = true →
    Yields .xtalFail s (fun d => d.clk.xtalOk = false ∧ d.clk.backup = true ∧ d.clk.noHold = true ∧ d.flt.f4 = true ∧
      d.clk.f4Pend = true ∧ d.evs = s.dev.evs ++ [evNow s.dev 0x0421 4 []] ∧ d.regs = s.dev.regs ∧ d.lnd = s.dev.lnd)) ∧
  (∀ (s : State) (n : Nat), running s.dev = true → n < 2 → bit s.dev.clk.pllRun (4 + n) = true →
    exec (.sdsPllRelockRetry n true) s = .next (after s { s.dev with clk := { s.dev.clk with
      pllLock := setBit s.dev.clk.pllLock (4 + n) true } })) ∧
  (∀ (s : State) (n : Nat), exec (.sdsPllRelockRetry n false) s = .next (after s s.dev)) ∧
  (∀ (s : State) (g r : Nat), (roleRecs s.dev 6).find? (fun r => pnGpio r == some g) = some r → running s.dev = true →
    s.dev.clk.pinsOn = true → s.dev.clk.safeOut = false → s.dev.clk.phyOut.contains g = false →
    s.dev.clk.pinsAt + usCycles (1000 * bits r 23 8) ≤ s.dev.clk.tclk →
    exec (.phyRstRelease g) s = .next (after s { s.dev with
      clk := { s.dev.clk with phyOut := s.dev.clk.phyOut ++ [g] }, out := .line (32 + g) (!bit r 22) :: s.dev.out }))

/-- A wake in M1 or M0 is recorded and starts its sequence. An edge that WAKE_IN i takes, the alarm of the real-time counter,
a matched frame and a frame error count above its threshold each wake a device in M1 Watch, whose wake sequence starts
with SUPPLY_EN_SW driven high and CKP_WAKEFIRST naming the source; the alarm in M0 Dormant drives SUPPLY_EN_RET high
first, and SUPPLY_EN_SW when the retained rails are in tolerance. In M2 to M7 an alarm changes nothing. High is what the
ball's record makes of it: inverted by INV, and nothing on a ball that the image leaves unused. -/
def Obligations.WakesStartTheWakeSequence : Prop :=
  (∀ (s : State) (i : Nat) (rising : Bool), watching s.dev = true → i < 8 → flag s.dev (0x7E0100 + 8 * i) 0 = true →
    edgeTaken s.dev i rising = true → reg s.dev (0x7E0104 + 8 * i) = 0 →
    Yields (.wakeInEdge i rising) s (fun d => d.clk.trans = .wake false ∧ d.clk.wakeFirst = i ∧ d.clk.enSw = true ∧
      d.clk.wakeTime = s.dev.clk.rtc ∧ d.clk.mode = .m1 ∧ Shows s.dev d.out 4 true ∧ d.evs = s.dev.evs ∧ d.flash = s.dev.flash ∧
      d.nmc = s.dev.nmc)) ∧
  (∀ s : State, watching s.dev = true → regPair s.dev 0x10038 ≠ 0 → s.dev.clk.rtc = regPair s.dev 0x10038 →
    Yields .rtcAlarm s (fun d => d.clk.trans = .wake false ∧ d.clk.wakeFirst = 9 ∧ d.clk.enSw = true ∧ d.clk.wakeTime = s.dev.clk.rtc ∧
      Shows s.dev d.out 4 true ∧ d.nmc = s.dev.nmc ∧ d.flash = s.dev.flash)) ∧
  (∀ s : State, outOfReset s.dev = true → s.dev.clk.mode = .m0 → s.dev.clk.trans = .idle → regPair s.dev 0x10038 ≠ 0 →
    s.dev.clk.rtc = regPair s.dev 0x10038 →
    Yields .rtcAlarm s (fun d => d.clk.trans = .wake true ∧ d.clk.wakeFirst = 9 ∧ d.clk.enRet = true ∧ Shows s.dev d.out 5 true ∧
      d.nmc = s.dev.nmc)) ∧
  (∀ s : State, 2 ≤ s.dev.clk.mode.num → s.dev.clk.trans = .idle → exec .rtcAlarm s = .next (after s s.dev)) ∧
  (∀ s : State, s.dev.clk.trans = .wake true → s.dev.clk.enSw = false →
    exec .retainedPowerGood s = .next (after s { s.dev with
      clk := { s.dev.clk with enSw := true, retained := true }
      out := if pinOff s.dev 4 then s.dev.out else .line 4 (true != pinInv s.dev 4) :: s.dev.out })) ∧
  (∀ (s : State) (ch dlc : Nat) (f : CanFrame), swkWatched s.dev ch = true → f.fmt ≠ .classical →
    exec (.swkMatch ch ⟨dlc, f⟩) s = .next (after s s.dev)) ∧
  (∀ (s : State) (ch k dlc : Nat) (f : CanFrame), swkWatched s.dev ch = true → f.fmt = .classical → canCluster s.dev ch = none →
    (List.range 4).find? (fun k => swkHit s.dev ch k dlc f) = some k →
    Yields (.swkMatch ch ⟨dlc, f⟩) s (fun d => d.clk.trans = .wake false ∧ d.clk.wakeFirst = 8 ∧ d.clk.wakeChan = ch ∧
      (canOf d ch).swkPat = k ∧ (canOf d ch).swkMatch = true ∧ (canOf d ch).swkFec = (canOf s.dev ch).swkFec - 1 ∧ d.tally = (bump s.dev 0x10028 0).tally ∧
      Shows s.dev d.out 4 true ∧ d.nmc = s.dev.nmc)) ∧
  (∀ (s : State) (ch : Nat), swkWatched s.dev ch = true → flag s.dev (canBase ch + 0x70) 5 = true → canCluster s.dev ch = none →
    fld s.dev (canBase ch + 0x70) 6 6 < (canOf s.dev ch).swkFec →
    Yields (.swkFecWake ch) s (fun d => d.clk.trans = .wake false ∧ d.clk.wakeFirst = 8 ∧ d.clk.wakeChan = ch ∧
      (canOf d ch).swkFecW = true ∧ Shows s.dev d.out 4 true ∧ d.nmc = s.dev.nmc))

/-- One mode request is pending; a newer one replaces it and the older is rejected. A request written while a transition runs
becomes the pending request; if another is pending, the new one replaces it and the replaced one is rejected with reason
4, shown and reported; at the end of the running transition, with nothing left of its chain and no fault waiting, the
pending request is decided. -/
def Obligations.RequestsArePendedAndReplaced : Prop :=
  (∀ (s : State) (who : Initiator) (w : Word) (auth : Bool), MayWrite s.dev who 0x10 →
    bit w.toNat 11 = true → modeBusy s.dev = true → Mode.ofNum (bits w.toNat 8 3) ≠ .m7 ∨ auth = true → s.dev.clk.pendReq = none →
    exec (.modeRequest who w auth) s = .next (after s { putFld s.dev 0x10 8 3 (bits w.toNat 8 3) with
      clk := { s.dev.clk with pendReq := some (Mode.ofNum (bits w.toNat 8 3)) } })) ∧
  (∀ (s : State) (who : Initiator) (w : Word) (auth : Bool) (o : Mode), MayWrite s.dev who 0x10 →
    bit w.toNat 11 = true → modeBusy s.dev = true → Mode.ofNum (bits w.toNat 8 3) ≠ .m7 ∨ auth = true → s.dev.clk.pendReq = some o →
    2 ≤ s.dev.clk.mode.num →
    Yields (.modeRequest who w auth) s (fun d => d.clk.pendReq = some (Mode.ofNum (bits w.toNat 8 3)) ∧ d.clk.lastRej = 4 ∧
      d.evs = s.dev.evs ++ [evNow s.dev 0x0402 0 (e1 o.num ++ e1 4)] ∧ d.clk.trans = s.dev.clk.trans ∧ d.clk.mode = s.dev.clk.mode)) ∧
  (∀ (d : Dev) (t : Mode), d.clk.pendReq = some t → d.clk.f4Pend = false → d.clk.f3Pend = false → d.clk.chain.drop 1 = [] →
    modeSettle d = modeDecide { d with clk := { d.clk with trans := .idle, chain := [], pendReq := none } } t)

/-- A mode request is decided by its conditions, or rejected with its reason. With no transition running, a request that a
condition is against is rejected with the lowest reason, shown in GLB_MODE and reported by MODE_REQ_REJECT; one that
nothing is against starts the chain of transitions to its mode; a request for M7 without authorisation is rejected at the
write with reason 3. -/
def Obligations.ModeRequestsAreDecidedOrRejected : Prop :=
  (∀ (s : State) (who : Initiator) (w : Word) (auth : Bool) (t : Mode), MayWrite s.dev who 0x10 →
    bit w.toNat 11 = true → modeBusy s.dev = false → t = Mode.ofNum (bits w.toNat 8 3) → t ≠ .m7 → 2 ≤ s.dev.clk.mode.num →
    reqReason (putFld s.dev 0x10 8 3 (bits w.toNat 8 3)) t ≠ 0 →
    Yields (.modeRequest who w auth) s (fun d =>
      d.clk = { s.dev.clk with lastRej := reqReason (putFld s.dev 0x10 8 3 (bits w.toNat 8 3)) t } ∧ d.lnd = s.dev.lnd ∧
      ∃ e, d.evs = s.dev.evs ++ [e] ∧ e.code = 0x0402 ∧
        e.data = e1 t.num ++ e1 (reqReason (putFld s.dev 0x10 8 3 (bits w.toNat 8 3)) t))) ∧
  (∀ (s : State) (who : Initiator) (w : Word) (auth : Bool), MayWrite s.dev who 0x10 →
    bit w.toNat 11 = true → modeBusy s.dev = false → bits w.toNat 8 3 = 4 → s.dev.clk.mode = .m3 →
    exec (.modeRequest who w auth) s = .next (after s { putFld s.dev 0x10 8 3 4 with
      clk := { s.dev.clk with chain := [.m4], trig := 0, target := .m4 } })) ∧
  (∀ (s : State) (who : Initiator) (w : Word), MayWrite s.dev who 0x10 →
    bit w.toNat 11 = true → bits w.toNat 8 3 = 7 → s.dev.clk.mode = .m3 →
    Yields (.modeRequest who w false) s (fun d => d.clk = { s.dev.clk with lastRej := 3 } ∧ d.lnd = s.dev.lnd ∧
      d.evs = s.dev.evs ++ [evNow s.dev 0x0402 0 (e1 7 ++ e1 3)])) ∧
  (∀ (s : State) (who : Initiator) (w : Word) (auth : Bool), MayWrite s.dev who 0x10 →
    bit w.toNat 11 = false →
    exec (.modeRequest who w auth) s = .next (after s (putFld s.dev 0x10 8 3 (bits w.toNat 8 3))))

/-- A change of groves powers one grove off or on at a time. In a change of groves, GROVE_GATE powers off a closed grove whose
channels are in INIT and whose clusters sleep, and GROVE_RESTORE powers on a grove that the change adds; the change goes
on for the groves that remain. Outside a change of groves in M4 to M7 both leave the device as it is. -/
def Obligations.GrovesAreGatedAndRestored : Prop :=
  (∀ (s : State) (g drop : Nat), g < 4 → running s.dev = true → s.dev.clk.trans = .regroup 0 drop → bit drop g = true →
    setBit drop g false ≠ 0 → groveIdle s.dev g = true → bit s.dev.clk.gating g = true → groveInit s.dev g = true →
    Yields (.groveGate g) s (fun d => groveOn d g = false ∧ bit d.clk.gating g = false ∧
      d.clk.trans = .regroup 0 (setBit drop g false) ∧ d.clk.mode = s.dev.clk.mode ∧ d.flash = s.dev.flash)) ∧
  (∀ (s : State) (g add drop : Nat), g < 4 → running s.dev = true → s.dev.clk.trans = .regroup add drop → bit add g = true →
    setBit add g false ≠ 0 → groveOn s.dev g = false →
    Yields (.groveRestore g) s (fun d => groveOn d g = true ∧ bit d.clk.gating g = false ∧
      d.clk.trans = .regroup (setBit add g false) drop ∧ d.clk.mode = s.dev.clk.mode ∧ d.flash = s.dev.flash)) ∧
  (∀ (s : State) (g : Nat), 4 ≤ s.dev.clk.mode.num → s.dev.clk.trans = .idle →
    exec (.groveGate g) s = .next (after s s.dev) ∧ exec (.groveRestore g) s = .next (after s s.dev))

/-- Watch entry closes admission, flushes, and ends in M1 at the rail-release instant. A requested entry with every cluster
asleep and every shutdown checkpoint stored closes ingress admission and ends an update session; its flush discards what
awaits a lookup at every input; at the rail-release instant, with every channel in INIT, M1 Watch is in force: SUPPLY_EN_SW
is low, queues, routes at work, endpoints and the crossings that do not end in AON are gone, and AON stores no event of the
entry; a request that is pending then is decided there, and no mode may be entered on request from M1, so it is rejected
with reason 1 in an event that AON stores. -/
def Obligations.WatchEntryReachesWatch : Prop :=
  (∀ s : State, running s.dev = true → s.dev.clk.routing = true → s.dev.clk.f4Pend = false → s.dev.clk.f3Pend = false →
    s.dev.clk.trans = .idle → s.dev.clk.chain.head? = some .m1 → allAsleep s.dev = true → allShut s.dev = true →
    exec .watchEntryStart s = .next (after s { s.dev with
      upd := { s.dev.upd with sess := 0, busy := false, staging := [] }
      clk := { s.dev.clk with
        trans := .watchEntry s.dev.clk.mode (s.dev.clk.chain == [.m1, .m0]) false, ingress := false, target := .m1 } })) ∧
  (∀ (s : State) (src : Mode) (to0 : Bool), running s.dev = true → s.dev.clk.trans = .watchEntry src to0 false →
    mapSorted s.dev.rte.parse = true → mapSorted s.dev.rte.lookup = true → s.dev.brg.wait = [] →
    Yields .watchEntryFlush s (fun d => d.clk.trans = .watchEntry src to0 true ∧
      (∀ i, i < 10 → mapGet [] d.rte.parse i = [] ∧ mapGet [] d.rte.lookup i = []) ∧
      d.clk.mode = s.dev.clk.mode ∧ d.flash = s.dev.flash)) ∧
  (∀ (s : State) (src : Mode), running s.dev = true → s.dev.clk.trans = .watchEntry src false true → s.dev.clk.f4Pend = false →
    (∀ ch, ch < 24 → (canOf s.dev ch).state = 0) → allAsleep s.dev = true → s.dev.upd.expired = false → s.dev.clk.pendReq = none →
    Yields .watchRailRelease s (fun d => d.clk.mode = .m1 ∧ d.clk.trans = .idle ∧ d.clk.routing = false ∧ d.clk.enSw = false ∧
      d.clk.switched = false ∧ d.clk.xtalOk = false ∧ d.clk.pllRun = 0 ∧ d.rte = {} ∧ d.eps = [] ∧
      (∀ e ∈ d.whl.xings, xKey 39 false ≤ e.1) ∧ d.brg = {} ∧ d.aonEvs = s.dev.aonEvs)) ∧
  (∀ (s : State) (src t : Mode), running s.dev = true → s.dev.clk.trans = .watchEntry src false true → s.dev.clk.f4Pend = false →
    (∀ ch, ch < 24 → (canOf s.dev ch).state = 0) → allAsleep s.dev = true → s.dev.upd.expired = false →
    s.dev.clk.pendReq = some t →
    Yields .watchRailRelease s (fun d => d.clk.mode = .m1 ∧ d.clk.trans = .idle ∧ d.clk.pendReq = none ∧ d.clk.lastRej = 1 ∧
      ∃ e, d.aonEvs = s.dev.aonEvs ++ [e] ∧ e.code = 0x0402 ∧ e.data = e1 t.num ++ e1 1))

/-- WATCH_LIMIT ends M1 in M0 Dormant, and TRACE_HOLD discards a frozen trace. In M1 Watch, when WATCH_LIMIT has elapsed and
no frozen trace defers it, M0 Dormant is in force: SUPPLY_EN_RET is low, the retained groups, the queues, the image but the
pin records of the balls that AON drives (the model's choice, log entry 138) and the trace are gone, flash stays, and
MODE_CHANGE is stored with trigger 1 (the model's choice, log entry 141); when TRACE_HOLD has elapsed before WATCH_LIMIT,
the frozen trace is discarded, the DDR resets are released and the device stays in M1. -/
def Obligations.WatchTimersReachDormant : Prop :=
  (∀ s : State, watching s.dev = true → limitOver s.dev = true → holdOver s.dev = true →
    Yields .watchLimitExpire s (fun d => d.clk.mode = .m0 ∧ d.clk.enRet = false ∧ d.clk.retained = false ∧ d.clk.islands = 0 ∧
      d.flash = s.dev.flash ∧ d.lnd = {} ∧ d.rcd = {} ∧ d.img = { pins := s.dev.img.pins } ∧ Shows s.dev d.out 5 false ∧
      d.flt.f3 = s.dev.flt.f3 ∧ d.flt.f4 = s.dev.flt.f4 ∧ d.clk.rtc = s.dev.clk.rtc ∧
      ∃ e, d.aonEvs = s.dev.aonEvs ++ [e] ∧ e.code = 0x0401 ∧ e.data = e1 1 ++ e1 0 ++ e1 1)) ∧
  (∀ s : State, watching s.dev = true → s.dev.rcd.sr = true → fld s.dev 0x10050 16 16 ≠ 0 → holdOver s.dev = true →
    limitOver s.dev = false →
    exec .traceHoldExpire s = .next (after s { s.dev with
      rcd := recDiscard s.dev.rcd, clk := { s.dev.clk with islands := 1 }
      out := if s.dev.clk.pinsOn then .lineZ 9 :: .lineZ 8 :: s.dev.out else s.dev.out
      aonEvs := s.dev.aonEvs ++ [evNow s.dev 0x0404 0 []] }))

/-- Split, lock and Safe-Hold are entered at their boundary. A requested split brings M4 in force and a requested lock M3,
each with MODE_CHANGE last among the events; when M6 entry is due, by an F4 fault or by a request, M6 Safe-Hold is in
force with the user pages held and every grove powered. -/
def Obligations.SplitLockAndSafeHoldAreEntered : Prop :=
  (∀ s : State, running s.dev = true → s.dev.clk.mode = .m3 → s.dev.clk.trans = .idle → s.dev.clk.chain = [.m4] →
    s.dev.clk.f4Pend = false → s.dev.clk.f3Pend = false → s.dev.clk.pendReq = none → splitTwinsRun s.dev = true →
    Yields .lockToSplit s (fun d => d.clk.mode = .m4 ∧ d.clk.trans = .idle ∧ d.clk.chain = [] ∧ d.mil.split = true ∧
      ∃ l e, d.evs = l ++ [e] ∧ e.code = 0x0401 ∧ e.data = e1 3 ++ e1 4 ++ e1 s.dev.clk.trig)) ∧
  (∀ s : State, running s.dev = true → s.dev.clk.mode = .m4 → s.dev.clk.trans = .idle → s.dev.clk.chain = [.m3] →
    s.dev.clk.f4Pend = false → s.dev.clk.f3Pend = false → s.dev.clk.pendReq = none →
    Yields .splitToLock s (fun d => d.clk.mode = .m3 ∧ d.clk.trans = .idle ∧ d.clk.chain = [] ∧ d.mil.split = false ∧
      ∃ l e, d.evs = l ++ [e] ∧ e.code = 0x0401 ∧ e.data = e1 4 ++ e1 3 ++ e1 s.dev.clk.trig)) ∧
  (∀ s : State, holdDue s.dev = true →
    Yields .safeHoldEntry s (fun d => d.clk.mode = .m6 ∧ d.clk.target = .m6 ∧ d.cry.hold = true ∧
      (∀ g, g < 4 → groveOn d g = true) ∧ d.flash = s.dev.flash ∧ d.fuses = s.dev.fuses))

/-- A wake powers the islands, and opens routing with WAKE_REPORT first. With the switched rails in tolerance a wake from M1
restarts the crystal, powers the islands of its mode and applies the pin section, and a wake from M0 boots; routing then
opens in the wake's mode with device time seeded from the real-time counter, and WAKE_REPORT is the first event. -/
def Obligations.WakeSequenceOpensRouting : Prop :=
  (∀ (s : State) (b : BootInput), s.dev.clk.trans = .wake false → s.dev.clk.xtalOk = false → s.dev.clk.enSw = true → outOfReset s.dev = true →
    Yields (.powerGood b) s (fun d => d.clk.xtalOk = true ∧ d.clk.switched = true ∧ d.clk.pinsOn = true ∧ d.clk.trans = .wake false ∧
      d.clk.islands = islandsOf s.dev (wakeTarget s.dev) (wakeGroves s.dev) ∧ Shows s.dev d.out 3 true ∧ Shows s.dev d.out 4 true ∧
      d.flash = s.dev.flash ∧ d.evs = s.dev.evs)) ∧
  (∀ (s : State) (b : BootInput), s.dev.clk.trans = .wake true → s.dev.clk.xtalOk = false → s.dev.clk.enSw = true → outOfReset s.dev = true →
    exec (.powerGood b) s = .next (after s (bootRun { s.dev with clk := { s.dev.clk with switched := true } } b 2).1)) ∧
  (∀ s : State, waking s.dev = true → outOfReset s.dev = true → s.dev.clk.trans = .wake false → s.dev.img.fast = true →
    Yields .routingOpen s (fun d => d.clk.mode = wakeTarget s.dev ∧ d.clk.trans = .idle ∧ d.clk.routing = true ∧ d.clk.ingress = true ∧
      d.clk.dtime = s.dev.clk.rtc * 1000000000 * 2 ^ 24 ∧ d.flash = s.dev.flash ∧ d.aonEvs = [] ∧
      d.evs.head?.map (fun e => e.code) = some 0x0430))

/-- A write of GLB_COMMIT opens the commit window, and the kerf slot stages the groups. GLB_COMMIT with REGS opens the commit
window, with DELTA it carries the staged delta or marks DELTAERR where none is staged; inside the window the write is
stalled; the kerf slot after the boundary that follows takes the dirty groups into the staging copy and closes the window,
the values in force and the rest of the device staying as they are. -/
def Obligations.CommitsOpenTheWindowAndAreStaged : Prop :=
  (∀ (s : State) (who : Initiator), MayWrite s.dev who 0x20 → s.dev.com.window = false →
    exec (.commitRegs who) s = .next (after s { s.dev with com := { s.dev.com with window := true, due := false, winDelta := false } })) ∧
  (∀ (s : State) (who : Initiator) (regs : Bool), MayWrite s.dev who 0x20 → s.dev.com.window = false →
    exec (.commitDelta who regs) s = .next (after s { s.dev with com := { s.dev.com with
      window := true, due := false, winDelta := s.dev.com.graftOn, deltaErr := s.dev.com.deltaErr || !s.dev.com.graftOn } })) ∧
  (∀ (s : State) (who : Initiator), MayWrite s.dev who 0x20 → s.dev.com.window = true →
    exec (.commitRegs who) s = .next (after s { s.dev with com := { s.dev.com with
      stalled := s.dev.com.stalled ++ [(who, 0x20, 1)] } })) ∧
  (∀ s : State, running s.dev = true → s.dev.com.due = true → s.dev.com.stalled = [] →
    Yields (.kerfSlot {} none) s (fun d => d.com.window = false ∧ d.com.due = false ∧ d.com.staged = true ∧
      d.com.groups = s.dev.com.dirty ∧ d.com.dirty = [] ∧ d.com.delta = s.dev.com.winDelta ∧
      d = settle { s.dev with com := d.com }))

/-- A wheel boundary begins the next turn, and a free kerf slot scrubs the next row of every memory. At a boundary of a
running device the slot is 0, the turn is the next one and no clear of counters waits; an open commit window then falls
due. A kerf slot with nothing else due scrubs one row of each of the five memories, in order and round, and changes
nothing else where it finds no error. -/
def Obligations.WheelTurnsAndScrubs : Prop :=
  (∀ s : State, running s.dev = true → s.dev.upd.resetDue = false →
    Yields .wheelBoundary s (fun d => d.whl.slot = 0 ∧ d.whl.turn = (s.dev.whl.turn + 1) % 2 ^ 64 ∧ d.clears = [] ∧
      d.whl.owners = s.dev.whl.owners)) ∧
  (∀ s : State, running s.dev = true → s.dev.com.due = false → s.dev.com.live = [] → s.dev.kvt.slots = [] →
    mapSorted s.dev.whl.scrub = true →
    Yields (.kerfSlot {} none) s (fun d =>
      (∀ m, m < 5 → mapGet 0 d.whl.scrub m = (mapGet 0 s.dev.whl.scrub m + 1) % memRows m) ∧
      d = settle { s.dev with whl := { s.dev.whl with scrub := d.whl.scrub } })) ∧
  (∀ s : State, running s.dev = false → exec .wheelBoundary s = .next (after s s.dev))

/-- Ring crossings keep their groups in order, and handshakes and pulses cross. A committed group joins the ring of its
direction when it fits and the reader is not re-pairing; one that does not fit, or that meets a reader that was reset, is
discarded whole, counted by its CAN or Ethernet port on the way in; the reader takes the oldest group, which leaves the
device as it was committed, or is dropped and counted where a word of it is poisoned (the counter is the model's choice,
log entry 152). No other crossing changes. A word is held when none is, a second one waits with its sender, as one does at
a receiver that was reset, and the acknowledge delivers the word that was held; a launch copies the pulses that have come before it, a pulse of the launch cycle counts for the next
launch, and the acknowledge delivers the count, saturated at 65,535. -/
def Obligations.CrossingsCarryGroupsHandshakesAndPulses : Prop :=
  (∀ (s : State) (x : Nat) (out : Bool) (ws : List RingWord), xRing x = true → (xOf s.dev x out).timed = false →
    (xOf s.dev x out).repair ≠ 2 → (xOf s.dev x out).repair ≠ 3 → xFill (xOf s.dev x out) + ws.length ≤ xDepth x →
    Yields (.ringCommit x out ws) s (fun d =>
      xOf d x out = { xOf s.dev x out with groups := (xOf s.dev x out).groups ++ [ws] } ∧
      (∀ y o, xKey y o ≠ xKey x out → xOf d y o = xOf s.dev y o) ∧
      d = settle { s.dev with whl := { s.dev.whl with xings := d.whl.xings } })) ∧
  (∀ (s : State) (x : Nat) (ws : List RingWord), x < 24 → (xOf s.dev x false).timed = false →
    xDepth x < xFill (xOf s.dev x false) + ws.length ∨ (xOf s.dev x false).repair = 2 ∨ (xOf s.dev x false).repair = 3 →
    exec (.ringCommit x false ws) s = .next (after s (bump s.dev (canBase x + 0x150) 0))) ∧
  (∀ (s : State) (x : Nat) (out : Bool) (w : List RingWord) (rest : List (List RingWord)), xRing x = true →
    (xOf s.dev x out).groups = w :: rest → (xOf s.dev x out).repair ≠ 1 → w.any (fun v => v.bad) = false →
    Yields (.ringRelease x out) s (fun d =>
      xOf d x out = { xOf s.dev x out with groups := rest, stalled := false } ∧
      (∀ y o, xKey y o ≠ xKey x out → xOf d y o = xOf s.dev y o) ∧
      d = settle { s.dev with whl := { s.dev.whl with xings := d.whl.xings }, out := .ring x out w :: s.dev.out })) ∧
  (∀ (s : State) (x : Nat) (out : Bool) (w : List RingWord) (rest : List (List RingWord)), xRing x = true →
    (xOf s.dev x out).groups = w :: rest → (xOf s.dev x out).repair ≠ 1 → w.any (fun v => v.bad) = true →
    Yields (.ringRelease x out) s (fun d =>
      xOf d x out = { xOf s.dev x out with groups := rest, stalled := false } ∧
      (∀ y o, xKey y o ≠ xKey x out → xOf d y o = xOf s.dev y o) ∧ d.tally = (bumpX s.dev 0 x out 1).tally ∧
      d = settle { s.dev with whl := { s.dev.whl with xings := d.whl.xings }, tally := d.tally })) ∧
  (∀ (s : State) (x : Nat) (out : Bool) (w : FWord), xHs x = true → (xOf s.dev x out).hs = none → (xOf s.dev x out).timed = false →
    (xOf s.dev x out).repair ≠ 2 →
    Yields (.handshakeSend x out w) s (fun d => xOf d x out = { xOf s.dev x out with hs := some w } ∧
      (∀ y o, xKey y o ≠ xKey x out → xOf d y o = xOf s.dev y o) ∧ d = settle { s.dev with whl := { s.dev.whl with xings := d.whl.xings } })) ∧
  (∀ (s : State) (x : Nat) (out : Bool) (w : FWord), (xOf s.dev x out).hs.isSome = true ∨ (xOf s.dev x out).repair = 2 →
    exec (.handshakeSend x out w) s = .next (after s s.dev)) ∧
  (∀ (s : State) (x : Nat) (out : Bool) (w : FWord), (xOf s.dev x out).hs = some w → xPairing (xOf s.dev x out) = false →
    Yields (.handshakeAck x out) s (fun d => xOf d x out = { xOf s.dev x out with hs := none, stalled := false } ∧
      (∀ y o, xKey y o ≠ xKey x out → xOf d y o = xOf s.dev y o) ∧
      d = settle { s.dev with whl := { s.dev.whl with xings := d.whl.xings }, out := .shake x out w :: s.dev.out })) ∧
  (∀ (s : State) (x : Nat) (out inCycle : Bool) (n : Nat), xPulse x = true → (xOf s.dev x out).timed = false →
    xPairing (xOf s.dev x out) = false → (xOf s.dev x out).xfer = none → 0 < (xOf s.dev x out).acc + n →
    (xOf s.dev x out).acc + n < 65535 →
    Yields (.pulseLaunch x out n inCycle) s (fun d =>
      (xOf d x out).xfer = some ((xOf s.dev x out).acc + n) ∧ (xOf d x out).acc = inCycle.toNat ∧
      (∀ y o, xKey y o ≠ xKey x out → xOf d y o = xOf s.dev y o) ∧ d = settle { s.dev with whl := { s.dev.whl with xings := d.whl.xings } })) ∧
  (∀ (s : State) (x : Nat) (out : Bool) (n k : Nat), (xOf s.dev x out).xfer = some n → xPairing (xOf s.dev x out) = false →
    (xOf s.dev x out).timed = false → (xOf s.dev x out).acc + k < 65535 →
    Yields (.pulseAck x out k) s (fun d =>
      (xOf d x out).xfer = none ∧ (xOf d x out).acc = (xOf s.dev x out).acc + k ∧ (xOf d x out).stalled = false ∧
      (∀ y o, xKey y o ≠ xKey x out → xOf d y o = xOf s.dev y o) ∧
      d = settle { s.dev with whl := { s.dev.whl with xings := d.whl.xings }, out := .pulses x out n (n == 65535) :: s.dev.out }))

/-- A one-side reset re-pairs, and a crossing without progress stalls or times out. A reset of the writer discards what is not
committed, keeps what an earlier one discarded, and closes a cut-through frame that is arriving with an abort mark, counted
as one group more (the model's choice, log entry 152); a reset of the reader discards nothing; both wait for the pairing
instant, with the clock of the side that was reset running, which reports what was discarded; in native mode 1,024 cycles without progress are a stall, counted and reported once; in compatibility mode they drop what
waits, and the next progress ends the timeout and reports what was dropped meanwhile; a ring then re-pairs. -/
def Obligations.CrossingsRepairStallAndTimeOut : Prop :=
  (∀ (s : State) (x n : Nat) (out : Bool), xOneSide x = true → xRing x = true →
    out = true ∨ x < 24 ∨ 32 < x ∨ (ethOf s.dev (x - 24)).headIn = false →
    Yields (.crossingReset x out false n) s (fun d =>
      (xOf d x out).repair = 1 ∧ (xOf d x out).groups = (xOf s.dev x out).groups ∧ (xOf d x out).hs = none ∧ (xOf d x out).acc = 0 ∧
      (xOf d x out).xfer = none ∧ (xOf d x out).disc = (xOf s.dev x out).disc + n + (if (xOf s.dev x out).hs.isSome then 1 else 0) ∧
      d = settle { s.dev with whl := { s.dev.whl with xings := d.whl.xings } })) ∧
  (∀ (s : State) (p n : Nat), p ≤ 8 → (ethOf s.dev p).headIn = true →
    Yields (.crossingReset (24 + p) false false n) s (fun d =>
      (xOf d (24 + p) false).repair = 1 ∧ (xOf d (24 + p) false).groups = (xOf s.dev (24 + p) false).groups ∧
      (xOf d (24 + p) false).disc =
        (xOf s.dev (24 + p) false).disc + n + (if (xOf s.dev (24 + p) false).hs.isSome then 1 else 0) + 1 ∧
      (ethOf d p).headIn = false ∧ d.regs = s.dev.regs)) ∧
  (∀ (s : State) (x n : Nat) (out : Bool), xOneSide x = true →
    Yields (.crossingReset x out true n) s (fun d =>
      xOf d x out = { xOf s.dev x out with repair := 2 } ∧
      d = settle { s.dev with whl := { s.dev.whl with xings := d.whl.xings } })) ∧
  (∀ (s : State) (x : Nat) (out : Bool), (xOf s.dev x out).repair ≠ 0 → xClocked s.dev x = true → 2 ≤ s.dev.clk.mode.num →
    Yields (.crossRepair x out) s (fun d =>
      xOf d x out = { xOf s.dev x out with repair := 0, disc := 0, unknown := false } ∧
      d.evs = s.dev.evs ++ [evNow s.dev 0x0603 0 (e1 x ++ e1 (min 1 ((xOf s.dev x out).repair - 1)) ++ eCount (xOf s.dev x out).disc ++
        eFlag (xOf s.dev x out).unknown)] ∧ d.regs = s.dev.regs ∧ d.lnd = s.dev.lnd)) ∧
  (∀ (s : State) (x : Nat) (out : Bool), compat s.dev = false → (xOf s.dev x out).stalled = false → xWaiting (xOf s.dev x out) = true →
    xIdle s.dev x = false → 2 ≤ s.dev.clk.mode.num →
    Yields (.crossStall x out) s (fun d => xOf d x out = { xOf s.dev x out with stalled := true } ∧
      d.evs = s.dev.evs ++ [evNow s.dev 0x0601 0 (e1 x ++ eFlag out)] ∧ d.regs = s.dev.regs ∧ d.lnd = s.dev.lnd)) ∧
  (∀ (s : State) (x : Nat) (out : Bool), compat s.dev = true → (xOf s.dev x out).timed = false → xWaiting (xOf s.dev x out) = true →
    xIdle s.dev x = false → 2 ≤ s.dev.clk.mode.num →
    Yields (.crossTimeout x out) s (fun d =>
      (xOf d x out).timed = true ∧ (xOf d x out).groups = [] ∧ (xOf d x out).hs = none ∧ (xOf d x out).xfer = none ∧ (xOf d x out).acc = 0 ∧
      d.evs = s.dev.evs ++ [evNow s.dev 0x0602 0 (e1 x ++ eFlag out ++ eCount ((xOf s.dev x out).groups.length +
        (xOf s.dev x out).hs.toList.length + (xOf s.dev x out).xfer.getD 0 + (xOf s.dev x out).acc) ++ e1 0)])) ∧
  (∀ (s : State) (x : Nat) (out : Bool), (xOf s.dev x out).timed = false →
    Yields (.crossProgress x out) s (fun d => xOf d x out = { xOf s.dev x out with stalled := false } ∧
      d = settle { s.dev with whl := { s.dev.whl with xings := d.whl.xings } })) ∧
  (∀ (s : State) (x : Nat) (out : Bool), (xOf s.dev x out).timed = true → 2 ≤ s.dev.clk.mode.num →
    Yields (.crossProgress x out) s (fun d => (xOf d x out).timed = false ∧ (xOf d x out).dropped = 0 ∧
      (xOf d x out).repair = (if xRing x && (xOf s.dev x out).repair == 0 then 3 else (xOf s.dev x out).repair) ∧
      d.evs = s.dev.evs ++ [evNow s.dev 0x0602 0 (e1 x ++ eFlag out ++ eCount (xOf s.dev x out).dropped ++ e1 1)]))

/-- A valid frame enters the receive stage, and its verdict takes it out. A frame of a format that the channel has, at its
validity point on a running channel outside internal loop-back whose cluster, if it has one, is awake, joins the receive
stage with the filter range latched at its SOF and lowers REC; with two frames in the stage it is lost and counted; a
remote frame without RTR reception is counted and dropped; while its cluster sleeps and has no WAKEON it is counted and
routed nowhere; during a wake it is counted and not routed; in internal loop-back the bus is not seen. CAN_FILTER_VERDICT
takes the oldest frame out: rejected it is counted; accepted it is counted and, with ingress admission open and room in the
crossing, becomes a PDU of its grove, else it is counted as lost, and one that meets a crossing in its timeout as dropped
there; with an empty stage it does nothing. -/
def Obligations.CanReceptionFillsTheStage : Prop :=
  (∀ (s : State) (ch back : Nat) (f : CanFrame) (l : CanLatch), waking s.dev = false → canLive s.dev ch = true →
    canRuns (canOf s.dev ch) = true → (canOf s.dev ch).opmode ≠ 2 → l = latchOf s.dev ch back →
    protoKind s.dev ch l f = none → (∀ k, canCluster s.dev ch = some k → nmSleeps s.dev k = false) →
    (f.rtr = false ∨ bit (canCtl s.dev ch) 6 = true) → (canOf s.dev ch).stage.length < 2 →
    Yields (.canFrameReceived ch ⟨back, f⟩) s (fun d =>
      (canOf d ch).stage = (canOf s.dev ch).stage ++ [⟨f, l.base, l.cnt, l.rej⟩] ∧
      (canOf d ch).rec' = (if 127 < (canOf s.dev ch).rec' then clamp 119 127 Config.recAfterGood else (canOf s.dev ch).rec' - 1) ∧
      (canOf d ch).tec = (canOf s.dev ch).tec ∧ OnlyCan s.dev ch d)) ∧
  (∀ (s : State) (ch back : Nat) (f : CanFrame), waking s.dev = false → canLive s.dev ch = true → canRuns (canOf s.dev ch) = true →
    (canOf s.dev ch).opmode ≠ 2 → protoKind s.dev ch (latchOf s.dev ch back) f = none →
    (∀ k, canCluster s.dev ch = some k → nmSleeps s.dev k = false) → f.rtr = false → (canOf s.dev ch).stage.length = 2 →
    mapSorted s.dev.tally = true →
    Yields (.canFrameReceived ch ⟨back, f⟩) s (fun d => (canOf d ch).stage = (canOf s.dev ch).stage ∧
      tallyOf d (canBase ch + 0x150) 0 = min (tallyOf s.dev (canBase ch + 0x150) 0 + 1) tallyMax ∧ d.rte = s.dev.rte)) ∧
  (∀ (s : State) (ch back : Nat) (f : CanFrame), waking s.dev = false → canLive s.dev ch = true → canRuns (canOf s.dev ch) = true →
    (canOf s.dev ch).opmode ≠ 2 → protoKind s.dev ch (latchOf s.dev ch back) f = none →
    (∀ k, canCluster s.dev ch = some k → nmSleeps s.dev k = false) → f.rtr = true → bit (canCtl s.dev ch) 6 = false →
    Yields (.canFrameReceived ch ⟨back, f⟩) s (fun d => (canOf d ch).stage = (canOf s.dev ch).stage ∧
      d.tally = (bump s.dev (canBase ch + 0x160) 0).tally ∧ d.rte = s.dev.rte)) ∧
  (∀ (s : State) (ch back k : Nat) (f : CanFrame), waking s.dev = false → canLive s.dev ch = true →
    canRuns (canOf s.dev ch) = true → (canOf s.dev ch).opmode ≠ 2 → protoKind s.dev ch (latchOf s.dev ch back) f = none →
    canCluster s.dev ch = some k → nmSleeps s.dev k = true → bit (nmReg s.dev k 12) 8 = false →
    Yields (.canFrameReceived ch ⟨back, f⟩) s (fun d => (canOf d ch).stage = (canOf s.dev ch).stage ∧
      d.tally = (bump s.dev 0x7E00B8 k).tally ∧ d.rte = s.dev.rte ∧ d.nmc = s.dev.nmc)) ∧
  (∀ (s : State) (ch back : Nat) (f : CanFrame), waking s.dev = true → ch < 24 → canInImage s.dev ch = true →
    exec (.canFrameReceived ch ⟨back, f⟩) s = .next (after s (bump s.dev 0x10028 0))) ∧
  (∀ (s : State) (ch back : Nat) (f : CanFrame), waking s.dev = false →
    canLive s.dev ch = false ∨ canRuns (canOf s.dev ch) = false ∨ (canOf s.dev ch).opmode = 2 →
    exec (.canFrameReceived ch ⟨back, f⟩) s = .next (after s s.dev)) ∧
  (∀ (s : State) (ch : Nat), (canOf s.dev ch).stage = [] → exec (.canFilterVerdict ch) s = .next (after s s.dev)) ∧
  (∀ (s : State) (ch : Nat) (r : RxStage) (rest : List RxStage), (canOf s.dev ch).stage = r :: rest →
    filtAccepts s.dev (ch / 6) r = false →
    Yields (.canFilterVerdict ch) s (fun d => (canOf d ch).stage = rest ∧ d.rte = s.dev.rte ∧
      d.tally = (bump s.dev (canBase ch + 0x110) 0).tally)) ∧
  (∀ (s : State) (ch : Nat) (r : RxStage) (rest : List RxStage), (canOf s.dev ch).stage = r :: rest → ch < 24 →
    filtAccepts s.dev (ch / 6) r = true → s.dev.clk.ingress = true → xTakes (xOf s.dev ch false) ch (frameWords r.frame) = true →
    lkFill s.dev (ch / 6) < 256 →
    Yields (.canFilterVerdict ch) s (fun d => (canOf d ch).stage = rest ∧
      d.tally = (bumpBy (bump s.dev (canBase ch + 0x100) 0) 0x500080 (ch / 6) (cells r.frame.data.length)).tally ∧
      ∃ it, mapGet [] d.rte.parse (ch / 6) = mapGet [] s.dev.rte.parse (ch / 6) ++ [it] ∧ it.pkt.can = r.frame ∧ it.pkt.data = r.frame.data ∧
        it.pkt.ingress = ch ∧ it.pkt.stamp = nowNs s.dev)) ∧
  (∀ (s : State) (ch : Nat) (r : RxStage) (rest : List RxStage), (canOf s.dev ch).stage = r :: rest →
    filtAccepts s.dev (ch / 6) r = true →
    s.dev.clk.ingress = false ∨ ((xOf s.dev ch false).timed = false ∧ xTakes (xOf s.dev ch false) ch (frameWords r.frame) = false) →
    Yields (.canFilterVerdict ch) s (fun d => (canOf d ch).stage = rest ∧ d.rte = s.dev.rte ∧
      d.tally = (bump (bump s.dev (canBase ch + 0x100) 0) (canBase ch + 0x150) 0).tally)) ∧
  (∀ (s : State) (ch : Nat) (r : RxStage) (rest : List RxStage), (canOf s.dev ch).stage = r :: rest →
    filtAccepts s.dev (ch / 6) r = true → s.dev.clk.ingress = true → (xOf s.dev ch false).timed = true →
    Yields (.canFilterVerdict ch) s (fun d => (canOf d ch).stage = rest ∧ d.rte = s.dev.rte ∧
      d.tally = (bumpX (bump s.dev (canBase ch + 0x100) 0) 1 ch false 1).tally ∧
      xOf d ch false = { xOf s.dev ch false with dropped := (xOf s.dev ch false).dropped + 1 }))

/-- Errors and arbitration keep a frame for its next attempt, and a completed frame leaves. A receive error adds 1 to REC, and 8
more for each step that the standard counts so (a dominant bit first behind the error flag, and more), up to 255; a
transmit error below bus-off adds 8 to TEC and keeps the frame for retry; lost arbitration keeps it without a change of
TEC; a completed frame leaves its buffer, which a stored frame of the column may then take, and the device as it was, with
the error state of the channel in ESI, and lowers TEC by 1; in internal loop-back it joins the channel's own receive stage
in place of leaving. -/
def Obligations.CanErrorsMoveTheCounters : Prop :=
  (∀ (s : State) (ch steps : Nat), canLive s.dev ch = true → canRuns (canOf s.dev ch) = true → (canOf s.dev ch).opmode ≠ 2 →
    Yields (.canRxError ch steps) s (fun d =>
      (canOf d ch).rec' = min ((canOf s.dev ch).rec' + 1 + 8 * steps) 255 ∧ (canOf d ch).tec = (canOf s.dev ch).tec ∧
      (canOf d ch).stage = (canOf s.dev ch).stage ∧ d.regs = s.dev.regs ∧
      (∀ c, c ≠ ch → canOf d c = canOf s.dev c) ∧ d.lnd = s.dev.lnd)) ∧
  (∀ (s : State) (ch b : Nat) (x : XbFrame), onBus (canOf s.dev ch) = some b → xbOf (canOf s.dev ch) b = some x → x.last = false →
    x.cancel = false → x.expired = false → canRuns (canOf s.dev ch) = true → (canOf s.dev ch).tec + 8 ≤ 255 →
    Yields (.canTxError ch (.detected 1)) s (fun d => (canOf d ch).tec = (canOf s.dev ch).tec + 8 ∧
      xbOf (canOf d ch) b = some { x with onBus := false, failed := true } ∧ d.lnd = s.dev.lnd ∧ d.regs = s.dev.regs ∧
      (∀ c, c ≠ ch → canOf d c = canOf s.dev c))) ∧
  (∀ (s : State) (ch b : Nat) (x : XbFrame), onBus (canOf s.dev ch) = some b → xbOf (canOf s.dev ch) b = some x → x.last = false →
    x.cancel = false → x.expired = false →
    Yields (.canArbLost ch) s (fun d => (canOf d ch).tec = (canOf s.dev ch).tec ∧
      xbOf (canOf d ch) b = some { x with onBus := false, failed := true } ∧ d.lnd = s.dev.lnd ∧ d.evs = s.dev.evs ∧
      (∀ c, c ≠ ch → canOf d c = canOf s.dev c))) ∧
  (∀ (s : State) (ch b : Nat) (x : XbFrame), onBus (canOf s.dev ch) = some b → xbOf (canOf s.dev ch) b = some x → x.cancel = false →
    x.mbox = false → x.store = none →
    Yields (.canFrameSent ch) s (fun d => ((canOf s.dev ch).schLoad = none ∨ b ≠ 0 → xbOf (canOf d ch) b = none) ∧
      (canOf d ch).tec = (canOf s.dev ch).tec - 1 ∧
      ((canOf s.dev ch).opmode = 2 → x.frame.rtr = false → (canOf s.dev ch).stage.length < 2 →
        (canOf d ch).stage = (canOf s.dev ch).stage ++
          [⟨{ x.frame with esi := (canOf s.dev ch).state == 3 && x.frame.fmt != .classical },
            (latchOf s.dev ch (canOf s.dev ch).past.length).base, (latchOf s.dev ch (canOf s.dev ch).past.length).cnt,
            (latchOf s.dev ch (canOf s.dev ch).past.length).rej⟩]) ∧
      ((canOf s.dev ch).opmode ≠ 2 →
        Output.can ch { x.frame with esi := (canOf s.dev ch).state == 3 && x.frame.fmt != .classical } ∈ d.out) ∧ d.lnd = s.dev.lnd ∧
      (∀ c, c ≠ ch → canOf d c = canOf s.dev c)))

/-- The selection instant picks, the SOF sends, and a free buffer is refilled. At the selection instant a channel latches its
bit timing and picks, with ORDER 0, the frame of its buffers that wins arbitration, or with ORDER 1 the first buffer; the
SOF puts the frame picked on the bus, in an exclusive column only one of XB0; a free Landing-fed buffer takes the first
staged head that the flow guard lets pass, under the channel's next tag, while no store awaits XB0 and neither the Landing
Switch nor the egress twin is frozen. -/
def Obligations.CanSelectionSendsThePick : Prop :=
  (∀ (s : State) (ch : Nat), canLive s.dev ch = true → canRuns (canOf s.dev ch) = true → onBus (canOf s.dev ch) = none →
    mayTx (btLatch s.dev ch) ch = true → bit (canCtl s.dev ch) 9 = false →
    Yields (.canSelection ch) s (fun d =>
      canOf d ch = { canOf s.dev ch with bt := btNow s.dev ch, next := bestReady (readyBufs (canOf s.dev ch)) } ∧ OnlyCan s.dev ch d)) ∧
  (∀ (s : State) (ch : Nat), canLive s.dev ch = true → canRuns (canOf s.dev ch) = true → onBus (canOf s.dev ch) = none →
    mayTx (btLatch s.dev ch) ch = true → bit (canCtl s.dev ch) 9 = true →
    Yields (.canSelection ch) s (fun d =>
      canOf d ch = { canOf s.dev ch with bt := btNow s.dev ch, next := (readyBufs (canOf s.dev ch)).head?.map (fun p => p.1) } ∧
      OnlyCan s.dev ch d)) ∧
  (∀ (s : State) (ch b : Nat) (x : XbFrame), b < 3 → (canOf s.dev ch).next = some b → xbOf (canOf s.dev ch) b = some x →
    mayTx s.dev ch = true → onBus (canOf s.dev ch) = none → ((canOf s.dev ch).schExcl = false ∨ b = 0) → x.pkt = none →
    Yields (.canSof ch) s (fun d => xbOf (canOf d ch) b = some { x with sof := true, onBus := true } ∧ OnlyCan s.dev ch d)) ∧
  (∀ (s : State) (ch b : Nat) (x : XbFrame) (p : Pkt), b < 3 → (canOf s.dev ch).next = some b → xbOf (canOf s.dev ch) b = some x →
    mayTx s.dev ch = true → onBus (canOf s.dev ch) = none → ((canOf s.dev ch).schExcl = false ∨ b = 0) → x.pkt = some p →
    Yields (.canSof ch) s (fun d => xbOf (canOf d ch) b = some { x with sof := true, onBus := true })) ∧
  (∀ (s : State) (ch b : Nat) (it : LaneItem), canLive s.dev ch = true → 1 ≤ (canOf s.dev ch).state → (canOf s.dev ch).state < 4 →
    outFrozen s.dev (6 + ch / 6) = false → ((canOf s.dev ch).schLoad = none ∨ (canOf s.dev ch).xb0.isSome = true) →
    (landingBufs s.dev ch).find? (fun b => (xbOf (canOf s.dev ch) b).isNone) = some b → b < 3 →
    (stagedHeads s.dev ch).find? (flowFree (canOf s.dev ch)) = some it →
    Yields (.canBufferRefill ch) s (fun d => ∃ x, xbOf (canOf d ch) b = some x ∧ x.frame = canFrameOf s.dev ch it.pkt it.dest.fmt ∧
      x.tag = it.tag.getD (canOf s.dev ch).nextTag ∧ x.sof = false ∧ x.onBus = false ∧ x.flow = flowOf it ∧ d.regs = s.dev.regs ∧
      (∀ c, c ≠ ch → canOf d c = canOf s.dev c)))

/-- INIT, integration, bus-off recovery and a parity error move a channel between its states. INIT written 1 makes an entry to
INIT due, which acts at the end of the frame in progress and clears the counters and the stage; INIT written 0 lets a
channel that nothing else holds integrate under the timing in force; 11 recessive bits make it error active; RECOVER
starts the recovery from bus-off, whose end clears both counters and reports; a parity error of the protocol state is an
F1 event with the counters cleared. -/
def Obligations.CanStatesFollowInitAndRecovery : Prop :=
  (∀ (s : State) (who : Initiator) (ch : Nat), MayWriteCan s.dev who ch 0 → canLive s.dev ch = true → (canOf s.dev ch).state ≠ 0 →
    mapSorted s.dev.regs = true →
    Yields (.canInitRequest who ch) s (fun d => (canOf d ch).initDue = true ∧ (canOf d ch).state = (canOf s.dev ch).state ∧
      flag d (canBase ch) 0 = true ∧ d.lnd = s.dev.lnd ∧ (∀ c, c ≠ ch → canOf d c = canOf s.dev c))) ∧
  (∀ (s : State) (who : Initiator) (ch : Nat), MayWriteCan s.dev who ch 0 → canLive s.dev ch = true → (canOf s.dev ch).state = 0 →
    (canOf s.dev ch).demand = false → s.dev.clk.routing = true → btFault (btNow s.dev ch) = none → mapSorted s.dev.regs = true →
    Yields (.canInitLeave who ch) s (fun d => (canOf d ch).state = 1 ∧ (canOf d ch).bt = btNow s.dev ch ∧ flag d (canBase ch) 0 = false ∧
      d.lnd = s.dev.lnd ∧ d.evs = s.dev.evs ∧ (∀ c, c ≠ ch → canOf d c = canOf s.dev c))) ∧
  (∀ (s : State) (ch : Nat), (canOf s.dev ch).initDue = true → onBus (canOf s.dev ch) = none → initCause s.dev ch = true →
    Yields (.canInitEntry ch) s (fun d => (canOf d ch).state = 0 ∧ (canOf d ch).tec = 0 ∧ (canOf d ch).rec' = 0 ∧
      (canOf d ch).stage = [] ∧ (canOf d ch).initDue = false ∧ d.regs = s.dev.regs)) ∧
  (∀ (s : State) (ch : Nat), (canOf s.dev ch).state = 1 → canLive s.dev ch = true →
    Yields (.canIntegrated ch) s (fun d => canOf d ch = { canOf s.dev ch with state := 2 } ∧ OnlyCan s.dev ch d)) ∧
  (∀ (s : State) (who : Initiator) (ch : Nat), MayWriteCan s.dev who ch 0 → canLive s.dev ch = true → (canOf s.dev ch).state = 4 →
    Yields (.canRecover who ch) s (fun d => canOf d ch = { canOf s.dev ch with state := 5, byReq := true } ∧ OnlyCan s.dev ch d)) ∧
  (∀ (s : State) (ch : Nat), (canOf s.dev ch).state = 5 → canLive s.dev ch = true →
    Yields (.canBusOn ch) s (fun d => (canOf d ch).state = 1 ∧ (canOf d ch).tec = 0 ∧ (canOf d ch).rec' = 0 ∧
      (canOf d ch).bt = btNow s.dev ch ∧ d.evs = s.dev.evs ++ [evNow s.dev 0x0703 0 (e1 ch ++ eFlag (canOf s.dev ch).byReq)] ∧
      (∀ c, c ≠ ch → canOf d c = canOf s.dev c) ∧ d.lnd = s.dev.lnd)) ∧
  (∀ (s : State) (ch : Nat), canLive s.dev ch = true →
    Yields (.canStateParity ch) s (fun d => (canOf d ch).tec = 0 ∧ (canOf d ch).rec' = 0 ∧ (canOf d ch).stage = [] ∧
      ((canOf d ch).state = 0 ∨ (canOf d ch).state = 1) ∧
      ∃ l e, d.evs = l ++ [e] ∧ e.code = 0x070B ∧ e.cls = 1 ∧ e.data = e1 ch ++ eCount (heldFrames s.dev ch)))

/-- The schedule matrix, a cancel and the direct mailbox act by their rules. The first column after integration is column 0 of
cycle 0, and each column end moves matrix time on; a cancel of a tag that no buffer holds reports result 2, one of the
frame on the bus waits for its attempt; ACQ takes a free mailbox lock for an endpoint and REL frees it; GO without the
lock is refused with reason 1 and counted, and else puts the shadow's frame into XB2. -/
def Obligations.CanMatrixCancelAndMailbox : Prop :=
  (∀ (s : State) (ch : Nat), canLive s.dev ch = true → canRuns (canOf s.dev ch) = true → hasMatrix s.dev ch = true →
    (canOf s.dev ch).schRun = false → matrixAt s.dev ch 0 0 = none →
    Yields (.canColumnStart ch) s (fun d =>
      canOf d ch = { canOf s.dev ch with schRun := true, schCyc := 0, schCol := 0, schExcl := false, schLoad := none } ∧ OnlyCan s.dev ch d)) ∧
  (∀ (s : State) (ch k route : Nat) (p : StoreFrame), canLive s.dev ch = true → canRuns (canOf s.dev ch) = true → hasMatrix s.dev ch = true →
    (canOf s.dev ch).schRun = true → matrixAt s.dev ch (canOf s.dev ch).schCyc (canOf s.dev ch).schCol = some (k, route) → k < 2 →
    mapGet? (canOf s.dev ch).store route = some p → (canOf s.dev ch).xb0 = none → outFrozen s.dev (6 + ch / 6) = false →
    Yields (.canColumnStart ch) s (fun d => (canOf d ch).schExcl = (k == 0) ∧
      (∃ x, (canOf d ch).xb0 = some x ∧ x.frame = canFrameOf s.dev ch p.pkt p.dest.fmt ∧ x.store = some route) ∧ OnlyCan s.dev ch d)) ∧
  (∀ (s : State) (ch : Nat), (canOf s.dev ch).schRun = true → (canOf s.dev ch).xb0 = none →
    Yields (.canColumnEnd ch) s (fun d => canOf d ch = { canOf s.dev ch with
      schExcl := false, schLoad := none, schCol := ((canOf s.dev ch).schCol + 1) % 32,
      schCyc := if (canOf s.dev ch).schCol % 32 = 31 then ((canOf s.dev ch).schCyc + 1) % 64 else (canOf s.dev ch).schCyc } ∧
      OnlyCan s.dev ch d)) ∧
  (∀ (s : State) (who : Initiator) (ch : Nat) (w : Word), MayWriteCan s.dev who ch 0x40 → canLive s.dev ch = true →
    bits w.toNat 0 2 ≠ 3 → (xbOf (canOf s.dev ch) (bits w.toNat 0 2)).filter (fun x => x.tag == bits w.toNat 16 16) = none →
    Yields (.canCancelRequest who ch w) s (fun d => canOf d ch = { canOf s.dev ch with
        cBuf := bits w.toNat 0 2, cRes := 2, cTag := bits w.toNat 16 16 } ∧
      d.evs = s.dev.evs ++ [evNow s.dev 0x0705 0 (e1 ch ++ e1 (bits w.toNat 0 2) ++ e2 (bits w.toNat 16 16) ++ e1 2)])) ∧
  (∀ (s : State) (who : Initiator) (ch : Nat) (w : Word) (x : XbFrame), MayWriteCan s.dev who ch 0x40 → canLive s.dev ch = true →
    bits w.toNat 0 2 ≠ 3 → (xbOf (canOf s.dev ch) (bits w.toNat 0 2)).filter (fun x => x.tag == bits w.toNat 16 16) = some x →
    x.cancel = false → x.onBus = true →
    Yields (.canCancelRequest who ch w) s (fun d => (canOf d ch).cRes = 3 ∧ (canOf d ch).cTag = bits w.toNat 16 16 ∧
      xbOf (canOf d ch) (bits w.toNat 0 2) = some { x with cancel := true } ∧ OnlyCan s.dev ch d)) ∧
  (∀ (s : State) (who : Initiator) (ch n : Nat), MayWriteCan s.dev who ch 0x50 → canLive s.dev ch = true → mbNum who = some n →
    (canOf s.dev ch).mbOwner = 0 →
    Yields (.canMbAcq who ch) s (fun d => canOf d ch = { canOf s.dev ch with mbOwner := n } ∧ OnlyCan s.dev ch d)) ∧
  (∀ (s : State) (who : Initiator) (ch : Nat), MayWriteCan s.dev who ch 0x50 → canLive s.dev ch = true →
    mbNum who = some (canOf s.dev ch).mbOwner →
    Yields (.canMbRel who ch) s (fun d => canOf d ch = { canOf s.dev ch with mbOwner := 0 } ∧ OnlyCan s.dev ch d)) ∧
  (∀ (s : State) (who : Initiator) (ch : Nat), MayWriteCan s.dev who ch 0x54 → canLive s.dev ch = true →
    mbNum who ≠ some (canOf s.dev ch).mbOwner →
    Yields (.canMbGo who ch) s (fun d => canOf d ch = { canOf s.dev ch with mbRef := true, mbReason := 1 } ∧
      d.tally = (bump s.dev (canBase ch + 0x180) 0).tally ∧ d.lnd = s.dev.lnd ∧ d.regs = s.dev.regs)) ∧
  (∀ (s : State) (who : Initiator) (ch : Nat), MayWriteCan s.dev who ch 0x54 → canLive s.dev ch = true → mbRefuse s.dev who ch = 0 →
    Yields (.canMbGo who ch) s (fun d => (∃ x, (canOf d ch).xb2 = some x ∧ x.frame = mbFrame s.dev ch ∧ x.mbox = true ∧
      x.tag = (canOf s.dev ch).nextTag) ∧ (canOf d ch).mbRef = false ∧ (canOf d ch).mbTag = (canOf s.dev ch).nextTag ∧
      OnlyCan s.dev ch d))

/-- A received frame is checked, counted and handed on, and a pause frame pauses the port. At a port in LINK_UP a frame that
breaks a check is dropped and counted at its counter; a good frame outside the ACF path and MACsec that its crossing
takes becomes one lookup of its input with its bytes, its ingress code and the device time of its first bit; outside
LINK_UP it is counted as such and during a wake as received in the wake. A pause frame with RXEN and no cap pauses the port
for its quanta, which a step of device time does not move, and the pause ends when its time has run out. -/
def Obligations.EthernetReceptionChecksAndPauses : Prop :=
  (∀ (s : State) (p c : Nat) (f : Bytes) (e : Bool), waking s.dev = false → ethLive s.dev p = true → (ethOf s.dev p).st = 3 →
    ethReject s.dev p f e = some c →
    exec (.ethFrameReceived p (.whole f e)) s = .next (after s (bumpE (modEth s.dev p (fun x => { x with rxOn := false })) p c))) ∧
  (∀ (s : State) (p : Nat) (f : Bytes) (e : Bool), waking s.dev = false → ethLive s.dev p = true → (ethOf s.dev p).st = 3 →
    ethReject s.dev p f e = none → isMacCtl (f.take (f.length - 4)) = false → msEn s.dev p = false → s.dev.clk.ingress = true →
    ethTakes s.dev p f.length = true →
    (p < 8 → isAcf s.dev p (f.take (f.length - 4)) = false ∧ lkFill s.dev (ethInput p) < 256) →
    Yields (.ethFrameReceived p (.whole f e)) s (fun d =>
      (∃ it, mapGet [] d.rte.parse (ethInput p) = mapGet [] s.dev.rte.parse (ethInput p) ++ [it] ∧ it.pkt.data = f.take (f.length - 4) ∧
        it.pkt.ingress = ethIngress p ∧ it.pkt.stamp = nowNs s.dev - wireNs s.dev p f.length ∧ it.pkt.size = f.length) ∧
      ethOf d p = { ethOf s.dev p with rxOn := false } ∧ (∀ o, o ≠ p → ethOf d o = ethOf s.dev o) ∧ d.lnd = s.dev.lnd ∧ d.regs = s.dev.regs ∧ d.evs = s.dev.evs)) ∧
  (∀ (s : State) (p : Nat) (f : Bytes) (e : Bool), waking s.dev = false → ethLive s.dev p = true → (ethOf s.dev p).st ≠ 3 →
    exec (.ethFrameReceived p (.whole f e)) s = .next (after s (bumpE s.dev p 0x140))) ∧
  (∀ (s : State) (p : Nat) (f : Bytes) (e : Bool), waking s.dev = true → p ≤ 8 → ethInImage s.dev p = true →
    exec (.ethFrameReceived p (.whole f e)) s = .next (after s (bump s.dev 0x10028 0))) ∧
  (∀ (s : State) (p q : Nat), ethLive s.dev p = true → (ethOf s.dev p).st = 3 → flag s.dev (ethBase p + 0x14) 0 = false →
    exec (.ethPauseReceived p q) s = .next (after s (bumpE s.dev p 0x130))) ∧
  (∀ (s : State) (p q : Nat), ethLive s.dev p = true → (ethOf s.dev p).st = 3 → flag s.dev (ethBase p + 0x14) 0 = true →
    fld s.dev (ethBase p + 0x14) 16 16 = 0 → q < 65536 →
    Yields (.ethPauseReceived p q) s (fun d => ethOf d p = { ethOf s.dev p with
        paused := decide (0 < q), pauseEnd := runNs s.dev + ceilDiv (512000 * q) (macRate s.dev p) } ∧
      (∀ o, o ≠ p → ethOf d o = ethOf s.dev o) ∧ d.lnd = s.dev.lnd ∧ d.evs = s.dev.evs)) ∧
  (∀ (s : State) (p : Nat), (ethOf s.dev p).paused = true → (ethOf s.dev p).pauseEnd ≤ runNs s.dev →
    Yields (.ethPauseEnd p) s (fun d => ethOf d p = { ethOf s.dev p with paused := false } ∧ OnlyEth s.dev p d))

/-- The staging instant stages the first eligible class, and the start sends the staged frame. An idle port whose frame on the
wire leaves at most 524 byte times stages the copies of the highest class that its shaper and its gates let go, and fixes
their bytes; the start of a frame staged whole, within its gate and its credit, puts its bytes on the wire for the time of
the frame, its preamble and its gap; when its last bit has left, it is counted and is out with its FCS. Neither happens
while the port is paused or its output is frozen. -/
def Obligations.EthernetTransmissionStagesAndStarts : Prop :=
  (∀ (s : State) (p tc : Nat) (its : List LaneItem), p < 8 → ethLive s.dev p = true → (ethOf s.dev p).st = 3 →
    (ethOf s.dev p).paused = false → stagedItems s.dev p = [] → (ethOf s.dev p).cutFrame = none →
    outFrozen s.dev (6 + p / 2) = false → (ethOf s.dev p).wireEnd ≤ runNs s.dev + wireNs s.dev p 524 →
    [7, 6, 5, 4, 3, 2, 1, 0].findSome? (eligible s.dev p (nowNs s.dev + ((ethOf s.dev p).wireEnd - runNs s.dev))) = some (tc, its) →
    Yields (.ethStagingInstant p) s (fun d =>
      (laneOf d (ethLane p)).items = (laneOf s.dev (ethLane p)).items ++ its ∧ (ethOf d p).stClass = tc ∧
      (ethOf d p).stBytes = (if its.any (fun it => it.pkt.part) then none else some (frameOf s.dev p its)) ∧
      (∀ k, k ≠ ethLane p → laneOf d k = laneOf s.dev k) ∧ d.lnd.queues = s.dev.lnd.queues ∧ d.evs = s.dev.evs)) ∧
  (∀ (s : State) (p : Nat), p < 8 → ethLive s.dev p = true → (ethOf s.dev p).st = 3 →
    (ethOf s.dev p).paused = true ∨ outFrozen s.dev (6 + p / 2) = true →
    exec (.ethStagingInstant p) s = .next (after s s.dev) ∧ exec (.ethTxStart p) s = .next (after s s.dev)) ∧
  (∀ (s : State) (p : Nat), p < 8 → ethLive s.dev p = true → (ethOf s.dev p).st = 3 →
    (ethOf s.dev p).paused = false → outFrozen s.dev (6 + p / 2) = false → (ethOf s.dev p).cutFrame = none →
    (ethOf s.dev p).wireEnd ≤ runNs s.dev → msEn s.dev p = false →
    (ethOf s.dev p).prot = none → startReady s.dev (stagedItems s.dev p) = true →
    (∀ it ∈ stagedItems s.dev p, it.pkt.part = false) →
    shaperOk s.dev p (ethOf s.dev p).stClass = true →
    gateFits s.dev p (ethOf s.dev p).stClass (nowNs s.dev) (stagedLen s.dev p (stagedItems s.dev p)) = true →
    Yields (.ethTxStart p) s (fun d => (ethOf d p).wire = some (stagedFrame s.dev p (stagedItems s.dev p)) ∧
      (ethOf d p).wireStart = runNs s.dev ∧
      (ethOf d p).wireEnd = runNs s.dev + wireNs s.dev p (stagedLen s.dev p (stagedItems s.dev p) + 20) ∧
      (ethOf d p).prot = none ∧ (ethOf d p).stBytes = none)) ∧
  (∀ (d : Dev) (p : Nat) (f : Bytes), (ethOf d p).wire = some f → ethLoop d p = false → mapSorted d.tally = true →
    (ethOf d p).wireStart + wireNs d p (f.length + 12) ≤ runNs d →
    Output.eth p (f ++ fcsOf f) ∈ (txDone d p).out ∧ (ethOf (txDone d p) p).wire = none ∧
      tallyOf (txDone d p) (ethBase p + 0x150) 0 = min (tallyOf d (ethBase p + 0x150) 0 + 1) tallyMax ∧
      tallyOf (txDone d p) (ethBase p + 0x158) 0 = min (tallyOf d (ethBase p + 0x158) 0 + (f.length + 4)) tallyMax) ∧
  (∀ (d : Dev) (p : Nat) (f : Bytes), (ethOf d p).wire = some f →
    runNs d < (ethOf d p).wireStart + wireNs d p (f.length + 12) → txDone d p = d)

/-- Gate lists change at their time, credits return to zero, and a step moves device time. CFGCHG makes the administrative
list pending with its change time, after a list whose change time has come took effect; at that time it is operational and
reported; an entry advance takes the entry that device time gives; a class of a shaper whose credit has risen to zero while
frames wait may send, at the staging instant of its port, and keeps its credit; the high word of TBS_STEP makes a step
pending, with the low word that the initiator holds; at a microsecond boundary the step moves device time modulo 2^48
seconds; PPS_IN is stamped, and PPS_OUT rises with PPSEN. -/
def Obligations.GatesShapersAndDeviceTime : Prop :=
  (∀ (s : State) (who : Initiator) (p : Nat), p < 8 → MayWrite s.dev who (ethBase p + 0x40) → ethLive s.dev p = true →
    (ethOf s.dev p).pend = none ∨ nowNs s.dev < (ethOf s.dev p).cct →
    Yields (.gclCfgchg who p) s (fun d => ethOf d p = { ethOf s.dev p with
        pend := some (adminList s.dev p), cct := changeTime (adminList s.dev p) (nowNs s.dev) } ∧ OnlyEth s.dev p d)) ∧
  (∀ (s : State) (who : Initiator) (p : Nat) (l : GateList), p < 8 → MayWrite s.dev who (ethBase p + 0x40) → ethLive s.dev p = true →
    (ethOf s.dev p).pend = some l → (ethOf s.dev p).cct ≤ nowNs s.dev →
    Yields (.gclCfgchg who p) s (fun d => (ethOf d p).oper = some l ∧ (ethOf d p).pend = some (adminList s.dev p) ∧
      (ethOf d p).cct = changeTime (adminList s.dev p) (nowNs s.dev) ∧
      d.evs = s.dev.evs ++ [evNow s.dev 0x0805 0 (e1 p ++ e4 ((ethOf s.dev p).cct % 1000000000))])) ∧
  (∀ (s : State) (p : Nat) (l : GateList), (ethOf s.dev p).pend = some l → (ethOf s.dev p).cct ≤ nowNs s.dev → 2 ≤ s.dev.clk.mode.num →
    Yields (.gclChanged p) s (fun d => ethOf d p = { ethOf s.dev p with
        oper := some l, pend := none, entry := (listAt l (nowNs s.dev)).2.2 } ∧
      d.evs = s.dev.evs ++ [evNow s.dev 0x0805 0 (e1 p ++ e4 ((ethOf s.dev p).cct % 1000000000))] ∧
      (∀ q, q ≠ p → ethOf d q = ethOf s.dev q) ∧ d.lnd = s.dev.lnd)) ∧
  (∀ (s : State) (p : Nat), p < 8 → ethLive s.dev p = true →
    Yields (.gclEntryAdvance p) s (fun d => (ethOf d p).entry = (gatesAt (ethOf s.dev p) (nowNs s.dev)).2.2 ∧
      (ethOf d p).oper = (ethOf s.dev p).oper ∧ (∀ q, q ≠ p → ethOf d q = ethOf s.dev q) ∧ d.evs = s.dev.evs)) ∧
  (∀ (s : State) (p tc : Nat), p < 8 → ethLive s.dev p = true → hasShaper s.dev p tc = true → classSends s.dev p tc = false →
    queueOf s.dev (qEth p tc) ≠ [] → gateOpen s.dev p tc = true → 0 ≤ creditOf s.dev p tc →
    Yields (.shaperCreditZero p tc) s (fun d => creditOf d p tc = creditOf s.dev p tc ∧ (∀ q, q ≠ p → ethOf d q = ethOf s.dev q) ∧
      (∀ c its, [7, 6, 5, 4, 3, 2, 1, 0].findSome? (eligible s.dev p (nowNs s.dev + ((ethOf s.dev p).wireEnd - runNs s.dev))) =
          some (c, its) → (ethOf s.dev p).st = 3 → (ethOf s.dev p).paused = false → outFrozen s.dev (6 + p / 2) = false →
          stagedItems s.dev p = [] → (ethOf s.dev p).cutFrame = none →
          (ethOf s.dev p).wireEnd ≤ runNs s.dev + wireNs s.dev p 524 →
        (laneOf d (ethLane p)).items = (laneOf s.dev (ethLane p)).items ++ its) ∧
      d.lnd.queues = s.dev.lnd.queues ∧ d.evs = s.dev.evs)) ∧
  (∀ (s : State) (p tc : Nat), creditOf s.dev p tc < 0 → exec (.shaperCreditZero p tc) s = .next (after s s.dev)) ∧
  (∀ (s : State) (who : Initiator) (hi : Word), MayWrite s.dev who 0xC8001C →
    Yields (.timeStepWrite who hi) s (fun d =>
      d.clk = { s.dev.clk with step := some ((heldLow s.dev who 0xC80018).getD 0 + hi.toNat * 2 ^ 32) } ∧
      heldLow d who 0xC80018 = none ∧ d.evs = s.dev.evs ∧ d.eth = s.dev.eth ∧ d.regs = s.dev.regs)) ∧
  (∀ (s : State) (v : Nat), s.dev.clk.step = some v → nowNs s.dev % 1000 < 3 →
    Yields .timeStep s (fun d => d.clk.step = none ∧
      d.clk.dtime = (((s.dev.clk.dtime : Int) + signed64 v * 2 ^ 39) % (timeWrap : Int)).toNat ∧ d.clk.rtc = s.dev.clk.rtc ∧
      d.regs = s.dev.regs)) ∧
  (∀ s : State, s.dev.clk.step = none ∨ 3 ≤ nowNs s.dev % 1000 → exec .timeStep s = .next (after s s.dev)) ∧
  (∀ s : State, running s.dev = true →
    exec .ppsInEdge s = .next (after s { s.dev with clk := { s.dev.clk with ppsIn := nowNs s.dev } })) ∧
  (∀ s : State, running s.dev = true → flag s.dev 0xC80020 1 = true → s.dev.clk.pinsOn = true →
    exec .ppsOutPulse s = .next (after s { s.dev with
      clk := { s.dev.clk with ppsOut := true }
      out := if pinOff s.dev 6 then s.dev.out else .line 6 (true != pinInv s.dev 6) :: s.dev.out })) ∧
  (∀ s : State, flag s.dev 0xC80020 1 = false → exec .ppsOutPulse s = .next (after s s.dev))

/-- A link falls with its fault, debounces when it is good, and sleeps by TC10. A fault at a port in LINK_UP takes it down,
counted and reported with its reason and the frames lost; in DEBOUNCE it returns to DOWN; a port in PCS loop-back sees no
fault of its lane; a good link in DOWN debounces and is up, reported with its rate, after DEBOUNCE ms; ENABLE starts a disabled port and stops one; a TC10 sleep request is
noted and written to the PHY while network management runs, and the port enters SLEEP when the PHY's status shows it. -/
def Obligations.LinkStatesFollowTheirFaults : Prop :=
  (∀ (s : State) (p : Nat) (f : LinkFlt) (c : Instr), c = .linkDown p f ∨ c = .linkFault p f → ethLive s.dev p = true →
    (ethOf s.dev p).st = 3 → f ≠ .enableZero → ethLoop s.dev p = false ∨ laneFault f = false →
    Yields c s (fun d => (ethOf d p).st = 1 ∧ (ethOf d p).cutFrame = none ∧ (ethOf d p).headIn = false ∧
      ∃ l e, d.evs = l ++ [e] ∧ e.code = 0x0801 ∧ ∃ n, e.data = e1 p ++ e1 (linkReason s.dev p f) ++ eCount n)) ∧
  (∀ (s : State) (p : Nat) (c : Instr), c = .linkDown p .pcs ∨ c = .linkFault p .pcs → ethLive s.dev p = true →
    (ethOf s.dev p).st = 2 → ethLoop s.dev p = false →
    Yields c s (fun d => ethOf d p = { ethOf s.dev p with pcs := true, st := 1 } ∧ OnlyEth s.dev p d)) ∧
  (∀ (s : State) (p : Nat) (f : LinkFlt) (c : Instr), c = .linkDown p f ∨ c = .linkFault p f → ethLoop s.dev p = true →
    laneFault f = true → exec c s = .next (after s s.dev)) ∧
  (∀ (s : State) (p : Nat), ethLive s.dev p = true → (ethOf s.dev p).st = 1 →
    Yields (.linkGood p) s (fun d => ethOf d p = { ethOf s.dev p with
        pcs := false, lfault := false, rfault := false, inband := false, anmis := false, pll := false, st := 2,
        dbMs := debounceMs s.dev p, dbStart := s.dev.clk.tclk } ∧ OnlyEth s.dev p d)) ∧
  (∀ (s : State) (p : Nat), ethLive s.dev p = true → (ethOf s.dev p).st = 2 →
    (ethOf s.dev p).dbStart + 500000 * (ethOf s.dev p).dbMs ≤ s.dev.clk.tclk →
    Yields (.linkUp p) s (fun d => ethOf d p = { ethOf s.dev p with st := 3, sleepReq := false } ∧
      d.evs = s.dev.evs ++ [evNow s.dev 0x0802 0 (e1 p ++ e2 (macRate s.dev p))] ∧
      (∀ q, q ≠ p → ethOf d q = ethOf s.dev q) ∧ d.lnd = s.dev.lnd)) ∧
  (∀ (s : State) (who : Initiator) (p : Nat), p < 9 → MayWrite s.dev who (ethBase p) → ethLive s.dev p = true → (ethOf s.dev p).st = 0 →
    Yields (.ethEnableWrite who p true) s (fun d => ethOf d p = { ethOf s.dev p with st := 1 } ∧
      d.regs = (putFld s.dev (ethBase p) 0 1 1).regs ∧ (∀ q, q ≠ p → ethOf d q = ethOf s.dev q) ∧ d.lnd = s.dev.lnd ∧ d.evs = s.dev.evs)) ∧
  (∀ (s : State) (who : Initiator) (p : Nat), p < 9 → MayWrite s.dev who (ethBase p) → ethLive s.dev p = true → (ethOf s.dev p).st = 3 →
    Yields (.ethEnableWrite who p false) s (fun d => (ethOf d p).st = 0 ∧
      ∃ l e, d.evs = l ++ [e] ∧ e.code = 0x0801 ∧ ∃ n, e.data = e1 p ++ e1 4 ++ eCount n)) ∧
  (∀ (s : State) (p : Nat), p < 8 → svcUp s.dev 0 = true → ethLive s.dev p = true → flag s.dev (ethBase p + 0x20) 0 = true →
    Yields (.tc10SleepRequest p) s (fun d => ethOf d p = { ethOf s.dev p with sleepReq := true } ∧
      (∀ q, q ≠ p → ethOf d q = ethOf s.dev q) ∧ d.lnd = s.dev.lnd ∧ d.evs = s.dev.evs ∧
      Output.far (bits (reg s.dev (ethBase p + 0x20)) 1 1)
        (bits (reg s.dev (ethBase p + 0x20)) 2 10 * 65536 + bits (reg s.dev (ethBase p + 0x20)) 16 16) true
        (fld s.dev (ethBase p + 0x24) 0 16) ∈ d.out)) ∧
  (∀ (s : State) (p : Nat) (w : Word), p < 8 → ethLive s.dev p = true → (ethOf s.dev p).sleepReq = true → (ethOf s.dev p).st = 1 →
    bit w.toNat (fld s.dev (ethBase p + 0x28) 16 4) = true →
    Yields (.tc10Poll p w) s (fun d => ethOf d p = { ethOf s.dev p with st := 4 } ∧ OnlyEth s.dev p d))

/-- The parse stage and the lookup move frames in order, and a lookup ends in a decision. The first frame of a parse stage
whose type has an engine joins the lookup queue, and nothing moves while the classifier of its grove or the Route Engine
is frozen, nor in a slot of the route table that the client does not own. A lookup of an entry with VALID 0 is counted and goes nowhere; a lookup of a valid, open entry that forwards,
with no stream, policer, Mill copy or authentication, sends the copies that pass step 2 to admission under that entry,
which the frame keeps. An unblock opens its Qci stream and no other; a recovery stream through which nothing passed for
RESETMS is reset, counted and reported, and every other one is left alone. -/
def Obligations.ParsingAndLookupDecideFrames : Prop :=
  (∀ (s : State) (src : Nat) (pre : List LookItem) (it : LookItem) (rest : List LookItem), (src < 4 → frozen s.dev (2 + src) = false) →
    mapGet [] s.dev.rte.parse src = pre ++ it :: rest → (∀ x ∈ pre, hasEngine s.dev src x = false) → hasEngine s.dev src it = true →
    Yields (.parseComplete src) s (fun d => mapGet [] d.rte.parse src = pre ++ rest ∧
      mapGet [] d.rte.lookup src = mapGet [] s.dev.rte.lookup src ++ [it] ∧
      (∀ o, o ≠ src → mapGet [] d.rte.parse o = mapGet [] s.dev.rte.parse o ∧ mapGet [] d.rte.lookup o = mapGet [] s.dev.rte.lookup o) ∧
      d.lnd = s.dev.lnd ∧ d.evs = s.dev.evs ∧ d.regs = s.dev.regs)) ∧
  (∀ (s : State) (src : Nat), src < 4 → frozen s.dev (2 + src) = true → exec (.parseComplete src) s = .next (after s s.dev)) ∧
  (∀ (s : State) (client : Nat), frozen s.dev 1 = true ∨ slotOwned s.dev 2 (lookupOwner client) = false → exec (.routeLookup client) s = .next (after s s.dev)) ∧
  (∀ (s : State) (client ix : Nat) (it : LookItem) (rest : List LookItem), frozen s.dev 1 = false →
    slotOwned s.dev 2 (lookupOwner client) = true → arrivedWhole s.dev client it = true →
    mapGet [] s.dev.rte.lookup client = it :: rest → it.named = some ix → inSendWindow s.dev it.pkt.input ix = true →
    rtValid (routeEntry s.dev ix) = false → flag s.dev 0x580000 0 = false → mapSorted s.dev.tally = true →
    Yields (.routeLookup client) s (fun d => mapGet [] d.rte.lookup client = rest ∧ d.lnd = s.dev.lnd ∧
      tallyOf d 0x580308 (srcOf it.pkt.input) = min (tallyOf s.dev 0x580308 (srcOf it.pkt.input) + 1) tallyMax)) ∧
  (∀ (s : State) (client ix : Nat) (it : LookItem) (rest : List LookItem) (xs : List Dest), frozen s.dev 1 = false →
    slotOwned s.dev 2 (lookupOwner client) = true → arrivedWhole s.dev client it = true →
    mapGet [] s.dev.rte.lookup client = it :: rest → it.named = some ix → inSendWindow s.dev it.pkt.input ix = true →
    rtValid (routeEntry s.dev ix) = true → holdMode s.dev = false → pncOpen s.dev ix = true → rtVerdict (routeEntry s.dev ix) = 0 →
    rtMill (routeEntry s.dev ix) = false → rtAltXl (routeEntry s.dev ix) = false → rtPolEn (routeEntry s.dev ix) = false →
    rtAuth (routeEntry s.dev ix) = 0 → streamOf s.dev ix 0 = none → streamOf s.dev ix 1 = none → streamOf s.dev ix 2 = none →
    step2All s.dev (routeEntry s.dev ix) it.pkt (entryDests s.dev ix (routeEntry s.dev ix)) = (xs, [], []) → xs ≠ [] →
    Yields (.routeLookup client) s (fun d => mapGet [] d.rte.lookup client = rest ∧
      (∃ w, mapGet [] d.lnd.waiting it.pkt.input = mapGet [] s.dev.lnd.waiting it.pkt.input ++ [w] ∧ w.since = none ∧
        w.dests = xs ++ recCopies ix (routeEntry s.dev ix) 0 ∧ w.pkt.data = it.pkt.data ∧ w.pkt.route = ix ∧
        w.pkt.entry = routeEntry s.dev ix ∧ w.pkt.de = it.pkt.de) ∧
      d.lnd.frames = s.dev.lnd.frames ∧ d.lnd.queues = s.dev.lnd.queues ∧ d.regs = s.dev.regs)) ∧
  (∀ (s : State) (who : Initiator) (w : Word), MayWrite s.dev who 0x580040 → bit w.toNat 16 = true → mapSorted s.dev.rte.streams = true →
    Yields (.streamUnblock who w) s (fun d => strmOf d (bits w.toNat 0 12) = { strmOf s.dev (bits w.toNat 0 12) with blocked := false } ∧
      (∀ k, k ≠ bits w.toNat 0 12 → strmOf d k = strmOf s.dev k) ∧
      d.lnd = s.dev.lnd ∧ d.evs = s.dev.evs ∧ d.regs = s.dev.regs)) ∧
  (∀ (s : State) (who : Initiator) (w : Word), MayWrite s.dev who 0x580040 → bit w.toNat 16 = false →
    exec (.streamUnblock who w) s = .next (after s s.dev)) ∧
  (∀ (s : State) (idx : Nat) (r : Nat × Nat), (overlay s.dev 14 s.dev.img.stream).find? (fun r => stKind r.2 == 2 && bits r.2 0 12 == idx) = some r →
    (strmOf s.dev (4096 + idx)).recInit = true → (strmOf s.dev (4096 + idx)).recLast + 500000 * bits (stParam r.2) 6 16 ≤ s.dev.clk.tclk →
    2 ≤ s.dev.clk.mode.num → mapSorted s.dev.rte.streams = true →
    Yields (.cbRecoveryReset idx) s (fun d => strmOf d (4096 + idx) = { strmOf s.dev (4096 + idx) with
        recInit := false, recHist := 0, recHigh := 0, nReset := min ((strmOf s.dev (4096 + idx)).nReset + 1) tallyMax } ∧
      (∀ k, k ≠ 4096 + idx → strmOf d k = strmOf s.dev k) ∧ d.evs = s.dev.evs ++ [evNow s.dev 0x0808 0 (e1 0 ++ e2 idx)])) ∧
  (∀ (s : State) (idx : Nat), (strmOf s.dev (4096 + idx)).recInit = false → exec (.cbRecoveryReset idx) s = .next (after s s.dev))

/-- A decided frame is stored with its copies, waits at a host port, or is dropped. The next decided frame whose one copy
passes R249 is stored under the next egress commit sequence, owned by the queue that it joins at the tail; a copy that
fails at a grove input is dropped and the frame not stored; at HA, HB and SVC it waits; a retry admits it when its copy
passes, and at the end of WAITLIM it is decided and dropped if it still fails. -/
def Obligations.AdmissionStoresWaitsOrDrops : Prop :=
  (∀ (s : State) (input : Nat) (w : Decided) (x : Dest) (rest : List Decided), frozen s.dev 0 = false →
    mapGet [] s.dev.lnd.waiting input = w :: rest → w.since = none → w.pkt.part = false → w.pkt.seg = none → w.dests = [x] →
    fateOf s.dev w.pkt (admCells s.dev w.pkt) false x = .queue →
    Yields (.bufferAdmission input) s (fun d => mapGet [] d.lnd.waiting input = rest ∧
      queueOf d x.q = queueOf s.dev x.q ++ [(nextEcs s.dev 0, x)] ∧ nextEcs d 0 = (nextEcs s.dev 0 + 1) % 2 ^ 32 ∧
      (∀ q, q ≠ x.q → queueOf d q = queueOf s.dev q) ∧
      (∃ f, mapGet? d.lnd.frames (nextEcs s.dev 0) = some f ∧ f.pkt = { w.pkt with id := nextEcs s.dev 0 } ∧
        f.n = admCells s.dev w.pkt ∧ f.owner = x.q ∧ f.placed = [x.q] ∧ f.left = 1 ∧ f.open' = 1) ∧ d.regs = s.dev.regs)) ∧
  (∀ (s : State) (input : Nat) (w : Decided) (x : Dest) (rest : List Decided), frozen s.dev 0 = false → waits input = false →
    mapGet [] s.dev.lnd.waiting input = w :: rest → w.since = none → w.pkt.part = false → w.pkt.seg = none → w.dests = [x] →
    fateOf s.dev w.pkt (admCells s.dev w.pkt) false x = .full →
    Yields (.bufferAdmission input) s (fun d => mapGet [] d.lnd.waiting input = rest ∧ d.lnd.frames = s.dev.lnd.frames ∧
      d.lnd.queues = s.dev.lnd.queues ∧ nextEcs d 0 = nextEcs s.dev 0)) ∧
  (∀ (s : State) (input : Nat) (w : Decided) (x : Dest) (rest : List Decided), frozen s.dev 0 = false → waits input = true →
    mapGet [] s.dev.lnd.waiting input = w :: rest → w.since = none → w.pkt.part = false → w.pkt.seg = none → w.dests = [x] → isRec x.q = false →
    fateOf s.dev w.pkt (admCells s.dev w.pkt) false x = .full → mapSorted s.dev.tally = true →
    Yields (.bufferAdmission input) s (fun d => mapGet [] d.lnd.waiting input = ⟨w.pkt, [x], some s.dev.clk.tclk⟩ :: rest ∧
      d.lnd.frames = s.dev.lnd.frames ∧ d.lnd.queues = s.dev.lnd.queues ∧ d.evs = s.dev.evs ∧
      tallyOf d 0x500078 x.q = min (tallyOf s.dev 0x500078 x.q + 1) tallyMax)) ∧
  (∀ (s : State) (input : Nat) (w : Decided) (x : Dest) (t : Nat), frozen s.dev 0 = false → waits input = true →
    mapGet [] s.dev.lnd.waiting input = [w] → w.since = some t → w.pkt.seg = none → w.dests = [x] →
    fateOf s.dev w.pkt (admCells s.dev w.pkt) false x = .queue →
    Yields (.hostAdmissionRetry input) s (fun d => mapGet [] d.lnd.waiting input = [] ∧
      queueOf d x.q = queueOf s.dev x.q ++ [(nextEcs s.dev 0, x)] ∧ (∀ q, q ≠ x.q → queueOf d q = queueOf s.dev q))) ∧
  (∀ (s : State) (input : Nat), waits input = false → exec (.hostAdmissionRetry input) s = .next (after s s.dev)) ∧
  (∀ (s : State) (input : Nat) (w : Decided) (x : Dest) (rest : List Decided) (t : Nat), frozen s.dev 0 = false →
    mapGet [] s.dev.lnd.waiting input = w :: rest → w.since = some t → t + waitCycles s.dev ≤ s.dev.clk.tclk → w.pkt.seg = none → w.dests = [x] →
    fateOf s.dev w.pkt (admCells s.dev w.pkt) false x = .full →
    Yields (.waitlimExpire input) s (fun d => mapGet [] d.lnd.waiting input = rest ∧ d.lnd.frames = s.dev.lnd.frames ∧
      d.lnd.queues = s.dev.lnd.queues ∧ nextEcs d 0 = nextEcs s.dev 0))

/-- Cell times match at most 8 cells of an input, read slots take 4, and a flush empties its queue. A cell time counts itself,
leaves every queue and stored frame, and keeps the cells matched and unread of every input at 8 or fewer; a read slot that
its input owns takes the first four matched cells of it in match order; an uncorrectable cell is reported with its number;
a write of LND_QFLUSH takes out of its queue the copies admitted in an earlier cell time, leaves those of this one, and
reports the count; a frozen Landing does neither, and a slot of another owner reads nothing. -/
def Obligations.CellsMoveAndQueuesFlush : Prop :=
  (∀ s : State, frozen s.dev 0 = false → (∀ i, (mapGet [] s.dev.lnd.matched i).length ≤ 8) →
    Yields .cellTime s (fun d => d.lnd.cellTimes = s.dev.lnd.cellTimes + 1 ∧ (∀ i, (mapGet [] d.lnd.matched i).length ≤ 8) ∧
      d.lnd.queues = s.dev.lnd.queues ∧ d.lnd.frames = s.dev.lnd.frames ∧ d.lnd.waiting = s.dev.lnd.waiting ∧ d.evs = s.dev.evs ∧
      d.rte = s.dev.rte ∧ d.regs = s.dev.regs)) ∧
  (∀ (s : State) (input : Nat) (unc : List (Nat × Nat)), frozen s.dev 0 = true →
    exec .cellTime s = .next (after s s.dev) ∧ exec (.cellRead input unc) s = .next (after s s.dev)) ∧
  (∀ (s : State) (input : Nat) (unc : List (Nat × Nat)), slotOwned s.dev 1 input = false →
    exec (.cellRead input unc) s = .next (after s s.dev)) ∧
  (∀ (s : State) (input : Nat), frozen s.dev 0 = false → slotOwned s.dev 1 input = true →
    Yields (.cellRead input []) s (fun d => mapGet [] d.lnd.matched input = (mapGet [] s.dev.lnd.matched input).drop 4 ∧
      (∀ i, i ≠ input → mapGet [] d.lnd.matched i = mapGet [] s.dev.lnd.matched i) ∧ d.evs = s.dev.evs ∧
      d.lnd.waiting = s.dev.lnd.waiting ∧ d.regs = s.dev.regs)) ∧
  (∀ (s : State) (input cell : Nat) (c : MatchCell) (rest : List MatchCell), frozen s.dev 0 = false → slotOwned s.dev 1 input = true → 2 ≤ s.dev.clk.mode.num →
    mapGet [] s.dev.lnd.matched input = c :: rest →
    Yields (.cellRead input [(0, cell)]) s (fun d => ∃ l e, d.evs = s.dev.evs ++ l ∧ e ∈ l ∧ e.code = 0x0904 ∧
      ∃ n, e.data = e4 cell ++ eCount n)) ∧
  (∀ (s : State) (who : Initiator) (w : Word), MayWrite s.dev who 0x500028 → qExists (bits w.toNat 0 9) = true →
    mapSorted s.dev.lnd.queues = true →
    Yields (.queueFlush who w) s (fun d =>
      queueOf d (bits w.toNat 0 9) = (queueOf s.dev (bits w.toNat 0 9)).filter (fun c => !admittedBefore s.dev c) ∧
      (∀ q, q ≠ bits w.toNat 0 9 → queueOf d q = queueOf s.dev q) ∧ d.lnd.waiting = s.dev.lnd.waiting ∧
      ∃ l, d.evs = l ++ [evNow s.dev 0x0903 0 (e2 (bits w.toNat 0 9) ++
        eCount ((queueOf s.dev (bits w.toNat 0 9)).filter (admittedBefore s.dev)).length ++ e1 0)])) ∧
  (∀ (s : State) (who : Initiator) (w : Word), MayWrite s.dev who 0x500028 → qExists (bits w.toNat 0 9) = false →
    exec (.queueFlush who w) s = .next (after s s.dev))

/-- The diagnostic gateway opens, forwards, answers and closes. While its core pair serves: a routing activation opens one of
four tester connections, answers it and reports it; a diagnostic message to an address with no entry gets a negative
acknowledge; a physical request that fits is acknowledged, noted and cut into frames for its target's route entry, the
first of which goes at once and the rest after the target's flow control; a response goes back to its tester or is
discarded when the connection is gone; a timer of a transfer that has run out ends it and is reported, and one that has not
does nothing; a close ends the connection. While the pair does not serve, nothing happens. -/
def Obligations.DiagnosticGatewayAnswersTesters : Prop :=
  (∀ (s : State) (t a : Nat), diagServes s.dev = true → t < 4 →
    Yields (.diagRoutingActivation t a) s (fun d => mapGet? d.rte.testers t = some a ∧
      (∀ o, o ≠ t → mapGet? d.rte.testers o = mapGet? s.dev.rte.testers o) ∧
      Output.doip t (Config.doipMessage 0 a []) ∈ d.out ∧ d.lnd = s.dev.lnd ∧
      ∃ l, d.evs = s.dev.evs ++ evNow s.dev 0x0A04 0 (e1 t ++ e1 1) :: l)) ∧
  (∀ (s : State) (t a : Nat) (p : Bytes), diagServes s.dev = true → (mapGet? s.dev.rte.testers t).isSome = true → diagEntry s.dev a = none →
    Yields (.diagRequest t a p) s (fun d => Output.doip t (Config.doipMessage 2 a []) ∈ d.out ∧ d.rte = s.dev.rte ∧ d.lnd = s.dev.lnd ∧
      d.evs = s.dev.evs)) ∧
  (∀ (s : State) (t a i : Nat) (p : Bytes), diagServes s.dev = true → (mapGet? s.dev.rte.testers t).isSome = true →
    diagEntry s.dev a = some i → bit (diagWord s.dev i 0) 16 = false → p.length ≤ diagMax (diagFmt s.dev i) →
    s.dev.rte.diag.any (fun q => q.target == a) = false →
    Yields (.diagRequest t a p) s (fun d => Output.doip t (Config.doipMessage 1 a []) ∈ d.out ∧
      d.rte.diag = s.dev.rte.diag ++ [{
        target := a, tester := t, func := false, rest := (Config.isoTpFrames p (diagFmt s.dev i != .classical)).drop 1
        phase := if ((Config.isoTpFrames p (diagFmt s.dev i != .classical)).drop 1).isEmpty then 0 else 1
        t0 := s.dev.clk.tclk }] ∧ d.evs = s.dev.evs ∧ d.lnd = s.dev.lnd ∧
      (∃ l, mapGet [] d.rte.lookup 6 = mapGet [] s.dev.rte.lookup 6 ++ l ∧
        l.map (fun it => it.pkt.data) = (Config.isoTpFrames p (diagFmt s.dev i != .classical)).take 1 ∧
        ∀ it ∈ l, it.named = some (diagRoute s.dev i) ∧ it.pkt.ingress = 0x82))) ∧
  (∀ (s : State) (a : Nat) (p : Bytes) (q : DiagReq), diagServes s.dev = true →
    s.dev.rte.diag.find? (fun q => q.target == a) = some q → (mapGet? s.dev.rte.testers q.tester).isSome = true →
    Yields (.diagResponse a p) s (fun d => Output.doip q.tester (Config.doipMessage 3 a p) ∈ d.out ∧
      d.rte = { s.dev.rte with diag := s.dev.rte.diag.filter (fun q => q.target != a) } ∧ d.evs = s.dev.evs ∧ d.lnd = s.dev.lnd)) ∧
  (∀ (s : State) (a : Nat) (p : Bytes) (q : DiagReq), diagServes s.dev = true →
    s.dev.rte.diag.find? (fun q => q.target == a) = some q → mapGet? s.dev.rte.testers q.tester = none →
    Yields (.diagResponse a p) s (fun d => d.rte = { s.dev.rte with
        diag := s.dev.rte.diag.filter (fun q => q.target != a), diagDisc := s.dev.rte.diagDisc + 1 } ∧ d.evs = s.dev.evs)) ∧
  (∀ (s : State) (a : Nat) (ncr : Bool), s.dev.rte.diag.any (fun q => q.target == a && diagLate s.dev ncr q) = false →
    exec (.diagTimeout a ncr) s = .next (after s s.dev)) ∧
  (∀ (s : State) (a : Nat) (ncr : Bool), diagServes s.dev = true →
    s.dev.rte.diag.any (fun q => q.target == a && diagLate s.dev ncr q) = true →
    Yields (.diagTimeout a ncr) s (fun d => d.rte.diag = s.dev.rte.diag.filter (fun q => q.target != a) ∧
      d.evs = s.dev.evs ++ [evNow s.dev 0x0A05 0 (e2 a ++ eFlag ncr)] ∧ d.lnd = s.dev.lnd ∧ d.rte.testers = s.dev.rte.testers)) ∧
  (∀ (s : State) (t : Nat), diagServes s.dev = true → (mapGet? s.dev.rte.testers t).isSome = true → mapSorted s.dev.rte.testers = true →
    Yields (.diagConnectionClose t) s (fun d => mapGet? d.rte.testers t = none ∧
      (∀ o, o ≠ t → mapGet? d.rte.testers o = mapGet? s.dev.rte.testers o) ∧
      ∃ l, d.evs = s.dev.evs ++ evNow s.dev 0x0A04 0 (e1 t ++ e1 0) :: l)) ∧
  (∀ (s : State) (t a : Nat) (p : Bytes) (ncr : Bool), diagServes s.dev = false →
    exec (.diagRoutingActivation t a) s = .next (after s s.dev) ∧ exec (.diagRequest t a p) s = .next (after s s.dev) ∧
    exec (.diagResponse a p) s = .next (after s s.dev) ∧ exec (.diagTimeout a ncr) s = .next (after s s.dev) ∧
    exec (.diagConnectionClose t) s = .next (after s s.dev))

/-- A slice takes its PDU, a passed signal reaches its destination image, and lines move between cache and table. A slice
takes the first PDU handed to it, counts it and leaves the others, while its source PDU is in service; one signal without filter, update bit or extension, in
a cached line, is extracted, placed into the image of its destination and kept as its last value; a refill brings the line
of the good DRAM copy clean into the cache, or loses a line that is bad in both and says so; a write-back stores a waiting
line in both channels. -/
def Obligations.MillPassesSignalsThroughItsCache : Prop :=
  (∀ (s : State) (k : Nat) (it : LaneItem) (rest : List LaneItem), millRuns s.dev = true → k < 8 → s.dev.mil.split = false →
    slotHeld s.dev 3 (0x20 + k) = true → s.dev.mil.oos.contains (rtSrcPdu it.pkt.entry) = false →
    s.dev.mil.srcErr.contains (rtSrcPdu it.pkt.entry) = false →
    mapGet? s.dev.mil.slices (sliceKey false k) = none → (laneOf s.dev (144 + k)).items = it :: rest → it.sent = true →
    mapSorted s.dev.tally = true →
    Yields (.milSliceStart false ⟨k, []⟩) s (fun d => (laneOf d (144 + k)).items = rest ∧
      (∀ o, o ≠ 144 + k → laneOf d o = laneOf s.dev o) ∧ tallyOf d 0x600100 0 = min (tallyOf s.dev 0x600100 0 + 1) tallyMax ∧
      d.regs = s.dev.regs)) ∧
  (∀ (s : State) (k r rd : Nat) (it : LaneItem) (rest : List LaneItem) (x : Place), millRuns s.dev = true → k < 8 →
    slotHeld s.dev 3 (0x20 + k) = true → s.dev.mil.oos.contains (rtSrcPdu it.pkt.entry) = false →
    s.dev.mil.srcErr.contains (rtSrcPdu it.pkt.entry) = false → s.dev.mil.split = false → mapSorted s.dev.mil.slices = true → mapGet? s.dev.mil.slices (sliceKey false k) = none →
    (laneOf s.dev (144 + k)).items = it :: rest → it.sent = true → rtAuth it.pkt.entry = 0 →
    srcRec s.dev (rtSrcPdu it.pkt.entry) = some r → srcCount r = 1 →
    (mapGet? s.dev.mil.cache (srcFirst r / 2)).isSome = true → lineLost s.dev (srcFirst r / 2) = false →
    sgValid (entryNow s.dev (srcFirst r)) = true → sgUbEn (entryNow s.dev (srcFirst r)) = false →
    sgFilt (entryNow s.dev (srcFirst r)) = 0 → sgExt (entryNow s.dev (srcFirst r)) = 0 →
    pathFits (bitPath (sgBe (entryNow s.dev (srcFirst r))) (sgStart (entryNow s.dev (srcFirst r)))
      (sgLen (entryNow s.dev (srcFirst r)))) it.pkt.data.length = true →
    ownPlaces (entryNow s.dev (srcFirst r)) = [x] → mapGet? s.dev.mil.desc x.pdu = some rd → (dstOf s.dev x.pdu).oos = false →
    pathFits (bitPath x.be x.pos (sgLen (entryNow s.dev (srcFirst r)))) (dsLen rd) = true →
    Yields (.milSliceStart false ⟨k, []⟩) s (fun d =>
      mapGet [] d.mil.image x.pdu = inject (mapGet [] s.dev.mil.image x.pdu)
        (bitPath x.be x.pos (sgLen (entryNow s.dev (srcFirst r))))
        (widen (sgSigned (entryNow s.dev (srcFirst r))) (sgLen (entryNow s.dev (srcFirst r)))
          (extract it.pkt.data (bitPath (sgBe (entryNow s.dev (srcFirst r))) (sgStart (entryNow s.dev (srcFirst r)))
            (sgLen (entryNow s.dev (srcFirst r)))))) ∧
      (∀ p, p ≠ x.pdu → mapGet [] d.mil.image p = mapGet [] s.dev.mil.image p) ∧
      mapGet? d.mil.slices (sliceKey false k) = none ∧ d.lnd.queues = s.dev.lnd.queues)) ∧
  (∀ (s : State) (l : Nat), millOn s.dev = true → s.dev.mil.refills.contains l = true → mapGet? s.dev.mil.wback l = none →
    s.dev.mil.slices = [] → (setLines s.dev l).length < 4 - pinnedWays s.dev l →
    Yields (.cacheRefill ⟨l, 0, []⟩ false false) s (fun d => (∃ c, mapGet? d.mil.cache l = some c ∧ (c.e0, c.e1) = tabLine s.dev l l ∧
        c.dirty = false) ∧ (∀ o, o ≠ l → mapGet? d.mil.cache o = mapGet? s.dev.mil.cache o) ∧
      d.mil.refills = s.dev.mil.refills.filter (fun x => x != l) ∧ d.mil.image = s.dev.mil.image ∧ d.evs = s.dev.evs)) ∧
  (∀ (s : State) (l : Nat), millOn s.dev = true → s.dev.mil.refills.contains l = true → mapGet? s.dev.mil.wback l = none →
    s.dev.mil.slices = [] →
    Yields (.cacheRefill ⟨l, 0, []⟩ true true) s (fun d => d.mil.lost = s.dev.mil.lost ++ [l] ∧ d.mil.cache = s.dev.mil.cache ∧
      d.evs = s.dev.evs ++ [evNow s.dev 0x0B03 0 (e4 (2 * l))])) ∧
  (∀ (s : State) (l n : Nat) (a b : Bool) (c : List Nat), s.dev.mil.refills.contains l = false →
    exec (.cacheRefill ⟨l, n, c⟩ a b) s = .next (after s s.dev)) ∧
  (∀ (s : State) (l : Nat) (c : CacheLine), millOn s.dev = true → mapGet? s.dev.mil.wback l = some c → mapSorted s.dev.mil.wback = true →
    Yields (.cacheWriteback l) s (fun d => tabLine d 0 l = (c.e0, c.e1) ∧ tabLine d 1 l = (c.e0, c.e1) ∧
      (∀ ch o, o ≠ l → tabLine d ch o = tabLine s.dev ch o) ∧ mapGet? d.mil.wback l = none ∧ d.mil.cache = s.dev.mil.cache ∧
      d.evs = s.dev.evs))

/-- Deadlines expire at the sweep, ticks make periodic PDUs due, and a snapshot sends the image. A sweep before its period
changes nothing; a due sweep starts the episode of a source PDU in service whose deadline has passed (modulo 2^32 ms: the
model's reading, log entry 158), and reports it when asked; an error that stands in a source record takes it out of service
with a report, and starts no episode. An emission tick that has not come changes nothing; at its tick
a periodic destination PDU falls due. A snapshot of the oldest due PDU of its emitter sends the image to its route entry
under the Mill's next egress commit sequence; it waits while the arrival reserve of MIL is full, and while split a copy
whose CRC-16 fails is dropped in its place. -/
def Obligations.MillDeadlinesAndEmissions : Prop :=
  (∀ s : State, s.dev.clk.tclk - s.dev.mil.sweepAt < usCycles (max 1 (fld s.dev 0x600010 0 14)) →
    exec .timeoutSweep s = .next (after s s.dev)) ∧
  (∀ (s : State) (src t r : Nat), millRuns s.dev = true →
    usCycles (max 1 (fld s.dev 0x600010 0 14)) ≤ s.dev.clk.tclk - s.dev.mil.sweepAt → s.dev.mil.deadline = [(src, t)] →
    srcRec s.dev src = some r → src < fld s.dev 0x600014 0 17 → srcToEn r = true → srcToEvt r = true → flag s.dev 0x600008 0 = true →
    s.dev.mil.expired.contains src = false → s.dev.mil.oos.contains src = false → s.dev.mil.srcErr.contains src = false →
    deadlinePassed s.dev t = true →
    Yields .timeoutSweep s (fun d => d.mil.sweepAt = s.dev.clk.tclk ∧ d.mil.expired = s.dev.mil.expired ++ [src] ∧
      (∃ l, d.evs = l ++ [evNow s.dev 0x0B02 0 (e2 src)]) ∧ d.lnd = s.dev.lnd ∧ d.regs = s.dev.regs)) ∧
  (∀ (s : State) (src t r : Nat), millRuns s.dev = true →
    usCycles (max 1 (fld s.dev 0x600010 0 14)) ≤ s.dev.clk.tclk - s.dev.mil.sweepAt → s.dev.mil.deadline = [(src, t)] →
    srcRec s.dev src = some r → src < fld s.dev 0x600014 0 17 → s.dev.mil.oos.contains src = false → s.dev.mil.srcErr = [src] →
    Yields .timeoutSweep s (fun d => d.mil.sweepAt = s.dev.clk.tclk ∧ d.mil.oos = s.dev.mil.oos ++ [src] ∧
      d.mil.expired = s.dev.mil.expired ∧ d.evs = s.dev.evs ++ [evNow s.dev 0x0B08 0 (e1 0 ++ e2 src)] ∧ d.regs = s.dev.regs)) ∧
  (∀ s : State, milTicks s.dev < s.dev.mil.ticks + 1 → exec .emissionTick s = .next (after s s.dev)) ∧
  (∀ (s : State) (p r : Nat), millRuns s.dev = true → s.dev.mil.ticks + 1 ≤ milTicks s.dev → s.dev.mil.desc = [(p, r)] →
    (dstOf s.dev p).start.isSome = true → (dstOf s.dev p).oos = false → s.dev.mil.due.contains p = false →
    dueAt r (dstOf s.dev p) (s.dev.mil.ticks + 1) = (true, false, false) →
    Yields .emissionTick s (fun d => d.mil.ticks = s.dev.mil.ticks + 1 ∧ d.mil.due = s.dev.mil.due ++ [p] ∧
      (dstOf d p).last = some (s.dev.mil.ticks + 1) ∧ (dstOf d p).trig = none ∧
      (∀ q, q ≠ p → dstOf d q = dstOf s.dev q) ∧ d.mil.image = s.dev.mil.image ∧ d.evs = s.dev.evs)) ∧
  (∀ (s : State) (p r : Nat), millRuns s.dev = true → mapGet? s.dev.mil.desc p = some r →
    s.dev.mil.due.find? (fun q => match mapGet? s.dev.mil.desc q with | some t => emitterOf s.dev t == emitterOf s.dev r | none => false) =
      some p → (dstOf s.dev p).oos = false → (dsForm r = 4 → dsL4 r = false) → arrivalFull s.dev 9 = false →
    Yields (.emissionSnapshot ⟨p, false⟩) s (fun d => d.mil.due = s.dev.mil.due.filter (fun q => q != p) ∧
      nextEcs d 10 = (nextEcs s.dev 10 + 1) % 2 ^ 32 ∧ d.mil.image = s.dev.mil.image ∧ d.evs = s.dev.evs ∧
      (∃ it, mapGet [] d.rte.lookup 9 = mapGet [] s.dev.rte.lookup 9 ++ [it] ∧ it.named = some (dsRoute r) ∧
        it.pkt.data = mapGet [] s.dev.mil.image p ∧ it.pkt.ingress = 0x90 + dsSlice r ∧ it.pkt.stamp = nowNs s.dev))) ∧
  (∀ (s : State) (p r : Nat), millRuns s.dev = true → s.dev.mil.split = true → mapGet? s.dev.mil.desc p = some r →
    s.dev.mil.due.find? (fun q => match mapGet? s.dev.mil.desc q with | some t => emitterOf s.dev t == emitterOf s.dev r | none => false) =
      some p → (dstOf s.dev p).oos = false → arrivalFull s.dev 9 = false →
    Yields (.emissionSnapshot ⟨p, true⟩) s (fun d => d.mil.due = s.dev.mil.due.filter (fun q => q != p) ∧
      nextEcs d 10 = (nextEcs s.dev 10 + 1) % 2 ^ 32 ∧ d.rte = s.dev.rte ∧ d.lnd = s.dev.lnd)) ∧
  (∀ (s : State) (p : Nat) (c : Bool), arrivalFull s.dev 9 = true → exec (.emissionSnapshot ⟨p, c⟩) s = .next (after s s.dev)) ∧
  (∀ (s : State) (p : Nat) (c : Bool), holdMode s.dev = true → exec .timeoutSweep s = .next (after s s.dev) ∧
    exec .emissionTick s = .next (after s s.dev) ∧ exec (.emissionSnapshot ⟨p, c⟩) s = .next (after s s.dev))

/-- Signal blocks and PDU images load when their digests match, and fail after four bad reads. A block out of turn has no
effect; four bad reads of a block fail it and are reported, and fewer decide nothing; the last block, read well, becomes
active, and SIGNALS_ACTIVE closes the load with the count of losses before; PDUIMG read badly four times fails as a whole,
and read well it is on. -/
def Obligations.SlowPartOfTheImageLoadsInOrder : Prop :=
  (∀ (s : State) (b : Nat) (reads : List Bytes), b ≠ nextBlock s.dev → exec (.signalBlockLoad b reads) s = .next (after s s.dev)) ∧
  (∀ (s : State) (b : Nat) (reads : List Bytes), millOn s.dev = true → s.dev.img.pduOn = true → b = nextBlock s.dev →
    b < s.dev.img.blockDig.length → 4 ≤ reads.length →
    (∀ x ∈ reads.take 4, (x.length == blockLen s.dev b && sha384 x == nth [] s.dev.img.blockDig b) = false) →
    Yields (.signalBlockLoad b reads) s (fun d => d.img.failed = s.dev.img.failed ++ [b] ∧ d.img.active = s.dev.img.active ∧
      d.evs = s.dev.evs ++ [evNow s.dev 0x0503 0 (e2 b)] ∧ d.mil = s.dev.mil)) ∧
  (∀ (s : State) (b : Nat) (reads : List Bytes), reads.length < 4 →
    (∀ x ∈ reads, (x.length == blockLen s.dev b && sha384 x == nth [] s.dev.img.blockDig b) = false) →
    exec (.signalBlockLoad b reads) s = .next (after s s.dev)) ∧
  (∀ (s : State) (b : Nat) (x : Bytes) (rest : List Bytes), millOn s.dev = true → s.dev.img.pduOn = true → b = nextBlock s.dev →
    b + 1 = s.dev.img.blockDig.length → x.length = blockLen s.dev b → sha384 x = nth [] s.dev.img.blockDig b →
    Yields (.signalBlockLoad b (x :: rest)) s (fun d => d.img.active = s.dev.img.active ++ [b] ∧ d.img.failed = s.dev.img.failed ∧
      d.img.sigEvent = true ∧ (∃ l, d.evs = l ++ [evNow s.dev 0x0502 0 (eCount s.dev.img.preLost)]) ∧ d.lnd = s.dev.lnd)) ∧
  (∀ (s : State) (reads : List Bytes), millOn s.dev = true → s.dev.img.pduOn = false → s.dev.mil.pduBad = false → s.dev.img.pduLen ≠ 0 →
    4 ≤ reads.length → (∀ x ∈ reads.take 4, (x.length == s.dev.img.pduLen && sha384 x == s.dev.img.pduDig) = false) →
    Yields (.pduimgLoad reads) s (fun d => d.mil = { s.dev.mil with pduBad := true } ∧ d.img = s.dev.img ∧
      d.evs = s.dev.evs ++ [evNow s.dev 0x0B05 0 []])) ∧
  (∀ (s : State) (x : Bytes) (rest : List Bytes), millOn s.dev = true → s.dev.img.pduOn = false → s.dev.mil.pduBad = false →
    x.length = s.dev.img.pduLen → s.dev.img.pduLen ≠ 0 → sha384 x = s.dev.img.pduDig →
    Yields (.pduimgLoad (x :: rest)) s (fun d => d.img.pduOn = true ∧ d.mil.pduBad = false ∧ d.lnd = s.dev.lnd ∧ d.regs = s.dev.regs))

/-- A selection clears READY, and the copy sets it with the item selected. A write of RTE_TWSEL, MIL_WSEL or CRY_WSEL stores
the selection, clears READY of its own window and touches nothing else; the copy that follows sets READY with the item
that the selection names as it stands at the copy. -/
def Obligations.TableWindowsShowTheirSelection : Prop :=
  (∀ (s : State) (who : Initiator) (w : Word), MayWrite s.dev who 0x580050 → mapSorted s.dev.regs = true →
    Yields (.tableWindowSelect who w) s (fun d => reg d 0x580050 = w.toNat &&& 0x1FFFF7 ∧ d.rte = { s.dev.rte with twReady := false } ∧
      (∀ o, o ≠ 0x580050 → reg d o = reg s.dev o) ∧ d.lnd = s.dev.lnd ∧ d.evs = s.dev.evs)) ∧
  (∀ s : State, Yields .rteWindowCopy s (fun d => d.rte = { s.dev.rte with
        twReady := true, twData := rteItem s.dev (fld s.dev 0x580050 0 3) (fld s.dev 0x580050 4 17) } ∧
      d.rte.twData.length = 24 ∧ d.regs = s.dev.regs ∧ d.lnd = s.dev.lnd ∧ d.evs = s.dev.evs)) ∧
  (∀ (s : State) (who : Initiator) (w : Word), MayWrite s.dev who 0x600020 → mapSorted s.dev.regs = true →
    Yields (.milTableWindow who w) s (fun d => reg d 0x600020 = w.toNat &&& 0x3FFFFFFF ∧ d.mil = { s.dev.mil with wReady := false } ∧
      (∀ o, o ≠ 0x600020 → reg d o = reg s.dev o) ∧ d.evs = s.dev.evs)) ∧
  (∀ s : State, running s.dev = true → bit s.dev.clk.islands 6 = true →
    Yields .milWindowCopy s (fun d => d.mil = { s.dev.mil with wReady := true, wData := milItem s.dev (reg s.dev 0x600020) } ∧
      d.mil.wData.length = 16 ∧ d.regs = s.dev.regs ∧ d.evs = s.dev.evs)) ∧
  (∀ (s : State) (who : Initiator) (w : Word), MayWrite s.dev who 0x780040 → mapSorted s.dev.regs = true →
    Yields (.cryTableWindow who w) s (fun d => reg d 0x780040 = w.toNat &&& 0x7FFF ∧ d.cry = { s.dev.cry with wReady := false } ∧
      (∀ o, o ≠ 0x780040 → reg d o = reg s.dev o) ∧ d.evs = s.dev.evs)) ∧
  (∀ s : State, cryOn s.dev = true →
    Yields .cryWindowCopy s (fun d => d.cry = { s.dev.cry with wReady := true, wData := cryItem s.dev (reg s.dev 0x780040) } ∧
      d.cry.wData.length = 16 ∧ d.regs = s.dev.regs ∧ d.evs = s.dev.evs)) ∧
  (∀ s : State, bit s.dev.clk.islands 6 = false → exec .milWindowCopy s = .next (after s s.dev)) ∧
  (∀ s : State, cryOn s.dev = false → exec .cryWindowCopy s = .next (after s s.dev))

/-- Jobs are submitted at TAIL, aborted at a boundary and completed at HEAD. A write of TAIL that does not pass HEAD moves
TAIL alone, and one that would pass it has no effect; an abort marks every submitted job; a block boundary ends a job in
hand that an abort marks, with ABORT, and its sequencer, while it holds a slot, turns to the next page that has a job; a job whose steps are done
completes OK: its status word is written, HEAD advances and the page waits for the next one; an engine fault is reported
and changes no page. -/
def Obligations.PagesTakeJobsAndCompleteThem : Prop :=
  (∀ (s : State) (who : Initiator) (p : Nat) (w : Word), p < 128 → MayWrite s.dev who (0x700000 + 0x1000 * p + 8) →
    bit s.dev.clk.islands 7 = true →
    ((pageOf s.dev p).tail + 32 - (pageOf s.dev p).head) % 32 ≤ (bits w.toNat 8 5 + 32 - (pageOf s.dev p).head) % 32 →
    Yields (.jobSubmit who p w) s (fun d => ∃ js, OnlyPage s.dev p { pageOf s.dev p with tail := bits w.toNat 8 5, jstat := js } d)) ∧
  (∀ (s : State) (who : Initiator) (p : Nat) (w : Word), p < 128 → MayWrite s.dev who (0x700000 + 0x1000 * p + 8) →
    (bits w.toNat 8 5 + 32 - (pageOf s.dev p).head) % 32 < ((pageOf s.dev p).tail + 32 - (pageOf s.dev p).head) % 32 →
    exec (.jobSubmit who p w) s = .next (after s s.dev)) ∧
  (∀ (s : State) (who : Initiator) (p : Nat), p < 128 → MayWrite s.dev who (0x700000 + 0x1000 * p) → bit s.dev.clk.islands 7 = true →
    Yields (.pageAbort who p) s (OnlyPage s.dev p { pageOf s.dev p with
        aborts := ((pageOf s.dev p).tail + 32 - (pageOf s.dev p).head) % 32 })) ∧
  (∀ (s : State) (q p : Nat) (j : Job), cryOn s.dev = true → q < 16 → frozen s.dev (sqTwin q) = false →
    slotHeld s.dev 4 (0x30 + q) = true → mapGet? s.dev.cry.cur q = some p →
    sqOf s.dev p = q → (pageOf s.dev p).job = some j → j.ends = none → j.done < jobSteps j → 0 < (pageOf s.dev p).aborts →
    Yields (.blockBoundary q) s (fun d => (pageOf d p).job = some { j with ends := some 7 } ∧
      mapGet? d.cry.cur q = nextPage s.dev q p ∧ d.regs = s.dev.regs ∧ d.lnd = s.dev.lnd)) ∧
  (∀ (s : State) (p : Nat) (j : Job), cryOn s.dev = true → p < 160 → frozen s.dev (sqTwin (sqOf s.dev p)) = false →
    (pageOf s.dev p).head ≠ (pageOf s.dev p).tail → (pageOf s.dev p).job = some j → j.ends = none → jobSteps j ≤ j.done →
    Yields (.jobComplete p) s (fun d => (pageOf d p).job = none ∧ (pageOf d p).head = ((pageOf s.dev p).head + 1) % 32 ∧
      (pageOf d p).tail = (pageOf s.dev p).tail ∧ (pageOf d p).out = (pageOf s.dev p).out ∧
      mapGet? (pageOf d p).jstat (pageOf s.dev p).head = some (BitVec.ofNat 32 (jobBlocks (some j) * 16 + 2 ^ 31)) ∧
      (∀ o, o ≠ p → pageOf d o = pageOf s.dev o) ∧ d.regs = s.dev.regs ∧ d.lnd = s.dev.lnd)) ∧
  (∀ (s : State) (e q : Nat), cryOn s.dev = true → e < 8 → q < 16 →
    Yields (.cryEngineFault e q) s (fun d => d.evs = s.dev.evs ++ [evNow s.dev 0x0C02 2 (e1 e ++ e1 q)] ∧ d.cry = s.dev.cry ∧
      d.flt.worst = max s.dev.flt.worst 2 ∧ d.lnd = s.dev.lnd)) ∧
  (∀ (s : State) (p q e : Nat), cryOn s.dev = false → exec (.jobComplete p) s = .next (after s s.dev) ∧
    exec (.blockBoundary q) s = .next (after s s.dev) ∧ exec (.cryEngineFault e q) s = .next (after s s.dev))

/-- A block operation takes its next block, and n + 1 blocks are one block and then n. For a job in hand that runs: ENC and
DEC write the cipher of the next input block at its place, GMUL its product with the IV field, CTRX its XOR with the next
keystream block, while GACC and MACC fold it into ACC; the job counts the block and nothing but its page changes. A run of
n + 1 blocks is a run of one block followed by a run of n. -/
def Obligations.BlockOperationsRunOneBlockAtATime : Prop :=
  (∀ (s : State) (p : Nat) (j : Job), JobRuns s.dev p j → j.op = 1 → Yields (.enc p 1) s (OnlyPage s.dev p
    { putOut (pageOf s.dev p) (outAt j) (aesEnc j.mat (inBlock (pageOf s.dev p) j)) false with job := some { j with done := j.done + 1 } })) ∧
  (∀ (s : State) (p : Nat) (j : Job), JobRuns s.dev p j → j.op = 2 → Yields (.dec p 1) s (OnlyPage s.dev p
    { putOut (pageOf s.dev p) (outAt j) (aesDec j.mat (inBlock (pageOf s.dev p) j)) false with job := some { j with done := j.done + 1 } })) ∧
  (∀ (s : State) (p : Nat) (j : Job), JobRuns s.dev p j → j.op = 3 → Yields (.gmul p 1) s (OnlyPage s.dev p
    { putOut (pageOf s.dev p) (outAt j) (gcmMul (inBlock (pageOf s.dev p) j) j.iv) false with job := some { j with done := j.done + 1 } })) ∧
  (∀ (s : State) (p : Nat) (j : Job), JobRuns s.dev p j → j.op = 4 → Yields (.ctrx p 1) s (OnlyPage s.dev p
    { putOut (pageOf s.dev p) (outAt j) (xorBytes (inBlock (pageOf s.dev p) j) (aesEnc j.mat j.ctr)) j.hold with
        job := some { j with ctr := inc32 j.ctr, done := j.done + 1 } })) ∧
  (∀ (s : State) (p : Nat) (j : Job), JobRuns s.dev p j → j.op = 6 → Yields (.gacc p 1) s (OnlyPage s.dev p
    { pageOf s.dev p with
        acc := ghashStep (pageOf s.dev p).h (pageOf s.dev p).acc (inBlock (pageOf s.dev p) j),
        job := some { j with done := j.done + 1 } })) ∧
  (∀ (s : State) (p : Nat) (j : Job), JobRuns s.dev p j → j.op = 9 → Yields (.macc p 1) s (OnlyPage s.dev p
    { pageOf s.dev p with
        acc := aesEnc j.mat (xorBytes (fit 16 (pageOf s.dev p).acc) (inBlock (pageOf s.dev p) j)),
        job := some { j with done := j.done + 1 } })) ∧
  (∀ (s t : State) (p n : Nat) (j : Job) (c : Nat → Instr),
    c = Instr.enc p ∨ c = Instr.dec p ∨ c = Instr.gmul p ∨ c = Instr.ctrx p ∨ c = Instr.gacc p ∨ c = Instr.macc p →
    JobRuns s.dev p j → s.dev.cry.served.contains (sqOf s.dev p) = false → exec (c 1) s = .next t → exec (c (n + 1)) s = exec (c n) t)

/-- HINIT and SUBKEY set up a page, GFINAL and MFINAL give a tag out or compare it. For a job in hand that runs: HINIT sets H
to the cipher of the zero block, SUBKEY sets K1 and K2, both clear ACC and zero held output; GFINAL and MFINAL write the
leading bytes of the tag at OUTOFF, or with VERIFY change no output and end the job with TAGFAIL when they differ from the
tag in the input area. -/
def Obligations.SubkeyAndTagOperations : Prop :=
  (∀ (s : State) (p : Nat) (j : Job), JobRuns s.dev p j → j.op = 5 → Yields (.hinit p) s (OnlyPage s.dev p
    { zeroHeld (pageOf s.dev p) with
        h := aesEnc j.mat (zeros 16), acc := zeros 16, job := some { j with done := 1 } })) ∧
  (∀ (s : State) (p : Nat) (j : Job), JobRuns s.dev p j → j.op = 8 → Yields (.subkey p) s (OnlyPage s.dev p
    { zeroHeld (pageOf s.dev p) with
        k1 := cmacDbl (aesEnc j.mat (zeros 16)), k2 := cmacDbl (cmacDbl (aesEnc j.mat (zeros 16))), acc := zeros 16,
        job := some { j with done := 1 } })) ∧
  (∀ (s : State) (p : Nat) (j : Job), JobRuns s.dev p j → j.op = 7 → j.verify = false → Yields (.gfinal p) s (OnlyPage s.dev p
    { putOut (pageOf s.dev p) j.outoff ((xorBytes (aesEnc j.mat j.iv) (ghashStep (pageOf s.dev p).h (pageOf s.dev p).acc
        (inBytes (pageOf s.dev p) j.inoff 16))).take j.tlen) false with job := some { j with done := 1 } })) ∧
  (∀ (s : State) (p : Nat) (j : Job), JobRuns s.dev p j → j.op = 7 → j.verify = true → Yields (.gfinal p) s (OnlyPage s.dev p
    { pageOf s.dev p with
        job := some { j with
          done := 1,
          ends := if (xorBytes (aesEnc j.mat j.iv) (ghashStep (pageOf s.dev p).h (pageOf s.dev p).acc
            (inBytes (pageOf s.dev p) j.inoff 16))).take j.tlen = inBytes (pageOf s.dev p) (j.inoff + 16) j.tlen then none else some 1 } })) ∧
  (∀ (s : State) (p : Nat) (j : Job), JobRuns s.dev p j → j.op = 10 → j.verify = false → Yields (.mfinal p) s (OnlyPage s.dev p
    { putOut (pageOf s.dev p) j.outoff ((aesEnc j.mat (xorBytes (fit 16 (pageOf s.dev p).acc)
        (cmacLast (pageOf s.dev p).k1 (pageOf s.dev p).k2 (inBytes (pageOf s.dev p) j.inoff j.len)))).take j.tlen) false with
        job := some { j with done := 1 } })) ∧
  (∀ (s : State) (p : Nat) (j : Job), JobRuns s.dev p j → j.op = 10 → j.verify = true → Yields (.mfinal p) s (OnlyPage s.dev p
    { pageOf s.dev p with
        job := some { j with
          done := 1,
          ends := if (aesEnc j.mat (xorBytes (fit 16 (pageOf s.dev p).acc) (cmacLast (pageOf s.dev p).k1 (pageOf s.dev p).k2
            (inBytes (pageOf s.dev p) j.inoff (j.len - j.tlen))))).take j.tlen =
              inBytes (pageOf s.dev p) (j.inoff + (j.len - j.tlen)) j.tlen then none else some 1 } }))

/-- The whole modes write their text and tag, and show no plaintext of a frame that fails. With the mode programs loaded, for
a job in hand that runs: CTR, CBC_ENC and CBC_DEC write their text, CMAC_GEN its tag, GCM_SEAL both; CMAC_VER and GCM_OPEN
end the job with TAGFAIL where the tag differs, and then no byte of the page's output changes. Where the mode programs
place their parameters and results is a free value (log entry 9). Without the programs nothing happens. -/
def Obligations.WholeModesRunInOneStep : Prop :=
  (∀ (s : State) (p : Nat) (j : Job), JobRuns s.dev p j → s.dev.cry.progs = true → j.op = 16 → Yields (.ctr p) s (OnlyPage s.dev p
    { modeOut (pageOf s.dev p) j (ctrRun j.mat (fit 16 (modePar (pageOf s.dev p) 16 0)) (modePar (pageOf s.dev p) 16 2)).1 [] with
        job := some { j with done := 1 } })) ∧
  (∀ (s : State) (p : Nat) (j : Job), JobRuns s.dev p j → s.dev.cry.progs = true → j.op = 17 → Yields (.cbcEnc p) s (OnlyPage s.dev p
    { modeOut (pageOf s.dev p) j (cbcEncRun j.mat (modePar (pageOf s.dev p) 17 0) (modePar (pageOf s.dev p) 17 2)) [] with
        job := some { j with done := 1 } })) ∧
  (∀ (s : State) (p : Nat) (j : Job), JobRuns s.dev p j → s.dev.cry.progs = true → j.op = 18 → Yields (.cbcDec p) s (OnlyPage s.dev p
    { modeOut (pageOf s.dev p) j (cbcDecRun j.mat (modePar (pageOf s.dev p) 18 0) (modePar (pageOf s.dev p) 18 2)) [] with
        job := some { j with done := 1 } })) ∧
  (∀ (s : State) (p : Nat) (j : Job), JobRuns s.dev p j → s.dev.cry.progs = true → j.op = 19 → Yields (.cmacGen p) s (OnlyPage s.dev p
    { modeOut (pageOf s.dev p) j [] ((cmac j.mat (modePar (pageOf s.dev p) 19 2)).take j.tlen) with job := some { j with done := 1 } })) ∧
  (∀ (s : State) (p : Nat) (j : Job), JobRuns s.dev p j → s.dev.cry.progs = true → j.op = 20 → Yields (.cmacVer p) s (OnlyPage s.dev p
    { pageOf s.dev p with
        job := some { j with
          done := 1,
          ends := if (cmac j.mat (modePar (pageOf s.dev p) 20 2)).take j.tlen = fit j.tlen (modePar (pageOf s.dev p) 20 3)
            then none else some 1 } })) ∧
  (∀ (s : State) (p : Nat) (j : Job), JobRuns s.dev p j → s.dev.cry.progs = true → j.op = 21 → Yields (.gcmSeal p) s (OnlyPage s.dev p
    { modeOut (pageOf s.dev p) j
        (gcmSeal j.mat (modePar (pageOf s.dev p) 21 0) (modePar (pageOf s.dev p) 21 1) (modePar (pageOf s.dev p) 21 2)).1
        ((gcmSeal j.mat (modePar (pageOf s.dev p) 21 0) (modePar (pageOf s.dev p) 21 1) (modePar (pageOf s.dev p) 21 2)).2.take j.tlen) with
        job := some { j with done := 1 } })) ∧
  (∀ (s : State) (p : Nat) (j : Job), JobRuns s.dev p j → s.dev.cry.progs = true → j.op = 22 →
    Yields (.gcmOpen p) s (OnlyPage s.dev p
      (match gcmOpen j.mat (modePar (pageOf s.dev p) 22 0) (modePar (pageOf s.dev p) 22 1) (modePar (pageOf s.dev p) 22 2)
          (fit j.tlen (modePar (pageOf s.dev p) 22 3)) with
       | some t => { modeOut (pageOf s.dev p) j t [] with job := some { j with done := 1 } }
       | none => { pageOf s.dev p with job := some { j with done := 1, ends := some 1 } }))) ∧
  (∀ (s : State) (p : Nat) (c : Instr), s.dev.cry.progs = false →
    c = .ctr p ∨ c = .cbcEnc p ∨ c = .cbcDec p ∨ c = .cmacGen p ∨ c = .cmacVer p ∨ c = .gcmSeal p ∨ c = .gcmOpen p →
    exec c s = .next (after s s.dev))

/-- A secured PDU is verified or made, its freshness value advances, and checkpoints keep it. A sequencer that serves a frame
with AUTH 1 or 2 whose freshness lies in the window and whose MAC verifies accepts the value, and the frame goes to
admission at CRY for its planned copies with its payload; a MAC that differs is counted and accepts nothing; with AUTH 3
the next value is used in the trailer; with AUTH 4 both happen. The sequencer holds a slot, and the arrival reserve of CRY
is not full. A checkpoint that is due is stored as the next limit and
one that is not due changes nothing; a shutdown checkpoint leaves every profile with its value stored. -/
def Obligations.AuthenticationJobsAndFreshness : Prop :=
  (∀ (s : State) (q : Nat) (it : LaneItem) (hdr pay : Bytes) (t tag : Nat) (x : Dest) (xs : List Dest),
    cryOn s.dev = true → q < 16 → frozen s.dev (sqTwin q) = false → slotHeld s.dev 4 (0x30 + q) = true → arrivalFull s.dev 8 = false →
    (laneOf s.dev (128 + q)).items.find? (fun i => i.sent) = some it →
    rtAuth it.pkt.entry = 1 → it.pkt.plan = x :: xs → s.dev.cry.locked = false →
    keyStatus s.dev (apKey (authRec s.dev (rtAuthProf it.pkt.entry))) 0 8 = 0 →
    authParts (authRec s.dev (rtAuthProf it.pkt.entry)) it.pkt.data = some (hdr, pay, t, tag) →
    (freshOf s.dev (rtAuthProf it.pkt.entry)).val <
      candidate (authRec s.dev (rtAuthProf it.pkt.entry)) (freshOf s.dev (rtAuthProf it.pkt.entry)).val t →
    candidate (authRec s.dev (rtAuthProf it.pkt.entry)) (freshOf s.dev (rtAuthProf it.pkt.entry)).val t ≤
      (freshOf s.dev (rtAuthProf it.pkt.entry)).val + apWindow (authRec s.dev (rtAuthProf it.pkt.entry)) →
    candidate (authRec s.dev (rtAuthProf it.pkt.entry)) (freshOf s.dev (rtAuthProf it.pkt.entry)).val t < 2 ^ 64 →
    Yields (.authVerify q) s (fun d => d.regs = s.dev.regs ∧
      (if beNat (authMac (authRec s.dev (rtAuthProf it.pkt.entry))
            (keyBytes (slotOf s.dev (hSlot (apKey (authRec s.dev (rtAuthProf it.pkt.entry)))))) hdr pay
            (candidate (authRec s.dev (rtAuthProf it.pkt.entry)) (freshOf s.dev (rtAuthProf it.pkt.entry)).val t)) /
          2 ^ (128 - apMacLen (authRec s.dev (rtAuthProf it.pkt.entry))) = tag then
        (freshOf d (rtAuthProf it.pkt.entry)).val =
            candidate (authRec s.dev (rtAuthProf it.pkt.entry)) (freshOf s.dev (rtAuthProf it.pkt.entry)).val t ∧
          (∀ p, p ≠ rtAuthProf it.pkt.entry → freshOf d p = freshOf s.dev p) ∧
          (∃ w, mapGet [] d.lnd.waiting 8 = mapGet [] s.dev.lnd.waiting 8 ++ [w] ∧ w.dests = x :: xs ∧ w.pkt.data = pay ∧
            w.pkt.auth = true)
       else d.cry.fresh = s.dev.cry.fresh ∧ d.lnd.waiting = s.dev.lnd.waiting))) ∧
  (∀ (s : State) (q fv : Nat) (it : LaneItem) (x : Dest) (xs : List Dest),
    cryOn s.dev = true → q < 16 → frozen s.dev (sqTwin q) = false → slotHeld s.dev 4 (0x30 + q) = true → arrivalFull s.dev 8 = false →
    (laneOf s.dev (128 + q)).items.find? (fun i => i.sent) = some it →
    rtAuth it.pkt.entry = 3 → it.pkt.plan = x :: xs → s.dev.cry.locked = false →
    keyStatus s.dev (apKey (authRec s.dev (rtAuthProf it.pkt.entry))) 0 4 = 0 →
    freshNext (freshOf s.dev (rtAuthProf it.pkt.entry)) = .use fv →
    Yields (.authGenerate q) s (fun d => (freshOf d (rtAuthProf it.pkt.entry)).val = fv ∧
      (∀ p, p ≠ rtAuthProf it.pkt.entry → freshOf d p = freshOf s.dev p) ∧
      (∃ w, mapGet [] d.lnd.waiting 8 = mapGet [] s.dev.lnd.waiting 8 ++ [w] ∧ w.dests = x :: xs ∧
        w.pkt.data = authHeader (authRec s.dev (rtAuthProf it.pkt.entry)) it.pkt.data.length ++ it.pkt.data ++
          authTrailer (authRec s.dev (rtAuthProf it.pkt.entry)) fv (authMac (authRec s.dev (rtAuthProf it.pkt.entry))
            (keyBytes (slotOf s.dev (hSlot (apKey (authRec s.dev (rtAuthProf it.pkt.entry))))))
            (authHeader (authRec s.dev (rtAuthProf it.pkt.entry)) it.pkt.data.length) it.pkt.data fv)) ∧ d.regs = s.dev.regs)) ∧
  (∀ (s : State) (q fv : Nat) (it : LaneItem) (x : Dest) (xs : List Dest),
    cryOn s.dev = true → q < 16 → frozen s.dev (sqTwin q) = false → slotHeld s.dev 4 (0x30 + q) = true → arrivalFull s.dev 8 = false →
    (laneOf s.dev (128 + q)).items.find? (fun i => i.sent) = some it →
    rtAuth it.pkt.entry = 4 → it.pkt.plan = x :: xs →
    apPair (authRec s.dev (rtAuthProf it.pkt.entry)) ≠ rtAuthProf it.pkt.entry →
    keyStatus s.dev (apKey (authRec s.dev (apPair (authRec s.dev (rtAuthProf it.pkt.entry))))) 0 4 = 0 →
    freshNext (freshOf s.dev (apPair (authRec s.dev (rtAuthProf it.pkt.entry)))) = .use fv →
    Yields (.authVerifyGenerate q) s (fun d => d.regs = s.dev.regs ∧
      (match (authVerify s.dev (rtAuthProf it.pkt.entry) it.pkt.data).2 with
       | .pdu pay => (freshOf d (apPair (authRec s.dev (rtAuthProf it.pkt.entry)))).val = fv ∧
          (∃ w, mapGet [] d.lnd.waiting 8 = mapGet [] s.dev.lnd.waiting 8 ++ [w] ∧ w.dests = x :: xs ∧ w.pkt.auth = true ∧
            w.pkt.data.length = apHdr (authRec s.dev (apPair (authRec s.dev (rtAuthProf it.pkt.entry)))) + pay.length +
              (apFvLen (authRec s.dev (apPair (authRec s.dev (rtAuthProf it.pkt.entry)))) +
                apMacLen (authRec s.dev (apPair (authRec s.dev (rtAuthProf it.pkt.entry)))) + 7) / 8)
       | _ => d.lnd.waiting = s.dev.lnd.waiting ∧ freshOf d (apPair (authRec s.dev (rtAuthProf it.pkt.entry))) =
            freshOf s.dev (apPair (authRec s.dev (rtAuthProf it.pkt.entry)))))) ∧
  (∀ (s : State) (p : Nat) (res : FlashRes), ckptDue s.dev p = false → exec (.freshCheckpoint p res) s = .next (after s s.dev)) ∧
  (∀ (s : State) (p : Nat), ckptMay s.dev = true → ckptDue s.dev p = true → s.dev.store.freshRo = false → s.dev.store.fill < 127 →
    s.dev.store.ring ≠ 0 →
    Yields (.freshCheckpoint p .ok) s (fun d => (freshOf d p).ckpt =
        (if apDir (authRec s.dev p) = 1 then (freshOf s.dev p).ckpt + 2 ^ 16 else (freshOf s.dev p).val) ∧
      (freshOf d p).val = (freshOf s.dev p).val ∧ (freshOf d p).advances = 0 ∧ d.store.fill = s.dev.store.fill + 1 ∧
      (∀ o, o ≠ p → freshOf d o = freshOf s.dev o) ∧ d.evs = s.dev.evs)) ∧
  (∀ s : State, ckptMay s.dev = true → allAsleep s.dev = true → s.dev.store.freshRo = false →
    Yields .shutdownCheckpoint s (fun d => ∀ p ∈ profiles s.dev, (freshOf d p).shut = true)) ∧
  (∀ s : State, allAsleep s.dev = false → exec .shutdownCheckpoint s = .next (after s s.dev))

/-- MACsec verifies what arrives, protects what leaves, and takes a new SAK. On a MACsec port in LINK_UP an untagged frame is
dropped and counted, one whose check fails leaves only its count, and one that verifies becomes a lookup with its user
data where that is within the limits of the port and its crossing takes it, and is dropped and counted by the limit it
breaks; a staged frame is protected with the next packet number, which is then used up; an installed transmit SAK fills its
slot, is the SA of its AN and becomes the SA in use. -/
def Obligations.MacsecChecksAndProtects : Prop :=
  (∀ (s : State) (p : Nat) (f : Bytes), msEn s.dev p = true → ethLive s.dev p = true → cryOn s.dev = true → (ethOf s.dev p).st = 3 →
    ethReject s.dev p f false = none → isMacCtl (f.take (f.length - 4)) = false →
    (msUntagged s.dev p (f.take (f.length - 4)) = true → exec (.macsecRx p f) s = .next (after s (bump s.dev 0x780858 p))) ∧
    (msUntagged s.dev p (f.take (f.length - 4)) = false → be16At (f.take (f.length - 4)) 12 = 0x88E5 →
      (∀ e : Dev, msReceive s.dev p (f.take (f.length - 4)) = (e, none) → exec (.macsecRx p f) s = .next (after s e)) ∧
      (∀ (e : Dev) (u : Bytes) (c : Nat), msReceive s.dev p (f.take (f.length - 4)) = (e, some u) →
        limitDrop e p u (u.length + 4) = some c → exec (.macsecRx p f) s = .next (after s (bumpE e p c))) ∧
      (∀ (e : Dev) (u : Bytes), msReceive s.dev p (f.take (f.length - 4)) = (e, some u) → s.dev.clk.ingress = true →
        limitDrop e p u (u.length + 4) = none → ethTakes s.dev p (u.length + 4) = true →
        isAcf s.dev p u = false → lkFill s.dev (ethInput p) < 256 →
        Yields (.macsecRx p f) s (fun d => d.cry = e.cry ∧ d.regs = s.dev.regs ∧ d.lnd = s.dev.lnd ∧
          ∃ it, mapGet [] d.rte.parse (ethInput p) = mapGet [] s.dev.rte.parse (ethInput p) ++ [it] ∧ it.pkt.data = u ∧
            it.pkt.ingress = ethIngress p)))) ∧
  (∀ (s : State) (p : Nat) (f : Bytes), msEn s.dev p = false → exec (.macsecRx p f) s = .next (after s s.dev) ∧
    exec (.macsecTx p) s = .next (after s s.dev)) ∧
  (∀ (s : State) (p : Nat) (a : Sa) (key : Bytes), msEn s.dev p = true → ethLive s.dev p = true → cryOn s.dev = true →
    startReady s.dev (stagedItems s.dev p) = true → (ethOf s.dev p).prot = none → txSaNow s.dev p = some a → saKey s.dev a = some key →
    Yields (.macsecTx p) s (fun d => (ethOf d p).prot = some (protect key a a.pn (stagedFrame s.dev p (stagedItems s.dev p))) ∧
      (∃ b, mapGet? d.cry.txSa (2 * p + a.an % 2) = some b ∧ b.pn = a.pn + 1 ∧ b.key = a.key ∧ b.an = a.an) ∧
      (∀ o, o ≠ p → ethOf d o = ethOf s.dev o) ∧ d.lnd = s.dev.lnd ∧ d.regs = s.dev.regs)) ∧
  (∀ (s : State) (p : Nat) (a : SakArgs), p < 8 → cryOn s.dev = true → svcUp s.dev 2 = true → s.dev.kvt.locked = false → 2 ≤ a.slot →
    a.slot < 4096 → (slotOf s.dev a.slot).full = false → (slotOf s.dev a.slot).retired = false → a.tx = true →
    Yields (.sakInstall p a) s (fun d => (slotOf d a.slot).full = true ∧ (slotOf d a.slot).mat = fit (ktypeLen (sakType a.suite)) a.sak ∧
      (∀ o, o ≠ a.slot → slotOf d o = slotOf s.dev o) ∧ mapGet? d.cry.txAn p = some (a.an % 4) ∧
      (∃ b, mapGet? d.cry.txSa (2 * p + a.an % 4 % 2) = some b ∧ b.pn = a.pn ∧ b.an = a.an % 4 ∧
        b.key = a.slot + (slotOf s.dev a.slot).gen * 4096) ∧ d.lnd = s.dev.lnd ∧ d.regs = s.dev.regs)) ∧
  (∀ (s : State) (p : Nat) (a : SakArgs), s.dev.kvt.locked = true → exec (.sakInstall p a) s = .next (after s s.dev))

/-- Vault commands fill, empty and replace slots, and refuse without a change of a slot. Where the vault takes commands:
DERIVE and UNWRAP that pass their checks (for UNWRAP the wrapped bytes too) fill the slot they name with a child of the
parent's next level, and one that fails a check answers its status and changes no slot; INVALIDATE ends a live handle at
once; NEWCHAL holds a new challenge; a token that does not verify answers 14 and voids the challenge, and a debug token
that does is armed and reported. REPLACE leaves the old key in force until the swap, which KVT_STORE_DONE makes and
reports, and a DERIVE of another initiator meanwhile waits as RUNNING; a background erase takes the oldest sector due. -/
def Obligations.VaultCommandsKeepTheKeyTree : Prop :=
  (∀ (s : State) (who : Initiator), KvtTakes s.dev who → childStatus s.dev who (kvtArg s.dev who 0) (kvtArg s.dev who 1) 4 = 0 →
    Yields (.derive who) s (fun d =>
      slotOf d (aSlot (kvtArg s.dev who 1)) = { slotOf s.dev (aSlot (kvtArg s.dev who 1)) with
        full := true, ktype := aType (kvtArg s.dev who 1), usage := aUse (kvtArg s.dev who 1), domain := aDom (kvtArg s.dev who 1),
        parent := kvtArg s.dev who 0, level := (slotOf s.dev (hSlot (kvtArg s.dev who 0))).level + 1, pers := none, retired := false,
        mat := childMat (slotOf s.dev (hSlot (kvtArg s.dev who 0))).mat
          ((List.range 4).map (fun i => leBytes 4 (kvtArg s.dev who (2 + i)))).flatten (aSlot (kvtArg s.dev who 1))
          (aType (kvtArg s.dev who 1)) (aUse (kvtArg s.dev who 1)) (aDom (kvtArg s.dev who 1)) } ∧
      (∀ o, o ≠ aSlot (kvtArg s.dev who 1) → slotOf d o = slotOf s.dev o) ∧ kvtStatus d who = 0 ∧
      mapGet? d.kvt.result (initIx who) =
        some (aSlot (kvtArg s.dev who 1) + (slotOf s.dev (aSlot (kvtArg s.dev who 1))).gen * 4096) ∧
      d.cry = s.dev.cry ∧ d.lnd = s.dev.lnd ∧ d.evs = s.dev.evs)) ∧
  (∀ (s : State) (who : Initiator), KvtTakes s.dev who → childStatus s.dev who (kvtArg s.dev who 0) (kvtArg s.dev who 1) 4 ≠ 0 →
    Yields (.derive who) s (fun d => d.kvt.slots = s.dev.kvt.slots ∧
      kvtStatus d who = childStatus s.dev who (kvtArg s.dev who 0) (kvtArg s.dev who 1) 4 ∧ d.evs = s.dev.evs)) ∧
  (∀ (s : State) (who : Initiator), KvtTakes s.dev who →
    childStatus s.dev who (kvtArg s.dev who 0) (kvtArg s.dev who 1) 5 = 0 →
    Yields (.unwrap who) s (fun d => d.evs = s.dev.evs ∧
      (match keyUnwrap (slotOf s.dev (hSlot (kvtArg s.dev who 0))).mat (kvtBuf s.dev who 0 40) with
       | some m => (slotOf d (aSlot (kvtArg s.dev who 1))).full = true ∧
          (slotOf d (aSlot (kvtArg s.dev who 1))).mat = m.take (ktypeLen (aType (kvtArg s.dev who 1))) ∧
          (slotOf d (aSlot (kvtArg s.dev who 1))).parent = kvtArg s.dev who 0 ∧
          (∀ o, o ≠ aSlot (kvtArg s.dev who 1) → slotOf d o = slotOf s.dev o) ∧ kvtStatus d who = 0
       | none => d.kvt.slots = s.dev.kvt.slots ∧ kvtStatus d who = 7))) ∧
  (∀ (s : State) (who : Initiator), KvtTakes s.dev who → handleLive s.dev (kvtArg s.dev who 0) = true →
    kvtMay s.dev who (slotOf s.dev (hSlot (kvtArg s.dev who 0))).domain = true →
    Yields (.invalidate who) s (fun d => handleLive d (kvtArg s.dev who 0) = false ∧
      (∀ o, o ≠ hSlot (kvtArg s.dev who 0) → slotOf d o = slotOf s.dev o) ∧ kvtStatus d who = 0 ∧ d.cry = s.dev.cry)) ∧
  (∀ (s : State) (who : Initiator) (b : Bytes), KvtTakes s.dev who →
    Yields (.newchal who b) s (fun d => d.kvt.chal = some (fit 16 b) ∧ kvtStatus d who = 0 ∧ d.kvt.slots = s.dev.kvt.slots ∧
      d.evs = s.dev.evs)) ∧
  (∀ (s : State) (who : Initiator), KvtTakes s.dev who → leAt (kvtBuf s.dev who 0 256) 33 1 = 0 →
    Yields (.token who) s (fun d => d.kvt.chal = none ∧ d.kvt.slots = s.dev.kvt.slots ∧
      kvtStatus d who = (if tokenOk s.dev (kvtBuf s.dev who 0 256) then 0 else 14) ∧
      d.kvt.armed = (if tokenOk s.dev (kvtBuf s.dev who 0 256) then some (leAt (kvtBuf s.dev who 0 256) 32 1 % 4) else s.dev.kvt.armed) ∧
      d.evs = (if tokenOk s.dev (kvtBuf s.dev who 0 256) then
        s.dev.evs ++ [evNow s.dev 0x0D06 0 (e1 (leAt (kvtBuf s.dev who 0 256) 32 1 % 4))] else s.dev.evs))) ∧
  (∀ (s : State) (who : Initiator) (sl q n : Nat), KvtTakes s.dev who →
    persSlot s.dev (bits (kvtArg s.dev who 1) 0 8) = some (sl, q) →
    n = (match latestRec s.dev (bits (kvtArg s.dev who 1) 0 8) with | some r => r.seq | none => q) + 1 →
    n < 2 ^ 32 → kvtLive s.dev (kvtArg s.dev who 0) = true →
    kvtMay s.dev who (slotOf s.dev (hSlot (kvtArg s.dev who 0))).domain = true → kvtMay s.dev who (slotOf s.dev sl).domain = true →
    bit (slotOf s.dev (hSlot (kvtArg s.dev who 0))).usage 5 = true → (slotOf s.dev (hSlot (kvtArg s.dev who 0))).ktype = 2 →
    hasChild s.dev sl = false → s.dev.store.keyRo = false →
    Yields (.replace who []) s (fun d => d.kvt.slots = s.dev.kvt.slots ∧ d.evs = s.dev.evs ∧
      (match keyUnwrap (slotOf s.dev (hSlot (kvtArg s.dev who 0))).mat (kvtBuf s.dev who 0 40) with
       | some m => kvtStatus d who = 12 ∧
          d.kvt.swap = some { who := who, id := bits (kvtArg s.dev who 1) 0 8, slot := sl, seq := n,
                              mat := m.take (ktypeLen (slotOf s.dev sl).ktype), ktype := (slotOf s.dev sl).ktype,
                              pos := (match latestRec s.dev (bits (kvtArg s.dev who 1) 0 8) with | some r => 1 - r.pos | none => 0) }
       | none => kvtStatus d who = 7 ∧ d.kvt.swap = none ∧ d.flash = s.dev.flash))) ∧
  (∀ (s : State) (x : Swap) (q : Nat), running s.dev = true → s.dev.kvt.swap = some x → s.dev.kvt.wait = [] →
    (slotOf s.dev x.slot).full = true → (slotOf s.dev x.slot).pers = some (x.id, q) →
    Yields .kvtStoreDone s (fun d => slotOf d x.slot = { slotOf s.dev x.slot with mat := x.mat, pers := some (x.id, x.seq) } ∧
      (∀ o, o ≠ x.slot → slotOf d o = slotOf s.dev o) ∧ d.kvt.swap = none ∧ kvtStatus d x.who = 0 ∧
      d.evs = s.dev.evs ++ [evNow s.dev 0x0D03 0 (e1 x.id ++ e4 x.seq)])) ∧
  (∀ s : State, s.dev.kvt.swap = none → exec .kvtStoreDone s = .next (after s s.dev)) ∧
  (∀ (s : State) (who : Initiator) (x : Swap), MayWrite s.dev who 0x7C0004 → s.dev.kvt.swap = some x → x.who ≠ who →
    s.dev.kvt.wait = [] →
    Yields (.derive who) s (fun d => d.kvt.wait = [⟨who, 1, [], []⟩] ∧ kvtStatus d who = 12 ∧ d.kvt.slots = s.dev.kvt.slots ∧
      d.kvt.swap = some x ∧ d.regs = s.dev.regs)) ∧
  (∀ (s : State) (l : Nat) (rest : List Nat), running s.dev = true → s.dev.store.erase = l :: rest → secRo s.dev l = false →
    Yields .storeBackgroundErase s (fun d => d.store.erase = rest ∧ flUsed d (secAddr s.dev l) 4096 = false ∧
      (∀ a, a < secAddr s.dev l ∨ secAddr s.dev l + 4096 ≤ a → flByte d a = flByte s.dev a) ∧ d.kvt = s.dev.kvt))

/-- An alarm erases every slot and every page, and locks the vault and the Crypto Block. In every mode an alarm source that is
not masked leaves no slot filled, no page with a key, a job, a subkey or output, the vault and the Crypto Block locked and
no root; a masked source in TEST or PROVISION, or a held reset, changes nothing; a mismatch of the vault's twin is such an
alarm. -/
def Obligations.AlarmErasesEveryKey : Prop :=
  (∀ (s : State) (src : Nat), outOfReset s.dev = true → alarmTrips s.dev src = true →
    Yields (.kvtAlarm src) s (fun d => (∀ k, (slotOf d k).full = false ∧ (slotOf d k).mat = []) ∧ d.kvt.root = none ∧
      d.kvt.locked = true ∧ d.cry.locked = true ∧ d.kvt.swap = none ∧
      (∀ p, (pageOf d p).job = none ∧ (pageOf d p).out = [] ∧ (pageOf d p).mem = [] ∧ (pageOf d p).h = [] ∧ (pageOf d p).k1 = [] ∧
        (pageOf d p).head = (pageOf s.dev p).head ∧ (pageOf d p).tail = (pageOf s.dev p).tail) ∧
      d.lnd = s.dev.lnd ∧ (s.dev.kvt.swap = none → s.dev.kvt.wait = [] → d.regs = s.dev.regs))) ∧
  (∀ (s : State) (src : Nat), outOfReset s.dev = false ∨ alarmTrips s.dev src = false →
    exec (.kvtAlarm src) s = .next (after s s.dev)) ∧
  (∀ (s : State) (m : Mismatch), twinLocked s.dev 31 = true →
    Yields (.twinMismatch 31 m) s (fun d => (∀ k, (slotOf d k).full = false) ∧ d.kvt.locked = true ∧ d.cry.locked = true ∧
      ∃ e ∈ d.evs, e.code = 0x0D01 ∧ e.data = e1 5))

/-- A mismatch freezes its twin, replay follows, and the resume is reported. A mismatch of a compared twin freezes it at once
and keeps the instant; the first two of a second raise nothing and, but for the Landing's and an egress scheduler's, touch
nothing else; a freeze of the Landing or of an egress scheduler leaves no frame in a CAN buffer before its first SOF; a
replay that starts without
poisoned items moves the twin to replay and drops nothing; the resume takes input again and reports the recovery; a commit
notice moves its output from flight to the log; a code failure of the degraded twin, and a disagreement of the Fault
Manager's rails, latch F4; a stopped core pair stays down and is reported once. -/
def Obligations.TwinsFreezeReplayAndResume : Prop :=
  (∀ (s : State) (t : Nat) (m : Mismatch), t ≠ 31 → twinLocked s.dev t = true → (twinOf s.dev t).phase = 0 →
    Yields (.twinMismatch t m) s (fun d => (twinOf d t).phase = 1 ∧ (twinOf d t).freezeNs = nowNs s.dev ∧
      (twinOf d t).freezeT = s.dev.clk.tclk ∧ frozen d t = true)) ∧
  (∀ (s : State) (t ch b : Nat) (m : Mismatch) (x : XbFrame), twinLocked s.dev t = true → (twinOf s.dev t).phase = 0 →
    (t = 0 ∧ ch < 24) ∨ (6 ≤ t ∧ t ≤ 9 ∧ ch / 6 = t - 6) →
    Yields (.twinMismatch t m) s (fun d => xbOf (canOf d ch) b = some x → x.sof = true ∨ x.mbox = true)) ∧
  (∀ (s : State) (t : Nat) (m : Mismatch), 6 ≤ t → t ≤ 9 → twinLocked s.dev t = true → (twinOf s.dev t).phase = 0 →
    (window s.dev (twinOf s.dev t)).length < 2 →
    Yields (.twinMismatch t m) s (fun d => d.evs = s.dev.evs ∧ (∀ o, o ≠ t → o ≠ 0 → twinOf d o = twinOf s.dev o) ∧
      (twinOf d t).misses.length = (window s.dev (twinOf s.dev t)).length + 1 ∧ d.flt.degraded = s.dev.flt.degraded ∧
      d.regs = s.dev.regs)) ∧
  (∀ (s : State) (t : Nat) (m : Mismatch), t ≠ 31 → t ≠ 0 → t < 6 ∨ 9 < t → twinLocked s.dev t = true → (twinOf s.dev t).phase = 0 →
    (window s.dev (twinOf s.dev t)).length < 2 →
    Yields (.twinMismatch t m) s (fun d => d.evs = s.dev.evs ∧ (∀ o, o ≠ t → twinOf d o = twinOf s.dev o) ∧ d.lnd = s.dev.lnd ∧
      (twinOf d t).misses.length = (window s.dev (twinOf s.dev t)).length + 1 ∧ d.flt.degraded = s.dev.flt.degraded)) ∧
  (∀ (s : State) (t : Nat) (m : Mismatch), twinLocked s.dev t = false → exec (.twinMismatch t m) s = .next (after s s.dev)) ∧
  (∀ (s : State) (t : Nat), running s.dev = true → (twinOf s.dev t).phase = 1 →
    Yields (.replayStart t []) s (fun d => twinOf d t = { twinOf s.dev t with phase := 2 } ∧
      (∀ o, o ≠ t → twinOf d o = twinOf s.dev o) ∧ d.lnd = s.dev.lnd ∧ d.rte.lookup = s.dev.rte.lookup ∧
      (∀ g, mapGet [] d.rte.parse g = mapGet [] s.dev.rte.parse g) ∧ d.mil = s.dev.mil ∧ d.evs = s.dev.evs)) ∧
  (∀ (s : State) (t : Nat), running s.dev = true → (twinOf s.dev t).phase = 2 → twinDegraded s.dev t = false →
    Yields (.twinResume t) s (fun d => twinOf d t = { twinOf s.dev t with phase := 0, unmarked := true } ∧
      (∀ o, o ≠ t → twinOf d o = twinOf s.dev o) ∧ d.lnd = s.dev.lnd ∧
      ∃ e, d.evs = s.dev.evs ++ [e] ∧ e.code = 0x0E01 ∧ e.cls = 2)) ∧
  (∀ (s : State) (t n : Nat), running s.dev = true → t ≠ 0 → (twinOf s.dev t).flight.contains n = true →
    Yields (.commitNotice t n) s (fun d => twinOf d t = { twinOf s.dev t with
        flight := (twinOf s.dev t).flight.erase n, log := (twinOf s.dev t).log ++ [n] } ∧
      (∀ o, o ≠ t → twinOf d o = twinOf s.dev o) ∧ d.lnd = s.dev.lnd ∧ d.evs = s.dev.evs)) ∧
  (∀ (s : State) (t n : Nat), (twinOf s.dev t).flight.contains n = false → exec (.commitNotice t n) s = .next (after s s.dev)) ∧
  (∀ (s : State) (x : Nat × Nat × Nat) (o p : Bool), running s.dev = true → s.dev.flt.degraded = some x → o || p →
    Yields (.degradedCheckFail o p) s (fun d => d.flt.f4 = true ∧ d.clk.f4Pend = true ∧
      d.evs = s.dev.evs ++ [evNow s.dev 0x0E04 4 (e1 x.1 ++ eFlag p)] ∧ d.lnd = s.dev.lnd)) ∧
  (∀ (s : State) (p : Nat), running s.dev = true → p < 4 → s.dev.flt.scDown.contains p = false →
    Yields (.scStopped p) s (fun d => d.flt.scDown = s.dev.flt.scDown ++ [p] ∧ d.evs = s.dev.evs ++ [evNow s.dev 0x0E0A 0 (e1 p)] ∧
      d.lnd = s.dev.lnd)) ∧
  (∀ (s : State) (p : Nat), s.dev.flt.scDown.contains p = true → exec (.scStopped p) s = .next (after s s.dev)) ∧
  (∀ s : State, running s.dev = true → s.dev.flt.rail = false →
    Yields .fmRail s (fun d => d.flt.rail = true ∧ d.flt.f4 = true ∧ d.clk.f4Pend = true ∧
      d.evs = s.dev.evs ++ [evNow s.dev 0x0E0B 4 []]))

/-- NM PDUs, requests and timers move a cluster from LISTEN to READY. A short or irrelevant NM PDU of a cluster is counted and
changes no cluster; a relevant one takes an ASLEEP, LISTEN or DRAIN cluster to REPEAT, and restarts the timeout of a READY
cluster without need; a request by NMC_CREQ wakes an ASLEEP cluster into REPEAT and is reported; when TREPEAT has passed
REPEAT becomes AWAKE with local need and READY without; a keep-alive is sent on every member channel when its period is
over, and the period starts again. -/
def Obligations.ClustersWakeAndRepeat : Prop :=
  (∀ (s : State) (c : Nat) (n : NmPort) (b : Bytes), nmArrives s.dev c n = true → b.length < lyLen (nmLay s.dev c) →
    exec (.nmPduReceived c n b) s = .next (after s (bump s.dev 0x7E0090 c))) ∧
  (∀ (s : State) (c : Nat) (n : NmPort) (b : Bytes), nmArrives s.dev c n = true → lyLen (nmLay s.dev c) ≤ b.length →
    nmRelevant s.dev c b = false → exec (.nmPduReceived c n b) s = .next (after s (bump s.dev 0x7E0088 c))) ∧
  (∀ (s : State) (c : Nat) (n : NmPort) (b : Bytes), nmArrives s.dev c n = false → exec (.nmPduReceived c n b) s = .next (after s s.dev)) ∧
  (∀ (s : State) (c : Nat) (n : NmPort) (b : Bytes), nmArrives s.dev c n = true → lyLen (nmLay s.dev c) ≤ b.length →
    nmRelevant s.dev c b = true → holdMode s.dev = false →
    ((clusterOf s.dev c).st = 0 ∨ (clusterOf s.dev c).st = 1 ∨ (clusterOf s.dev c).st = 5) →
    Yields (.nmPduReceived c n b) s (fun d => (clusterOf d c).st = 2 ∧ (clusterOf d c).t0 = s.dev.clk.tclk ∧ d.regs = s.dev.regs)) ∧
  (∀ (s : State) (c : Nat) (n : NmPort) (b : Bytes), c < 32 → nmArrives s.dev c n = true → lyLen (nmLay s.dev c) ≤ b.length →
    nmRelevant s.dev c b = true → holdMode s.dev = false → (clusterOf s.dev c).st = 4 →
    cbvBit (nmLay s.dev c) (lyRmr (nmLay s.dev c)) b = false → localNeed s.dev c = false →
    Yields (.nmPduReceived c n b) s (fun d => (clusterOf d c).st = 4 ∧ (clusterOf d c).t0 = s.dev.clk.tclk ∧
      (clusterOf d c).len = bits (nmReg s.dev c 0x14) 0 16 ∧ d.regs = s.dev.regs)) ∧
  (∀ (s : State) (who : Initiator) (c : Nat) (w : Word), c < 32 → MayWrite s.dev who (nmcBase c + 4) → mapSorted s.dev.regs = true →
    bit w.toNat 0 = true → holdMode s.dev = false → s.dev.clk.routing = true → nmTakesPart s.dev c = true → (clusterOf s.dev c).st = 0 →
    Yields (.nmRequest who c w) s (fun d => reg d (nmcBase c + 4) = w.toNat % 4 ∧ (clusterOf d c).st = 2 ∧
      (clusterOf d c).len = bits (nmReg s.dev c 0x1C) 0 16 ∧ d.evs = s.dev.evs ++ [evNow s.dev 0x0F01 0 (e1 c ++ e1 0)] ∧
      (∀ o, o ≠ c → clusterOf d o = clusterOf s.dev o))) ∧
  (∀ (s : State) (c t : Nat), running s.dev = true → s.dev.clk.routing = true → nmTakesPart s.dev c = true → holdMode s.dev = false →
    (clusterOf s.dev c).st = 3 → (clusterOf s.dev c).kaT0 = some t → t + msCycles (clusterOf s.dev c).kaLen ≤ s.dev.clk.tclk →
    svcUp s.dev 0 = true →
    Yields (.nmTmsgExpire c) s (fun d => (clusterOf d c).kaT0 = some s.dev.clk.tclk ∧ (clusterOf d c).st = 3 ∧
      (mapGet [] d.lnd.waiting 6).length = (mapGet [] s.dev.lnd.waiting 6).length + ((nmCans s.dev c).filter (canInImage s.dev)).length ∧
      (∀ o, o ≠ c → clusterOf d o = clusterOf s.dev o) ∧ d.evs = s.dev.evs)) ∧
  (∀ (s : State) (c : Nat), nmTimes s.dev c = true → (clusterOf s.dev c).st = 2 → nmElapsed s.dev c = true →
    Yields (.nmTrepeatExpire c) s (fun d => (clusterOf d c).st = (if localNeed s.dev c then 3 else 4) ∧
      (∀ o, o ≠ c → clusterOf d o = clusterOf s.dev o) ∧ d.evs = s.dev.evs ∧ d.regs = s.dev.regs)) ∧
  (∀ (s : State) (c : Nat), nmTimes s.dev c = true → nmElapsed s.dev c = false → exec (.nmTrepeatExpire c) s = .next (after s s.dev) ∧
    exec (.nmTtimeoutExpire c) s = .next (after s s.dev) ∧ exec (.nmTwaitExpire c) s = .next (after s s.dev))

/-- READY drains, DRAIN commits, and sleep ends in ASLEEP. When TTIMEOUT has passed READY becomes DRAIN; when TWAIT has passed
DRAIN may commit; the commit point closes the cluster and makes it SLEEPING; when every member is quiet it is ASLEEP,
reported; at 100 ms sleep is declared, and a TC10 port that is not in SLEEP is taken down and reported first; a LISTEN
cluster that nothing confirms goes back to ASLEEP and is reported as a false wake. -/
def Obligations.ClustersFallAsleep : Prop :=
  (∀ (s : State) (c : Nat), nmTimes s.dev c = true → (clusterOf s.dev c).st = 4 → nmElapsed s.dev c = true →
    Yields (.nmTtimeoutExpire c) s (fun d => (clusterOf d c).st = 5 ∧ (clusterOf d c).t0 = s.dev.clk.tclk ∧
      (clusterOf d c).len = bits (nmReg s.dev c 0x18) 0 16 ∧ (clusterOf d c).waited = false ∧
      (∀ o, o ≠ c → clusterOf d o = clusterOf s.dev o) ∧ d.evs = s.dev.evs ∧ d.lnd = s.dev.lnd)) ∧
  (∀ (s : State) (c : Nat), nmTimes s.dev c = true → (clusterOf s.dev c).st = 5 → nmElapsed s.dev c = true →
    Yields (.nmTwaitExpire c) s (fun d => clusterOf d c = { clusterOf s.dev c with waited := true } ∧
      (∀ o, o ≠ c → clusterOf d o = clusterOf s.dev o) ∧ d.evs = s.dev.evs ∧ d.lnd = s.dev.lnd)) ∧
  (∀ (s : State) (c : Nat), nmTimes s.dev c = true → (clusterOf s.dev c).st = 5 → (clusterOf s.dev c).waited = true →
    svcUp s.dev 0 = true →
    Yields (.sleepCommitPoint c) s (fun d => (clusterOf d c).st = 6 ∧ (clusterOf d c).closed = true ∧ (clusterOf d c).rewake = none ∧
      (clusterOf d c).t0 = s.dev.clk.tclk ∧ (clusterOf d c).len = 100 ∧ (∀ o, o ≠ c → clusterOf d o = clusterOf s.dev o) ∧
      d.regs = s.dev.regs)) ∧
  (∀ (s : State) (c : Nat), (clusterOf s.dev c).waited = false → exec (.sleepCommitPoint c) s = .next (after s s.dev)) ∧
  (∀ (s : State) (c : Nat), nmTimes s.dev c = true → (clusterOf s.dev c).st = 6 → (clusterOf s.dev c).rewake = none →
    localNeed s.dev c = false → (∀ ch ∈ nmCans s.dev c, onBus (canOf s.dev ch) = none) →
    (∀ p ∈ tc10Ports s.dev c, (ethOf s.dev p).st = 4) →
    Yields (.sleepComplete c) s (fun d => (clusterOf d c).st = 0 ∧ d.evs = s.dev.evs ++ [evNow s.dev 0x0F02 0 (e1 c ++ e1 0)] ∧
      (∀ o, o ≠ c → clusterOf d o = clusterOf s.dev o) ∧ d.lnd = s.dev.lnd)) ∧
  (∀ (s : State) (c : Nat), nmTimes s.dev c = true → (clusterOf s.dev c).st = 6 → (clusterOf s.dev c).rewake = none →
    localNeed s.dev c = false → nmElapsed s.dev c = true → (∀ p ∈ tc10Ports s.dev c, (ethOf s.dev p).st = 4) →
    Yields (.nmSleepTimeout c) s (fun d => (clusterOf d c).st = 0 ∧ d.evs = s.dev.evs ++ [evNow s.dev 0x0F02 0 (e1 c ++ e1 1)] ∧
      (∀ o, o ≠ c → clusterOf d o = clusterOf s.dev o))) ∧
  (∀ (s : State) (c p : Nat), nmTimes s.dev c = true → (clusterOf s.dev c).st = 6 → nmElapsed s.dev c = true →
    tc10Ports s.dev c = [p] → (ethOf s.dev p).st = 2 →
    Yields (.nmSleepTimeout c) s (fun d => (ethOf d p).st = 1 ∧ ∃ l, d.evs = s.dev.evs ++ evNow s.dev 0x0F06 0 (e1 p) :: l)) ∧
  (∀ (s : State) (c : Nat), nmTimes s.dev c = true → (clusterOf s.dev c).st = 1 → nmElapsed s.dev c = true →
    Yields (.nmFalseWake c) s (fun d => (clusterOf d c).st = 0 ∧
      d.evs = s.dev.evs ++ [evNow s.dev 0x0F04 0 (e1 c ++ e1 (clusterOf s.dev c).src)] ∧
      (∀ o, o ≠ c → clusterOf d o = clusterOf s.dev o) ∧ d.lnd = s.dev.lnd))

/-- PNC sightings lapse, offenders are logged, INH_OUT falls, WAKEHOLD ends, and PHY_INT_N wakes a port. PNC_EXPIRE drops the
sightings of its PNC that are older than PNCTMO and no other; an OFFTIME interval enters a charged node in the log and
starts the next; INH_OUT falls when HOLDMS has passed, and its ball, where one is assigned, shows it as POL and INV say; WAKEHOLD passed is noted; a PHY_INT_N ball
takes a TC10 port in SLEEP to DOWN, and without its cluster nothing else moves. -/
def Obligations.NetworkTimersOutsideTheClusters : Prop :=
  (∀ (s : State) (p : Nat), running s.dev = true → holdMode s.dev = false →
    Yields (.pncExpire p) s (fun d => d.nmc.seen = s.dev.nmc.seen.filter (fun e =>
        !(e.1 / 32 == p && decide (e.2 + msCycles (fld s.dev 0x7E0008 16 16) ≤ s.dev.clk.tclk))) ∧ d.regs = s.dev.regs)) ∧
  (∀ (s : State) (c t : Nat) (x : Charge), nmTimes s.dev c = true → 0 < bits (nmReg s.dev c 0x28) 0 16 → svcUp s.dev 0 = true →
    (clusterOf s.dev c).offT0 = some t → t + secCycles * bits (nmReg s.dev c 0x28) 0 16 ≤ s.dev.clk.tclk →
    (clusterOf s.dev c).charges = [x] → s.dev.nmc.log = [] →
    Yields (.offenderLogInterval c) s (fun d => d.nmc.log = [some (Offender.mk c true x.eth x.port x.node x.cbv s.dev.clk.rtc
        (bits (nmReg s.dev c 0x28) 0 16) x.pdus)] ∧
      (clusterOf d c).charges = [] ∧ (clusterOf d c).offT0 = some (t + secCycles * bits (nmReg s.dev c 0x28) 0 16) ∧
      (clusterOf d c).st = (clusterOf s.dev c).st ∧
      d.evs = s.dev.evs ++ [evNow s.dev 0x0F05 0 (e1 0 ++ e1 c ++ e1 x.node)])) ∧
  (∀ (s : State) (j t : Nat), mapGet? s.dev.nmc.inhHold j = some t → mapSorted s.dev.nmc.inhHold = true →
    t + msCycles (fld s.dev (0x7E0200 + 8 * j) 16 16) ≤ s.dev.clk.tclk →
    Yields (.inhHoldExpire j) s (fun d => bit d.nmc.inh j = false ∧ mapGet? d.nmc.inhHold j = none ∧
      d.nmc.clusters = s.dev.nmc.clusters ∧
      (s.dev.clk.pinsOn = true → holdMode s.dev = false → Shows s.dev d.out (16 + j) (!flag s.dev (0x7E0200 + 8 * j) 0)) ∧
      d.evs = s.dev.evs)) ∧
  (∀ (s : State) (j : Nat), mapGet? s.dev.nmc.inhHold j = none → exec (.inhHoldExpire j) s = .next (after s s.dev)) ∧
  (∀ s : State, running s.dev = true → s.dev.clk.routing = true →
    s.dev.clk.routingAt + msCycles (fld s.dev 0x7E0008 0 16) ≤ s.dev.clk.tclk →
    exec .wakeholdExpire s = .next (after s { s.dev with clk := { s.dev.clk with holdDone := true } })) ∧
  (∀ s : State, s.dev.clk.tclk < s.dev.clk.routingAt + msCycles (fld s.dev 0x7E0008 0 16) →
    exec .wakeholdExpire s = .next (after s s.dev)) ∧
  (∀ (s : State) (g r : Nat), (roleRecs s.dev 7).find? (fun r => pnGpio r == some g) = some r → running s.dev = true →
    s.dev.clk.pinsOn = true → bits r 23 4 < 8 → flag s.dev (ethBase (bits r 23 4) + 0x20) 0 = true → ethCluster s.dev (bits r 23 4) = none →
    Yields (.phyIntNEdge g) s (fun d => ethOf d (bits r 23 4) = { ethOf s.dev (bits r 23 4) with
        sleepReq := false, st := if (ethOf s.dev (bits r 23 4)).st = 4 then 1 else (ethOf s.dev (bits r 23 4)).st } ∧
      OnlyEth s.dev (bits r 23 4) d)) ∧
  (∀ (s : State) (g : Nat), (roleRecs s.dev 7).find? (fun r => pnGpio r == some g) = none →
    exec (.phyIntNEdge g) s = .next (after s s.dev))

/-- Links, rings and completions move frames between host and device. A link that comes up, or goes down with its queue state,
is reported; a TAIL that fits is stored; the transmit engine takes a whole record for its entry, and none while the arrival
reserve of its endpoint is full: a write past its window then waits, and is an access error of kind 5 otherwise; the oldest complete
record is written to the completion ring; buffers are posted at TAIL; a staged frame is delivered with its completion and
its drops are handed over; moderation sends a vector once its time has passed, an unmasked vector that pends is sent, and
so is one that waited for Bus Master Enable; a page's domain changes when the page is idle, which zeroes it. -/
def Obligations.HostQueuesMoveFramesBothWays : Prop :=
  (∀ (s : State) (e : Nat), running s.dev = true → e < 2 → (epOf s.dev e).up = false →
    Yields (.hostLinkUp e) s (fun d => epOf d e = { epOf s.dev e with up := true } ∧ (∀ o, o ≠ e → epOf d o = epOf s.dev o) ∧
      d.evs = s.dev.evs ++ [evNow s.dev 0x1003 0 (e1 e ++ e1 1 ++ eCount 0)] ∧ d.lnd = s.dev.lnd)) ∧
  (∀ (s : State) (e : Nat), running s.dev = true → e < 2 → (epOf s.dev e).up = true → mapSorted s.dev.lnd.waiting = true →
    Yields (.hostLinkDown e) s (fun d => (epOf d e).up = false ∧ (epOf d e).bme = false ∧ (epOf d e).msix = [] ∧ (epOf d e).pba = [] ∧
      mapGet [] d.lnd.waiting (4 + e) = [] ∧ (∀ o, o ≠ e → (epOf d o).up = (epOf s.dev o).up) ∧
      ∃ l x, d.evs = l ++ [x] ∧ x.code = 0x1003 ∧ ∃ n, x.data = e1 e ++ e1 0 ++ eCount n)) ∧
  (∀ (s : State) (e : Nat), (epOf s.dev e).up = false → exec (.hostLinkDown e) s = .next (after s s.dev)) ∧
  (∀ (s : State) (who : Initiator) (e t : Nat) (w : Word), endpointOf who = some e → t < 16 → MayWrite s.dev who (0x840004 + 0x40 * t) →
    mapSorted s.dev.regs = true → txUsed s.dev e t + (bits w.toNat 0 15 + 32768 - txTail s.dev e t) % 32768 < 32768 →
    Yields (.txTailWrite who t w) s (fun d => tqReg d e t 4 = bits w.toNat 0 15 ∧ d.eps = s.dev.eps ∧ d.lnd = s.dev.lnd ∧
      d.evs = s.dev.evs)) ∧
  (∀ (s : State) (e t : Nat) (x : TxDesc), running s.dev = true → e < 2 → t < 16 → (epOf s.dev e).up = true → s.dev.clk.ingress = true →
    bit (tqReg s.dev e t 0) 0 = true → txRingFree s.dev e t = true → txBusy s.dev e t = false → (txOf s.dev e t).skip = 0 →
    (txOf s.dev e t).tso = none → txWaits (txOf s.dev e t) = false → x = txDesc (ringBytes (txOf s.dev e t) (txOf s.dev e t).head 32) →
    badRecord s.dev x = false → x.tso = false → x.path = false → 32 + x.padded ≤ txAvail s.dev e t →
    arrivalFull s.dev (4 + e) = false → s.dev.brg.wait = [] →
    Yields (.txRecord e t) s (fun d => (txOf d e t).head = ((txOf s.dev e t).head + 32 + x.padded) % 32768 ∧
      (txOf d e t).comps = (txOf s.dev e t).comps ++ [newComp (txOf s.dev e t).nextNum x.cookie 0 true] ∧
      (∃ it, mapGet [] d.rte.lookup (4 + e) = mapGet [] s.dev.rte.lookup (4 + e) ++ [it] ∧ it.named = some x.route ∧
        it.pkt.data = ringBytes (txOf s.dev e t) ((txOf s.dev e t).head + 32) x.len ∧ it.pkt.ingress = 0x80 + e) ∧
      d.regs = s.dev.regs ∧ d.lnd = s.dev.lnd ∧ d.evs = s.dev.evs)) ∧
  (∀ (s : State) (e t : Nat) (x : TxDesc), arrivalFull s.dev (4 + e) = true → s.dev.brg.wait = [] → (txOf s.dev e t).skip = 0 →
    (txOf s.dev e t).tso = none → x = txDesc (ringBytes (txOf s.dev e t) (txOf s.dev e t).head 32) → badRecord s.dev x = false →
    x.tso = false → exec (.txRecord e t) s = .next (after s s.dev)) ∧
  (∀ (s : State) (who : Initiator) (e off : Nat) (w : Word) (l : Loc), endpointOf who = some e → MayWrite s.dev who off →
    locate off = some l → l.blk = .txWin → absent s.dev l = false → txOverrun s.dev e l.inst l.rel = true →
    exec (.registerWrite who off 4 w) s = .next (after s (if arrivalFull s.dev (4 + e) = true then
      { s.dev with brg := { s.dev.brg with wait := s.dev.brg.wait ++ [⟨who, .registerWrite who off 4 w, false⟩] } }
      else accErr s.dev who off 5))) ∧
  (∀ (s : State) (e t : Nat) (c : TxComp) (rest : List TxComp), running s.dev = true → e < 2 → (epOf s.dev e).up = true →
    (epOf s.dev e).bme = true → txRingFree s.dev e t = true → (txOf s.dev e t).comps = c :: rest → c.wait = false → c.frame = none →
    Yields (.txCompletion e t) s (fun d => (txOf d e t).comps = rest ∧ (txOf d e t).widx = ((txOf s.dev e t).widx + 1) % 65536 ∧
      Output.hostWrite e (tqBase s.dev e t + 16 * ((txOf s.dev e t).widx % max 1 (bits (tqReg s.dev e t 0x18) 0 13)))
        (txCompBytes c (txOf s.dev e t).phase) ∈ d.out ∧ d.lnd = s.dev.lnd ∧ d.regs = s.dev.regs ∧ d.evs = s.dev.evs)) ∧
  (∀ (s : State) (who : Initiator) (e r : Nat) (w : Word), endpointOf who = some e → r < 64 → MayWrite s.dev who (0x810004 + 0x40 * r) →
    mapSorted s.dev.regs = true →
    Yields (.rxBufferPost who r w) s (fun d => rqReg d e r 4 = bits w.toNat 0 8 ∧ d.eps = s.dev.eps ∧ d.lnd = s.dev.lnd ∧
      d.evs = s.dev.evs)) ∧
  (∀ (s : State) (e r : Nat) (it : LaneItem), running s.dev = true → e < 2 → r < 64 →
    (laneOf s.dev (16 * (4 + e) + r % 4)).items.find? (fun i => i.dest.q == qHost e r && i.got == i.n) = some it →
    rxReady s.dev e r (hostBytes it.pkt it.ecn).length = true → outFrozen s.dev 0 = false →
    Yields (.rxDelivery e r) s (fun d => (rxOf d e r).widx = ((rxOf s.dev e r).widx + 1) % 65536 ∧ (rxOf d e r).drops = 0 ∧
      (rxOf d e r).bhead = ((rxOf s.dev e r).bhead + bufsFor s.dev e r (hostBytes it.pkt it.ecn).length) % 256 ∧
      Output.hostWrite e (rqBase s.dev e r + 32 * ((rxOf s.dev e r).widx % max 1 (bits (rqReg s.dev e r 0x18) 0 13)))
        (rxCompBytes it.pkt it.dest it.ecn (hostBytes it.pkt it.ecn).length (bufsFor s.dev e r (hostBytes it.pkt it.ecn).length)
          (rxOf s.dev e r).bhead (rxOf s.dev e r).drops (rxOf s.dev e r).phase) ∈ d.out ∧ d.regs = s.dev.regs ∧ d.evs = s.dev.evs)) ∧
  (∀ (s : State) (e q : Nat), running s.dev = true → e < 2 → (epOf s.dev e).up = true → (epOf s.dev e).bme = true →
    bit (msixWord (epOf s.dev e) (4 * bits (tqReg s.dev e q 0) 16 6 + 3)) 0 = false → 0 < (txOf s.dev e q).unsig →
    (txOf s.dev e q).unsigAt + usCycles (modItr (tqReg s.dev e q 0x20)) ≤ s.dev.clk.tclk →
    Yields (.irqItrExpire e true q) s (fun d => (txOf d e q).unsig = 0 ∧
      Output.msix e (msixWord (epOf s.dev e) (4 * bits (tqReg s.dev e q 0) 16 6) +
        msixWord (epOf s.dev e) (4 * bits (tqReg s.dev e q 0) 16 6 + 1) * 2 ^ 32)
        (msixWord (epOf s.dev e) (4 * bits (tqReg s.dev e q 0) 16 6 + 2)) ∈ d.out ∧ d.lnd = s.dev.lnd ∧ d.regs = s.dev.regs)) ∧
  (∀ (s : State) (e q : Nat), running s.dev = true → e < 2 → (epOf s.dev e).up = true → (epOf s.dev e).bme = true →
    bit (msixWord (epOf s.dev e) (4 * bits (rqReg s.dev e q 0) 16 6 + 3)) 0 = false → 0 < (rxOf s.dev e q).unsig →
    (rxOf s.dev e q).unsigAt + usCycles (modItr (rqReg s.dev e q 0x20)) ≤ s.dev.clk.tclk →
    Yields (.irqItrExpire e false q) s (fun d => (rxOf d e q).unsig = 0 ∧
      Output.msix e (msixWord (epOf s.dev e) (4 * bits (rqReg s.dev e q 0) 16 6) +
        msixWord (epOf s.dev e) (4 * bits (rqReg s.dev e q 0) 16 6 + 1) * 2 ^ 32)
        (msixWord (epOf s.dev e) (4 * bits (rqReg s.dev e q 0) 16 6 + 2)) ∈ d.out ∧ d.lnd = s.dev.lnd ∧ d.regs = s.dev.regs)) ∧
  (∀ (s : State) (e q : Nat), (txOf s.dev e q).unsig = 0 → exec (.irqItrExpire e true q) s = .next (after s s.dev)) ∧
  (∀ (s : State) (e q : Nat), (rxOf s.dev e q).unsig = 0 → exec (.irqItrExpire e false q) s = .next (after s s.dev)) ∧
  (∀ (s : State) (who : Initiator) (e v : Nat), endpointOf who = some e → v < 64 → MayWrite s.dev who (0x80100C + 16 * v) →
    (epOf s.dev e).bme = true → (epOf s.dev e).pba.contains v = true →
    Yields (.msixUnmask who v) s (fun d => msixWord (epOf d e) (4 * v + 3) = 0 ∧
      (epOf d e).pba = (epOf s.dev e).pba.filter (fun x => x != v) ∧
      Output.msix e (msixWord (epOf s.dev e) (4 * v) + msixWord (epOf s.dev e) (4 * v + 1) * 2 ^ 32)
        (msixWord (epOf s.dev e) (4 * v + 2)) ∈ d.out ∧ d.lnd = s.dev.lnd ∧ d.regs = s.dev.regs)) ∧
  (∀ (s : State) (e v : Nat), running s.dev = true → e < 2 → (epOf s.dev e).up = true → (epOf s.dev e).pba = [v] →
    bit (msixWord (epOf s.dev e) (4 * v + 3)) 0 = false →
    Yields (.busMasterEnable e true) s (fun d => (epOf d e).bme = true ∧ (epOf d e).pba = [] ∧
      Output.msix e (msixWord (epOf s.dev e) (4 * v) + msixWord (epOf s.dev e) (4 * v + 1) * 2 ^ 32)
        (msixWord (epOf s.dev e) (4 * v + 2)) ∈ d.out ∧ d.lnd = s.dev.lnd ∧ d.regs = s.dev.regs)) ∧
  (∀ (s : State) (e : Nat), running s.dev = true → e < 2 → (epOf s.dev e).up = true →
    Yields (.busMasterEnable e false) s (fun d => epOf d e = { epOf s.dev e with bme := false } ∧
      (∀ o, o ≠ e → epOf d o = epOf s.dev o) ∧ d.lnd = s.dev.lnd)) ∧
  (∀ (s : State) (who : Initiator) (e p : Nat) (w : Word), endpointOf who = some e → p < 128 → MayWrite s.dev who (0x800400 + 4 * p) →
    mapSorted s.dev.regs = true → pageEp s.dev p = e + 1 → pageBusy s.dev p = false → bits w.toNat 4 4 ≠ 0 →
    bit (fld s.dev (0x800010 + 4 * e) 0 16) (bits w.toNat 4 4) = true →
    Yields (.pageDomainWrite who p w) s (fun d => fld d (0x800400 + 4 * p) 4 4 = bits w.toNat 4 4 ∧ pageOf d p = {} ∧
      (∀ o, o ≠ p → pageOf d o = pageOf s.dev o) ∧ d.lnd = s.dev.lnd ∧ d.evs = s.dev.evs)) ∧
  (∀ (s : State) (who : Initiator) (e p : Nat) (w : Word), endpointOf who = some e → p < 128 → MayWrite s.dev who (0x800400 + 4 * p) →
    mapSorted s.dev.regs = true → pageEp s.dev p = e + 1 → pageBusy s.dev p = true →
    Yields (.pageDomainWrite who p w) s (fun d => fld d (0x800400 + 4 * p) 8 1 = 1 ∧
      fld d (0x800400 + 4 * p) 4 4 = fld s.dev (0x800400 + 4 * p) 4 4 ∧ d.cry = s.dev.cry ∧ d.evs = s.dev.evs))

/-- The collector writes entries in order, and the read pointer, the mark and the release serve them. The next event due
leaves those that wait and stands at the end of its FIFO with its code, class and data, its stamp or the last stamp if
that is later, and the FIFO's next number; a full FIFO counts it as a loss instead. NEXT moves the read pointer past an
entry that is there, MARK keeps it, REWIND returns to it, and RELEASE frees every entry before it; none of them touches
another FIFO. -/
def Obligations.EventFifosAreWrittenAndRead : Prop :=
  (∀ (s : State) (bad : Bool) (f : Nat) (ev : Ev), running s.dev = true → nextEv s.dev = some ev → evqMap s.dev ev.code = [f] →
    (fifoOf s.dev f).lossCount = 0 → (fifoOf s.dev f).entries.length + 2 ≤ fifoCap s.dev →
    Yields (.eventEntryWrite bad) s (fun d => d.evs = s.dev.evs.erase ev ∧
      (fifoOf d f).entries = (fifoOf s.dev f).entries ++ [EvEntry.mk ev.code ev.cls ev.unsync
        (decide (ev.stamp < (fifoOf s.dev f).last)) (fifoOf s.dev f).seq (max ev.stamp (fifoOf s.dev f).last) ev.data bad] ∧ (fifoOf d f).seq = ((fifoOf s.dev f).seq + 1) % 2 ^ 32 ∧ (fifoOf d f).rd = (fifoOf s.dev f).rd ∧
      (∀ o, o ≠ f → fifoOf d o = fifoOf s.dev o) ∧ d.lnd = s.dev.lnd ∧ d.regs = s.dev.regs)) ∧
  (∀ (s : State) (bad : Bool) (f : Nat) (ev : Ev), running s.dev = true → nextEv s.dev = some ev → evqMap s.dev ev.code = [f] →
    (fifoOf s.dev f).lossCount = 0 → fifoCap s.dev < (fifoOf s.dev f).entries.length + 2 →
    Yields (.eventEntryWrite bad) s (fun d => d.evs = s.dev.evs.erase ev ∧ fifoOf d f = { fifoOf s.dev f with
        lossCount := 1, lossCode := ev.code, lossStamp := ev.stamp } ∧ (∀ o, o ≠ f → fifoOf d o = fifoOf s.dev o))) ∧
  (∀ (s : State) (bad : Bool), nextEv s.dev = none → exec (.eventEntryWrite bad) s = .next (after s s.dev)) ∧
  (∀ (s : State) (who : Initiator) (f : Nat), f < 8 → MayWrite s.dev who (0x802000 + 0x100 * f) →
    Yields (.evqNext who f) s (fun d => fifoOf d f = { fifoOf s.dev f with
        rd := if (fifoOf s.dev f).rd < (fifoOf s.dev f).entries.length then (fifoOf s.dev f).rd + 1 else (fifoOf s.dev f).rd } ∧
      (∀ o, o ≠ f → fifoOf d o = fifoOf s.dev o) ∧ d = settle { s.dev with fifos := d.fifos }) ∧
    Yields (.evqMark who f) s (fun d => fifoOf d f = { fifoOf s.dev f with mark := (fifoOf s.dev f).rd } ∧
      (∀ o, o ≠ f → fifoOf d o = fifoOf s.dev o) ∧ d = settle { s.dev with fifos := d.fifos }) ∧
    Yields (.evqRewind who f) s (fun d => fifoOf d f = { fifoOf s.dev f with rd := (fifoOf s.dev f).mark } ∧
      (∀ o, o ≠ f → fifoOf d o = fifoOf s.dev o) ∧ d = settle { s.dev with fifos := d.fifos })) ∧
  (∀ (s : State) (who : Initiator) (f : Nat), f < 8 → MayWrite s.dev who (0x802000 + 0x100 * f) → (fifoOf s.dev f).lossCount = 0 →
    Yields (.evqRelease who f) s (fun d => (fifoOf d f).entries = (fifoOf s.dev f).entries.drop (fifoOf s.dev f).rd ∧
      (fifoOf d f).rd = 0 ∧ (fifoOf d f).mark = 0 ∧ (fifoOf d f).seq = (fifoOf s.dev f).seq ∧
      (∀ o, o ≠ f → fifoOf d o = fifoOf s.dev o) ∧ d = settle { s.dev with fifos := d.fifos }))

/-- A register write stores its fields, a pair is read whole, and host SPI transactions are such accesses. A write of another
size or unaligned is an access error of kind 1 and stores nothing, and such a read answers all ones; a plain register takes its RW bits and clears its W1C
bits; the low word of a writable pair is held; an RWS word is staged and the register in force stays; a read of the low
word of a pair answers it and latches the word above for the initiator. A host SPI write whose CRC holds is its words
written in ascending order, and one whose CRC fails or that is cut short writes nothing and is counted; a whole read
answers its words with their CRC, and a read cut short shows CUT; an unknown CMD is counted. -/
def Obligations.RegisterAccessesAndHostSpi : Prop :=
  (∀ (s : State) (who : Initiator) (off size : Nat) (w : Word), canAccess s.dev who = true → waitsBehind s.dev who = false →
    size ≠ 4 ∨ off % 4 ≠ 0 →
    Yields (.registerWrite who off size w) s (fun d => d.regs = s.dev.regs ∧ d.shadow = s.dev.shadow ∧
      d.tally = (accErr s.dev who off 1).tally ∧ (mapGet {} d.acc (initIx who)).err = true)) ∧
  (∀ (s : State) (who : Initiator) (off : Nat) (w : Word) (l : Loc) (r : RegRow), MayWrite s.dev who off → locate off = some l →
    absent s.dev l = false → actsAt s.dev who off l w.toNat = none → rowAt l = some r → r.rws = 0 → r.pair = 0 →
    mapSorted s.dev.regs = true →
    Yields (.registerWrite who off 4 w) s (fun d =>
      regK d (placeKey who off l) = (mergeMask (mergeMask (regK s.dev (placeKey who off l)) w.toNat r.rw) 0 (w.toNat &&& r.w1c)) % 2 ^ 32 ∧
      (∀ k, k ≠ placeKey who off l → regK d k = regK s.dev k) ∧ d = settle { s.dev with regs := d.regs })) ∧
  (∀ (s : State) (who : Initiator) (off : Nat) (w : Word) (l : Loc) (r : RegRow), MayWrite s.dev who off → locate off = some l →
    absent s.dev l = false → actsAt s.dev who off l w.toNat = none → rowAt l = some r → r.rws = 0 → r.pair = 1 →
    Yields (.registerWrite who off 4 w) s (fun d => heldLow d who off = some w.toNat ∧ d = settle { s.dev with pairs := d.pairs })) ∧
  (∀ (s : State) (who : Initiator) (off g : Nat) (w : Word) (l : Loc) (r : RegRow), MayWrite s.dev who off → locate off = some l →
    absent s.dev l = false → actsAt s.dev who off l w.toNat = none → rowAt l = some r → r.rws ≠ 0 → groupOf l = some g →
    s.dev.com.window = false →
    Yields (.registerWrite who off 4 w) s (fun d => d.regs = s.dev.regs ∧
      mapGet? d.shadow off = some (BitVec.ofNat 32 (mergeMask (shadowWord s.dev off) w.toNat r.rws)) ∧
      (∀ k, k ≠ off → mapGet? d.shadow k = mapGet? s.dev.shadow k) ∧ d.com.dirty.contains g = true)) ∧
  (∀ (s : State) (who : Initiator) (off size : Nat), canAccess s.dev who = true → waitsBehind s.dev who = false → size ≠ 4 ∨ off % 4 ≠ 0 →
    Yields (.registerPairLowRead who ⟨off, size⟩) s (fun d => Output.completion who off 0xFFFFFFFF ∈ d.out ∧ d.pairs = s.dev.pairs ∧
      d.regs = s.dev.regs ∧ d.tally = (accErr s.dev who off 1).tally ∧ (mapGet {} d.acc (initIx who)).err = true)) ∧
  (∀ (s : State) (who : Initiator) (off : Nat) (l : Loc), MayWrite s.dev who off → locate off = some l →
    l.blk ≠ .brgWin → l.blk ≠ .evq → l.blk ≠ .page → pairLow l = true → latched s.dev who off l = none →
    Yields (.registerPairLowRead who ⟨off, 4⟩) s (fun d => Output.completion who off (BitVec.ofNat 32 (wordNow s.dev who off l)) ∈ d.out ∧
      (pairOf d who).latch = some (off, aboveLow s.dev who off l) ∧ d.regs = s.dev.regs ∧ d.lnd = s.dev.lnd ∧ d.evs = s.dev.evs)) ∧
  (∀ (s : State) (b : Bytes), running s.dev = true → hspiOp b = 2 → hspiWords b ≤ 64 → 5 + 4 * hspiWords b < b.length →
    crc8 (b.take (5 + 4 * hspiWords b)) = leAt b (5 + 4 * hspiWords b) 1 →
    exec (.hspiWrite b) s = .next (after s (misoOut (statusBytes s.dev b.length)
      ((List.range (hspiWords b)).foldl (fun d k => regWrite d .hspi (hspiOff b + 4 * k) 4 (BitVec.ofNat 32 (leAt b (5 + 4 * k) 4)))
        (statusSent s.dev))))) ∧
  (∀ (s : State) (b : Bytes), running s.dev = true → hspiOp b = 2 → hspiWords b ≤ 64 → 5 + 4 * hspiWords b < b.length →
    crc8 (b.take (5 + 4 * hspiWords b)) ≠ leAt b (5 + 4 * hspiWords b) 1 →
    Yields (.hspiWrite b) s (fun d => d.hspi.wcrc = true ∧ d.regs = s.dev.regs ∧ d.shadow = s.dev.shadow ∧
      d.tally = (bump s.dev hifCount 2).tally ∧ d.lnd = s.dev.lnd ∧ d.evs = s.dev.evs)) ∧
  (∀ (s : State) (b : Bytes) (n : Nat), running s.dev = true → hspiOp b = 0x0B → 5 ≤ b.length → hspiWords b ≤ 64 → hspiWords b ≤ n →
    ∃ d2 bs, hspiFetchAll (hspiOff b) (hspiWords b) (statusSent s.dev) = (d2, bs) ∧ bs.length = 4 * hspiWords b ∧
      exec (.hspiRead b n) s = .next (after s (misoOut (List.replicate 5 (BitVec.ofNat 8 (hspiStatus s.dev)) ++
        zeros (min 7 (Config.hspiWait s.dev.clk.tclk)) ++ [0xA5] ++ bs ++ leBytes 1 (crc8 bs)) d2))) ∧
  (∀ (s : State) (b : Bytes) (n : Nat), running s.dev = true → hspiOp b = 0x0B → 5 ≤ b.length → hspiWords b ≤ 64 → n < hspiWords b →
    Yields (.hspiRead b n) s (fun d => d.hspi.cut = true)) ∧
  (∀ (s : State) (c : Byte), running s.dev = true → c ≠ 2 → c ≠ 0x0B →
    Yields (.hspiBadCmd c) s (fun d => d.tally = (bump s.dev hifCount 0).tally ∧ d.regs = s.dev.regs ∧ d.lnd = s.dev.lnd ∧
      d.evs = s.dev.evs)) ∧
  (∀ (s : State) (b : Bytes), running s.dev = true → hspiOp b = 2 → b.length ≤ 5 + 4 * hspiWords b →
    Yields (.hspiCsRise b) s (fun d => d.hspi.cut = true ∧ d.regs = s.dev.regs ∧ d.shadow = s.dev.shadow ∧ d.lnd = s.dev.lnd))

/-- Bridge accesses take their numbers, join their bus and end with their results. An accepted write or read takes the next
sequence number and joins the queue of its bus; with a full queue an access waits, later accesses of its initiator wait
behind it, and the end of a transaction lets them take effect (log entry 119); the end of the transaction in progress
takes the head: a read answers its data to its initiator, a failed write is logged and reported; 64 µs after its
acceptance a read that has not begun is cancelled with all ones; a poll reads its register when its bus is empty, and a
change of its masked bits is reported. -/
def Obligations.BridgeAccessesGoInOrder : Prop :=
  (∀ (s : State) (who : Initiator) (off win o : Nat) (w : Word), MayWrite s.dev who off → brgWindow off = some (win, o) →
    (busQueue s.dev (farBus win)).length < 32 →
    Yields (.bridgeWrite who off w) s (fun d => d.brg.seq = (s.dev.brg.seq + 1) % 2 ^ 32 ∧
      (∃ a, busQueue d (farBus win) = (busQueue s.dev (farBus win) ++ [a]).modifyHead (fun x => { x with issued := true }) ∧ a.seq = s.dev.brg.seq ∧ a.who = brgNum who ∧ a.off = off ∧ a.write = true ∧ a.data = w) ∧
      (∀ b, b ≠ farBus win → busQueue d b = busQueue s.dev b) ∧ d.regs = s.dev.regs ∧ d.lnd = s.dev.lnd ∧ d.evs = s.dev.evs)) ∧
  (∀ (s : State) (who : Initiator) (off win o : Nat) (w : Word), MayWrite s.dev who off → brgWindow off = some (win, o) →
    32 ≤ (busQueue s.dev (farBus win)).length →
    exec (.bridgeWrite who off w) s = .next (after s { s.dev with brg := { s.dev.brg with wait := s.dev.brg.wait ++ [⟨who, .bridgeWrite who off w, false⟩] } })) ∧
  (∀ (s : State) (who : Initiator) (off win o : Nat), MayWrite s.dev who off → brgWindow off = some (win, o) →
    (busQueue s.dev (farBus win)).length < 32 →
    Yields (.bridgeRead who off) s (fun d => d.brg.seq = (s.dev.brg.seq + 1) % 2 ^ 32 ∧
      (∃ a, busQueue d (farBus win) = (busQueue s.dev (farBus win) ++ [a]).modifyHead (fun x => { x with issued := true }) ∧
        a.seq = s.dev.brg.seq ∧ a.who = brgNum who ∧ a.off = off ∧ a.write = false) ∧
      (∀ b, b ≠ farBus win → busQueue d b = busQueue s.dev b) ∧ d.regs = s.dev.regs ∧ d.evs = s.dev.evs)) ∧
  (∀ (s : State) (who : Initiator) (off win o : Nat), MayWrite s.dev who off → brgWindow off = some (win, o) →
    32 ≤ (busQueue s.dev (farBus win)).length →
    exec (.bridgeRead who off) s = .next (after s { s.dev with brg := { s.dev.brg with wait := s.dev.brg.wait ++ [⟨who, .bridgeRead who off, false⟩] } })) ∧
  (∀ (s : State) (who : Initiator) (off size : Nat) (w : Word), canAccess s.dev who = true → waitsBehind s.dev who = true →
    exec (.registerWrite who off size w) s = .next (after s { s.dev with
      brg := { s.dev.brg with wait := s.dev.brg.wait ++ [⟨who, .registerWrite who off size w, false⟩] } }) ∧
    exec (.registerPairLowRead who ⟨off, size⟩) s = .next (after s { s.dev with
      brg := { s.dev.brg with wait := s.dev.brg.wait ++ [⟨who, .registerPairLowRead who ⟨off, size⟩, false⟩] } })) ∧
  (∀ (s : State) (b : Nat) (res : FarRes) (x : BrgWait) (d : Dev), s.dev.brg.wait = [x] → x.gone = false → bridgeOp x.cmd = none →
    d = modBrg (brgFarDone s.dev b res) (fun g => { g with wait := [] }) → windowReady d x.cmd = true →
    exec (.bridgeFarDone b res) s = .next (after s (effectOf (accessOf x.cmd) d))) ∧
  (∀ (s : State) (b : Nat) (a : BrgAcc) (w : Word), running s.dev = true → busQueue s.dev b = [a] → a.issued = true → a.write = false →
    a.dead = false → a.kind = 0 → s.dev.brg.wait = [] → mapSorted s.dev.brg.queues = true →
    Yields (.bridgeFarDone b (.ok w)) s (fun d => busQueue d b = [] ∧ (∀ c, c ≠ b → busQueue d c = busQueue s.dev c) ∧
      Output.completion (brgWho a.who) a.off (BitVec.ofNat 32 (farData s.dev (accWin a).1 (accWin a).2 w.toNat)) ∈ d.out ∧
      d.regs = s.dev.regs ∧ d.evs = s.dev.evs)) ∧
  (∀ (s : State) (b r : Nat) (a : BrgAcc), running s.dev = true → busQueue s.dev b = [a] → a.issued = true → a.write = true →
    s.dev.brg.wait = [] → mapSorted s.dev.brg.queues = true →
    Yields (.bridgeFarDone b (.failed r)) s (fun d => busQueue d b = [] ∧ d.brg.logNext = s.dev.brg.logNext + 1 ∧
      d.evs = s.dev.evs ++ [evNow s.dev 0x1010 0 (e4 a.seq ++ e4 a.off ++ e4 a.data.toNat ++ e1 a.who ++ e1 r)] ∧
      d.regs = s.dev.regs)) ∧
  (∀ (s : State) (b : Nat) (res : FarRes), busQueue s.dev b = [] → s.dev.brg.wait = [] →
    exec (.bridgeFarDone b res) s = .next (after s s.dev)) ∧
  (∀ (s : State) (b : Nat) (a : BrgAcc), running s.dev = true → s.dev.brg.queues = [(b, [a])] → a.write = false → a.kind = 0 →
    a.dead = false → a.issued = false → s.dev.brg.wait = [] →
    Yields (.bridgeReadTimeout a.seq) s (fun d => busQueue d b = [] ∧ d.brg.rderr = true ∧
      Output.completion (brgWho a.who) a.off 0xFFFFFFFF ∈ d.out ∧
      d.evs = s.dev.evs ++ [evNow s.dev 0x1011 0 (e4 a.seq ++ e4 a.off ++ e1 a.who ++ e1 5)] ∧ d.regs = s.dev.regs)) ∧
  (∀ (s : State) (k : Nat), running s.dev = true → k < 16 → bit (reg s.dev (0x900100 + 0xC * k)) 0 = true →
    bits (reg s.dev (0x900100 + 0xC * k)) 1 3 ≠ 7 → busQueue s.dev (farBus (bits (reg s.dev (0x900100 + 0xC * k)) 1 3)) = [] →
    Yields (.bridgePoll k) s (fun d => ∃ a, busQueue d (farBus (bits (reg s.dev (0x900100 + 0xC * k)) 1 3)) = [a] ∧ a.kind = 2 ∧ a.poll = k ∧
      a.who = 3 ∧ a.issued = true ∧ a.write = false ∧ d.regs = s.dev.regs ∧ d.evs = s.dev.evs)) ∧
  (∀ (s : State) (k : Nat), running s.dev = true → bit (reg s.dev (0x900100 + 0xC * k)) 0 = true →
    busQueue s.dev (farBus (bits (reg s.dev (0x900100 + 0xC * k)) 1 3)) ≠ [] → exec (.bridgePoll k) s = .next (after s s.dev)) ∧
  (∀ (s : State) (b : Nat) (a : BrgAcc) (w : Word), running s.dev = true → busQueue s.dev b = [a] → a.issued = true → a.write = false →
    a.dead = false → a.kind = 2 → s.dev.brg.wait = [] → farData s.dev (accWin a).1 (accWin a).2 w.toNat < 65536 →
    ((mapGet 0 s.dev.brg.pollVal a.poll ^^^ farData s.dev (accWin a).1 (accWin a).2 w.toNat) &&&
      bits (reg s.dev (0x900100 + 0xC * a.poll)) 16 16) ≠ 0 →
    Yields (.bridgeFarDone b (.ok w)) s (fun d =>
      mapGet? d.brg.pollVal a.poll = some (farData s.dev (accWin a).1 (accWin a).2 w.toNat) ∧
      d.evs = s.dev.evs ++ [evNow s.dev 0x1012 0 (e1 a.poll ++ e2 (mapGet 0 s.dev.brg.pollVal a.poll) ++
        e2 (farData s.dev (accWin a).1 (accWin a).2 w.toNat))]))

/-- An indirect I2C read takes a number, answers by BRG_I2C_DONE, and is refused while one is outstanding. BRG_IRDREQ queues
an access of the I2C bus under the next bridge sequence number and holds its initiator's one place; its end on the bus
places data and status in BRG_IRDRES and raises BRG_I2C_DONE with the sequence number, the data and the status, and frees
the place; a second request of the same initiator meanwhile queues nothing and sets IRDBUSY; a request that finds the
queue of the I2C bus full, or an earlier access of its initiator waiting, waits as the posted write it is (the model's
order of waiting is log entry 119). -/
def Obligations.IndirectI2cReadsAnswerByEvent : Prop :=
  (∀ (s : State) (who : Initiator) (w : Word), MayWrite s.dev who 0x900040 → s.dev.brg.irdOpen.contains (brgNum who) = false →
    (busQueue s.dev 4).length < 32 →
    Yields (.i2cIndirectRead who w) s (fun d => d.brg.seq = (s.dev.brg.seq + 1) % 2 ^ 32 ∧
      d.brg.irdOpen = s.dev.brg.irdOpen ++ [brgNum who] ∧ d.brg.irdbusy = s.dev.brg.irdbusy ∧
      (∃ a, busQueue d 4 = (busQueue s.dev 4 ++ [a]).modifyHead (fun x => { x with issued := true }) ∧ a.seq = s.dev.brg.seq ∧
        a.who = brgNum who ∧ a.kind = 1 ∧ a.write = false ∧ a.data = BitVec.ofNat 32 w.toNat) ∧
      d.regs = s.dev.regs ∧ d.lnd = s.dev.lnd ∧ d.evs = s.dev.evs)) ∧
  (∀ (s : State) (b : Nat) (a : BrgAcc) (res : FarRes), running s.dev = true → busQueue s.dev b = [a] → a.issued = true →
    a.write = false → a.dead = false → a.kind = 1 → s.dev.brg.wait = [] →
    Yields (.bridgeFarDone b res) s (fun d => d.brg.irdOpen = s.dev.brg.irdOpen.filter (fun x => x != a.who) ∧
      (∀ w, res = .ok w → mapGet? d.brg.irdRes a.who = some (if bit a.data.toNat 16 then w.toNat % 65536 else w.toNat % 256) ∧
        d.evs = s.dev.evs ++ [evNow s.dev 0x1013 0 (e4 a.seq ++
          e2 (if bit a.data.toNat 16 then w.toNat % 65536 else w.toNat % 256) ++ e1 0)]) ∧
      (∀ r, res = .failed r → mapGet? d.brg.irdRes a.who = some (r % 16 * 65536) ∧
        d.evs = s.dev.evs ++ [evNow s.dev 0x1013 0 (e4 a.seq ++ e2 0 ++ e1 r)]) ∧ d.lnd = s.dev.lnd)) ∧
  (∀ (s : State) (who : Initiator) (w : Word), MayWrite s.dev who 0x900040 → s.dev.brg.irdOpen.contains (brgNum who) = true →
    exec (.i2cIndirectRead who w) s = .next (after s { s.dev with brg := { s.dev.brg with irdbusy := true } })) ∧
  (∀ (s : State) (who : Initiator) (w : Word), MayWrite s.dev who 0x900040 → s.dev.brg.irdOpen.contains (brgNum who) = false →
    32 ≤ (busQueue s.dev 4).length →
    exec (.i2cIndirectRead who w) s = .next (after s { s.dev with
      brg := { s.dev.brg with wait := s.dev.brg.wait ++ [⟨who, .i2cIndirectRead who w, false⟩] } })) ∧
  (∀ (s : State) (who : Initiator) (w : Word), canAccess s.dev who = true → waitsBehind s.dev who = true →
    exec (.i2cIndirectRead who w) s = .next (after s { s.dev with
      brg := { s.dev.brg with wait := s.dev.brg.wait ++ [⟨who, .i2cIndirectRead who w, false⟩] } }))

/-- Triggers start the post window, the window freezes the trace, and a frozen trace is read out or released. A soft trigger
or a CRASH_IN edge with its source enabled moves a running recorder to POST with its trigger waiting; a frame's record
advances WPTR and SEQ in a slot that the recorder holds; POSTMS passed freezes at a boundary where no trigger waits; in FROZEN a RELEASE is noted for the
wheel boundary, refused with RELERR while a readout runs, and without effect in any other state; GO starts a readout of a
frozen trace, ABORT ends it with RESULT 1, and its end reports RESULT 0 with the bytes written. -/
def Obligations.RecorderTriggersFreezesAndReadsOut : Prop :=
  (∀ (s : State) (who : Initiator), MayWrite s.dev who 0xA00000 → s.dev.rcd.st = 1 → flag s.dev 0xA00000 9 = true →
    Yields (.recSoftTrigger who) s (fun d => d.rcd = { s.dev.rcd with
        st := 2, src := 1, trigTime := nowNs s.dev, segsDone := 0,
        trigs := [Trig.mk 1 (nowNs s.dev) 0 false (!synced s.dev)] } ∧ d = settle { s.dev with rcd := d.rcd })) ∧
  (∀ s : State, running s.dev = true → s.dev.clk.pinsOn = true → roleRecs s.dev 4 ≠ [] → s.dev.rcd.st = 1 → flag s.dev 0xA00000 8 = true →
    Yields .crashIn s (fun d => d.rcd.st = 2 ∧ d.rcd.src = 0 ∧ d.rcd.trigTime = nowNs s.dev ∧ d = settle { s.dev with rcd := d.rcd })) ∧
  (∀ (s : State) (who : Initiator), flag s.dev 0xA00000 9 = false → MayWrite s.dev who 0xA00000 →
    exec (.recSoftTrigger who) s = .next (after s s.dev)) ∧
  (∀ (s : State) (it : LaneItem), running s.dev = true → s.dev.rcd.st = 1 → recItem s.dev = some it →
    (frameRecord s.dev it (it.dest.q - 392)).1.length ≤ segLeft s.dev.rcd.wptr → slotHeld s.dev 5 0x42 = true →
    outFrozen s.dev 0 = false →
    Yields .recordWrite s (fun d => d.rcd.seq = (s.dev.rcd.seq + 1) % 2 ^ 32 ∧
      d.rcd.wptr = (s.dev.rcd.wptr + (frameRecord s.dev it (it.dest.q - 392)).1.length) % max 1 (recBytes s.dev) ∧
      mapGet? d.rcd.mem s.dev.rcd.wptr = some (frameRecord s.dev it (it.dest.q - 392)).1 ∧ d.rcd.st = 1 ∧ d.regs = s.dev.regs ∧
      d.evs = s.dev.evs)) ∧
  (∀ s : State, running s.dev = true → s.dev.rcd.st = 2 → s.dev.rcd.trigs = [] → msPassed s.dev = true →
    Yields .recPostmsExpire s (fun d => d.rcd.st = 3 ∧ d.rcd.why = (if postSeg s.dev ≤ s.dev.rcd.segsDone then 0 else 1) ∧
      d.rcd.mem = s.dev.rcd.mem ∧ d.rcd.wptr = s.dev.rcd.wptr ∧
      d.evs = s.dev.evs ++ [evNow s.dev 0x1102 0 (e1 d.rcd.why ++ e4 (s.dev.rcd.wptr % 2 ^ 32) ++ e4 s.dev.rcd.seq)])) ∧
  (∀ s : State, s.dev.rcd.st ≠ 2 → exec .recPostmsExpire s = .next (after s s.dev)) ∧
  (∀ (s : State) (who : Initiator), MayWrite s.dev who 0xA00000 →
    exec (.recRelease who) s = .next (after s (if s.dev.rcd.st = 3 then
      (if s.dev.rcd.readout.busy then { s.dev with rcd := { s.dev.rcd with relErr := true } }
       else { s.dev with rcd := { s.dev.rcd with relDue := true } }) else s.dev))) ∧
  (∀ (s : State) (who : Initiator) (e : Nat), endpointOf who = some e → MayWrite s.dev who 0xA00064 → s.dev.rcd.readout.busy = false →
    s.dev.rcd.st = 3 → (epOf s.dev e).bme = true → slotsOf s.dev 5 0x44 ≠ 0 → reg s.dev 0xA00060 / 64 ≠ 0 →
    reg s.dev 0xA00060 / 64 * 64 ≤ 2 ^ 28 →
    Yields (.readoutGo who) s (fun d => d.rcd.readout.busy = true ∧ d.rcd.readout.e = e ∧ d.rcd.readout.src = regPair s.dev 0xA00050 ∧
      d.rcd.readout.dst = regPair s.dev 0xA00058 ∧ d.rcd.readout.len = reg s.dev 0xA00060 / 64 * 64 ∧ d = settle { s.dev with rcd := d.rcd })) ∧
  (∀ (s : State) (who : Initiator) (e : Nat), endpointOf who = some e → MayWrite s.dev who 0xA00064 → s.dev.rcd.readout.busy = false →
    s.dev.rcd.st ≠ 3 →
    Yields (.readoutGo who) s (fun d => d.rcd.readout.busy = false ∧ d.rcd.readout.result = 2 ∧ d.rcd.readout.done = true ∧
      d.evs = s.dev.evs ++ [evNow s.dev 0x1103 0 (e1 2 ++ eCount 0 ++ eCount 0)])) ∧
  (∀ (s : State) (who : Initiator), MayWrite s.dev who 0xA00064 → s.dev.rcd.readout.busy = true →
    Yields (.readoutAbort who) s (fun d => d.rcd.readout.busy = false ∧ d.rcd.readout.result = 1 ∧ d.rcd.readout.done = true ∧
      d.evs = s.dev.evs ++ [evNow s.dev 0x1103 0 (e1 1 ++ eCount 0 ++ eCount 0)] ∧ d.lnd = s.dev.lnd)) ∧
  (∀ s : State, running s.dev = true → s.dev.rcd.readout.busy = true →
    Yields (.recReadoutDone ⟨[], 0⟩) s (fun d => d.rcd.readout.busy = false ∧ d.rcd.readout.result = 0 ∧
      (∀ u, u < s.dev.rcd.readout.len / 64 →
        Output.hostWrite s.dev.rcd.readout.e (s.dev.rcd.readout.dst + 64 * u) (readoutUnit s.dev [] u) ∈ d.out) ∧
      d.evs = s.dev.evs ++ [evNow s.dev 0x1103 0 (e1 0 ++ eCount s.dev.rcd.readout.len ++ eCount 0)]))

/-- An update is written, verified, armed, confirmed or given up. A WRITE of a good block into a delta session stages its
bytes, and one that breaks its range, its CRC or a byte already programmed changes no byte; VERIFY of a full session that
passes its checks writes the slot VERIFIED, and one that fails answers the code of the first check; ARM makes the target
ACTIVE on trial; ABORT ends the session; a trial whose time is over, or FALLBACK, names the other slot in the boot record
and reports it; CONFIRM of the booted trial slot confirms it; RESET waits for the wheel boundary. -/
def Obligations.UpdatesAreVerifiedArmedAndConfirmed : Prop :=
  (∀ (s : State) (who : Initiator) (res : FlashRes), MayWrite s.dev who 0xB00000 → svcUp s.dev 7 = true → updMode s.dev = false → updOther s.dev who = false →
    s.dev.upd.sess = 1 → streamOver s.dev = true → s.dev.upd.isDelta = true → 0 < fld s.dev 0xB00010 0 13 → fld s.dev 0xB00010 0 13 ≤ 4096 →
    fld s.dev 0xB0000C 0 26 + fld s.dev 0xB00010 0 13 ≤ updLen s.dev →
    crc32 (updBuf s.dev (fld s.dev 0xB00010 0 13)) = reg s.dev 0xB00014 → s.dev.upd.prog = [] →
    Yields (.updWrite who res) s (fun d => d.upd.status = 0 ∧ d.upd.sess = 1 ∧
      (∀ i, i < fld s.dev 0xB00010 0 13 → mapGet? d.upd.staging (fld s.dev 0xB0000C 0 26 + i) =
        some (nth 0 (updBuf s.dev (fld s.dev 0xB00010 0 13)) i)) ∧
      d.upd.done = s.dev.upd.done + fld s.dev 0xB00010 0 13 ∧ d.flash = s.dev.flash ∧ d.regs = s.dev.regs)) ∧
  (∀ (s : State) (who : Initiator) (res : FlashRes), MayWrite s.dev who 0xB00000 → svcUp s.dev 7 = true → updMode s.dev = false → updOther s.dev who = false →
    s.dev.upd.sess = 1 → streamOver s.dev = true →
    (fld s.dev 0xB00010 0 13 = 0 ∨ 4096 < fld s.dev 0xB00010 0 13 ∨
      updLen s.dev < fld s.dev 0xB0000C 0 26 + fld s.dev 0xB00010 0 13) →
    Yields (.updWrite who res) s (fun d => d.upd = { s.dev.upd with status := 6 } ∧ d.flash = s.dev.flash ∧ d.regs = s.dev.regs)) ∧
  (∀ (s : State) (who : Initiator), MayWrite s.dev who 0xB00000 → svcUp s.dev 7 = true → updMode s.dev = false → updOther s.dev who = false →
    s.dev.upd.sess = 1 → s.dev.upd.done = updLen s.dev → s.dev.upd.isDelta = false →
    (∀ c, slotVerify s.dev s.dev.upd.target = some c →
      Yields (.updVerify who) s (fun d => d.upd = { s.dev.upd with code := c, status := 10 } ∧ d.flash = s.dev.flash)) ∧
    (slotVerify s.dev s.dev.upd.target = none → s.dev.upd.target < 2 →
      Yields (.updVerify who) s (fun d => d.upd.sess = 3 ∧ d.upd.status = 0 ∧ d.upd.code = 0 ∧
        slotState d.upd.brec s.dev.upd.target = 2 ∧ d.upd.brec.seq = s.dev.upd.brec.seq + 1))) ∧
  (∀ (s : State) (who : Initiator), MayWrite s.dev who 0xB00000 → svcUp s.dev 7 = true → updMode s.dev = false → updOther s.dev who = false →
    s.dev.upd.sess = 3 → s.dev.upd.isDelta = false → s.dev.upd.target < 2 →
    Yields (.updArm who) s (fun d => d.upd.sess = 4 ∧ d.upd.status = 0 ∧ d.upd.brec.active = s.dev.upd.target ∧
      slotState d.upd.brec s.dev.upd.target = 3 ∧ (fld s.dev 0xB0001C 0 3 ≠ 0 → d.upd.brec.left = fld s.dev 0xB0001C 0 3) ∧
      (fld s.dev 0xB0001C 16 16 ≠ 0 → d.upd.brec.secs = fld s.dev 0xB0001C 16 16))) ∧
  (∀ (s : State) (who : Initiator), MayWrite s.dev who 0xB00000 → svcUp s.dev 7 = true → updMode s.dev = false → updOther s.dev who = false →
    s.dev.upd.sess ≠ 0 →
    Yields (.updAbort who) s (fun d => d.upd.sess = 0 ∧ d.upd.staging = [] ∧ d.upd.status = 0 ∧
      (s.dev.upd.sess ≠ 4 → d.upd.brec = s.dev.upd.brec ∧ d.flash = s.dev.flash) ∧
      (s.dev.upd.sess = 4 → s.dev.upd.target < 2 → d.upd.brec.active = s.dev.upd.booted ∧
        slotState d.upd.brec s.dev.upd.target = 2))) ∧
  (∀ s : State, running s.dev = true → trialOver s.dev = true → s.dev.upd.booted < 2 →
    Yields .trialExpire s (fun d => d.upd.brec.active = 1 - s.dev.upd.booted ∧ slotState d.upd.brec s.dev.upd.booted = 6 ∧
      d.upd.expired = true ∧ d.evs = s.dev.evs ++ [evNow s.dev 0x1204 0 (e1 s.dev.upd.booted ++ e1 0)] ∧ d.lnd = s.dev.lnd)) ∧
  (∀ s : State, trialOver s.dev = false → exec .trialExpire s = .next (after s s.dev)) ∧
  (∀ (s : State) (who : Initiator) (b : Bool), MayWrite s.dev who 0xB00000 → updMode s.dev = false → s.dev.clk.mode ≠ .m5 →
    strapsFree s.dev = true → s.dev.upd.expired = false → b.toNat = s.dev.upd.booted → slotState s.dev.upd.brec s.dev.upd.booted = 3 →
    trialOver s.dev = false →
    Yields (.updConfirm who b) s (fun d => slotState d.upd.brec s.dev.upd.booted = 4 ∧ d.upd.status = 0 ∧
      d.upd.sess = s.dev.upd.sess ∧ ∃ e ∈ d.evs, e.code = 0x1203)) ∧
  (∀ (s : State) (who : Initiator), MayWrite s.dev who 0xB00000 → svcUp s.dev 7 = true → updMode s.dev = false → updOther s.dev who = false →
    (s.dev.upd.sess = 0 ∨ s.dev.upd.isDelta = false) →
    Yields (.updReset who) s (fun d => d.upd = { s.dev.upd with resetDue := true, status := 0 } ∧ d.lnd = s.dev.lnd ∧
      d.clk = s.dev.clk)) ∧
  (∀ (s : State) (who : Initiator), MayWrite s.dev who 0xB00000 → updMode s.dev = false → strapsFree s.dev = true →
    slotBootable s.dev.upd.brec (1 - s.dev.upd.booted) = true →
    Yields (.fallback who) s (fun d => d.clk.selfReset = true ∧ flRead d (0x1000 * (if s.dev.upd.brec.valid then 1 - s.dev.upd.brec.copy
      else 0)) 64 = flRead (trialFall s.dev 2) (0x1000 * (if s.dev.upd.brec.valid then 1 - s.dev.upd.brec.copy else 0)) 64))

/-- One session is open at a time, and its opener owns it. OPEN from PCIE0, PCIE1, the host SPI port or Eopod, where no
session is open and nothing else turns it away, opens a session that its initiator owns; while one is open its owner's
OPEN opens no second one (STATUS 3); a session command of any other initiator answers STATUS 2 and changes nothing else of
the update, outside the modes in which every command is refused; and with the cores of the update service stopped (R34) a
session command changes nothing. -/
def Obligations.UpdateSessionHasOneOwner : Prop :=
  (∀ (s : State) (who : Initiator) (delta : Bool) (c : Instr), c = (if delta then Instr.updOpenDelta who else Instr.updOpen who) →
    MayWrite s.dev who 0xB00000 → svcUp s.dev 7 = true → updMode s.dev = false → who ≠ .jtag → s.dev.upd.sess = 0 →
    slotState s.dev.upd.brec s.dev.upd.booted ≠ 3 → targetArmed s.dev = false → (delta = false → strapsFree s.dev = true) →
    updLen s.dev ≤ (if delta then 262144 else 48 * 1048576) →
    Yields c s (fun d => d.upd.sess = 1 ∧ d.upd.owner = ownerNum who ∧ d.upd.isDelta = delta ∧ d.upd.target = targetSlot s.dev ∧
      d.upd.done = 0 ∧ d.upd.status = 0 ∧ d.regs = s.dev.regs ∧ d.lnd = s.dev.lnd)) ∧
  (∀ (s : State) (who : Initiator) (c : Instr), c = .updOpen who ∨ c = .updOpenDelta who →
    MayWrite s.dev who 0xB00000 → svcUp s.dev 7 = true → updMode s.dev = false → s.dev.upd.sess ≠ 0 → s.dev.upd.owner = ownerNum who → who ≠ .jtag →
    slotState s.dev.upd.brec s.dev.upd.booted ≠ 3 →
    Yields c s (fun d => d.upd = { s.dev.upd with status := 3 } ∧ d.flash = s.dev.flash ∧ d.regs = s.dev.regs)) ∧
  (∀ (s : State) (who : Initiator) (res : FlashRes) (c : Instr),
    c = .updOpen who ∨ c = .updOpenDelta who ∨ c = .updWrite who res ∨ c = .updVerify who ∨ c = .updArm who ∨ c = .updAbort who ∨
      c = .updReset who → MayWrite s.dev who 0xB00000 → svcUp s.dev 7 = true → updMode s.dev = false → s.dev.upd.sess ≠ 0 → s.dev.upd.owner ≠ ownerNum who →
    Yields c s (fun d => d.upd = { s.dev.upd with status := 2 } ∧ d.flash = s.dev.flash ∧ d.com = s.dev.com ∧ d.regs = s.dev.regs ∧
      d.lnd = s.dev.lnd)) ∧
  (∀ (s : State) (who : Initiator) (res : FlashRes) (c : Instr),
    c = .updOpen who ∨ c = .updOpenDelta who ∨ c = .updWrite who res ∨ c = .updVerify who ∨ c = .updArm who ∨ c = .updAbort who ∨
      c = .updReset who → MayWrite s.dev who 0xB00000 → svcUp s.dev 7 = false → exec c s = .next (after s s.dev))

/-- A clear control asks for its clear, which the next wheel boundary makes. A write of a clear control counts nothing and
clears no Tally counter by itself: it adds to the clears that wait for the wheel boundary exactly those of the bits that
are set, over the counters of its block, or of the instance that a selector names, and without a bit it asks for none.
FLT_CLR and NMC_CLR clear FLT_RECMAX and the offender log by the write (log entry 84). -/
def Obligations.ClearsAreAskedForAndComeAtTheBoundary : Prop :=
  (∀ (s : State) (who : Initiator) (w : Word) (c : Instr) (off lo hi : Nat),
    (c, off, lo, hi) = (Instr.milClr who w, 0x6001F0, 0x600100, 0x600180) ∨ (c, off, lo, hi) = (Instr.kvtClr who w, 0x7C02F0, 0x7C0200, 0x7C0210) ∨
      (c, off, lo, hi) = (Instr.recClr who w, 0xA001F0, 0xA00100, 0xA00130) ∨ (c, off, lo, hi) = (Instr.updClr who w, 0xB000F0, 0xB00040, 0xB00050) →
    MayWrite s.dev who off →
    exec c s = .next (after s (if bit w.toNat 0 then { s.dev with clears := s.dev.clears ++ [⟨lo, hi, none⟩] } else s.dev))) ∧
  (∀ (s : State) (who : Initiator) (w : Word), MayWrite s.dev who 0x10070 →
    exec (.ckpClr who w) s = .next (after s { s.dev with clears := s.dev.clears ++
      (if bit w.toNat 0 then [⟨0x10018, 0x10018, none⟩] else []) ++ (if bit w.toNat 1 then [⟨0x10020, 0x10020, none⟩] else []) ++
      (if bit w.toNat 2 then [⟨0x10028, 0x10028, none⟩] else []) })) ∧
  (∀ (s : State) (who : Initiator) (w : Word), MayWrite s.dev who 0x30070 →
    exec (.swhClr who w) s = .next (after s { s.dev with clears := s.dev.clears ++
      (if bit w.toNat 0 then [⟨0x30028, 0x30048, some (selXing s.dev)⟩] else []) ++
      (if bit w.toNat 1 then [⟨0x30028, 0x30048, none⟩] else []) })) ∧
  (∀ (s : State) (who : Initiator) (ch : Nat) (w : Word), ch < 24 → MayWrite s.dev who (canBase ch + 0x1F0) →
    exec (.canClr who ch w) s = .next (after s (if bit w.toNat 0 then { s.dev with
      clears := s.dev.clears ++ [⟨canBase ch + 0x100, canBase ch + 0x188, none⟩] } else s.dev))) ∧
  (∀ (s : State) (who : Initiator) (p : Nat) (w : Word), p < 9 → MayWrite s.dev who (ethBase p + 0x1F0) →
    exec (.ethClr who p w) s = .next (after s (if bit w.toNat 0 then { s.dev with
      clears := s.dev.clears ++ [⟨ethBase p + 0x100, ethBase p + 0x1A0, none⟩] } else s.dev))) ∧
  (∀ (s : State) (who : Initiator) (w : Word), MayWrite s.dev who 0x5000F0 →
    exec (.lndClr who w) s = .next (after s { s.dev with clears := s.dev.clears ++
      (if bit w.toNat 0 then [⟨0x500040, 0x500078, some (fld s.dev 0x500030 0 9)⟩] else []) ++
      (if bit w.toNat 1 then [⟨0x500080, 0x500090, some (fld s.dev 0x500034 0 4)⟩] else []) ++
      (if bit w.toNat 2 then [⟨0x500040, 0x5000C0, none⟩] else []) })) ∧
  (∀ (s : State) (who : Initiator) (w : Word), MayWrite s.dev who 0x5800F4 →
    exec (.rteClr who w) s = .next (after s { s.dev with clears := s.dev.clears ++
      (if bit w.toNat 0 then [⟨0x580300, 0x580378, some (fld s.dev 0x580044 0 3)⟩] else []) ++
      (if bit w.toNat 1 then [⟨rteAllMark, 0x580378, none⟩] else []) })) ∧
  (∀ (s : State) (who : Initiator) (w : Word), MayWrite s.dev who 0x7808F0 →
    exec (.cryClr who w) s = .next (after s { s.dev with clears := s.dev.clears ++
      (if bit w.toNat 0 then [⟨0x780840, 0x780860, some (fld s.dev 0x780020 0 3)⟩] else []) ++
      (if bit w.toNat 1 then [⟨0x780800, 0x780860, none⟩] else []) })) ∧
  (∀ (s : State) (who : Initiator) (w : Word), MayWrite s.dev who 0x200F0 →
    Yields (.fltClr who w) s (fun d => d.clears = s.dev.clears ++
      (if bit w.toNat 0 then [⟨0x20040, 0x20060, some (fld s.dev 0x20010 0 5)⟩] else []) ++
      (if bit w.toNat 1 then [⟨0x20040, 0x20068, none⟩] else []) ∧
      d.flt.recMax = (if bit w.toNat 1 then 0 else s.dev.flt.recMax) ∧ d.tally = s.dev.tally ∧ d.regs = s.dev.regs)) ∧
  (∀ (s : State) (who : Initiator) (w : Word), MayWrite s.dev who 0x7E00F0 →
    Yields (.nmcClr who w) s (fun d => d.nmc.log = (if bit w.toNat 2 then [] else s.dev.nmc.log) ∧
      d.nmc.clusters = s.dev.nmc.clusters ∧ d.tally = s.dev.tally ∧ d.regs = s.dev.regs ∧
      d.clears.length = s.dev.clears.length + (if bit w.toNat 0 then 2 else 0) + (if bit w.toNat 1 then 1 else 0))) ∧
  (∀ (s : State) (who : Initiator) (w : Word), MayWrite s.dev who 0x8000F0 →
    Yields (.hifClr who w) s (fun d => (bit w.toNat 0 = false → d.clears = s.dev.clears) ∧
      (bit w.toNat 0 = true → ∃ l, d.clears = s.dev.clears ++ l ∧ (∀ t, t < 16 → ⟨0x840028 + 0x40 * t, 0x840028 + 0x40 * t, none⟩ ∈ l) ∧
        (∀ f, f < 8 → ((⟨0x802040 + 0x100 * f, 0x802048 + 0x100 * f, none⟩ : TClear) ∈ l ↔ evqOwner s.dev f = ownerNum who)) ∧
        ⟨0x901400, 0x901408, none⟩ ∈ l) ∧ d = settle { s.dev with clears := d.clears }))
end

