-- ==== Sys2Proof/Laws/Act.lean ====
section
/-! SUPPORT. Every command is one effect on the device: exec answers the device after the effect, with the lines settled and
the queue as it was. -/

namespace Sys2Proof.Machine

/-- A meaning is the one effect of a command. -/
def IsAct (m : State → Host.Outcome State Fault Refusal) : Prop := ∃ f : Dev → Dev, m = act f

theorem isAct_act (f : Dev → Dev) : IsAct (act f) := ⟨f, rfl⟩
theorem isAct_accessWhen (who : Initiator) (cmd : Instr) (full : Dev → Bool) (f : Dev → Dev) :
    IsAct (accessWhen who cmd full f) := ⟨_, rfl⟩
theorem isAct_access (who : Initiator) (cmd : Instr) (f : Dev → Dev) : IsAct (access who cmd f) :=
  isAct_accessWhen who cmd (fun _ => false) f

theorem execPorstAssert_isAct : IsAct (exec (.porstAssert)) := (show IsAct (execPorstAssert) from isAct_act _)
theorem execPorstRelease_isAct (straps : Straps) (b : BootInput) : IsAct (exec (.porstRelease straps b)) := (show IsAct (execPorstRelease straps b) from isAct_act _)
theorem execWrstAssert_isAct : IsAct (exec (.wrstAssert)) := (show IsAct (execWrstAssert) from isAct_act _)
theorem execWrstRelease_isAct (b : BootInput) : IsAct (exec (.wrstRelease b)) := (show IsAct (execWrstRelease b) from isAct_act _)
theorem execPhyRstRelease_isAct (gpio : Nat) : IsAct (exec (.phyRstRelease gpio)) := (show IsAct (execPhyRstRelease gpio) from isAct_act _)
theorem execRailLoss_isAct (g : RailGroup) : IsAct (exec (.railLoss g)) := (show IsAct (execRailLoss g) from isAct_act _)
theorem execPowerGood_isAct (b : BootInput) : IsAct (exec (.powerGood b)) := (show IsAct (execPowerGood b) from isAct_act _)
theorem execRoutingOpen_isAct : IsAct (exec (.routingOpen)) := (show IsAct (execRoutingOpen) from isAct_act _)
theorem execSignalBlockLoad_isAct (blk : Nat) (reads : List Bytes) : IsAct (exec (.signalBlockLoad blk reads)) := (show IsAct (execSignalBlockLoad blk reads) from isAct_act _)
theorem execPduimgLoad_isAct (reads : List Bytes) : IsAct (exec (.pduimgLoad reads)) := (show IsAct (execPduimgLoad reads) from isAct_act _)
theorem execModeRequest_isAct (who : Initiator) (w : Word) (auth : Bool) : IsAct (exec (.modeRequest who w auth)) := (show IsAct (execModeRequest who w auth) from isAct_access _ _ _)
theorem execGroveGate_isAct (g : Nat) : IsAct (exec (.groveGate g)) := (show IsAct (execGroveGate g) from isAct_act _)
theorem execGroveRestore_isAct (g : Nat) : IsAct (exec (.groveRestore g)) := (show IsAct (execGroveRestore g) from isAct_act _)
theorem execWatchEntryStart_isAct : IsAct (exec (.watchEntryStart)) := (show IsAct (execWatchEntryStart) from isAct_act _)
theorem execWatchEntryFlush_isAct : IsAct (exec (.watchEntryFlush)) := (show IsAct (execWatchEntryFlush) from isAct_act _)
theorem execWatchRailRelease_isAct : IsAct (exec (.watchRailRelease)) := (show IsAct (execWatchRailRelease) from isAct_act _)
theorem execWatchLimitExpire_isAct : IsAct (exec (.watchLimitExpire)) := (show IsAct (execWatchLimitExpire) from isAct_act _)
theorem execTraceHoldExpire_isAct : IsAct (exec (.traceHoldExpire)) := (show IsAct (execTraceHoldExpire) from isAct_act _)
theorem execLockToSplit_isAct : IsAct (exec (.lockToSplit)) := (show IsAct (execLockToSplit) from isAct_act _)
theorem execSplitToLock_isAct : IsAct (exec (.splitToLock)) := (show IsAct (execSplitToLock) from isAct_act _)
theorem execSafeHoldEntry_isAct : IsAct (exec (.safeHoldEntry)) := (show IsAct (execSafeHoldEntry) from isAct_act _)
theorem execSagDetectorReport_isAct (det : Nat) : IsAct (exec (.sagDetectorReport det)) := (show IsAct (execSagDetectorReport det) from isAct_act _)
theorem execSagHoldEnd_isAct : IsAct (exec (.sagHoldEnd)) := (show IsAct (execSagHoldEnd) from isAct_act _)
theorem execSagStepEnd_isAct : IsAct (exec (.sagStepEnd)) := (show IsAct (execSagStepEnd) from isAct_act _)
theorem execSagPersist_isAct : IsAct (exec (.sagPersist)) := (show IsAct (execSagPersist) from isAct_act _)
theorem execPllUnlock_isAct (pll : Nat) : IsAct (exec (.pllUnlock pll)) := (show IsAct (execPllUnlock pll) from isAct_act _)
theorem execXtalFail_isAct : IsAct (exec (.xtalFail)) := (show IsAct (execXtalFail) from isAct_act _)
theorem execSdsPllRelockRetry_isAct (sds : Nat) (locked : Bool) : IsAct (exec (.sdsPllRelockRetry sds locked)) := (show IsAct (execSdsPllRelockRetry sds locked) from isAct_act _)
theorem execRtcAlarm_isAct : IsAct (exec (.rtcAlarm)) := (show IsAct (execRtcAlarm) from isAct_act _)
theorem execWheelBoundary_isAct : IsAct (exec (.wheelBoundary)) := (show IsAct (execWheelBoundary) from isAct_act _)
theorem execKerfSlot_isAct (ecc : KerfEcc) (owner : Option OwnerEcc) : IsAct (exec (.kerfSlot ecc owner)) := (show IsAct (execKerfSlot ecc owner) from isAct_act _)
theorem execCommitRegs_isAct (who : Initiator) : IsAct (exec (.commitRegs who)) := (show IsAct (execCommitRegs who) from isAct_access _ _ _)
theorem execCommitDelta_isAct (who : Initiator) (regs : Bool) : IsAct (exec (.commitDelta who regs)) := (show IsAct (execCommitDelta who regs) from isAct_access _ _ _)
theorem execRingCommit_isAct (x : Nat) (out : Bool) (words : List RingWord) : IsAct (exec (.ringCommit x out words)) := (show IsAct (execRingCommit x out words) from isAct_act _)
theorem execRingRelease_isAct (x : Nat) (out : Bool) : IsAct (exec (.ringRelease x out)) := (show IsAct (execRingRelease x out) from isAct_act _)
theorem execHandshakeSend_isAct (x : Nat) (out : Bool) (w : FWord) : IsAct (exec (.handshakeSend x out w)) := (show IsAct (execHandshakeSend x out w) from isAct_act _)
theorem execHandshakeAck_isAct (x : Nat) (out : Bool) : IsAct (exec (.handshakeAck x out)) := (show IsAct (execHandshakeAck x out) from isAct_act _)
theorem execPulseLaunch_isAct (x : Nat) (out : Bool) (before : Nat) (inCycle : Bool) : IsAct (exec (.pulseLaunch x out before inCycle)) := (show IsAct (execPulseLaunch x out before inCycle) from isAct_act _)
theorem execPulseAck_isAct (x : Nat) (out : Bool) (during : Nat) : IsAct (exec (.pulseAck x out during)) := (show IsAct (execPulseAck x out during) from isAct_act _)
theorem execCrossingReset_isAct (x : Nat) (out reader : Bool) (uncommitted : Nat) : IsAct (exec (.crossingReset x out reader uncommitted)) := (show IsAct (execCrossingReset x out reader uncommitted) from isAct_act _)
theorem execCrossRepair_isAct (x : Nat) (out : Bool) : IsAct (exec (.crossRepair x out)) := (show IsAct (execCrossRepair x out) from isAct_act _)
theorem execCrossStall_isAct (x : Nat) (out : Bool) : IsAct (exec (.crossStall x out)) := (show IsAct (execCrossStall x out) from isAct_act _)
theorem execCrossTimeout_isAct (x : Nat) (out : Bool) : IsAct (exec (.crossTimeout x out)) := (show IsAct (execCrossTimeout x out) from isAct_act _)
theorem execCrossProgress_isAct (x : Nat) (out : Bool) : IsAct (exec (.crossProgress x out)) := (show IsAct (execCrossProgress x out) from isAct_act _)
theorem execCanFrameReceived_isAct (ch : Nat) (f : RxFrame) : IsAct (exec (.canFrameReceived ch f)) := (show IsAct (execCanFrameReceived ch f) from isAct_act _)
theorem execCanFilterVerdict_isAct (ch : Nat) : IsAct (exec (.canFilterVerdict ch)) := (show IsAct (execCanFilterVerdict ch) from isAct_act _)
theorem execCanRxError_isAct (ch steps : Nat) : IsAct (exec (.canRxError ch steps)) := (show IsAct (execCanRxError ch steps) from isAct_act _)
theorem execCanTxError_isAct (ch : Nat) (e : TxErr) : IsAct (exec (.canTxError ch e)) := (show IsAct (execCanTxError ch e) from isAct_act _)
theorem execCanArbLost_isAct (ch : Nat) : IsAct (exec (.canArbLost ch)) := (show IsAct (execCanArbLost ch) from isAct_act _)
theorem execCanFrameSent_isAct (ch : Nat) : IsAct (exec (.canFrameSent ch)) := (show IsAct (execCanFrameSent ch) from isAct_act _)
theorem execCanSelection_isAct (ch : Nat) : IsAct (exec (.canSelection ch)) := (show IsAct (execCanSelection ch) from isAct_act _)
theorem execCanSof_isAct (ch : Nat) : IsAct (exec (.canSof ch)) := (show IsAct (execCanSof ch) from isAct_act _)
theorem execCanBufferRefill_isAct (ch : Nat) : IsAct (exec (.canBufferRefill ch)) := (show IsAct (execCanBufferRefill ch) from isAct_act _)
theorem execCanInitRequest_isAct (who : Initiator) (ch : Nat) : IsAct (exec (.canInitRequest who ch)) := (show IsAct (execCanInitRequest who ch) from isAct_access _ _ _)
theorem execCanInitLeave_isAct (who : Initiator) (ch : Nat) : IsAct (exec (.canInitLeave who ch)) := (show IsAct (execCanInitLeave who ch) from isAct_access _ _ _)
theorem execCanInitEntry_isAct (ch : Nat) : IsAct (exec (.canInitEntry ch)) := (show IsAct (execCanInitEntry ch) from isAct_act _)
theorem execCanIntegrated_isAct (ch : Nat) : IsAct (exec (.canIntegrated ch)) := (show IsAct (execCanIntegrated ch) from isAct_act _)
theorem execCanRecover_isAct (who : Initiator) (ch : Nat) : IsAct (exec (.canRecover who ch)) := (show IsAct (execCanRecover who ch) from isAct_access _ _ _)
theorem execCanBusOn_isAct (ch : Nat) : IsAct (exec (.canBusOn ch)) := (show IsAct (execCanBusOn ch) from isAct_act _)
theorem execCanStateParity_isAct (ch : Nat) : IsAct (exec (.canStateParity ch)) := (show IsAct (execCanStateParity ch) from isAct_act _)
theorem execCanColumnStart_isAct (ch : Nat) : IsAct (exec (.canColumnStart ch)) := (show IsAct (execCanColumnStart ch) from isAct_act _)
theorem execCanColumnEnd_isAct (ch : Nat) : IsAct (exec (.canColumnEnd ch)) := (show IsAct (execCanColumnEnd ch) from isAct_act _)
theorem execCanCancelRequest_isAct (who : Initiator) (ch : Nat) (w : Word) : IsAct (exec (.canCancelRequest who ch w)) := (show IsAct (execCanCancelRequest who ch w) from isAct_access _ _ _)
theorem execCanMbAcq_isAct (who : Initiator) (ch : Nat) : IsAct (exec (.canMbAcq who ch)) := (show IsAct (execCanMbAcq who ch) from isAct_access _ _ _)
theorem execCanMbRel_isAct (who : Initiator) (ch : Nat) : IsAct (exec (.canMbRel who ch)) := (show IsAct (execCanMbRel who ch) from isAct_access _ _ _)
theorem execCanMbGo_isAct (who : Initiator) (ch : Nat) : IsAct (exec (.canMbGo who ch)) := (show IsAct (execCanMbGo who ch) from isAct_access _ _ _)
theorem execSwkMatch_isAct (ch : Nat) (f : SwkFrame) : IsAct (exec (.swkMatch ch f)) := (show IsAct (execSwkMatch ch f) from isAct_act _)
theorem execSwkFecWake_isAct (ch : Nat) : IsAct (exec (.swkFecWake ch)) := (show IsAct (execSwkFecWake ch) from isAct_act _)
theorem execEthFrameReceived_isAct (port : Nat) (ev : EthRx) : IsAct (exec (.ethFrameReceived port ev)) := (show IsAct (execEthFrameReceived port ev) from isAct_act _)
theorem execEthPauseReceived_isAct (port quanta : Nat) : IsAct (exec (.ethPauseReceived port quanta)) := (show IsAct (execEthPauseReceived port quanta) from isAct_act _)
theorem execEthPauseEnd_isAct (port : Nat) : IsAct (exec (.ethPauseEnd port)) := (show IsAct (execEthPauseEnd port) from isAct_act _)
theorem execEthStagingInstant_isAct (port : Nat) : IsAct (exec (.ethStagingInstant port)) := (show IsAct (execEthStagingInstant port) from isAct_act _)
theorem execEthTxStart_isAct (port : Nat) : IsAct (exec (.ethTxStart port)) := (show IsAct (execEthTxStart port) from isAct_act _)
theorem execTimeStepWrite_isAct (who : Initiator) (hi : Word) : IsAct (exec (.timeStepWrite who hi)) := (show IsAct (execTimeStepWrite who hi) from isAct_access _ _ _)
theorem execTimeStep_isAct : IsAct (exec (.timeStep)) := (show IsAct (execTimeStep) from isAct_act _)
theorem execGclEntryAdvance_isAct (port : Nat) : IsAct (exec (.gclEntryAdvance port)) := (show IsAct (execGclEntryAdvance port) from isAct_act _)
theorem execGclCfgchg_isAct (who : Initiator) (port : Nat) : IsAct (exec (.gclCfgchg who port)) := (show IsAct (execGclCfgchg who port) from isAct_access _ _ _)
theorem execGclChanged_isAct (port : Nat) : IsAct (exec (.gclChanged port)) := (show IsAct (execGclChanged port) from isAct_act _)
theorem execStreamUnblock_isAct (who : Initiator) (w : Word) : IsAct (exec (.streamUnblock who w)) := (show IsAct (execStreamUnblock who w) from isAct_access _ _ _)
theorem execCbRecoveryReset_isAct (idx : Nat) : IsAct (exec (.cbRecoveryReset idx)) := (show IsAct (execCbRecoveryReset idx) from isAct_act _)
theorem execLinkDown_isAct (port : Nat) (f : LinkFlt) : IsAct (exec (.linkDown port f)) := (show IsAct (execLinkDown port f) from isAct_act _)
theorem execLinkGood_isAct (port : Nat) : IsAct (exec (.linkGood port)) := (show IsAct (execLinkGood port) from isAct_act _)
theorem execLinkUp_isAct (port : Nat) : IsAct (exec (.linkUp port)) := (show IsAct (execLinkUp port) from isAct_act _)
theorem execEthEnableWrite_isAct (who : Initiator) (port : Nat) (en : Bool) : IsAct (exec (.ethEnableWrite who port en)) := (show IsAct (execEthEnableWrite who port en) from isAct_access _ _ _)
theorem execTc10SleepRequest_isAct (port : Nat) : IsAct (exec (.tc10SleepRequest port)) := (show IsAct (execTc10SleepRequest port) from isAct_act _)
theorem execTc10Poll_isAct (port : Nat) (status : Word) : IsAct (exec (.tc10Poll port status)) := (show IsAct (execTc10Poll port status) from isAct_act _)
theorem execPpsInEdge_isAct : IsAct (exec (.ppsInEdge)) := (show IsAct (execPpsInEdge) from isAct_act _)
theorem execPpsOutPulse_isAct : IsAct (exec (.ppsOutPulse)) := (show IsAct (execPpsOutPulse) from isAct_act _)
theorem execParseComplete_isAct (src : Nat) : IsAct (exec (.parseComplete src)) := (show IsAct (execParseComplete src) from isAct_act _)
theorem execRouteLookup_isAct (client : Nat) : IsAct (exec (.routeLookup client)) := (show IsAct (execRouteLookup client) from isAct_act _)
theorem execBufferAdmission_isAct (input : Nat) : IsAct (exec (.bufferAdmission input)) := (show IsAct (execBufferAdmission input) from isAct_act _)
theorem execHostAdmissionRetry_isAct (input : Nat) : IsAct (exec (.hostAdmissionRetry input)) := (show IsAct (execHostAdmissionRetry input) from isAct_act _)
theorem execWaitlimExpire_isAct (input : Nat) : IsAct (exec (.waitlimExpire input)) := (show IsAct (execWaitlimExpire input) from isAct_act _)
theorem execCellTime_isAct : IsAct (exec (.cellTime)) := (show IsAct (execCellTime) from isAct_act _)
theorem execCellRead_isAct (input : Nat) (unc : List (Nat × Nat)) : IsAct (exec (.cellRead input unc)) := (show IsAct (execCellRead input unc) from isAct_act _)
theorem execQueueFlush_isAct (who : Initiator) (w : Word) : IsAct (exec (.queueFlush who w)) := (show IsAct (execQueueFlush who w) from isAct_access _ _ _)
theorem execTableWindowSelect_isAct (who : Initiator) (w : Word) : IsAct (exec (.tableWindowSelect who w)) := (show IsAct (execTableWindowSelect who w) from isAct_access _ _ _)
theorem execRteWindowCopy_isAct : IsAct (exec (.rteWindowCopy)) := (show IsAct (execRteWindowCopy) from isAct_act _)
theorem execDiagRoutingActivation_isAct (tester addr : Nat) : IsAct (exec (.diagRoutingActivation tester addr)) := (show IsAct (execDiagRoutingActivation tester addr) from isAct_act _)
theorem execDiagRequest_isAct (tester target : Nat) (payload : Bytes) : IsAct (exec (.diagRequest tester target payload)) := (show IsAct (execDiagRequest tester target payload) from isAct_act _)
theorem execDiagResponse_isAct (target : Nat) (payload : Bytes) : IsAct (exec (.diagResponse target payload)) := (show IsAct (execDiagResponse target payload) from isAct_act _)
theorem execDiagTimeout_isAct (target : Nat) (ncr : Bool) : IsAct (exec (.diagTimeout target ncr)) := (show IsAct (execDiagTimeout target ncr) from isAct_act _)
theorem execDiagConnectionClose_isAct (tester : Nat) : IsAct (exec (.diagConnectionClose tester)) := (show IsAct (execDiagConnectionClose tester) from isAct_act _)
theorem execMilSliceStart_isAct (side : Bool) (r : SliceRead) : IsAct (exec (.milSliceStart side r)) := (show IsAct (execMilSliceStart side r) from isAct_act _)
theorem execCacheRefill_isAct (r : LineRead) (bad0 bad1 : Bool) : IsAct (exec (.cacheRefill r bad0 bad1)) := (show IsAct (execCacheRefill r bad0 bad1) from isAct_act _)
theorem execCacheWriteback_isAct (line : Nat) : IsAct (exec (.cacheWriteback line)) := (show IsAct (execCacheWriteback line) from isAct_act _)
theorem execTimeoutSweep_isAct : IsAct (exec (.timeoutSweep)) := (show IsAct (execTimeoutSweep) from isAct_act _)
theorem execEmissionTick_isAct : IsAct (exec (.emissionTick)) := (show IsAct (execEmissionTick) from isAct_act _)
theorem execEmissionSnapshot_isAct (r : PduRead) : IsAct (exec (.emissionSnapshot r)) := (show IsAct (execEmissionSnapshot r) from isAct_act _)
theorem execMilTableWindow_isAct (who : Initiator) (w : Word) : IsAct (exec (.milTableWindow who w)) := (show IsAct (execMilTableWindow who w) from isAct_access _ _ _)
theorem execMilWindowCopy_isAct : IsAct (exec (.milWindowCopy)) := (show IsAct (execMilWindowCopy) from isAct_act _)
theorem execJobSubmit_isAct (who : Initiator) (page : Nat) (w : Word) : IsAct (exec (.jobSubmit who page w)) := (show IsAct (execJobSubmit who page w) from isAct_access _ _ _)
theorem execBlockBoundary_isAct (sq : Nat) : IsAct (exec (.blockBoundary sq)) := (show IsAct (execBlockBoundary sq) from isAct_act _)
theorem execJobComplete_isAct (page : Nat) : IsAct (exec (.jobComplete page)) := (show IsAct (execJobComplete page) from isAct_act _)
theorem execEnc_isAct (page blocks : Nat) : IsAct (exec (.enc page blocks)) := (show IsAct (execEnc page blocks) from isAct_act _)
theorem execDec_isAct (page blocks : Nat) : IsAct (exec (.dec page blocks)) := (show IsAct (execDec page blocks) from isAct_act _)
theorem execGmul_isAct (page blocks : Nat) : IsAct (exec (.gmul page blocks)) := (show IsAct (execGmul page blocks) from isAct_act _)
theorem execCtrx_isAct (page blocks : Nat) : IsAct (exec (.ctrx page blocks)) := (show IsAct (execCtrx page blocks) from isAct_act _)
theorem execHinit_isAct (page : Nat) : IsAct (exec (.hinit page)) := (show IsAct (execHinit page) from isAct_act _)
theorem execGacc_isAct (page blocks : Nat) : IsAct (exec (.gacc page blocks)) := (show IsAct (execGacc page blocks) from isAct_act _)
theorem execGfinal_isAct (page : Nat) : IsAct (exec (.gfinal page)) := (show IsAct (execGfinal page) from isAct_act _)
theorem execSubkey_isAct (page : Nat) : IsAct (exec (.subkey page)) := (show IsAct (execSubkey page) from isAct_act _)
theorem execMacc_isAct (page blocks : Nat) : IsAct (exec (.macc page blocks)) := (show IsAct (execMacc page blocks) from isAct_act _)
theorem execMfinal_isAct (page : Nat) : IsAct (exec (.mfinal page)) := (show IsAct (execMfinal page) from isAct_act _)
theorem execCtr_isAct (page : Nat) : IsAct (exec (.ctr page)) := (show IsAct (execCtr page) from isAct_act _)
theorem execCbcEnc_isAct (page : Nat) : IsAct (exec (.cbcEnc page)) := (show IsAct (execCbcEnc page) from isAct_act _)
theorem execCbcDec_isAct (page : Nat) : IsAct (exec (.cbcDec page)) := (show IsAct (execCbcDec page) from isAct_act _)
theorem execCmacGen_isAct (page : Nat) : IsAct (exec (.cmacGen page)) := (show IsAct (execCmacGen page) from isAct_act _)
theorem execCmacVer_isAct (page : Nat) : IsAct (exec (.cmacVer page)) := (show IsAct (execCmacVer page) from isAct_act _)
theorem execGcmSeal_isAct (page : Nat) : IsAct (exec (.gcmSeal page)) := (show IsAct (execGcmSeal page) from isAct_act _)
theorem execGcmOpen_isAct (page : Nat) : IsAct (exec (.gcmOpen page)) := (show IsAct (execGcmOpen page) from isAct_act _)
theorem execPageAbort_isAct (who : Initiator) (page : Nat) : IsAct (exec (.pageAbort who page)) := (show IsAct (execPageAbort who page) from isAct_access _ _ _)
theorem execCryEngineFault_isAct (engine sq : Nat) : IsAct (exec (.cryEngineFault engine sq)) := (show IsAct (execCryEngineFault engine sq) from isAct_act _)
theorem execAuthVerify_isAct (sq : Nat) : IsAct (exec (.authVerify sq)) := (show IsAct (execAuthVerify sq) from isAct_act _)
theorem execAuthGenerate_isAct (sq : Nat) : IsAct (exec (.authGenerate sq)) := (show IsAct (execAuthGenerate sq) from isAct_act _)
theorem execAuthVerifyGenerate_isAct (sq : Nat) : IsAct (exec (.authVerifyGenerate sq)) := (show IsAct (execAuthVerifyGenerate sq) from isAct_act _)
theorem execFreshCheckpoint_isAct (prof : Nat) (res : FlashRes) : IsAct (exec (.freshCheckpoint prof res)) := (show IsAct (execFreshCheckpoint prof res) from isAct_act _)
theorem execShutdownCheckpoint_isAct : IsAct (exec (.shutdownCheckpoint)) := (show IsAct (execShutdownCheckpoint) from isAct_act _)
theorem execMacsecRx_isAct (port : Nat) (frame : Bytes) : IsAct (exec (.macsecRx port frame)) := (show IsAct (execMacsecRx port frame) from isAct_act _)
theorem execMacsecTx_isAct (port : Nat) : IsAct (exec (.macsecTx port)) := (show IsAct (execMacsecTx port) from isAct_act _)
theorem execCryTableWindow_isAct (who : Initiator) (w : Word) : IsAct (exec (.cryTableWindow who w)) := (show IsAct (execCryTableWindow who w) from isAct_access _ _ _)
theorem execCryWindowCopy_isAct : IsAct (exec (.cryWindowCopy)) := (show IsAct (execCryWindowCopy) from isAct_act _)
theorem execDerive_isAct (who : Initiator) : IsAct (exec (.derive who)) := (show IsAct (execDerive who) from isAct_access _ _ _)
theorem execInvalidate_isAct (who : Initiator) : IsAct (exec (.invalidate who)) := (show IsAct (execInvalidate who) from isAct_access _ _ _)
theorem execUnwrap_isAct (who : Initiator) : IsAct (exec (.unwrap who)) := (show IsAct (execUnwrap who) from isAct_access _ _ _)
theorem execReplace_isAct (who : Initiator) (res : List FlashRes) : IsAct (exec (.replace who res)) := (show IsAct (execReplace who res) from isAct_access _ _ _)
theorem execKvtStoreDone_isAct : IsAct (exec (.kvtStoreDone)) := (show IsAct (execKvtStoreDone) from isAct_act _)
theorem execStoreBackgroundErase_isAct : IsAct (exec (.storeBackgroundErase)) := (show IsAct (execStoreBackgroundErase) from isAct_act _)
theorem execNewchal_isAct (who : Initiator) (entropy : Bytes) : IsAct (exec (.newchal who entropy)) := (show IsAct (execNewchal who entropy) from isAct_access _ _ _)
theorem execToken_isAct (who : Initiator) : IsAct (exec (.token who)) := (show IsAct (execToken who) from isAct_access _ _ _)
theorem execKvtAlarm_isAct (src : Nat) : IsAct (exec (.kvtAlarm src)) := (show IsAct (execKvtAlarm src) from isAct_act _)
theorem execTwinMismatch_isAct (twin : Nat) (m : Mismatch) : IsAct (exec (.twinMismatch twin m)) := (show IsAct (execTwinMismatch twin m) from isAct_act _)
theorem execReplayStart_isAct (twin : Nat) (poisoned : List Nat) : IsAct (exec (.replayStart twin poisoned)) := (show IsAct (execReplayStart twin poisoned) from isAct_act _)
theorem execTwinResume_isAct (twin : Nat) : IsAct (exec (.twinResume twin)) := (show IsAct (execTwinResume twin) from isAct_act _)
theorem execCommitNotice_isAct (twin seq : Nat) : IsAct (exec (.commitNotice twin seq)) := (show IsAct (execCommitNotice twin seq) from isAct_act _)
theorem execDegradedCheckFail_isAct (outputCode predicted : Bool) : IsAct (exec (.degradedCheckFail outputCode predicted)) := (show IsAct (execDegradedCheckFail outputCode predicted) from isAct_act _)
theorem execScStopped_isAct (pair : Nat) : IsAct (exec (.scStopped pair)) := (show IsAct (execScStopped pair) from isAct_act _)
theorem execFmRail_isAct : IsAct (exec (.fmRail)) := (show IsAct (execFmRail) from isAct_act _)
theorem execNmPduReceived_isAct (c : Nat) (src : NmPort) (pdu : Bytes) : IsAct (exec (.nmPduReceived c src pdu)) := (show IsAct (execNmPduReceived c src pdu) from isAct_act _)
theorem execNmRequest_isAct (who : Initiator) (c : Nat) (w : Word) : IsAct (exec (.nmRequest who c w)) := (show IsAct (execNmRequest who c w) from isAct_access _ _ _)
theorem execNmTmsgExpire_isAct (c : Nat) : IsAct (exec (.nmTmsgExpire c)) := (show IsAct (execNmTmsgExpire c) from isAct_act _)
theorem execNmTrepeatExpire_isAct (c : Nat) : IsAct (exec (.nmTrepeatExpire c)) := (show IsAct (execNmTrepeatExpire c) from isAct_act _)
theorem execNmTtimeoutExpire_isAct (c : Nat) : IsAct (exec (.nmTtimeoutExpire c)) := (show IsAct (execNmTtimeoutExpire c) from isAct_act _)
theorem execNmTwaitExpire_isAct (c : Nat) : IsAct (exec (.nmTwaitExpire c)) := (show IsAct (execNmTwaitExpire c) from isAct_act _)
theorem execSleepCommitPoint_isAct (c : Nat) : IsAct (exec (.sleepCommitPoint c)) := (show IsAct (execSleepCommitPoint c) from isAct_act _)
theorem execSleepComplete_isAct (c : Nat) : IsAct (exec (.sleepComplete c)) := (show IsAct (execSleepComplete c) from isAct_act _)
theorem execNmSleepTimeout_isAct (c : Nat) : IsAct (exec (.nmSleepTimeout c)) := (show IsAct (execNmSleepTimeout c) from isAct_act _)
theorem execNmFalseWake_isAct (c : Nat) : IsAct (exec (.nmFalseWake c)) := (show IsAct (execNmFalseWake c) from isAct_act _)
theorem execPncExpire_isAct (p : Nat) : IsAct (exec (.pncExpire p)) := (show IsAct (execPncExpire p) from isAct_act _)
theorem execOffenderLogInterval_isAct (c : Nat) : IsAct (exec (.offenderLogInterval c)) := (show IsAct (execOffenderLogInterval c) from isAct_act _)
theorem execInhHoldExpire_isAct (j : Nat) : IsAct (exec (.inhHoldExpire j)) := (show IsAct (execInhHoldExpire j) from isAct_act _)
theorem execWakeholdExpire_isAct : IsAct (exec (.wakeholdExpire)) := (show IsAct (execWakeholdExpire) from isAct_act _)
theorem execWakeInEdge_isAct (input : Nat) (rising : Bool) : IsAct (exec (.wakeInEdge input rising)) := (show IsAct (execWakeInEdge input rising) from isAct_act _)
theorem execPhyIntNEdge_isAct (gpio : Nat) : IsAct (exec (.phyIntNEdge gpio)) := (show IsAct (execPhyIntNEdge gpio) from isAct_act _)
theorem execHostLinkDown_isAct (e : Nat) : IsAct (exec (.hostLinkDown e)) := (show IsAct (execHostLinkDown e) from isAct_act _)
theorem execHostLinkUp_isAct (e : Nat) : IsAct (exec (.hostLinkUp e)) := (show IsAct (execHostLinkUp e) from isAct_act _)
theorem execTxTailWrite_isAct (who : Initiator) (t : Nat) (w : Word) : IsAct (exec (.txTailWrite who t w)) := (show IsAct (execTxTailWrite who t w) from isAct_access _ _ _)
theorem execTxRecord_isAct (e t : Nat) : IsAct (exec (.txRecord e t)) := (show IsAct (execTxRecord e t) from isAct_act _)
theorem execTxCompletion_isAct (e t : Nat) : IsAct (exec (.txCompletion e t)) := (show IsAct (execTxCompletion e t) from isAct_act _)
theorem execRxBufferPost_isAct (who : Initiator) (r : Nat) (w : Word) : IsAct (exec (.rxBufferPost who r w)) := (show IsAct (execRxBufferPost who r w) from isAct_access _ _ _)
theorem execRxDelivery_isAct (e r : Nat) : IsAct (exec (.rxDelivery e r)) := (show IsAct (execRxDelivery e r) from isAct_act _)
theorem execIrqItrExpire_isAct (e : Nat) (tx : Bool) (q : Nat) : IsAct (exec (.irqItrExpire e tx q)) := (show IsAct (execIrqItrExpire e tx q) from isAct_act _)
theorem execMsixUnmask_isAct (who : Initiator) (v : Nat) : IsAct (exec (.msixUnmask who v)) := (show IsAct (execMsixUnmask who v) from isAct_access _ _ _)
theorem execPageDomainWrite_isAct (who : Initiator) (p : Nat) (w : Word) : IsAct (exec (.pageDomainWrite who p w)) := (show IsAct (execPageDomainWrite who p w) from isAct_access _ _ _)
theorem execEventEntryWrite_isAct (bad : Bool) : IsAct (exec (.eventEntryWrite bad)) := (show IsAct (execEventEntryWrite bad) from isAct_act _)
theorem execEvqNext_isAct (who : Initiator) (f : Nat) : IsAct (exec (.evqNext who f)) := (show IsAct (execEvqNext who f) from isAct_access _ _ _)
theorem execEvqMark_isAct (who : Initiator) (f : Nat) : IsAct (exec (.evqMark who f)) := (show IsAct (execEvqMark who f) from isAct_access _ _ _)
theorem execEvqRewind_isAct (who : Initiator) (f : Nat) : IsAct (exec (.evqRewind who f)) := (show IsAct (execEvqRewind who f) from isAct_access _ _ _)
theorem execEvqRelease_isAct (who : Initiator) (f : Nat) : IsAct (exec (.evqRelease who f)) := (show IsAct (execEvqRelease who f) from isAct_access _ _ _)
theorem execHspiWrite_isAct (mosi : Bytes) : IsAct (exec (.hspiWrite mosi)) := (show IsAct (execHspiWrite mosi) from isAct_act _)
theorem execHspiRead_isAct (mosi : Bytes) (fetched : Nat) : IsAct (exec (.hspiRead mosi fetched)) := (show IsAct (execHspiRead mosi fetched) from isAct_act _)
theorem execHspiBadCmd_isAct (cmd : Byte) : IsAct (exec (.hspiBadCmd cmd)) := (show IsAct (execHspiBadCmd cmd) from isAct_act _)
theorem execHspiCsRise_isAct (mosi : Bytes) : IsAct (exec (.hspiCsRise mosi)) := (show IsAct (execHspiCsRise mosi) from isAct_act _)
theorem execBridgeWrite_isAct (who : Initiator) (off : Nat) (w : Word) : IsAct (exec (.bridgeWrite who off w)) := (show IsAct (execBridgeWrite who off w) from isAct_accessWhen _ _ _ _)
theorem execBridgeRead_isAct (who : Initiator) (off : Nat) : IsAct (exec (.bridgeRead who off)) := (show IsAct (execBridgeRead who off) from isAct_accessWhen _ _ _ _)
theorem execBridgeFarDone_isAct (bus : Nat) (res : FarRes) : IsAct (exec (.bridgeFarDone bus res)) := (show IsAct (execBridgeFarDone bus res) from isAct_act _)
theorem execBridgeReadTimeout_isAct (seq : Nat) : IsAct (exec (.bridgeReadTimeout seq)) := (show IsAct (execBridgeReadTimeout seq) from isAct_act _)
theorem execI2cIndirectRead_isAct (who : Initiator) (w : Word) : IsAct (exec (.i2cIndirectRead who w)) := (show IsAct (execI2cIndirectRead who w) from isAct_accessWhen _ _ _ _)
theorem execBridgePoll_isAct (k : Nat) : IsAct (exec (.bridgePoll k)) := (show IsAct (execBridgePoll k) from isAct_act _)
theorem execRecordWrite_isAct : IsAct (exec (.recordWrite)) := (show IsAct (execRecordWrite) from isAct_act _)
theorem execRecSoftTrigger_isAct (who : Initiator) : IsAct (exec (.recSoftTrigger who)) := (show IsAct (execRecSoftTrigger who) from isAct_access _ _ _)
theorem execCrashIn_isAct : IsAct (exec (.crashIn)) := (show IsAct (execCrashIn) from isAct_act _)
theorem execRecPostmsExpire_isAct : IsAct (exec (.recPostmsExpire)) := (show IsAct (execRecPostmsExpire) from isAct_act _)
theorem execRecRelease_isAct (who : Initiator) : IsAct (exec (.recRelease who)) := (show IsAct (execRecRelease who) from isAct_access _ _ _)
theorem execReadoutGo_isAct (who : Initiator) : IsAct (exec (.readoutGo who)) := (show IsAct (execReadoutGo who) from isAct_access _ _ _)
theorem execReadoutAbort_isAct (who : Initiator) : IsAct (exec (.readoutAbort who)) := (show IsAct (execReadoutAbort who) from isAct_access _ _ _)
theorem execRecReadoutDone_isAct (r : RegionRead) : IsAct (exec (.recReadoutDone r)) := (show IsAct (execRecReadoutDone r) from isAct_act _)
theorem execUpdOpen_isAct (who : Initiator) : IsAct (exec (.updOpen who)) := (show IsAct (execUpdOpen who) from isAct_access _ _ _)
theorem execUpdOpenDelta_isAct (who : Initiator) : IsAct (exec (.updOpenDelta who)) := (show IsAct (execUpdOpenDelta who) from isAct_access _ _ _)
theorem execUpdWrite_isAct (who : Initiator) (res : FlashRes) : IsAct (exec (.updWrite who res)) := (show IsAct (execUpdWrite who res) from isAct_access _ _ _)
theorem execUpdVerify_isAct (who : Initiator) : IsAct (exec (.updVerify who)) := (show IsAct (execUpdVerify who) from isAct_access _ _ _)
theorem execUpdArm_isAct (who : Initiator) : IsAct (exec (.updArm who)) := (show IsAct (execUpdArm who) from isAct_access _ _ _)
theorem execUpdAbort_isAct (who : Initiator) : IsAct (exec (.updAbort who)) := (show IsAct (execUpdAbort who) from isAct_access _ _ _)
theorem execUpdConfirm_isAct (who : Initiator) (slotB : Bool) : IsAct (exec (.updConfirm who slotB)) := (show IsAct (execUpdConfirm who slotB) from isAct_access _ _ _)
theorem execUpdReset_isAct (who : Initiator) : IsAct (exec (.updReset who)) := (show IsAct (execUpdReset who) from isAct_access _ _ _)
theorem execFallback_isAct (who : Initiator) : IsAct (exec (.fallback who)) := (show IsAct (execFallback who) from isAct_access _ _ _)
theorem execTrialExpire_isAct : IsAct (exec (.trialExpire)) := (show IsAct (execTrialExpire) from isAct_act _)
theorem execCkpClr_isAct (who : Initiator) (w : Word) : IsAct (exec (.ckpClr who w)) := (show IsAct (execCkpClr who w) from isAct_access _ _ _)
theorem execSwhClr_isAct (who : Initiator) (w : Word) : IsAct (exec (.swhClr who w)) := (show IsAct (execSwhClr who w) from isAct_access _ _ _)
theorem execCanClr_isAct (who : Initiator) (ch : Nat) (w : Word) : IsAct (exec (.canClr who ch w)) := (show IsAct (execCanClr who ch w) from isAct_access _ _ _)
theorem execEthClr_isAct (who : Initiator) (port : Nat) (w : Word) : IsAct (exec (.ethClr who port w)) := (show IsAct (execEthClr who port w) from isAct_access _ _ _)
theorem execLndClr_isAct (who : Initiator) (w : Word) : IsAct (exec (.lndClr who w)) := (show IsAct (execLndClr who w) from isAct_access _ _ _)
theorem execRteClr_isAct (who : Initiator) (w : Word) : IsAct (exec (.rteClr who w)) := (show IsAct (execRteClr who w) from isAct_access _ _ _)
theorem execMilClr_isAct (who : Initiator) (w : Word) : IsAct (exec (.milClr who w)) := (show IsAct (execMilClr who w) from isAct_access _ _ _)
theorem execCryClr_isAct (who : Initiator) (w : Word) : IsAct (exec (.cryClr who w)) := (show IsAct (execCryClr who w) from isAct_access _ _ _)
theorem execKvtClr_isAct (who : Initiator) (w : Word) : IsAct (exec (.kvtClr who w)) := (show IsAct (execKvtClr who w) from isAct_access _ _ _)
theorem execFltClr_isAct (who : Initiator) (w : Word) : IsAct (exec (.fltClr who w)) := (show IsAct (execFltClr who w) from isAct_access _ _ _)
theorem execNmcClr_isAct (who : Initiator) (w : Word) : IsAct (exec (.nmcClr who w)) := (show IsAct (execNmcClr who w) from isAct_access _ _ _)
theorem execHifClr_isAct (who : Initiator) (w : Word) : IsAct (exec (.hifClr who w)) := (show IsAct (execHifClr who w) from isAct_access _ _ _)
theorem execRecClr_isAct (who : Initiator) (w : Word) : IsAct (exec (.recClr who w)) := (show IsAct (execRecClr who w) from isAct_access _ _ _)
theorem execUpdClr_isAct (who : Initiator) (w : Word) : IsAct (exec (.updClr who w)) := (show IsAct (execUpdClr who w) from isAct_access _ _ _)
theorem execRegisterPairLowRead_isAct (who : Initiator) (r : ReadAt) : IsAct (exec (.registerPairLowRead who r)) := (show IsAct (execRegisterPairLowRead who r) from isAct_accessWhen _ _ _ _)
theorem execRegisterWrite_isAct (who : Initiator) (off size : Nat) (w : Word) : IsAct (exec (.registerWrite who off size w)) := (show IsAct (execRegisterWrite who off size w) from isAct_accessWhen _ _ _ _)
theorem execRetainedPowerGood_isAct : IsAct (exec (.retainedPowerGood)) := (show IsAct (execRetainedPowerGood) from isAct_act _)
theorem execLinkFault_isAct (port : Nat) (f : LinkFlt) : IsAct (exec (.linkFault port f)) := (show IsAct (execLinkFault port f) from isAct_act _)
theorem execShaperCreditZero_isAct (port cls : Nat) : IsAct (exec (.shaperCreditZero port cls)) := (show IsAct (execShaperCreditZero port cls) from isAct_act _)
theorem execSakInstall_isAct (port : Nat) (a : SakArgs) : IsAct (exec (.sakInstall port a)) := (show IsAct (execSakInstall port a) from isAct_act _)
theorem execBusMasterEnable_isAct (e : Nat) (on : Bool) : IsAct (exec (.busMasterEnable e on)) := (show IsAct (execBusMasterEnable e on) from isAct_act _)

/-- exec of every command is one effect. -/
theorem exec_isAct (c : Instr) : IsAct (exec c) :=
  match c with
  | .porstAssert => execPorstAssert_isAct
  | .porstRelease straps b => execPorstRelease_isAct straps b
  | .wrstAssert => execWrstAssert_isAct
  | .wrstRelease b => execWrstRelease_isAct b
  | .phyRstRelease gpio => execPhyRstRelease_isAct gpio
  | .railLoss g => execRailLoss_isAct g
  | .powerGood b => execPowerGood_isAct b
  | .routingOpen => execRoutingOpen_isAct
  | .signalBlockLoad blk reads => execSignalBlockLoad_isAct blk reads
  | .pduimgLoad reads => execPduimgLoad_isAct reads
  | .modeRequest who w auth => execModeRequest_isAct who w auth
  | .groveGate g => execGroveGate_isAct g
  | .groveRestore g => execGroveRestore_isAct g
  | .watchEntryStart => execWatchEntryStart_isAct
  | .watchEntryFlush => execWatchEntryFlush_isAct
  | .watchRailRelease => execWatchRailRelease_isAct
  | .watchLimitExpire => execWatchLimitExpire_isAct
  | .traceHoldExpire => execTraceHoldExpire_isAct
  | .lockToSplit => execLockToSplit_isAct
  | .splitToLock => execSplitToLock_isAct
  | .safeHoldEntry => execSafeHoldEntry_isAct
  | .sagDetectorReport det => execSagDetectorReport_isAct det
  | .sagHoldEnd => execSagHoldEnd_isAct
  | .sagStepEnd => execSagStepEnd_isAct
  | .sagPersist => execSagPersist_isAct
  | .pllUnlock pll => execPllUnlock_isAct pll
  | .xtalFail => execXtalFail_isAct
  | .sdsPllRelockRetry sds locked => execSdsPllRelockRetry_isAct sds locked
  | .rtcAlarm => execRtcAlarm_isAct
  | .wheelBoundary => execWheelBoundary_isAct
  | .kerfSlot ecc owner => execKerfSlot_isAct ecc owner
  | .commitRegs who => execCommitRegs_isAct who
  | .commitDelta who regs => execCommitDelta_isAct who regs
  | .ringCommit x out words => execRingCommit_isAct x out words
  | .ringRelease x out => execRingRelease_isAct x out
  | .handshakeSend x out w => execHandshakeSend_isAct x out w
  | .handshakeAck x out => execHandshakeAck_isAct x out
  | .pulseLaunch x out before inCycle => execPulseLaunch_isAct x out before inCycle
  | .pulseAck x out during => execPulseAck_isAct x out during
  | .crossingReset x out reader uncommitted => execCrossingReset_isAct x out reader uncommitted
  | .crossRepair x out => execCrossRepair_isAct x out
  | .crossStall x out => execCrossStall_isAct x out
  | .crossTimeout x out => execCrossTimeout_isAct x out
  | .crossProgress x out => execCrossProgress_isAct x out
  | .canFrameReceived ch f => execCanFrameReceived_isAct ch f
  | .canFilterVerdict ch => execCanFilterVerdict_isAct ch
  | .canRxError ch steps => execCanRxError_isAct ch steps
  | .canTxError ch e => execCanTxError_isAct ch e
  | .canArbLost ch => execCanArbLost_isAct ch
  | .canFrameSent ch => execCanFrameSent_isAct ch
  | .canSelection ch => execCanSelection_isAct ch
  | .canSof ch => execCanSof_isAct ch
  | .canBufferRefill ch => execCanBufferRefill_isAct ch
  | .canInitRequest who ch => execCanInitRequest_isAct who ch
  | .canInitLeave who ch => execCanInitLeave_isAct who ch
  | .canInitEntry ch => execCanInitEntry_isAct ch
  | .canIntegrated ch => execCanIntegrated_isAct ch
  | .canRecover who ch => execCanRecover_isAct who ch
  | .canBusOn ch => execCanBusOn_isAct ch
  | .canStateParity ch => execCanStateParity_isAct ch
  | .canColumnStart ch => execCanColumnStart_isAct ch
  | .canColumnEnd ch => execCanColumnEnd_isAct ch
  | .canCancelRequest who ch w => execCanCancelRequest_isAct who ch w
  | .canMbAcq who ch => execCanMbAcq_isAct who ch
  | .canMbRel who ch => execCanMbRel_isAct who ch
  | .canMbGo who ch => execCanMbGo_isAct who ch
  | .swkMatch ch f => execSwkMatch_isAct ch f
  | .swkFecWake ch => execSwkFecWake_isAct ch
  | .ethFrameReceived port ev => execEthFrameReceived_isAct port ev
  | .ethPauseReceived port quanta => execEthPauseReceived_isAct port quanta
  | .ethPauseEnd port => execEthPauseEnd_isAct port
  | .ethStagingInstant port => execEthStagingInstant_isAct port
  | .ethTxStart port => execEthTxStart_isAct port
  | .timeStepWrite who hi => execTimeStepWrite_isAct who hi
  | .timeStep => execTimeStep_isAct
  | .gclEntryAdvance port => execGclEntryAdvance_isAct port
  | .gclCfgchg who port => execGclCfgchg_isAct who port
  | .gclChanged port => execGclChanged_isAct port
  | .streamUnblock who w => execStreamUnblock_isAct who w
  | .cbRecoveryReset idx => execCbRecoveryReset_isAct idx
  | .linkDown port f => execLinkDown_isAct port f
  | .linkGood port => execLinkGood_isAct port
  | .linkUp port => execLinkUp_isAct port
  | .ethEnableWrite who port en => execEthEnableWrite_isAct who port en
  | .tc10SleepRequest port => execTc10SleepRequest_isAct port
  | .tc10Poll port status => execTc10Poll_isAct port status
  | .ppsInEdge => execPpsInEdge_isAct
  | .ppsOutPulse => execPpsOutPulse_isAct
  | .parseComplete src => execParseComplete_isAct src
  | .routeLookup client => execRouteLookup_isAct client
  | .bufferAdmission input => execBufferAdmission_isAct input
  | .hostAdmissionRetry input => execHostAdmissionRetry_isAct input
  | .waitlimExpire input => execWaitlimExpire_isAct input
  | .cellTime => execCellTime_isAct
  | .cellRead input unc => execCellRead_isAct input unc
  | .queueFlush who w => execQueueFlush_isAct who w
  | .tableWindowSelect who w => execTableWindowSelect_isAct who w
  | .rteWindowCopy => execRteWindowCopy_isAct
  | .diagRoutingActivation tester addr => execDiagRoutingActivation_isAct tester addr
  | .diagRequest tester target payload => execDiagRequest_isAct tester target payload
  | .diagResponse target payload => execDiagResponse_isAct target payload
  | .diagTimeout target ncr => execDiagTimeout_isAct target ncr
  | .diagConnectionClose tester => execDiagConnectionClose_isAct tester
  | .milSliceStart side r => execMilSliceStart_isAct side r
  | .cacheRefill r bad0 bad1 => execCacheRefill_isAct r bad0 bad1
  | .cacheWriteback line => execCacheWriteback_isAct line
  | .timeoutSweep => execTimeoutSweep_isAct
  | .emissionTick => execEmissionTick_isAct
  | .emissionSnapshot r => execEmissionSnapshot_isAct r
  | .milTableWindow who w => execMilTableWindow_isAct who w
  | .milWindowCopy => execMilWindowCopy_isAct
  | .jobSubmit who page w => execJobSubmit_isAct who page w
  | .blockBoundary sq => execBlockBoundary_isAct sq
  | .jobComplete page => execJobComplete_isAct page
  | .enc page blocks => execEnc_isAct page blocks
  | .dec page blocks => execDec_isAct page blocks
  | .gmul page blocks => execGmul_isAct page blocks
  | .ctrx page blocks => execCtrx_isAct page blocks
  | .hinit page => execHinit_isAct page
  | .gacc page blocks => execGacc_isAct page blocks
  | .gfinal page => execGfinal_isAct page
  | .subkey page => execSubkey_isAct page
  | .macc page blocks => execMacc_isAct page blocks
  | .mfinal page => execMfinal_isAct page
  | .ctr page => execCtr_isAct page
  | .cbcEnc page => execCbcEnc_isAct page
  | .cbcDec page => execCbcDec_isAct page
  | .cmacGen page => execCmacGen_isAct page
  | .cmacVer page => execCmacVer_isAct page
  | .gcmSeal page => execGcmSeal_isAct page
  | .gcmOpen page => execGcmOpen_isAct page
  | .pageAbort who page => execPageAbort_isAct who page
  | .cryEngineFault engine sq => execCryEngineFault_isAct engine sq
  | .authVerify sq => execAuthVerify_isAct sq
  | .authGenerate sq => execAuthGenerate_isAct sq
  | .authVerifyGenerate sq => execAuthVerifyGenerate_isAct sq
  | .freshCheckpoint prof res => execFreshCheckpoint_isAct prof res
  | .shutdownCheckpoint => execShutdownCheckpoint_isAct
  | .macsecRx port frame => execMacsecRx_isAct port frame
  | .macsecTx port => execMacsecTx_isAct port
  | .cryTableWindow who w => execCryTableWindow_isAct who w
  | .cryWindowCopy => execCryWindowCopy_isAct
  | .derive who => execDerive_isAct who
  | .invalidate who => execInvalidate_isAct who
  | .unwrap who => execUnwrap_isAct who
  | .replace who res => execReplace_isAct who res
  | .kvtStoreDone => execKvtStoreDone_isAct
  | .storeBackgroundErase => execStoreBackgroundErase_isAct
  | .newchal who entropy => execNewchal_isAct who entropy
  | .token who => execToken_isAct who
  | .kvtAlarm src => execKvtAlarm_isAct src
  | .twinMismatch twin m => execTwinMismatch_isAct twin m
  | .replayStart twin poisoned => execReplayStart_isAct twin poisoned
  | .twinResume twin => execTwinResume_isAct twin
  | .commitNotice twin seq => execCommitNotice_isAct twin seq
  | .degradedCheckFail outputCode predicted => execDegradedCheckFail_isAct outputCode predicted
  | .scStopped pair => execScStopped_isAct pair
  | .fmRail => execFmRail_isAct
  | .nmPduReceived c src pdu => execNmPduReceived_isAct c src pdu
  | .nmRequest who c w => execNmRequest_isAct who c w
  | .nmTmsgExpire c => execNmTmsgExpire_isAct c
  | .nmTrepeatExpire c => execNmTrepeatExpire_isAct c
  | .nmTtimeoutExpire c => execNmTtimeoutExpire_isAct c
  | .nmTwaitExpire c => execNmTwaitExpire_isAct c
  | .sleepCommitPoint c => execSleepCommitPoint_isAct c
  | .sleepComplete c => execSleepComplete_isAct c
  | .nmSleepTimeout c => execNmSleepTimeout_isAct c
  | .nmFalseWake c => execNmFalseWake_isAct c
  | .pncExpire p => execPncExpire_isAct p
  | .offenderLogInterval c => execOffenderLogInterval_isAct c
  | .inhHoldExpire j => execInhHoldExpire_isAct j
  | .wakeholdExpire => execWakeholdExpire_isAct
  | .wakeInEdge input rising => execWakeInEdge_isAct input rising
  | .phyIntNEdge gpio => execPhyIntNEdge_isAct gpio
  | .hostLinkDown e => execHostLinkDown_isAct e
  | .hostLinkUp e => execHostLinkUp_isAct e
  | .txTailWrite who t w => execTxTailWrite_isAct who t w
  | .txRecord e t => execTxRecord_isAct e t
  | .txCompletion e t => execTxCompletion_isAct e t
  | .rxBufferPost who r w => execRxBufferPost_isAct who r w
  | .rxDelivery e r => execRxDelivery_isAct e r
  | .irqItrExpire e tx q => execIrqItrExpire_isAct e tx q
  | .msixUnmask who v => execMsixUnmask_isAct who v
  | .pageDomainWrite who p w => execPageDomainWrite_isAct who p w
  | .eventEntryWrite bad => execEventEntryWrite_isAct bad
  | .evqNext who f => execEvqNext_isAct who f
  | .evqMark who f => execEvqMark_isAct who f
  | .evqRewind who f => execEvqRewind_isAct who f
  | .evqRelease who f => execEvqRelease_isAct who f
  | .hspiWrite mosi => execHspiWrite_isAct mosi
  | .hspiRead mosi fetched => execHspiRead_isAct mosi fetched
  | .hspiBadCmd cmd => execHspiBadCmd_isAct cmd
  | .hspiCsRise mosi => execHspiCsRise_isAct mosi
  | .bridgeWrite who off w => execBridgeWrite_isAct who off w
  | .bridgeRead who off => execBridgeRead_isAct who off
  | .bridgeFarDone bus res => execBridgeFarDone_isAct bus res
  | .bridgeReadTimeout seq => execBridgeReadTimeout_isAct seq
  | .i2cIndirectRead who w => execI2cIndirectRead_isAct who w
  | .bridgePoll k => execBridgePoll_isAct k
  | .recordWrite => execRecordWrite_isAct
  | .recSoftTrigger who => execRecSoftTrigger_isAct who
  | .crashIn => execCrashIn_isAct
  | .recPostmsExpire => execRecPostmsExpire_isAct
  | .recRelease who => execRecRelease_isAct who
  | .readoutGo who => execReadoutGo_isAct who
  | .readoutAbort who => execReadoutAbort_isAct who
  | .recReadoutDone r => execRecReadoutDone_isAct r
  | .updOpen who => execUpdOpen_isAct who
  | .updOpenDelta who => execUpdOpenDelta_isAct who
  | .updWrite who res => execUpdWrite_isAct who res
  | .updVerify who => execUpdVerify_isAct who
  | .updArm who => execUpdArm_isAct who
  | .updAbort who => execUpdAbort_isAct who
  | .updConfirm who slotB => execUpdConfirm_isAct who slotB
  | .updReset who => execUpdReset_isAct who
  | .fallback who => execFallback_isAct who
  | .trialExpire => execTrialExpire_isAct
  | .ckpClr who w => execCkpClr_isAct who w
  | .swhClr who w => execSwhClr_isAct who w
  | .canClr who ch w => execCanClr_isAct who ch w
  | .ethClr who port w => execEthClr_isAct who port w
  | .lndClr who w => execLndClr_isAct who w
  | .rteClr who w => execRteClr_isAct who w
  | .milClr who w => execMilClr_isAct who w
  | .cryClr who w => execCryClr_isAct who w
  | .kvtClr who w => execKvtClr_isAct who w
  | .fltClr who w => execFltClr_isAct who w
  | .nmcClr who w => execNmcClr_isAct who w
  | .hifClr who w => execHifClr_isAct who w
  | .recClr who w => execRecClr_isAct who w
  | .updClr who w => execUpdClr_isAct who w
  | .registerPairLowRead who r => execRegisterPairLowRead_isAct who r
  | .registerWrite who off size w => execRegisterWrite_isAct who off size w
  | .retainedPowerGood => execRetainedPowerGood_isAct
  | .linkFault port f => execLinkFault_isAct port f
  | .shaperCreditZero port cls => execShaperCreditZero_isAct port cls
  | .sakInstall port a => execSakInstall_isAct port a
  | .busMasterEnable e on => execBusMasterEnable_isAct e on

end Sys2Proof.Machine
end

