-- ==== Sys2Proof/Laws/Cross.lean ====
section
/-! SUPPORT. What a crossing takes, and which accesses the bridge queues take. -/

namespace Sys2Proof.Machine

/-- R152: a received CAN frame is 1 to 320 words, whatever Config says of its layout. -/
theorem frameWords_le (f : CanFrame) : 1 ≤ frameWords f ∧ frameWords f ≤ 320 := by
  unfold frameWords clamp
  split
  · omega
  · split <;> omega

/-- A crossing that takes the longest frame takes every frame. -/
theorem xTakes_frame (f : CanFrame) {g : Xing} {x : Nat} (h : xTakes g x 320 = true) : xTakes g x (frameWords f) = true := by
  have := (frameWords_le f).2
  simp only [xTakes, Bool.and_eq_true, decide_eq_true_eq] at h ⊢
  exact ⟨h.1, by omega⟩

/-- R470: every bridge window lies in the address range of the windows. -/
theorem brgWindow_locate {off win o : Nat} (h : brgWindow off = some (win, o)) : locate off = some ⟨.brgWin, 0, off - 0x900000⟩ := by
  have hr : 0x910000 ≤ off ∧ off < 0xA00000 := by
    unfold brgWindow at h
    repeat' split at h
    all_goals first | (simp only [Bool.and_eq_true, decide_eq_true_eq] at *; omega) | cases h
  simp only [locate, if_neg (show ¬ off < 0x10000 by omega), if_neg (show ¬ off < 0x20000 by omega),
    if_neg (show ¬ off < 0x30000 by omega), if_neg (show ¬ off < 0x40000 by omega), if_neg (show ¬ off < 0x100000 by omega),
    if_neg (show ¬ off < 0x500000 by omega), if_neg (show ¬ off < 0x580000 by omega), if_neg (show ¬ off < 0x600000 by omega),
    if_neg (show ¬ off < 0x700000 by omega), if_neg (show ¬ off < 0x780000 by omega), if_neg (show ¬ off < 0x7C0000 by omega),
    if_neg (show ¬ off < 0x7E0000 by omega), if_neg (show ¬ off < 0x800000 by omega), if_neg (show ¬ off < 0x900000 by omega),
    if_neg (show ¬ off < 0x910000 by omega), if_pos hr.2]

/-- A word write outside the windows and BRG_IRDREQ finds no bus queue full. -/
theorem bridgeOp_registerWrite {who : Initiator} {off : Nat} {w : Word} {l : Loc} (h : locate off = some l) (hb : l.blk ≠ .brgWin)
    (hi : off ≠ 0x900040) : bridgeOp (.registerWrite who off 4 w) = none := by
  cases hw : brgWindow off with
  | none => simp [bridgeOp, hi, hw]
  | some p =>
    have := brgWindow_locate (win := p.1) (o := p.2) hw
    rw [h] at this
    cases this
    exact absurd rfl hb

end Sys2Proof.Machine
end

