-- ==== Sys2Proof/Laws/State.lean ====
section
/-! SUPPORT. Field laws: what the smallest operations of the machine leave of each field of the device. -/

namespace Sys2Proof.Machine

/-! ## Outputs -/

@[simp] theorem emit_clk (d : Dev) (o : Output) : (emit d o).clk = d.clk := rfl
@[simp] theorem emit_whl (d : Dev) (o : Output) : (emit d o).whl = d.whl := rfl
@[simp] theorem emit_img (d : Dev) (o : Output) : (emit d o).img = d.img := rfl
@[simp] theorem emit_com (d : Dev) (o : Output) : (emit d o).com = d.com := rfl
@[simp] theorem emit_fuses (d : Dev) (o : Output) : (emit d o).fuses = d.fuses := rfl
@[simp] theorem emit_store (d : Dev) (o : Output) : (emit d o).store = d.store := rfl
@[simp] theorem emit_upd (d : Dev) (o : Output) : (emit d o).upd = d.upd := rfl
@[simp] theorem emit_flash (d : Dev) (o : Output) : (emit d o).flash = d.flash := rfl
@[simp] theorem emit_regs (d : Dev) (o : Output) : (emit d o).regs = d.regs := rfl
@[simp] theorem emit_shadow (d : Dev) (o : Output) : (emit d o).shadow = d.shadow := rfl
@[simp] theorem emit_tally (d : Dev) (o : Output) : (emit d o).tally = d.tally := rfl
@[simp] theorem emit_clears (d : Dev) (o : Output) : (emit d o).clears = d.clears := rfl
@[simp] theorem emit_pairs (d : Dev) (o : Output) : (emit d o).pairs = d.pairs := rfl
@[simp] theorem emit_acc (d : Dev) (o : Output) : (emit d o).acc = d.acc := rfl
@[simp] theorem emit_evs (d : Dev) (o : Output) : (emit d o).evs = d.evs := rfl
@[simp] theorem emit_aonEvs (d : Dev) (o : Output) : (emit d o).aonEvs = d.aonEvs := rfl
@[simp] theorem emit_fifos (d : Dev) (o : Output) : (emit d o).fifos = d.fifos := rfl
@[simp] theorem emit_eps (d : Dev) (o : Output) : (emit d o).eps = d.eps := rfl
@[simp] theorem emit_hspi (d : Dev) (o : Output) : (emit d o).hspi = d.hspi := rfl
@[simp] theorem emit_brg (d : Dev) (o : Output) : (emit d o).brg = d.brg := rfl
@[simp] theorem emit_can (d : Dev) (o : Output) : (emit d o).can = d.can := rfl
@[simp] theorem emit_eth (d : Dev) (o : Output) : (emit d o).eth = d.eth := rfl
@[simp] theorem emit_lnd (d : Dev) (o : Output) : (emit d o).lnd = d.lnd := rfl
@[simp] theorem emit_rte (d : Dev) (o : Output) : (emit d o).rte = d.rte := rfl
@[simp] theorem emit_mil (d : Dev) (o : Output) : (emit d o).mil = d.mil := rfl
@[simp] theorem emit_cry (d : Dev) (o : Output) : (emit d o).cry = d.cry := rfl
@[simp] theorem emit_kvt (d : Dev) (o : Output) : (emit d o).kvt = d.kvt := rfl
@[simp] theorem emit_flt (d : Dev) (o : Output) : (emit d o).flt = d.flt := rfl
@[simp] theorem emit_nmc (d : Dev) (o : Output) : (emit d o).nmc = d.nmc := rfl
@[simp] theorem emit_rcd (d : Dev) (o : Output) : (emit d o).rcd = d.rcd := rfl

@[simp] theorem emit_out (d : Dev) (o : Output) : (emit d o).out = o :: d.out := rfl

/-! ## Clocks and modes -/

@[simp] theorem modClk_whl (d : Dev) (f : Clk → Clk) : (modClk d f).whl = d.whl := rfl
@[simp] theorem modClk_img (d : Dev) (f : Clk → Clk) : (modClk d f).img = d.img := rfl
@[simp] theorem modClk_com (d : Dev) (f : Clk → Clk) : (modClk d f).com = d.com := rfl
@[simp] theorem modClk_fuses (d : Dev) (f : Clk → Clk) : (modClk d f).fuses = d.fuses := rfl
@[simp] theorem modClk_store (d : Dev) (f : Clk → Clk) : (modClk d f).store = d.store := rfl
@[simp] theorem modClk_upd (d : Dev) (f : Clk → Clk) : (modClk d f).upd = d.upd := rfl
@[simp] theorem modClk_flash (d : Dev) (f : Clk → Clk) : (modClk d f).flash = d.flash := rfl
@[simp] theorem modClk_regs (d : Dev) (f : Clk → Clk) : (modClk d f).regs = d.regs := rfl
@[simp] theorem modClk_shadow (d : Dev) (f : Clk → Clk) : (modClk d f).shadow = d.shadow := rfl
@[simp] theorem modClk_tally (d : Dev) (f : Clk → Clk) : (modClk d f).tally = d.tally := rfl
@[simp] theorem modClk_clears (d : Dev) (f : Clk → Clk) : (modClk d f).clears = d.clears := rfl
@[simp] theorem modClk_pairs (d : Dev) (f : Clk → Clk) : (modClk d f).pairs = d.pairs := rfl
@[simp] theorem modClk_acc (d : Dev) (f : Clk → Clk) : (modClk d f).acc = d.acc := rfl
@[simp] theorem modClk_evs (d : Dev) (f : Clk → Clk) : (modClk d f).evs = d.evs := rfl
@[simp] theorem modClk_aonEvs (d : Dev) (f : Clk → Clk) : (modClk d f).aonEvs = d.aonEvs := rfl
@[simp] theorem modClk_fifos (d : Dev) (f : Clk → Clk) : (modClk d f).fifos = d.fifos := rfl
@[simp] theorem modClk_eps (d : Dev) (f : Clk → Clk) : (modClk d f).eps = d.eps := rfl
@[simp] theorem modClk_hspi (d : Dev) (f : Clk → Clk) : (modClk d f).hspi = d.hspi := rfl
@[simp] theorem modClk_brg (d : Dev) (f : Clk → Clk) : (modClk d f).brg = d.brg := rfl
@[simp] theorem modClk_can (d : Dev) (f : Clk → Clk) : (modClk d f).can = d.can := rfl
@[simp] theorem modClk_eth (d : Dev) (f : Clk → Clk) : (modClk d f).eth = d.eth := rfl
@[simp] theorem modClk_lnd (d : Dev) (f : Clk → Clk) : (modClk d f).lnd = d.lnd := rfl
@[simp] theorem modClk_rte (d : Dev) (f : Clk → Clk) : (modClk d f).rte = d.rte := rfl
@[simp] theorem modClk_mil (d : Dev) (f : Clk → Clk) : (modClk d f).mil = d.mil := rfl
@[simp] theorem modClk_cry (d : Dev) (f : Clk → Clk) : (modClk d f).cry = d.cry := rfl
@[simp] theorem modClk_kvt (d : Dev) (f : Clk → Clk) : (modClk d f).kvt = d.kvt := rfl
@[simp] theorem modClk_flt (d : Dev) (f : Clk → Clk) : (modClk d f).flt = d.flt := rfl
@[simp] theorem modClk_nmc (d : Dev) (f : Clk → Clk) : (modClk d f).nmc = d.nmc := rfl
@[simp] theorem modClk_rcd (d : Dev) (f : Clk → Clk) : (modClk d f).rcd = d.rcd := rfl

@[simp] theorem modClk_out (d : Dev) (f : Clk → Clk) : (modClk d f).out = d.out := rfl
@[simp] theorem modClk_clk (d : Dev) (f : Clk → Clk) : (modClk d f).clk = f d.clk := rfl

/-! ## Registers -/

@[simp] theorem putK_clk (d : Dev) (key v : Nat) : (putK d key v).clk = d.clk := rfl
@[simp] theorem putK_whl (d : Dev) (key v : Nat) : (putK d key v).whl = d.whl := rfl
@[simp] theorem putK_img (d : Dev) (key v : Nat) : (putK d key v).img = d.img := rfl
@[simp] theorem putK_com (d : Dev) (key v : Nat) : (putK d key v).com = d.com := rfl
@[simp] theorem putK_fuses (d : Dev) (key v : Nat) : (putK d key v).fuses = d.fuses := rfl
@[simp] theorem putK_store (d : Dev) (key v : Nat) : (putK d key v).store = d.store := rfl
@[simp] theorem putK_upd (d : Dev) (key v : Nat) : (putK d key v).upd = d.upd := rfl
@[simp] theorem putK_flash (d : Dev) (key v : Nat) : (putK d key v).flash = d.flash := rfl
@[simp] theorem putK_shadow (d : Dev) (key v : Nat) : (putK d key v).shadow = d.shadow := rfl
@[simp] theorem putK_tally (d : Dev) (key v : Nat) : (putK d key v).tally = d.tally := rfl
@[simp] theorem putK_clears (d : Dev) (key v : Nat) : (putK d key v).clears = d.clears := rfl
@[simp] theorem putK_pairs (d : Dev) (key v : Nat) : (putK d key v).pairs = d.pairs := rfl
@[simp] theorem putK_acc (d : Dev) (key v : Nat) : (putK d key v).acc = d.acc := rfl
@[simp] theorem putK_evs (d : Dev) (key v : Nat) : (putK d key v).evs = d.evs := rfl
@[simp] theorem putK_aonEvs (d : Dev) (key v : Nat) : (putK d key v).aonEvs = d.aonEvs := rfl
@[simp] theorem putK_fifos (d : Dev) (key v : Nat) : (putK d key v).fifos = d.fifos := rfl
@[simp] theorem putK_eps (d : Dev) (key v : Nat) : (putK d key v).eps = d.eps := rfl
@[simp] theorem putK_hspi (d : Dev) (key v : Nat) : (putK d key v).hspi = d.hspi := rfl
@[simp] theorem putK_brg (d : Dev) (key v : Nat) : (putK d key v).brg = d.brg := rfl
@[simp] theorem putK_can (d : Dev) (key v : Nat) : (putK d key v).can = d.can := rfl
@[simp] theorem putK_eth (d : Dev) (key v : Nat) : (putK d key v).eth = d.eth := rfl
@[simp] theorem putK_lnd (d : Dev) (key v : Nat) : (putK d key v).lnd = d.lnd := rfl
@[simp] theorem putK_rte (d : Dev) (key v : Nat) : (putK d key v).rte = d.rte := rfl
@[simp] theorem putK_mil (d : Dev) (key v : Nat) : (putK d key v).mil = d.mil := rfl
@[simp] theorem putK_cry (d : Dev) (key v : Nat) : (putK d key v).cry = d.cry := rfl
@[simp] theorem putK_kvt (d : Dev) (key v : Nat) : (putK d key v).kvt = d.kvt := rfl
@[simp] theorem putK_flt (d : Dev) (key v : Nat) : (putK d key v).flt = d.flt := rfl
@[simp] theorem putK_nmc (d : Dev) (key v : Nat) : (putK d key v).nmc = d.nmc := rfl
@[simp] theorem putK_rcd (d : Dev) (key v : Nat) : (putK d key v).rcd = d.rcd := rfl

@[simp] theorem putK_out (d : Dev) (key v : Nat) : (putK d key v).out = d.out := rfl

/-! ## Registers by offset -/

@[simp] theorem putReg_clk (d : Dev) (off v : Nat) : (putReg d off v).clk = d.clk := rfl
@[simp] theorem putReg_whl (d : Dev) (off v : Nat) : (putReg d off v).whl = d.whl := rfl
@[simp] theorem putReg_img (d : Dev) (off v : Nat) : (putReg d off v).img = d.img := rfl
@[simp] theorem putReg_com (d : Dev) (off v : Nat) : (putReg d off v).com = d.com := rfl
@[simp] theorem putReg_fuses (d : Dev) (off v : Nat) : (putReg d off v).fuses = d.fuses := rfl
@[simp] theorem putReg_store (d : Dev) (off v : Nat) : (putReg d off v).store = d.store := rfl
@[simp] theorem putReg_upd (d : Dev) (off v : Nat) : (putReg d off v).upd = d.upd := rfl
@[simp] theorem putReg_flash (d : Dev) (off v : Nat) : (putReg d off v).flash = d.flash := rfl
@[simp] theorem putReg_shadow (d : Dev) (off v : Nat) : (putReg d off v).shadow = d.shadow := rfl
@[simp] theorem putReg_tally (d : Dev) (off v : Nat) : (putReg d off v).tally = d.tally := rfl
@[simp] theorem putReg_clears (d : Dev) (off v : Nat) : (putReg d off v).clears = d.clears := rfl
@[simp] theorem putReg_pairs (d : Dev) (off v : Nat) : (putReg d off v).pairs = d.pairs := rfl
@[simp] theorem putReg_acc (d : Dev) (off v : Nat) : (putReg d off v).acc = d.acc := rfl
@[simp] theorem putReg_evs (d : Dev) (off v : Nat) : (putReg d off v).evs = d.evs := rfl
@[simp] theorem putReg_aonEvs (d : Dev) (off v : Nat) : (putReg d off v).aonEvs = d.aonEvs := rfl
@[simp] theorem putReg_fifos (d : Dev) (off v : Nat) : (putReg d off v).fifos = d.fifos := rfl
@[simp] theorem putReg_eps (d : Dev) (off v : Nat) : (putReg d off v).eps = d.eps := rfl
@[simp] theorem putReg_hspi (d : Dev) (off v : Nat) : (putReg d off v).hspi = d.hspi := rfl
@[simp] theorem putReg_brg (d : Dev) (off v : Nat) : (putReg d off v).brg = d.brg := rfl
@[simp] theorem putReg_can (d : Dev) (off v : Nat) : (putReg d off v).can = d.can := rfl
@[simp] theorem putReg_eth (d : Dev) (off v : Nat) : (putReg d off v).eth = d.eth := rfl
@[simp] theorem putReg_lnd (d : Dev) (off v : Nat) : (putReg d off v).lnd = d.lnd := rfl
@[simp] theorem putReg_rte (d : Dev) (off v : Nat) : (putReg d off v).rte = d.rte := rfl
@[simp] theorem putReg_mil (d : Dev) (off v : Nat) : (putReg d off v).mil = d.mil := rfl
@[simp] theorem putReg_cry (d : Dev) (off v : Nat) : (putReg d off v).cry = d.cry := rfl
@[simp] theorem putReg_kvt (d : Dev) (off v : Nat) : (putReg d off v).kvt = d.kvt := rfl
@[simp] theorem putReg_flt (d : Dev) (off v : Nat) : (putReg d off v).flt = d.flt := rfl
@[simp] theorem putReg_nmc (d : Dev) (off v : Nat) : (putReg d off v).nmc = d.nmc := rfl
@[simp] theorem putReg_rcd (d : Dev) (off v : Nat) : (putReg d off v).rcd = d.rcd := rfl

@[simp] theorem putReg_out (d : Dev) (off v : Nat) : (putReg d off v).out = d.out := rfl

/-! ## Tally counters -/

@[simp] theorem bumpBy_clk (d : Dev) (off inst n : Nat) : (bumpBy d off inst n).clk = d.clk := rfl
@[simp] theorem bumpBy_whl (d : Dev) (off inst n : Nat) : (bumpBy d off inst n).whl = d.whl := rfl
@[simp] theorem bumpBy_img (d : Dev) (off inst n : Nat) : (bumpBy d off inst n).img = d.img := rfl
@[simp] theorem bumpBy_com (d : Dev) (off inst n : Nat) : (bumpBy d off inst n).com = d.com := rfl
@[simp] theorem bumpBy_fuses (d : Dev) (off inst n : Nat) : (bumpBy d off inst n).fuses = d.fuses := rfl
@[simp] theorem bumpBy_store (d : Dev) (off inst n : Nat) : (bumpBy d off inst n).store = d.store := rfl
@[simp] theorem bumpBy_upd (d : Dev) (off inst n : Nat) : (bumpBy d off inst n).upd = d.upd := rfl
@[simp] theorem bumpBy_flash (d : Dev) (off inst n : Nat) : (bumpBy d off inst n).flash = d.flash := rfl
@[simp] theorem bumpBy_regs (d : Dev) (off inst n : Nat) : (bumpBy d off inst n).regs = d.regs := rfl
@[simp] theorem bumpBy_shadow (d : Dev) (off inst n : Nat) : (bumpBy d off inst n).shadow = d.shadow := rfl
@[simp] theorem bumpBy_clears (d : Dev) (off inst n : Nat) : (bumpBy d off inst n).clears = d.clears := rfl
@[simp] theorem bumpBy_pairs (d : Dev) (off inst n : Nat) : (bumpBy d off inst n).pairs = d.pairs := rfl
@[simp] theorem bumpBy_acc (d : Dev) (off inst n : Nat) : (bumpBy d off inst n).acc = d.acc := rfl
@[simp] theorem bumpBy_evs (d : Dev) (off inst n : Nat) : (bumpBy d off inst n).evs = d.evs := rfl
@[simp] theorem bumpBy_aonEvs (d : Dev) (off inst n : Nat) : (bumpBy d off inst n).aonEvs = d.aonEvs := rfl
@[simp] theorem bumpBy_fifos (d : Dev) (off inst n : Nat) : (bumpBy d off inst n).fifos = d.fifos := rfl
@[simp] theorem bumpBy_eps (d : Dev) (off inst n : Nat) : (bumpBy d off inst n).eps = d.eps := rfl
@[simp] theorem bumpBy_hspi (d : Dev) (off inst n : Nat) : (bumpBy d off inst n).hspi = d.hspi := rfl
@[simp] theorem bumpBy_brg (d : Dev) (off inst n : Nat) : (bumpBy d off inst n).brg = d.brg := rfl
@[simp] theorem bumpBy_can (d : Dev) (off inst n : Nat) : (bumpBy d off inst n).can = d.can := rfl
@[simp] theorem bumpBy_eth (d : Dev) (off inst n : Nat) : (bumpBy d off inst n).eth = d.eth := rfl
@[simp] theorem bumpBy_lnd (d : Dev) (off inst n : Nat) : (bumpBy d off inst n).lnd = d.lnd := rfl
@[simp] theorem bumpBy_rte (d : Dev) (off inst n : Nat) : (bumpBy d off inst n).rte = d.rte := rfl
@[simp] theorem bumpBy_mil (d : Dev) (off inst n : Nat) : (bumpBy d off inst n).mil = d.mil := rfl
@[simp] theorem bumpBy_cry (d : Dev) (off inst n : Nat) : (bumpBy d off inst n).cry = d.cry := rfl
@[simp] theorem bumpBy_kvt (d : Dev) (off inst n : Nat) : (bumpBy d off inst n).kvt = d.kvt := rfl
@[simp] theorem bumpBy_flt (d : Dev) (off inst n : Nat) : (bumpBy d off inst n).flt = d.flt := rfl
@[simp] theorem bumpBy_nmc (d : Dev) (off inst n : Nat) : (bumpBy d off inst n).nmc = d.nmc := rfl
@[simp] theorem bumpBy_rcd (d : Dev) (off inst n : Nat) : (bumpBy d off inst n).rcd = d.rcd := rfl

@[simp] theorem bumpBy_out (d : Dev) (off inst n : Nat) : (bumpBy d off inst n).out = d.out := rfl

/-! ## Tally counters, by one -/

@[simp] theorem bump_clk (d : Dev) (off inst : Nat) : (bump d off inst).clk = d.clk := rfl
@[simp] theorem bump_whl (d : Dev) (off inst : Nat) : (bump d off inst).whl = d.whl := rfl
@[simp] theorem bump_img (d : Dev) (off inst : Nat) : (bump d off inst).img = d.img := rfl
@[simp] theorem bump_com (d : Dev) (off inst : Nat) : (bump d off inst).com = d.com := rfl
@[simp] theorem bump_fuses (d : Dev) (off inst : Nat) : (bump d off inst).fuses = d.fuses := rfl
@[simp] theorem bump_store (d : Dev) (off inst : Nat) : (bump d off inst).store = d.store := rfl
@[simp] theorem bump_upd (d : Dev) (off inst : Nat) : (bump d off inst).upd = d.upd := rfl
@[simp] theorem bump_flash (d : Dev) (off inst : Nat) : (bump d off inst).flash = d.flash := rfl
@[simp] theorem bump_regs (d : Dev) (off inst : Nat) : (bump d off inst).regs = d.regs := rfl
@[simp] theorem bump_shadow (d : Dev) (off inst : Nat) : (bump d off inst).shadow = d.shadow := rfl
@[simp] theorem bump_clears (d : Dev) (off inst : Nat) : (bump d off inst).clears = d.clears := rfl
@[simp] theorem bump_pairs (d : Dev) (off inst : Nat) : (bump d off inst).pairs = d.pairs := rfl
@[simp] theorem bump_acc (d : Dev) (off inst : Nat) : (bump d off inst).acc = d.acc := rfl
@[simp] theorem bump_evs (d : Dev) (off inst : Nat) : (bump d off inst).evs = d.evs := rfl
@[simp] theorem bump_aonEvs (d : Dev) (off inst : Nat) : (bump d off inst).aonEvs = d.aonEvs := rfl
@[simp] theorem bump_fifos (d : Dev) (off inst : Nat) : (bump d off inst).fifos = d.fifos := rfl
@[simp] theorem bump_eps (d : Dev) (off inst : Nat) : (bump d off inst).eps = d.eps := rfl
@[simp] theorem bump_hspi (d : Dev) (off inst : Nat) : (bump d off inst).hspi = d.hspi := rfl
@[simp] theorem bump_brg (d : Dev) (off inst : Nat) : (bump d off inst).brg = d.brg := rfl
@[simp] theorem bump_can (d : Dev) (off inst : Nat) : (bump d off inst).can = d.can := rfl
@[simp] theorem bump_eth (d : Dev) (off inst : Nat) : (bump d off inst).eth = d.eth := rfl
@[simp] theorem bump_lnd (d : Dev) (off inst : Nat) : (bump d off inst).lnd = d.lnd := rfl
@[simp] theorem bump_rte (d : Dev) (off inst : Nat) : (bump d off inst).rte = d.rte := rfl
@[simp] theorem bump_mil (d : Dev) (off inst : Nat) : (bump d off inst).mil = d.mil := rfl
@[simp] theorem bump_cry (d : Dev) (off inst : Nat) : (bump d off inst).cry = d.cry := rfl
@[simp] theorem bump_kvt (d : Dev) (off inst : Nat) : (bump d off inst).kvt = d.kvt := rfl
@[simp] theorem bump_flt (d : Dev) (off inst : Nat) : (bump d off inst).flt = d.flt := rfl
@[simp] theorem bump_nmc (d : Dev) (off inst : Nat) : (bump d off inst).nmc = d.nmc := rfl
@[simp] theorem bump_rcd (d : Dev) (off inst : Nat) : (bump d off inst).rcd = d.rcd := rfl

@[simp] theorem bump_out (d : Dev) (off inst : Nat) : (bump d off inst).out = d.out := rfl

/-! ## Fault classes -/

@[simp] theorem noteClass_clk (d : Dev) (c : Nat) : (noteClass d c).clk = d.clk := rfl
@[simp] theorem noteClass_whl (d : Dev) (c : Nat) : (noteClass d c).whl = d.whl := rfl
@[simp] theorem noteClass_img (d : Dev) (c : Nat) : (noteClass d c).img = d.img := rfl
@[simp] theorem noteClass_com (d : Dev) (c : Nat) : (noteClass d c).com = d.com := rfl
@[simp] theorem noteClass_fuses (d : Dev) (c : Nat) : (noteClass d c).fuses = d.fuses := rfl
@[simp] theorem noteClass_store (d : Dev) (c : Nat) : (noteClass d c).store = d.store := rfl
@[simp] theorem noteClass_upd (d : Dev) (c : Nat) : (noteClass d c).upd = d.upd := rfl
@[simp] theorem noteClass_flash (d : Dev) (c : Nat) : (noteClass d c).flash = d.flash := rfl
@[simp] theorem noteClass_regs (d : Dev) (c : Nat) : (noteClass d c).regs = d.regs := rfl
@[simp] theorem noteClass_shadow (d : Dev) (c : Nat) : (noteClass d c).shadow = d.shadow := rfl
@[simp] theorem noteClass_tally (d : Dev) (c : Nat) : (noteClass d c).tally = d.tally := rfl
@[simp] theorem noteClass_clears (d : Dev) (c : Nat) : (noteClass d c).clears = d.clears := rfl
@[simp] theorem noteClass_pairs (d : Dev) (c : Nat) : (noteClass d c).pairs = d.pairs := rfl
@[simp] theorem noteClass_acc (d : Dev) (c : Nat) : (noteClass d c).acc = d.acc := rfl
@[simp] theorem noteClass_evs (d : Dev) (c : Nat) : (noteClass d c).evs = d.evs := rfl
@[simp] theorem noteClass_aonEvs (d : Dev) (c : Nat) : (noteClass d c).aonEvs = d.aonEvs := rfl
@[simp] theorem noteClass_fifos (d : Dev) (c : Nat) : (noteClass d c).fifos = d.fifos := rfl
@[simp] theorem noteClass_eps (d : Dev) (c : Nat) : (noteClass d c).eps = d.eps := rfl
@[simp] theorem noteClass_hspi (d : Dev) (c : Nat) : (noteClass d c).hspi = d.hspi := rfl
@[simp] theorem noteClass_brg (d : Dev) (c : Nat) : (noteClass d c).brg = d.brg := rfl
@[simp] theorem noteClass_can (d : Dev) (c : Nat) : (noteClass d c).can = d.can := rfl
@[simp] theorem noteClass_eth (d : Dev) (c : Nat) : (noteClass d c).eth = d.eth := rfl
@[simp] theorem noteClass_lnd (d : Dev) (c : Nat) : (noteClass d c).lnd = d.lnd := rfl
@[simp] theorem noteClass_rte (d : Dev) (c : Nat) : (noteClass d c).rte = d.rte := rfl
@[simp] theorem noteClass_mil (d : Dev) (c : Nat) : (noteClass d c).mil = d.mil := rfl
@[simp] theorem noteClass_cry (d : Dev) (c : Nat) : (noteClass d c).cry = d.cry := rfl
@[simp] theorem noteClass_kvt (d : Dev) (c : Nat) : (noteClass d c).kvt = d.kvt := rfl
@[simp] theorem noteClass_nmc (d : Dev) (c : Nat) : (noteClass d c).nmc = d.nmc := rfl
@[simp] theorem noteClass_rcd (d : Dev) (c : Nat) : (noteClass d c).rcd = d.rcd := rfl

@[simp] theorem noteClass_out (d : Dev) (c : Nat) : (noteClass d c).out = d.out := rfl

/-! ## Triggers and events -/

@[simp] theorem recTrig_clk (d : Dev) (src stamp code : Nat) : (recTrig d src stamp code).clk = d.clk := by
  unfold recTrig; dsimp only; split <;> first | rfl | (split <;> first | rfl | (split <;> rfl))
@[simp] theorem recTrig_whl (d : Dev) (src stamp code : Nat) : (recTrig d src stamp code).whl = d.whl := by
  unfold recTrig; dsimp only; split <;> first | rfl | (split <;> first | rfl | (split <;> rfl))
@[simp] theorem recTrig_img (d : Dev) (src stamp code : Nat) : (recTrig d src stamp code).img = d.img := by
  unfold recTrig; dsimp only; split <;> first | rfl | (split <;> first | rfl | (split <;> rfl))
@[simp] theorem recTrig_com (d : Dev) (src stamp code : Nat) : (recTrig d src stamp code).com = d.com := by
  unfold recTrig; dsimp only; split <;> first | rfl | (split <;> first | rfl | (split <;> rfl))
@[simp] theorem recTrig_fuses (d : Dev) (src stamp code : Nat) : (recTrig d src stamp code).fuses = d.fuses := by
  unfold recTrig; dsimp only; split <;> first | rfl | (split <;> first | rfl | (split <;> rfl))
@[simp] theorem recTrig_store (d : Dev) (src stamp code : Nat) : (recTrig d src stamp code).store = d.store := by
  unfold recTrig; dsimp only; split <;> first | rfl | (split <;> first | rfl | (split <;> rfl))
@[simp] theorem recTrig_upd (d : Dev) (src stamp code : Nat) : (recTrig d src stamp code).upd = d.upd := by
  unfold recTrig; dsimp only; split <;> first | rfl | (split <;> first | rfl | (split <;> rfl))
@[simp] theorem recTrig_flash (d : Dev) (src stamp code : Nat) : (recTrig d src stamp code).flash = d.flash := by
  unfold recTrig; dsimp only; split <;> first | rfl | (split <;> first | rfl | (split <;> rfl))
@[simp] theorem recTrig_regs (d : Dev) (src stamp code : Nat) : (recTrig d src stamp code).regs = d.regs := by
  unfold recTrig; dsimp only; split <;> first | rfl | (split <;> first | rfl | (split <;> rfl))
@[simp] theorem recTrig_shadow (d : Dev) (src stamp code : Nat) : (recTrig d src stamp code).shadow = d.shadow := by
  unfold recTrig; dsimp only; split <;> first | rfl | (split <;> first | rfl | (split <;> rfl))
@[simp] theorem recTrig_clears (d : Dev) (src stamp code : Nat) : (recTrig d src stamp code).clears = d.clears := by
  unfold recTrig; dsimp only; split <;> first | rfl | (split <;> first | rfl | (split <;> rfl))
@[simp] theorem recTrig_pairs (d : Dev) (src stamp code : Nat) : (recTrig d src stamp code).pairs = d.pairs := by
  unfold recTrig; dsimp only; split <;> first | rfl | (split <;> first | rfl | (split <;> rfl))
@[simp] theorem recTrig_acc (d : Dev) (src stamp code : Nat) : (recTrig d src stamp code).acc = d.acc := by
  unfold recTrig; dsimp only; split <;> first | rfl | (split <;> first | rfl | (split <;> rfl))
@[simp] theorem recTrig_evs (d : Dev) (src stamp code : Nat) : (recTrig d src stamp code).evs = d.evs := by
  unfold recTrig; dsimp only; split <;> first | rfl | (split <;> first | rfl | (split <;> rfl))
@[simp] theorem recTrig_aonEvs (d : Dev) (src stamp code : Nat) : (recTrig d src stamp code).aonEvs = d.aonEvs := by
  unfold recTrig; dsimp only; split <;> first | rfl | (split <;> first | rfl | (split <;> rfl))
@[simp] theorem recTrig_fifos (d : Dev) (src stamp code : Nat) : (recTrig d src stamp code).fifos = d.fifos := by
  unfold recTrig; dsimp only; split <;> first | rfl | (split <;> first | rfl | (split <;> rfl))
@[simp] theorem recTrig_eps (d : Dev) (src stamp code : Nat) : (recTrig d src stamp code).eps = d.eps := by
  unfold recTrig; dsimp only; split <;> first | rfl | (split <;> first | rfl | (split <;> rfl))
@[simp] theorem recTrig_hspi (d : Dev) (src stamp code : Nat) : (recTrig d src stamp code).hspi = d.hspi := by
  unfold recTrig; dsimp only; split <;> first | rfl | (split <;> first | rfl | (split <;> rfl))
@[simp] theorem recTrig_brg (d : Dev) (src stamp code : Nat) : (recTrig d src stamp code).brg = d.brg := by
  unfold recTrig; dsimp only; split <;> first | rfl | (split <;> first | rfl | (split <;> rfl))
@[simp] theorem recTrig_can (d : Dev) (src stamp code : Nat) : (recTrig d src stamp code).can = d.can := by
  unfold recTrig; dsimp only; split <;> first | rfl | (split <;> first | rfl | (split <;> rfl))
@[simp] theorem recTrig_eth (d : Dev) (src stamp code : Nat) : (recTrig d src stamp code).eth = d.eth := by
  unfold recTrig; dsimp only; split <;> first | rfl | (split <;> first | rfl | (split <;> rfl))
@[simp] theorem recTrig_lnd (d : Dev) (src stamp code : Nat) : (recTrig d src stamp code).lnd = d.lnd := by
  unfold recTrig; dsimp only; split <;> first | rfl | (split <;> first | rfl | (split <;> rfl))
@[simp] theorem recTrig_rte (d : Dev) (src stamp code : Nat) : (recTrig d src stamp code).rte = d.rte := by
  unfold recTrig; dsimp only; split <;> first | rfl | (split <;> first | rfl | (split <;> rfl))
@[simp] theorem recTrig_mil (d : Dev) (src stamp code : Nat) : (recTrig d src stamp code).mil = d.mil := by
  unfold recTrig; dsimp only; split <;> first | rfl | (split <;> first | rfl | (split <;> rfl))
@[simp] theorem recTrig_cry (d : Dev) (src stamp code : Nat) : (recTrig d src stamp code).cry = d.cry := by
  unfold recTrig; dsimp only; split <;> first | rfl | (split <;> first | rfl | (split <;> rfl))
@[simp] theorem recTrig_kvt (d : Dev) (src stamp code : Nat) : (recTrig d src stamp code).kvt = d.kvt := by
  unfold recTrig; dsimp only; split <;> first | rfl | (split <;> first | rfl | (split <;> rfl))
@[simp] theorem recTrig_flt (d : Dev) (src stamp code : Nat) : (recTrig d src stamp code).flt = d.flt := by
  unfold recTrig; dsimp only; split <;> first | rfl | (split <;> first | rfl | (split <;> rfl))
@[simp] theorem recTrig_nmc (d : Dev) (src stamp code : Nat) : (recTrig d src stamp code).nmc = d.nmc := by
  unfold recTrig; dsimp only; split <;> first | rfl | (split <;> first | rfl | (split <;> rfl))
@[simp] theorem recTrig_out (d : Dev) (src stamp code : Nat) : (recTrig d src stamp code).out = d.out := by
  unfold recTrig; dsimp only; split <;> first | rfl | (split <;> first | rfl | (split <;> rfl))

@[simp] theorem evTrig_clk (d : Dev) (stamp code cls : Nat) : (evTrig d stamp code cls).clk = d.clk := by
  simp [evTrig, apply_ite Dev.clk]
@[simp] theorem evTrig_whl (d : Dev) (stamp code cls : Nat) : (evTrig d stamp code cls).whl = d.whl := by
  simp [evTrig, apply_ite Dev.whl]
@[simp] theorem evTrig_img (d : Dev) (stamp code cls : Nat) : (evTrig d stamp code cls).img = d.img := by
  simp [evTrig, apply_ite Dev.img]
@[simp] theorem evTrig_com (d : Dev) (stamp code cls : Nat) : (evTrig d stamp code cls).com = d.com := by
  simp [evTrig, apply_ite Dev.com]
@[simp] theorem evTrig_fuses (d : Dev) (stamp code cls : Nat) : (evTrig d stamp code cls).fuses = d.fuses := by
  simp [evTrig, apply_ite Dev.fuses]
@[simp] theorem evTrig_store (d : Dev) (stamp code cls : Nat) : (evTrig d stamp code cls).store = d.store := by
  simp [evTrig, apply_ite Dev.store]
@[simp] theorem evTrig_upd (d : Dev) (stamp code cls : Nat) : (evTrig d stamp code cls).upd = d.upd := by
  simp [evTrig, apply_ite Dev.upd]
@[simp] theorem evTrig_flash (d : Dev) (stamp code cls : Nat) : (evTrig d stamp code cls).flash = d.flash := by
  simp [evTrig, apply_ite Dev.flash]
@[simp] theorem evTrig_regs (d : Dev) (stamp code cls : Nat) : (evTrig d stamp code cls).regs = d.regs := by
  simp [evTrig, apply_ite Dev.regs]
@[simp] theorem evTrig_shadow (d : Dev) (stamp code cls : Nat) : (evTrig d stamp code cls).shadow = d.shadow := by
  simp [evTrig, apply_ite Dev.shadow]
@[simp] theorem evTrig_clears (d : Dev) (stamp code cls : Nat) : (evTrig d stamp code cls).clears = d.clears := by
  simp [evTrig, apply_ite Dev.clears]
@[simp] theorem evTrig_pairs (d : Dev) (stamp code cls : Nat) : (evTrig d stamp code cls).pairs = d.pairs := by
  simp [evTrig, apply_ite Dev.pairs]
@[simp] theorem evTrig_acc (d : Dev) (stamp code cls : Nat) : (evTrig d stamp code cls).acc = d.acc := by
  simp [evTrig, apply_ite Dev.acc]
@[simp] theorem evTrig_evs (d : Dev) (stamp code cls : Nat) : (evTrig d stamp code cls).evs = d.evs := by
  simp [evTrig, apply_ite Dev.evs]
@[simp] theorem evTrig_aonEvs (d : Dev) (stamp code cls : Nat) : (evTrig d stamp code cls).aonEvs = d.aonEvs := by
  simp [evTrig, apply_ite Dev.aonEvs]
@[simp] theorem evTrig_fifos (d : Dev) (stamp code cls : Nat) : (evTrig d stamp code cls).fifos = d.fifos := by
  simp [evTrig, apply_ite Dev.fifos]
@[simp] theorem evTrig_eps (d : Dev) (stamp code cls : Nat) : (evTrig d stamp code cls).eps = d.eps := by
  simp [evTrig, apply_ite Dev.eps]
@[simp] theorem evTrig_hspi (d : Dev) (stamp code cls : Nat) : (evTrig d stamp code cls).hspi = d.hspi := by
  simp [evTrig, apply_ite Dev.hspi]
@[simp] theorem evTrig_brg (d : Dev) (stamp code cls : Nat) : (evTrig d stamp code cls).brg = d.brg := by
  simp [evTrig, apply_ite Dev.brg]
@[simp] theorem evTrig_can (d : Dev) (stamp code cls : Nat) : (evTrig d stamp code cls).can = d.can := by
  simp [evTrig, apply_ite Dev.can]
@[simp] theorem evTrig_eth (d : Dev) (stamp code cls : Nat) : (evTrig d stamp code cls).eth = d.eth := by
  simp [evTrig, apply_ite Dev.eth]
@[simp] theorem evTrig_lnd (d : Dev) (stamp code cls : Nat) : (evTrig d stamp code cls).lnd = d.lnd := by
  simp [evTrig, apply_ite Dev.lnd]
@[simp] theorem evTrig_rte (d : Dev) (stamp code cls : Nat) : (evTrig d stamp code cls).rte = d.rte := by
  simp [evTrig, apply_ite Dev.rte]
@[simp] theorem evTrig_mil (d : Dev) (stamp code cls : Nat) : (evTrig d stamp code cls).mil = d.mil := by
  simp [evTrig, apply_ite Dev.mil]
@[simp] theorem evTrig_cry (d : Dev) (stamp code cls : Nat) : (evTrig d stamp code cls).cry = d.cry := by
  simp [evTrig, apply_ite Dev.cry]
@[simp] theorem evTrig_kvt (d : Dev) (stamp code cls : Nat) : (evTrig d stamp code cls).kvt = d.kvt := by
  simp [evTrig, apply_ite Dev.kvt]
@[simp] theorem evTrig_flt (d : Dev) (stamp code cls : Nat) : (evTrig d stamp code cls).flt = d.flt := by
  simp [evTrig, apply_ite Dev.flt]
@[simp] theorem evTrig_nmc (d : Dev) (stamp code cls : Nat) : (evTrig d stamp code cls).nmc = d.nmc := by
  simp [evTrig, apply_ite Dev.nmc]
@[simp] theorem evTrig_out (d : Dev) (stamp code cls : Nat) : (evTrig d stamp code cls).out = d.out := by
  simp [evTrig, apply_ite Dev.out]

@[simp] theorem raiseAt_clk (d : Dev) (stamp code cls : Nat) (data : Bytes) : (raiseAt d stamp code cls data).clk = d.clk := by
  simp [raiseAt, apply_ite Dev.clk]
@[simp] theorem raise_clk (d : Dev) (code cls : Nat) (data : Bytes) : (raise d code cls data).clk = d.clk := raiseAt_clk ..
@[simp] theorem raiseAt_whl (d : Dev) (stamp code cls : Nat) (data : Bytes) : (raiseAt d stamp code cls data).whl = d.whl := by
  simp [raiseAt, apply_ite Dev.whl]
@[simp] theorem raise_whl (d : Dev) (code cls : Nat) (data : Bytes) : (raise d code cls data).whl = d.whl := raiseAt_whl ..
@[simp] theorem raiseAt_img (d : Dev) (stamp code cls : Nat) (data : Bytes) : (raiseAt d stamp code cls data).img = d.img := by
  simp [raiseAt, apply_ite Dev.img]
@[simp] theorem raise_img (d : Dev) (code cls : Nat) (data : Bytes) : (raise d code cls data).img = d.img := raiseAt_img ..
@[simp] theorem raiseAt_com (d : Dev) (stamp code cls : Nat) (data : Bytes) : (raiseAt d stamp code cls data).com = d.com := by
  simp [raiseAt, apply_ite Dev.com]
@[simp] theorem raise_com (d : Dev) (code cls : Nat) (data : Bytes) : (raise d code cls data).com = d.com := raiseAt_com ..
@[simp] theorem raiseAt_fuses (d : Dev) (stamp code cls : Nat) (data : Bytes) : (raiseAt d stamp code cls data).fuses = d.fuses := by
  simp [raiseAt, apply_ite Dev.fuses]
@[simp] theorem raise_fuses (d : Dev) (code cls : Nat) (data : Bytes) : (raise d code cls data).fuses = d.fuses := raiseAt_fuses ..
@[simp] theorem raiseAt_store (d : Dev) (stamp code cls : Nat) (data : Bytes) : (raiseAt d stamp code cls data).store = d.store := by
  simp [raiseAt, apply_ite Dev.store]
@[simp] theorem raise_store (d : Dev) (code cls : Nat) (data : Bytes) : (raise d code cls data).store = d.store := raiseAt_store ..
@[simp] theorem raiseAt_upd (d : Dev) (stamp code cls : Nat) (data : Bytes) : (raiseAt d stamp code cls data).upd = d.upd := by
  simp [raiseAt, apply_ite Dev.upd]
@[simp] theorem raise_upd (d : Dev) (code cls : Nat) (data : Bytes) : (raise d code cls data).upd = d.upd := raiseAt_upd ..
@[simp] theorem raiseAt_flash (d : Dev) (stamp code cls : Nat) (data : Bytes) : (raiseAt d stamp code cls data).flash = d.flash := by
  simp [raiseAt, apply_ite Dev.flash]
@[simp] theorem raise_flash (d : Dev) (code cls : Nat) (data : Bytes) : (raise d code cls data).flash = d.flash := raiseAt_flash ..
@[simp] theorem raiseAt_regs (d : Dev) (stamp code cls : Nat) (data : Bytes) : (raiseAt d stamp code cls data).regs = d.regs := by
  simp [raiseAt, apply_ite Dev.regs]
@[simp] theorem raise_regs (d : Dev) (code cls : Nat) (data : Bytes) : (raise d code cls data).regs = d.regs := raiseAt_regs ..
@[simp] theorem raiseAt_shadow (d : Dev) (stamp code cls : Nat) (data : Bytes) : (raiseAt d stamp code cls data).shadow = d.shadow := by
  simp [raiseAt, apply_ite Dev.shadow]
@[simp] theorem raise_shadow (d : Dev) (code cls : Nat) (data : Bytes) : (raise d code cls data).shadow = d.shadow := raiseAt_shadow ..
@[simp] theorem raiseAt_clears (d : Dev) (stamp code cls : Nat) (data : Bytes) : (raiseAt d stamp code cls data).clears = d.clears := by
  simp [raiseAt, apply_ite Dev.clears]
@[simp] theorem raise_clears (d : Dev) (code cls : Nat) (data : Bytes) : (raise d code cls data).clears = d.clears := raiseAt_clears ..
@[simp] theorem raiseAt_pairs (d : Dev) (stamp code cls : Nat) (data : Bytes) : (raiseAt d stamp code cls data).pairs = d.pairs := by
  simp [raiseAt, apply_ite Dev.pairs]
@[simp] theorem raise_pairs (d : Dev) (code cls : Nat) (data : Bytes) : (raise d code cls data).pairs = d.pairs := raiseAt_pairs ..
@[simp] theorem raiseAt_acc (d : Dev) (stamp code cls : Nat) (data : Bytes) : (raiseAt d stamp code cls data).acc = d.acc := by
  simp [raiseAt, apply_ite Dev.acc]
@[simp] theorem raise_acc (d : Dev) (code cls : Nat) (data : Bytes) : (raise d code cls data).acc = d.acc := raiseAt_acc ..
@[simp] theorem raiseAt_fifos (d : Dev) (stamp code cls : Nat) (data : Bytes) : (raiseAt d stamp code cls data).fifos = d.fifos := by
  simp [raiseAt, apply_ite Dev.fifos]
@[simp] theorem raise_fifos (d : Dev) (code cls : Nat) (data : Bytes) : (raise d code cls data).fifos = d.fifos := raiseAt_fifos ..
@[simp] theorem raiseAt_eps (d : Dev) (stamp code cls : Nat) (data : Bytes) : (raiseAt d stamp code cls data).eps = d.eps := by
  simp [raiseAt, apply_ite Dev.eps]
@[simp] theorem raise_eps (d : Dev) (code cls : Nat) (data : Bytes) : (raise d code cls data).eps = d.eps := raiseAt_eps ..
@[simp] theorem raiseAt_hspi (d : Dev) (stamp code cls : Nat) (data : Bytes) : (raiseAt d stamp code cls data).hspi = d.hspi := by
  simp [raiseAt, apply_ite Dev.hspi]
@[simp] theorem raise_hspi (d : Dev) (code cls : Nat) (data : Bytes) : (raise d code cls data).hspi = d.hspi := raiseAt_hspi ..
@[simp] theorem raiseAt_brg (d : Dev) (stamp code cls : Nat) (data : Bytes) : (raiseAt d stamp code cls data).brg = d.brg := by
  simp [raiseAt, apply_ite Dev.brg]
@[simp] theorem raise_brg (d : Dev) (code cls : Nat) (data : Bytes) : (raise d code cls data).brg = d.brg := raiseAt_brg ..
@[simp] theorem raiseAt_can (d : Dev) (stamp code cls : Nat) (data : Bytes) : (raiseAt d stamp code cls data).can = d.can := by
  simp [raiseAt, apply_ite Dev.can]
@[simp] theorem raise_can (d : Dev) (code cls : Nat) (data : Bytes) : (raise d code cls data).can = d.can := raiseAt_can ..
@[simp] theorem raiseAt_eth (d : Dev) (stamp code cls : Nat) (data : Bytes) : (raiseAt d stamp code cls data).eth = d.eth := by
  simp [raiseAt, apply_ite Dev.eth]
@[simp] theorem raise_eth (d : Dev) (code cls : Nat) (data : Bytes) : (raise d code cls data).eth = d.eth := raiseAt_eth ..
@[simp] theorem raiseAt_lnd (d : Dev) (stamp code cls : Nat) (data : Bytes) : (raiseAt d stamp code cls data).lnd = d.lnd := by
  simp [raiseAt, apply_ite Dev.lnd]
@[simp] theorem raise_lnd (d : Dev) (code cls : Nat) (data : Bytes) : (raise d code cls data).lnd = d.lnd := raiseAt_lnd ..
@[simp] theorem raiseAt_rte (d : Dev) (stamp code cls : Nat) (data : Bytes) : (raiseAt d stamp code cls data).rte = d.rte := by
  simp [raiseAt, apply_ite Dev.rte]
@[simp] theorem raise_rte (d : Dev) (code cls : Nat) (data : Bytes) : (raise d code cls data).rte = d.rte := raiseAt_rte ..
@[simp] theorem raiseAt_mil (d : Dev) (stamp code cls : Nat) (data : Bytes) : (raiseAt d stamp code cls data).mil = d.mil := by
  simp [raiseAt, apply_ite Dev.mil]
@[simp] theorem raise_mil (d : Dev) (code cls : Nat) (data : Bytes) : (raise d code cls data).mil = d.mil := raiseAt_mil ..
@[simp] theorem raiseAt_cry (d : Dev) (stamp code cls : Nat) (data : Bytes) : (raiseAt d stamp code cls data).cry = d.cry := by
  simp [raiseAt, apply_ite Dev.cry]
@[simp] theorem raise_cry (d : Dev) (code cls : Nat) (data : Bytes) : (raise d code cls data).cry = d.cry := raiseAt_cry ..
@[simp] theorem raiseAt_kvt (d : Dev) (stamp code cls : Nat) (data : Bytes) : (raiseAt d stamp code cls data).kvt = d.kvt := by
  simp [raiseAt, apply_ite Dev.kvt]
@[simp] theorem raise_kvt (d : Dev) (code cls : Nat) (data : Bytes) : (raise d code cls data).kvt = d.kvt := raiseAt_kvt ..
@[simp] theorem raiseAt_flt (d : Dev) (stamp code cls : Nat) (data : Bytes) : (raiseAt d stamp code cls data).flt = d.flt := by
  simp [raiseAt, apply_ite Dev.flt]
@[simp] theorem raise_flt (d : Dev) (code cls : Nat) (data : Bytes) : (raise d code cls data).flt = d.flt := raiseAt_flt ..
@[simp] theorem raiseAt_nmc (d : Dev) (stamp code cls : Nat) (data : Bytes) : (raiseAt d stamp code cls data).nmc = d.nmc := by
  simp [raiseAt, apply_ite Dev.nmc]
@[simp] theorem raise_nmc (d : Dev) (code cls : Nat) (data : Bytes) : (raise d code cls data).nmc = d.nmc := raiseAt_nmc ..
@[simp] theorem raiseAt_out (d : Dev) (stamp code cls : Nat) (data : Bytes) : (raiseAt d stamp code cls data).out = d.out := by
  simp [raiseAt, apply_ite Dev.out]
@[simp] theorem raise_out (d : Dev) (code cls : Nat) (data : Bytes) : (raise d code cls data).out = d.out := raiseAt_out ..

/-! ## The lines -/

@[simp] theorem drainLine_clk (n : Nat) (low : Bool) (d : Dev) : (drainLine n low d).clk = d.clk := by
  unfold drainLine; split <;> rfl
@[simp] theorem drainLine_whl (n : Nat) (low : Bool) (d : Dev) : (drainLine n low d).whl = d.whl := by
  unfold drainLine; split <;> rfl
@[simp] theorem drainLine_img (n : Nat) (low : Bool) (d : Dev) : (drainLine n low d).img = d.img := by
  unfold drainLine; split <;> rfl
@[simp] theorem drainLine_com (n : Nat) (low : Bool) (d : Dev) : (drainLine n low d).com = d.com := by
  unfold drainLine; split <;> rfl
@[simp] theorem drainLine_fuses (n : Nat) (low : Bool) (d : Dev) : (drainLine n low d).fuses = d.fuses := by
  unfold drainLine; split <;> rfl
@[simp] theorem drainLine_store (n : Nat) (low : Bool) (d : Dev) : (drainLine n low d).store = d.store := by
  unfold drainLine; split <;> rfl
@[simp] theorem drainLine_upd (n : Nat) (low : Bool) (d : Dev) : (drainLine n low d).upd = d.upd := by
  unfold drainLine; split <;> rfl
@[simp] theorem drainLine_flash (n : Nat) (low : Bool) (d : Dev) : (drainLine n low d).flash = d.flash := by
  unfold drainLine; split <;> rfl
@[simp] theorem drainLine_regs (n : Nat) (low : Bool) (d : Dev) : (drainLine n low d).regs = d.regs := by
  unfold drainLine; split <;> rfl
@[simp] theorem drainLine_shadow (n : Nat) (low : Bool) (d : Dev) : (drainLine n low d).shadow = d.shadow := by
  unfold drainLine; split <;> rfl
@[simp] theorem drainLine_tally (n : Nat) (low : Bool) (d : Dev) : (drainLine n low d).tally = d.tally := by
  unfold drainLine; split <;> rfl
@[simp] theorem drainLine_clears (n : Nat) (low : Bool) (d : Dev) : (drainLine n low d).clears = d.clears := by
  unfold drainLine; split <;> rfl
@[simp] theorem drainLine_pairs (n : Nat) (low : Bool) (d : Dev) : (drainLine n low d).pairs = d.pairs := by
  unfold drainLine; split <;> rfl
@[simp] theorem drainLine_acc (n : Nat) (low : Bool) (d : Dev) : (drainLine n low d).acc = d.acc := by
  unfold drainLine; split <;> rfl
@[simp] theorem drainLine_evs (n : Nat) (low : Bool) (d : Dev) : (drainLine n low d).evs = d.evs := by
  unfold drainLine; split <;> rfl
@[simp] theorem drainLine_aonEvs (n : Nat) (low : Bool) (d : Dev) : (drainLine n low d).aonEvs = d.aonEvs := by
  unfold drainLine; split <;> rfl
@[simp] theorem drainLine_fifos (n : Nat) (low : Bool) (d : Dev) : (drainLine n low d).fifos = d.fifos := by
  unfold drainLine; split <;> rfl
@[simp] theorem drainLine_eps (n : Nat) (low : Bool) (d : Dev) : (drainLine n low d).eps = d.eps := by
  unfold drainLine; split <;> rfl
@[simp] theorem drainLine_hspi (n : Nat) (low : Bool) (d : Dev) : (drainLine n low d).hspi = d.hspi := by
  unfold drainLine; split <;> rfl
@[simp] theorem drainLine_brg (n : Nat) (low : Bool) (d : Dev) : (drainLine n low d).brg = d.brg := by
  unfold drainLine; split <;> rfl
@[simp] theorem drainLine_can (n : Nat) (low : Bool) (d : Dev) : (drainLine n low d).can = d.can := by
  unfold drainLine; split <;> rfl
@[simp] theorem drainLine_eth (n : Nat) (low : Bool) (d : Dev) : (drainLine n low d).eth = d.eth := by
  unfold drainLine; split <;> rfl
@[simp] theorem drainLine_lnd (n : Nat) (low : Bool) (d : Dev) : (drainLine n low d).lnd = d.lnd := by
  unfold drainLine; split <;> rfl
@[simp] theorem drainLine_rte (n : Nat) (low : Bool) (d : Dev) : (drainLine n low d).rte = d.rte := by
  unfold drainLine; split <;> rfl
@[simp] theorem drainLine_mil (n : Nat) (low : Bool) (d : Dev) : (drainLine n low d).mil = d.mil := by
  unfold drainLine; split <;> rfl
@[simp] theorem drainLine_cry (n : Nat) (low : Bool) (d : Dev) : (drainLine n low d).cry = d.cry := by
  unfold drainLine; split <;> rfl
@[simp] theorem drainLine_kvt (n : Nat) (low : Bool) (d : Dev) : (drainLine n low d).kvt = d.kvt := by
  unfold drainLine; split <;> rfl
@[simp] theorem drainLine_flt (n : Nat) (low : Bool) (d : Dev) : (drainLine n low d).flt = d.flt := by
  unfold drainLine; split <;> rfl
@[simp] theorem drainLine_nmc (n : Nat) (low : Bool) (d : Dev) : (drainLine n low d).nmc = d.nmc := by
  unfold drainLine; split <;> rfl
@[simp] theorem drainLine_rcd (n : Nat) (low : Bool) (d : Dev) : (drainLine n low d).rcd = d.rcd := by
  unfold drainLine; split <;> rfl
@[simp] theorem faultLine_clk (d : Dev) : (faultLine d).clk = d.clk := by
  unfold faultLine; split <;> rfl
@[simp] theorem faultLine_whl (d : Dev) : (faultLine d).whl = d.whl := by
  unfold faultLine; split <;> rfl
@[simp] theorem faultLine_img (d : Dev) : (faultLine d).img = d.img := by
  unfold faultLine; split <;> rfl
@[simp] theorem faultLine_com (d : Dev) : (faultLine d).com = d.com := by
  unfold faultLine; split <;> rfl
@[simp] theorem faultLine_fuses (d : Dev) : (faultLine d).fuses = d.fuses := by
  unfold faultLine; split <;> rfl
@[simp] theorem faultLine_store (d : Dev) : (faultLine d).store = d.store := by
  unfold faultLine; split <;> rfl
@[simp] theorem faultLine_upd (d : Dev) : (faultLine d).upd = d.upd := by
  unfold faultLine; split <;> rfl
@[simp] theorem faultLine_flash (d : Dev) : (faultLine d).flash = d.flash := by
  unfold faultLine; split <;> rfl
@[simp] theorem faultLine_regs (d : Dev) : (faultLine d).regs = d.regs := by
  unfold faultLine; split <;> rfl
@[simp] theorem faultLine_shadow (d : Dev) : (faultLine d).shadow = d.shadow := by
  unfold faultLine; split <;> rfl
@[simp] theorem faultLine_tally (d : Dev) : (faultLine d).tally = d.tally := by
  unfold faultLine; split <;> rfl
@[simp] theorem faultLine_clears (d : Dev) : (faultLine d).clears = d.clears := by
  unfold faultLine; split <;> rfl
@[simp] theorem faultLine_pairs (d : Dev) : (faultLine d).pairs = d.pairs := by
  unfold faultLine; split <;> rfl
@[simp] theorem faultLine_acc (d : Dev) : (faultLine d).acc = d.acc := by
  unfold faultLine; split <;> rfl
@[simp] theorem faultLine_evs (d : Dev) : (faultLine d).evs = d.evs := by
  unfold faultLine; split <;> rfl
@[simp] theorem faultLine_aonEvs (d : Dev) : (faultLine d).aonEvs = d.aonEvs := by
  unfold faultLine; split <;> rfl
@[simp] theorem faultLine_fifos (d : Dev) : (faultLine d).fifos = d.fifos := by
  unfold faultLine; split <;> rfl
@[simp] theorem faultLine_eps (d : Dev) : (faultLine d).eps = d.eps := by
  unfold faultLine; split <;> rfl
@[simp] theorem faultLine_hspi (d : Dev) : (faultLine d).hspi = d.hspi := by
  unfold faultLine; split <;> rfl
@[simp] theorem faultLine_brg (d : Dev) : (faultLine d).brg = d.brg := by
  unfold faultLine; split <;> rfl
@[simp] theorem faultLine_can (d : Dev) : (faultLine d).can = d.can := by
  unfold faultLine; split <;> rfl
@[simp] theorem faultLine_eth (d : Dev) : (faultLine d).eth = d.eth := by
  unfold faultLine; split <;> rfl
@[simp] theorem faultLine_lnd (d : Dev) : (faultLine d).lnd = d.lnd := by
  unfold faultLine; split <;> rfl
@[simp] theorem faultLine_rte (d : Dev) : (faultLine d).rte = d.rte := by
  unfold faultLine; split <;> rfl
@[simp] theorem faultLine_mil (d : Dev) : (faultLine d).mil = d.mil := by
  unfold faultLine; split <;> rfl
@[simp] theorem faultLine_cry (d : Dev) : (faultLine d).cry = d.cry := by
  unfold faultLine; split <;> rfl
@[simp] theorem faultLine_kvt (d : Dev) : (faultLine d).kvt = d.kvt := by
  unfold faultLine; split <;> rfl
@[simp] theorem faultLine_flt (d : Dev) : (faultLine d).flt = d.flt := by
  unfold faultLine; split <;> rfl
@[simp] theorem faultLine_nmc (d : Dev) : (faultLine d).nmc = d.nmc := by
  unfold faultLine; split <;> rfl
@[simp] theorem faultLine_rcd (d : Dev) : (faultLine d).rcd = d.rcd := by
  unfold faultLine; split <;> rfl
@[simp] theorem settle_clk (d : Dev) : (settle d).clk = d.clk := by simp [settle]
@[simp] theorem settle_whl (d : Dev) : (settle d).whl = d.whl := by simp [settle]
@[simp] theorem settle_img (d : Dev) : (settle d).img = d.img := by simp [settle]
@[simp] theorem settle_com (d : Dev) : (settle d).com = d.com := by simp [settle]
@[simp] theorem settle_fuses (d : Dev) : (settle d).fuses = d.fuses := by simp [settle]
@[simp] theorem settle_store (d : Dev) : (settle d).store = d.store := by simp [settle]
@[simp] theorem settle_upd (d : Dev) : (settle d).upd = d.upd := by simp [settle]
@[simp] theorem settle_flash (d : Dev) : (settle d).flash = d.flash := by simp [settle]
@[simp] theorem settle_regs (d : Dev) : (settle d).regs = d.regs := by simp [settle]
@[simp] theorem settle_shadow (d : Dev) : (settle d).shadow = d.shadow := by simp [settle]
@[simp] theorem settle_tally (d : Dev) : (settle d).tally = d.tally := by simp [settle]
@[simp] theorem settle_clears (d : Dev) : (settle d).clears = d.clears := by simp [settle]
@[simp] theorem settle_pairs (d : Dev) : (settle d).pairs = d.pairs := by simp [settle]
@[simp] theorem settle_acc (d : Dev) : (settle d).acc = d.acc := by simp [settle]
@[simp] theorem settle_evs (d : Dev) : (settle d).evs = d.evs := by simp [settle]
@[simp] theorem settle_aonEvs (d : Dev) : (settle d).aonEvs = d.aonEvs := by simp [settle]
@[simp] theorem settle_fifos (d : Dev) : (settle d).fifos = d.fifos := by simp [settle]
@[simp] theorem settle_eps (d : Dev) : (settle d).eps = d.eps := by simp [settle]
@[simp] theorem settle_hspi (d : Dev) : (settle d).hspi = d.hspi := by simp [settle]
@[simp] theorem settle_brg (d : Dev) : (settle d).brg = d.brg := by simp [settle]
@[simp] theorem settle_can (d : Dev) : (settle d).can = d.can := by simp [settle]
@[simp] theorem settle_eth (d : Dev) : (settle d).eth = d.eth := by simp [settle]
@[simp] theorem settle_lnd (d : Dev) : (settle d).lnd = d.lnd := by simp [settle]
@[simp] theorem settle_rte (d : Dev) : (settle d).rte = d.rte := by simp [settle]
@[simp] theorem settle_mil (d : Dev) : (settle d).mil = d.mil := by simp [settle]
@[simp] theorem settle_cry (d : Dev) : (settle d).cry = d.cry := by simp [settle]
@[simp] theorem settle_kvt (d : Dev) : (settle d).kvt = d.kvt := by simp [settle]
@[simp] theorem settle_flt (d : Dev) : (settle d).flt = d.flt := by simp [settle]
@[simp] theorem settle_nmc (d : Dev) : (settle d).nmc = d.nmc := by simp [settle]
@[simp] theorem settle_rcd (d : Dev) : (settle d).rcd = d.rcd := by simp [settle]

end Sys2Proof.Machine
end

