-- ==== Sys2Proof/Laws/Lines.lean ====
section
/-! SUPPORT. Laws of the lines that follow the state (R415, R464), of a command that yields a device, and of a register
write that meets no access error. -/

namespace Sys2Proof.Machine

/-! ## Lines -/

theorem lineOf_emit (o : List Output) (m n : Nat) (h : Bool) : lineOf (.line m h :: o) n = if m = n then some h else lineOf o n :=
  rfl

/-- A drain leaves every other line. -/
theorem drain_other (n m : Nat) (low : Bool) (d : Dev) (h : n ≠ m) : lineOf (drainLine n low d).out m = lineOf d.out m := by
  unfold drainLine
  split
  · simp [lineOf_emit, h]
  · rfl

/-- A drain drives its line low exactly while its condition holds. -/
theorem drain_self (n : Nat) (low : Bool) (d : Dev) : (lineOf (drainLine n low d).out n = some false) ↔ low = true := by
  unfold drainLine
  split
  · cases low <;> simp [lineOf_emit]
  · rename_i h
    simp at h
    cases low <;> simp_all

/-- FAULT_N leaves every other line. -/
theorem fault_other (d : Dev) (m : Nat) (h : m ≠ 2) : lineOf (faultLine d).out m = lineOf d.out m := by
  unfold faultLine
  split
  · simp [lineOf_emit, Ne.symm h]
  · rfl

/-- What IRQ_N depends on. -/
theorem irqLow_congr {a b : Dev} (h1 : a.clk = b.clk) (h2 : a.fifos = b.fifos) (h3 : a.regs = b.regs) (h4 : a.img = b.img) :
    irqLow a = irqLow b := by
  simp [irqLow, irqOn, pinOff, pinInv, pinRecOf, fifoOf, flag, reg, regK, h1, h2, h3, h4]

/-- A function that drives a ball changes the outputs alone. -/
theorem drive_eq (d : Dev) (n : Nat) (high : Bool) :
    drive d n high = { d with out := if pinOff d n then d.out else .line n (high != pinInv d n) :: d.out } := by
  unfold drive emit
  split <;> simp_all

/-- What HSPI_IRQ_N depends on. -/
theorem hspiLow_congr {a b : Dev} (h1 : a.clk = b.clk) (h2 : a.fifos = b.fifos) (h3 : a.regs = b.regs) (h4 : a.img = b.img) :
    hspiLow a = hspiLow b := by
  simp [hspiLow, fifoOf, evqOwner, fld, flag, reg, regK, h1, h2, h3, h4]

/-! ## Commands -/

/-- Every command acts on the device alone. -/
theorem exec_act (c : Instr) : ∃ f : Dev → Dev, ∀ s, exec c s = act f s := by
  obtain ⟨f, h⟩ := exec_isAct c
  exact ⟨f, fun s => by rw [h]⟩

/-- A command that acts by `f` yields what holds of the settled result. -/
theorem yields_act {c : Instr} {s : State} {f : Dev → Dev} {P : Dev → Prop} (h : exec c s = act f s) (hp : P (settle (f s.dev))) :
    Yields c s P :=
  ⟨_, h, rfl, hp⟩

/-- R444: a write that meets no access error acts. -/
theorem regWr_of {d : Dev} {who : Initiator} {off : Nat} (h : MayWrite d who off) (f : Dev → Dev) : regWr d who off f = f d := by
  simp [regWr, h.1, h.2]

@[simp] theorem holdAccess_wait (d : Dev) (who : Initiator) (cmd : Instr) :
    (holdAccess d who cmd).brg.wait = d.brg.wait ++ [⟨who, cmd, false⟩] := rfl

/-- R45: an access that waits behind none of its initiator takes effect at once. -/
theorem access_of {s : State} {who : Initiator} {off : Nat} (h : MayWrite s.dev who off) (cmd : Instr) (f : Dev → Dev) :
    access who cmd f s = act f s := by
  simp [access, accessWhen, act, h.2.1]

/-- R45: an access behind an earlier one of its initiator that waits joins those that wait. -/
theorem access_held {s : State} {who : Initiator} (hc : canAccess s.dev who = true) (hw : waitsBehind s.dev who = true) (cmd : Instr)
    (f : Dev → Dev) : access who cmd f s = act (fun d => holdAccess d who cmd) s := by
  simp [access, accessWhen, act, hc, hw]

end Sys2Proof.Machine
end

