-- ==== Sys2Proof/Laws/Map.lean ====
section
/-! SUPPORT. Laws of the sparse tables: read after write, and that every operation keeps the canonical form. -/

namespace Sys2Proof.Machine

variable {α : Type}

@[simp] theorem mapGet?_nil (k : Nat) : mapGet? ([] : NMap α) k = none := rfl

theorem mapGet?_cons (a : Nat) (v : α) (m : NMap α) (k : Nat) : mapGet? ((a, v) :: m) k = if a = k then some v else mapGet? m k := by
  by_cases h : a = k <;> simp [mapGet?, h]

/-- Every key of a sorted table's tail lies above its head. -/
theorem mapSorted_cons {a : Nat} {v : α} {m : NMap α} (h : mapSorted ((a, v) :: m) = true) :
    mapSorted m = true ∧ ∀ e ∈ m, a < e.1 := by
  induction m generalizing a v with
  | nil => exact ⟨rfl, fun e he => absurd he (by simp)⟩
  | cons x r ih =>
    obtain ⟨b, w⟩ := x
    simp only [mapSorted, Bool.and_eq_true, decide_eq_true_eq] at h
    refine ⟨h.2, fun e he => ?_⟩
    rcases List.mem_cons.mp he with rfl | he
    · exact h.1
    · exact Nat.lt_trans h.1 ((ih h.2).2 e he)

theorem mapSorted_of {a : Nat} {v : α} {m : NMap α} (h : mapSorted m = true) (ha : ∀ e ∈ m, a < e.1) :
    mapSorted ((a, v) :: m) = true := by
  cases m with
  | nil => rfl
  | cons x r =>
    obtain ⟨b, w⟩ := x
    simp only [mapSorted, Bool.and_eq_true, decide_eq_true_eq]
    exact ⟨ha _ (List.mem_cons_self ..), h⟩

/-- A key below every key of a table is not listed. -/
theorem mapGet?_below {m : NMap α} {k : Nat} (h : ∀ e ∈ m, k < e.1) : mapGet? m k = none := by
  induction m with
  | nil => rfl
  | cons x r ih =>
    obtain ⟨b, w⟩ := x
    have hb := h (b, w) (List.mem_cons_self ..)
    rw [mapGet?_cons, if_neg (by simp at hb; omega)]
    exact ih (fun e he => h e (List.mem_cons_of_mem _ he))

/-- Read after write. -/
theorem mapGet?_mapPut (m : NMap α) (k j : Nat) (v : α) : mapGet? (mapPut m k v) j = if k = j then some v else mapGet? m j := by
  induction m with
  | nil => simp [mapPut, mapGet?_cons]
  | cons x r ih =>
    obtain ⟨a, w⟩ := x
    unfold mapPut
    by_cases h1 : k < a
    · simp [h1, mapGet?_cons]
    · by_cases h2 : k = a
      · subst h2; by_cases h3 : k = j <;> simp [mapGet?_cons, h3]
      · have h2' : (k == a) = false := by simp [h2]
        simp only [h1, if_false, h2', Bool.false_eq_true, mapGet?_cons, ih]
        by_cases h3 : a = j
        · subst h3; simp [h2]
        · simp [h3]

/-- Read after removal, in a sorted table. -/
theorem mapGet?_mapDel {m : NMap α} (hs : mapSorted m = true) (k j : Nat) :
    mapGet? (mapDel m k) j = if k = j then none else mapGet? m j := by
  induction m with
  | nil => simp [mapDel]
  | cons x r ih =>
    obtain ⟨a, w⟩ := x
    obtain ⟨hr, hlt⟩ := mapSorted_cons hs
    unfold mapDel
    by_cases h : a = k
    · subst h
      by_cases h3 : a = j
      · subst h3; simp [mapGet?_below hlt]
      · simp [mapGet?_cons, h3]
    · have h' : (a == k) = false := by simp [h]
      simp only [h', Bool.false_eq_true, if_false, mapGet?_cons, ih hr]
      by_cases h3 : a = j
      · subst h3; simp [Ne.symm h]
      · simp [h3]

theorem mem_mapPut {m : NMap α} {k : Nat} {v : α} {e : Nat × α} (h : e ∈ mapPut m k v) : e = (k, v) ∨ e ∈ m := by
  induction m with
  | nil => simpa [mapPut] using h
  | cons x r ih =>
    obtain ⟨a, w⟩ := x
    unfold mapPut at h
    split at h
    · simpa using h
    · split at h
      · rcases List.mem_cons.mp h with h | h
        · exact .inl h
        · exact .inr (List.mem_cons_of_mem _ h)
      · rcases List.mem_cons.mp h with h | h
        · exact .inr (h ▸ List.mem_cons_self ..)
        · exact (ih h).imp id (List.mem_cons_of_mem _)

theorem mem_mapDel {m : NMap α} {k : Nat} {e : Nat × α} (h : e ∈ mapDel m k) : e ∈ m := by
  induction m with
  | nil => simp [mapDel] at h
  | cons x r ih =>
    obtain ⟨a, w⟩ := x
    unfold mapDel at h
    split at h
    · exact List.mem_cons_of_mem _ h
    · rcases List.mem_cons.mp h with h | h
      · exact h ▸ List.mem_cons_self ..
      · exact List.mem_cons_of_mem _ (ih h)

theorem mapSorted_mapPut {m : NMap α} (hs : mapSorted m = true) (k : Nat) (v : α) : mapSorted (mapPut m k v) = true := by
  induction m with
  | nil => rfl
  | cons x r ih =>
    obtain ⟨a, w⟩ := x
    obtain ⟨hr, hlt⟩ := mapSorted_cons hs
    unfold mapPut
    split
    · rename_i h
      refine mapSorted_of hs (fun e he => ?_)
      rcases List.mem_cons.mp he with rfl | he
      · exact h
      · exact Nat.lt_trans h (hlt e he)
    · split
      · rename_i h; have h := eq_of_beq h; subst h; exact mapSorted_of hr hlt
      · rename_i h1 h2
        refine mapSorted_of (ih hr) (fun e he => ?_)
        have h2 : k ≠ a := fun h => h2 (by simp [h])
        rcases mem_mapPut he with rfl | he
        · simp; omega
        · exact hlt e he

theorem mapSorted_mapDel {m : NMap α} (hs : mapSorted m = true) (k : Nat) : mapSorted (mapDel m k) = true := by
  induction m with
  | nil => rfl
  | cons x r ih =>
    obtain ⟨a, w⟩ := x
    obtain ⟨hr, hlt⟩ := mapSorted_cons hs
    unfold mapDel
    split
    · exact hr
    · exact mapSorted_of (ih hr) (fun e he => hlt e (mem_mapDel he))

theorem mapSorted_filter {m : NMap α} (hs : mapSorted m = true) (p : Nat × α → Bool) : mapSorted (m.filter p) = true := by
  induction m with
  | nil => rfl
  | cons x r ih =>
    obtain ⟨a, w⟩ := x
    obtain ⟨hr, hlt⟩ := mapSorted_cons hs
    rw [List.filter_cons]
    split
    · exact mapSorted_of (ih hr) (fun e he => hlt e (List.mem_filter.mp he).1)
    · exact ih hr

theorem mapSorted_mapStore [BEq α] {m : NMap α} (hs : mapSorted m = true) (d : α) (k : Nat) (v : α) :
    mapSorted (mapStore d m k v) = true := by
  unfold mapStore; split
  · exact mapSorted_mapDel hs k
  · exact mapSorted_mapPut hs k v

/-- What a table with a default reads as after a write in canonical form. -/
theorem mapGet_mapStore [BEq α] [LawfulBEq α] {m : NMap α} (hs : mapSorted m = true) (d : α) (k j : Nat) (v : α) :
    mapGet d (mapStore d m k v) j = if k = j then v else mapGet d m j := by
  unfold mapStore mapGet
  split
  · rename_i h; have h := eq_of_beq h; subst h; rw [mapGet?_mapDel hs]; split <;> rfl
  · rw [mapGet?_mapPut]; split <;> rfl

/-- The canonical form, as its two parts. -/
theorem mapWf_iff [BEq α] {d : α} {m : NMap α} : mapWf d m = true ↔ mapSorted m = true ∧ ∀ e ∈ m, (e.2 == d) = false := by
  simp [mapWf]

theorem mapWf_mapStore [BEq α] {m : NMap α} {d : α} (hw : mapWf d m = true) (k : Nat) (v : α) : mapWf d (mapStore d m k v) = true := by
  rw [mapWf_iff] at hw ⊢
  refine ⟨mapSorted_mapStore hw.1 d k v, fun e he => ?_⟩
  unfold mapStore at he
  split at he
  · exact hw.2 e (mem_mapDel he)
  · rename_i h
    rcases mem_mapPut he with rfl | he
    · simpa using h
    · exact hw.2 e he

theorem mapWf_mapDrop [BEq α] {m : NMap α} {d : α} (hw : mapWf d m = true) (p : Nat → Bool) : mapWf d (mapDrop m p) = true := by
  rw [mapWf_iff] at hw ⊢
  exact ⟨mapSorted_filter hw.1 _, fun e he => hw.2 e (List.mem_filter.mp he).1⟩

theorem mapGet?_mapDrop (m : NMap α) (p : Nat → Bool) (k : Nat) : mapGet? (mapDrop m p) k = if p k then none else mapGet? m k := by
  induction m with
  | nil => simp [mapDrop]
  | cons x r ih =>
    obtain ⟨a, w⟩ := x
    unfold mapDrop at ih ⊢
    rw [List.filter_cons]
    by_cases ha : p a
    · simp only [ha, Bool.not_true, Bool.false_eq_true, if_false, ih, mapGet?_cons]
      by_cases h : a = k
      · subst h; simp [ha]
      · simp [h]
    · simp only [ha, Bool.not_false, if_true, mapGet?_cons, ih]
      by_cases h : a = k
      · subst h; simp [ha]
      · simp [h]

/-! ## The flash -/

/-- Every operation of the flash keeps its canonical form. -/
theorem flErase_wf {d : Dev} (hw : mapWf (0xFF : Byte) d.flash = true) (a n : Nat) : mapWf (0xFF : Byte) (flErase d a n).flash = true := 
  mapWf_mapDrop hw (fun k => decide (a ≤ k) && decide (k < a + n))

theorem foldStore_wf {d : α} [BEq α] (l : List (α × Nat)) (a : Nat) : ∀ {m : NMap α}, mapWf d m = true →
    mapWf d (l.foldl (fun m b => mapStore d m (a + b.2) b.1) m) = true := by
  induction l with
  | nil => intro m h; exact h
  | cons x r ih => intro m h; exact ih (mapWf_mapStore h _ _)

theorem flProg_wf {d : Dev} (hw : mapWf (0xFF : Byte) d.flash = true) (a : Nat) (bs : Bytes) :
    mapWf (0xFF : Byte) (flProg d a bs).flash = true := foldStore_wf _ _ hw

/-- What a table reads as after writes of consecutive values from `a + n`. -/
theorem foldStore_get [BEq α] [LawfulBEq α] {d : α} (l : List α) (a : Nat) : ∀ (n : Nat) {m : NMap α}, mapSorted m = true → ∀ k,
    mapGet d ((l.zipIdx n).foldl (fun m b => mapStore d m (a + b.2) b.1) m) k =
      if a + n ≤ k then (l[k - (a + n)]?).getD (mapGet d m k) else mapGet d m k := by
  induction l with
  | nil => intro n m _ k; simp
  | cons x r ih =>
    intro n m hs k
    rw [List.zipIdx_cons, List.foldl_cons, ih (n + 1) (mapSorted_mapStore hs d _ _) k, mapGet_mapStore hs]
    by_cases h1 : a + n = k
    · subst h1; simp <;> omega
    · by_cases h2 : a + n ≤ k
      · have h3 : a + (n + 1) ≤ k := by omega
        have h4 : k - (a + n) = (k - (a + (n + 1))) + 1 := by omega
        rw [if_pos h3, if_pos h2, if_neg h1, h4, List.getElem?_cons_succ]
      · rw [if_neg (by omega), if_neg h1, if_neg h2]

theorem flByte_flProg {d : Dev} (hs : mapSorted d.flash = true) (a : Nat) (bs : Bytes) (k : Nat) :
    flByte (flProg d a bs) k = if a ≤ k then (bs[k - a]?).getD (flByte d k) else flByte d k := by
  have := foldStore_get (d := (0xFF : Byte)) bs a 0 hs k
  simpa [flByte, flProg] using this

theorem flByte_flErase (d : Dev) (a n k : Nat) : flByte (flErase d a n) k = if a ≤ k ∧ k < a + n then 0xFF else flByte d k := by
  unfold flByte flErase mapGet
  simp only [mapGet?_mapDrop]
  by_cases h : a ≤ k ∧ k < a + n <;> simp [h]

end Sys2Proof.Machine
end

