-- ==== Sys2Proof/Laws/Regs.lean ====
section
/-! SUPPORT. Laws of the register file and of the Tally counters: read after write. -/

namespace Sys2Proof.Machine

theorem resetWord_lt (off : Nat) : resetWord off < 2 ^ 32 := by
  unfold resetWord
  repeat' split
  all_goals omega

/-- A key reads as another key's write leaves it. -/
theorem regK_putK_ne {d : Dev} (hs : mapSorted d.regs = true) {k j : Nat} (h : j ≠ k) (v : Nat) : regK (putK d k v) j = regK d j := by
  have hg : mapGet? (putK d k v).regs j = mapGet? d.regs j := by
    unfold putK mapStore; dsimp only
    split
    · rw [mapGet?_mapDel hs, if_neg (Ne.symm h)]
    · rw [mapGet?_mapPut, if_neg (Ne.symm h)]
  unfold regK; rw [hg]

/-- Read after write. -/
theorem regK_putK {d : Dev} (hs : mapSorted d.regs = true) (k v : Nat) : regK (putK d k v) k = v % 2 ^ 32 := by
  have hr := resetWord_lt (k % 16777216)
  unfold regK putK mapStore; dsimp only
  by_cases he : BitVec.ofNat 32 v = BitVec.ofNat 32 (resetWord (k % 16777216))
  · have hb : (BitVec.ofNat 32 v == BitVec.ofNat 32 (resetWord (k % 16777216))) = true := by simp [he]
    rw [if_pos hb, mapGet?_mapDel hs, if_pos rfl]
    have := congrArg BitVec.toNat he
    simp only [BitVec.toNat_ofNat] at this
    rw [this]; exact (Nat.mod_eq_of_lt hr).symm
  · have hb : (BitVec.ofNat 32 v == BitVec.ofNat 32 (resetWord (k % 16777216))) = false := by simpa using he
    rw [hb, if_neg (by decide), mapGet?_mapPut, if_pos rfl]
    simp

theorem putK_sorted {d : Dev} (hs : mapSorted d.regs = true) (k v : Nat) : mapSorted (putK d k v).regs = true :=
  mapSorted_mapStore hs _ _ _

/-- A counter counts, and saturates (R16). -/
theorem tallyOf_bumpBy {d : Dev} (hs : mapSorted d.tally = true) (off inst n : Nat) :
    tallyOf (bumpBy d off inst n) off inst = min (tallyOf d off inst + n) tallyMax := by
  unfold tallyOf bumpBy; dsimp only
  rw [mapGet_mapStore hs, if_pos rfl]; rfl

/-- Every other counter stays. -/
theorem tallyOf_bumpBy_ne {d : Dev} (hs : mapSorted d.tally = true) {off inst off' inst' : Nat}
    (h : regKey off inst ≠ regKey off' inst') (n : Nat) : tallyOf (bumpBy d off inst n) off' inst' = tallyOf d off' inst' := by
  unfold tallyOf bumpBy; dsimp only
  rw [mapGet_mapStore hs, if_neg h]

theorem bumpBy_sorted {d : Dev} (hs : mapSorted d.tally = true) (off inst n : Nat) : mapSorted (bumpBy d off inst n).tally = true :=
  mapSorted_mapStore hs _ _ _

end Sys2Proof.Machine
end

