-- ==== Sys2Proof/Tests/Slice0.lean ====
section
/-! SUPPORT. Tests: for every statement that has hypotheses, states and operands that meet them (test_meets_<statement>, one
part per clause, at a boundary of its range where it has one); ill-formed operands that WellFormed refuses; and values that
the spec or its standards give. -/

namespace Sys2Proof.Tests

open Sys2Proof Sys2Proof.Machine

section

set_option maxRecDepth 4000
set_option Elab.async false
set_option linter.unusedVariables false

/-! ## States that the tests start from -/

def clk0 (m : Mode) : Clk := { mode := m, porstLow := false, routing := true, ingress := true, islands := 0x1FF, xtalOk := true }
def img0 : Img := { fast := true, grove := [(0, 0x3003F00), (1, 0x3003F00), (2, 0x3003F00), (3, 0x3003F00)] }
def dev0 (m : Mode) : Dev := { clk := clk0 m, img := img0 }
def on : Dev := dev0 .m4
def st (d : Dev) : State := { dev := d, pending := [.ppsInEdge] }
def cl (f : Clk → Clk) (d : Dev) : Dev := { d with clk := f d.clk }
def sg (f : Sag → Sag) (d : Dev) : Dev := cl (fun c => { c with sag := f c.sag }) d
def rg (l : List (Nat × Nat)) (d : Dev) : Dev := l.foldl (fun d p => putReg d p.1 p.2) d
def boot0 : BootInput := { puf := [], enrol := { reads := [], message := [] }, dens0 := 0, dens1 := 0, ddrRate := 0, rtcXtal := false }
def fr0 : CanFrame := { fmt := .classical, xtd := false, rtr := false, esi := false, id := 5, vcid := 0, sdt := 0, af := 0, sec := false, data := [1, 2] }
def can1 (ch : Nat) (c : CanCh) (d : Dev) : Dev := { d with can := [(ch, c)] }
def eth1 (p : Nat) (e : EthP) (d : Dev) : Dev := { d with eth := [(p, e)] }
def xb1 (f : XbFrame → XbFrame) : XbFrame := f { frame := fr0, tag := 7, flow := (1, 2, 3), pkt := none, item := none, store := none, mbox := false, sof := true, onBus := true, failed := false, cancel := false, expired := false, order := 0 }
def pk0 : Pkt := { id := 9, kind := 1, can := fr0, data := [1, 2], size := 20, ingress := 1, stamp := 4 }
def ds0 (q : Nat) : Dest := { q := q, tc := q % 4, route := 0, fmt := .classical, vlan := 0, vid := 0, pcp := 0, reason := 0 }
def it0 (p : Pkt) (q : Nat) : LaneItem := { pkt := p, dest := ds0 q, n := 1, got := 1, tag := none, ecn := false, asked := 1, sent := false }
def lq0 : List (Nat × Nat) := [(0x500010, 1000), (lndqBase (qCan 23 3) + 4, 10)]
def sto (p : Pkt) (q : Nat) : Stored := { pkt := p, n := 1, owner := q, placed := [q], left := 1, open' := 1, marked := false, bad := false, ecn := false, at' := 0, egress := none }
def pe0 : Pkt := { id := 9, kind := 0, data := List.replicate 60 0x5A, size := 60, ingress := 0x40, input := 0 }
def lnq (p : Pkt) (q : Nat) (d : Dev) : Dev := { d with lnd := { d.lnd with queues := [(q, [(p.id, ds0 q)])], frames := [(p.id, sto p q)] } }
def ent0 : Nat := 2 ^ 127 + 3 * 2 + 5 * 2 ^ 5 + 3 * 2 ^ 13
def live (d : Dev) : Dev := { d with img := { d.img with route := [(0, ent0), (1, ent0 - 2 ^ 127)] } }
def eb0 : Bytes := List.replicate 60 0x5A ++ leBytes 4 (crc32 (List.replicate 60 0x5A))
def key5 : Bytes := List.replicate 16 7
def ks (use dom kt : Nat) : KSlot := { full := true, mat := key5 ++ zeros 16, ktype := kt, usage := use, domain := dom, level := 1 }
def job0 (op : Nat) (v : Bool) : Job := { d := 0, op := op, hold := false, verify := v, tlen := 16, key := 0x1005, inoff := 0, outoff := 0, len := 16, iv := zeros 16, ctr := zeros 16, done := 0, mat := key5, ends := none }
def jr (j : Job) : Dev := { rg [(0x8005FC, 0x10)] on with cry := { progs := true, pages := [(127, { acc := zeros 16, h := key5, k1 := zeros 16, k2 := zeros 16, job := some j })] }, kvt := { slots := [(5, ks 0x3F 1 0)] } }
def pa0 (au : Nat) (data : Bytes) : Pkt := { pk0 with data := data, size := data.length, entry := au * 2 ^ 35, plan := [ds0 (qCan 23 3)] }
def ap0 (mac : Nat) : Nat := 0x1005 * 2 ^ 128 + 100 * 2 ^ 96 + 2 ^ 64 + mac * 2 ^ 56 + 8 * 2 ^ 48
def au0 (au mac : Nat) (data : Bytes) : Dev := { on with img := { img0 with auth := [(0, ap0 mac), (1, ap0 mac)] }, kvt := { slots := [(5, ks 0xC 0 0)] }, lnd := { lanes := [(143, { items := [{ it0 (pa0 au data) 0 with sent := true }] })] } }
def cluster0 (c : Cluster) (d : Dev) : Dev := { rg [(nmcBase 0 + 8, 1)] d with img := { d.img with nml := [(0, 0)] }, nmc := { d.nmc with clusters := [(0, c)] } }
def kk (a : Nat) : Nat := regKey (0x7C0010 + 4 * a) (initIx .eopod)
def kv (l : List (Nat × Nat)) (d : Dev) : Dev := { rg l d with kvt := { root := some key5, dynBase := 2, dynLim := 4095, slots := [(5, ks 0x3F 1 2)] } }
def sa0 : Sa := { key := 0x1005, an := 0, sci := 1, ssci := 2, salt := zeros 12, suite := 0, pn := 7, rekeyed := false, stopped := false }
def ms7 (d : Dev) : Dev := { rg [(ethBase 7, 1518 * 65536), (ethBase 7 + 4, 1518), (0x78041C, 1)] d with eth := [(7, { st := 3 })] }
def sent0 : Nat := 2 ^ 169 + 7 * 2 ^ 142 + 2 ^ 204
def pm0 : Pkt := { pk0 with entry := 3 * 2 ^ 74, data := [0x5A, 2] }
def im0 : LaneItem := { it0 pm0 0 with sent := true }
def mm0 : Mismatch := { rail := false, evMain := true, evChecker := false, undoEntries := 0 }
def tw1 (t : Nat) (w : Twin) : Dev := { on with flt := { twins := [(t, w)] } }
def nm0 (lay : Nat) (c : Cluster) : Dev := { rg [(nmcBase 0 + 8, 1), (nmcBase 0 + 0x20, 0x100)] on with img := { img0 with nml := [(0, lay)] }, nmc := { clusters := [(0, c)] }, can := [(0, { state := 2 })] }
def ep1 (e : Ep) (d : Dev) : Dev := { d with eps := [(1, { e with up := true, bme := true })] }
def tk (rel : Nat) : Nat := regKey (0x840000 + 0x40 * 15 + rel) 1
def rk (rel : Nat) : Nat := regKey (0x810000 + 0x40 * 63 + rel) 1
def ev0 : Ev := { stamp := 5, born := 0, code := 0x0801, cls := 0, data := [1], unsync := true }
def een0 : EvEntry := { code := 0, cls := 0, unsync := false, clamp := false, seq := 0, stamp := 0, data := [], bad := false }
def evf (n : Nat) : Dev := { rg [(0x800220, 0x80), (0x802700, 1)] (cl (fun c => { c with tclk := 4000 }) on) with evs := [ev0], fifos := [(7, { entries := List.replicate n een0 })] }
def fx7 : Dev := rg [(0x802704, 0x300000)] on
def hw0 : Bytes := [2, 0x20, 0, 0, 0, 1, 2, 3, 4]
def ba0 : BrgAcc := { seq := 0, who := 3, off := 0x9E0000, addr := 0, write := false, data := 0, kind := 0, poll := 0, issued := true, dead := false }
def bq (b : Nat) (l : List BrgAcc) (d : Dev) : Dev := { d with brg := { queues := [(b, l)] } }
def rc (st : Nat) (d : Dev) : Dev := { d with rcd := { st := st } }
def itr : LaneItem := { it0 pk0 0 with dest := ds0 395 }
def up (u : Upd) (d : Dev) : Dev := { d with upd := { u with owner := 3 }, img := {} }
def blob0 : Bytes := [29, 11, 50, 167, 204, 25, 239, 55, 179, 92, 150, 158, 87, 158, 150, 50, 57, 246, 41, 75, 220, 204, 95, 218, 50, 154, 200, 133, 108, 150, 250, 49, 109, 89, 30, 123, 38, 9, 13, 249]
def kb (bs : Bytes) : List (Nat × Nat) := (List.range (bs.length / 4)).map (fun w => (regKey (0x7C0800 + 4 * w) (initIx .eopod), leAt bs (4 * w) 4))
def kr0 : Dev := let d := kv ([(kk 0, 0x1005), (kk 1, 7)] ++ kb blob0) on; { d with kvt := { d.kvt with slots := [(1, ks 0 0 0), (5, ks 0x3F 1 2), (6, { ks 0x3F 1 0 with pers := some (7, 9) })] } }

/-! ## Ill-formed operands are refused (WellFormed) -/

theorem test_illformed_channel : (Instr.canBusOn 24).wf = false ∧ (Instr.canBusOn 23).wf = true := by decide
theorem test_illformed_port : (Instr.macsecTx 8).wf = false ∧ (Instr.macsecTx 7).wf = true := by decide
theorem test_illformed_mac : (Instr.linkUp 9).wf = false ∧ (Instr.linkUp 8).wf = true := by decide
theorem test_illformed_gpio : (Instr.phyRstRelease 24).wf = false ∧ (Instr.phyRstRelease 23).wf = true := by decide
theorem test_illformed_grove : (Instr.groveGate 4).wf = false ∧ (Instr.groveGate 3).wf = true := by decide
theorem test_illformed_input : (Instr.routeLookup 10).wf = false ∧ (Instr.routeLookup 9).wf = true := by decide
theorem test_illformed_endpoint : (Instr.hostLinkUp 2).wf = false ∧ (Instr.hostLinkUp 1).wf = true := by decide
theorem test_illformed_crossing : (Instr.ringRelease 41 true).wf = false ∧ (Instr.ringRelease 40 true).wf = true := by decide
theorem test_illformed_twin : (Instr.twinResume 32).wf = false ∧ (Instr.twinResume 31).wf = true := by decide
theorem test_illformed_cluster : (Instr.nmSleepTimeout 32).wf = false ∧ (Instr.nmSleepTimeout 31).wf = true := by decide
theorem test_illformed_page : (Instr.gcmOpen 160).wf = false ∧ (Instr.gcmOpen 159).wf = true := by decide
theorem test_illformed_sequencer : (Instr.blockBoundary 16).wf = false ∧ (Instr.blockBoundary 15).wf = true := by decide
theorem test_illformed_fifo : (Instr.evqNext .eopod 8).wf = false ∧ (Instr.evqNext .eopod 7).wf = true := by decide
theorem test_illformed_offset : isOffset 4 2 = false ∧ isOffset 4 0x1000000 = false ∧ isOffset 4 0xFFFFFC = true := by decide
theorem test_illformed_frame : (Instr.canFrameReceived 0 ⟨0, { fr0 with id := 2048 }⟩).wf = false ∧
    (Instr.canFrameReceived 0 ⟨0, { fr0 with data := List.replicate 9 0 }⟩).wf = false ∧ (Instr.canFrameReceived 0 ⟨0, fr0⟩).wf = true := by
  decide
theorem test_illformed_length : canLength .fd 11 = false ∧ canLength .fd 12 = true ∧ canLength .xl 0 = false ∧ canLength .xl 2048 = true := by
  decide
theorem test_illformed_finding : EccFinding.wf { mem := 5, uncorr := true } = false := by decide
theorem test_illformed_owner : OwnerEcc.wf { res := 0, slot := 256, uncorr := true } = false := by decide
theorem test_illformed_nm_port : (NmPort.can 24 0).wf = false ∧ (NmPort.eth 8).wf = false ∧ (NmPort.can 23 5).wf = true := by decide
theorem test_illformed_sa : SakArgs.wf { tx := true, sc := 0, an := 4, slot := 5, sak := [], sci := 0, ssci := 0, salt := [], pn := 1, suite := 0 } =
    false := by decide

/-! ## Values that the spec or its standards give -/

/-- R465: the CRC-8 of AUTOSAR (0x2F, start 0, no final inversion): one set top bit leaves the polynomial times x^7. -/
theorem test_crc8 : crc8 [0x01] = 0x2F ∧ crc8 [0x33, 3, 0, 0] = 0x78 := by decide +kernel
/-- The check value of CRC-32 over the digits 1 to 9. -/
theorem test_crc32 : crc32 [0x31, 0x32, 0x33, 0x34, 0x35, 0x36, 0x37, 0x38, 0x39] = 0xCBF43926 := by decide +kernel
/-- The table gives no row bits, so no word spells a command and no queue changes by one. -/
theorem test_no_word : decodeTableWord 16 0 = none ∧ State.reset.withFetchWord 16 0 = State.reset := by decide +kernel
/-- R84: a sag halves the clock from edge 0 on. -/
theorem test_sag_halves : (match exec (.sagDetectorReport 0) (st on) with | .next t => t.dev.clk.sag.n | _ => 0) = 4 := by decide +kernel
/-- R13: GLB_MODE reads 0x300 at reset. -/
theorem test_reset_glb_mode : reg State.reset.dev 0x10 = 0x300 := by decide +kernel
/-- R63, R70: out of reset nothing runs before PORST_N rises. -/
theorem test_reset_holds : running State.reset.dev = false := by decide


/-! ## The hypotheses of every statement are met -/

theorem awake {d : Dev} {ch : Nat} (h : canCluster d ch = none) : ∀ k, canCluster d ch = some k → nmSleeps d k = false := by
  simp [h]

theorem test_meets_LinesFollowAfterEveryStep :
    ∃ s t : State, step s = .next t :=
  ⟨(st on), _, rfl⟩

theorem test_meets_FlashAndRegistersReadBack :
    (∃ (d : Dev) (a : Nat) (bs : Bytes), mapWf (0xFF : Byte) d.flash = true) ∧
    (∃ (d : Dev) (a n : Nat), mapWf (0xFF : Byte) d.flash = true) ∧
    (∃ (d : Dev) (off v : Nat), mapSorted d.regs = true) :=
  ⟨⟨({ on with flash := [(3, 1), (7, 0)] }), 7, ([1, 0xFF]), by decide +kernel⟩,
   ⟨({ on with flash := [(3, 1), (7, 0)] }), 7, 1, by decide +kernel⟩,
   ⟨(rg [(0x10, 4), (0x20, 5)] on), 0x10, 0x300, by decide +kernel⟩⟩

theorem test_meets_ResetPinsLeaveTheResetState :
    (∃ s : State, s.dev.clk.porstLow = false) ∧
    (∃ s : State, s.dev.clk.porstLow = false ∧ s.dev.clk.wrstLow = false ∧ 2 ≤ s.dev.clk.mode.num) ∧
    (∃ s : State, s.dev.clk.porstLow = false) :=
  ⟨⟨(st (rg [(0x10, 4), (0x10040, 0)] on)), by decide +kernel⟩,
   ⟨(st (rg [(0x10, 4), (0x10040, 0)] on)), by decide +kernel⟩,
   ⟨(st (rg [(0x10, 4), (0x10040, 0)] on)), by decide +kernel⟩⟩

theorem test_meets_BootWithoutAnImageOpensProvision :
    (∃ (s : State) (st : Straps) (b : BootInput), s.dev.clk.porstLow = true ∧ s.dev.clk.wrstLow = true ∧ st.testen = false) ∧
    (∃ (s : State) (st : Straps) (b : BootInput), s.dev.clk.porstLow = true ∧ st.testen = true) ∧
    (∃ (s : State) (st : Straps) (b : BootInput), s.dev.clk.porstLow = true ∧ s.dev.clk.wrstLow = false ∧ st.testen = false ∧ (bootRun
      { s.dev with clk := { s.dev.clk with cmpt := st.cmpt, bootsel := st.bootsel.toNat, testen := false, alwaysOn := true, retained := true, switched := true } }
      b 0).2 = false) ∧
    (∃ (s : State) (b : BootInput), s.dev.clk.porstLow = false ∧ s.dev.clk.wrstLow = true ∧ (bootRun s.dev b (if flag s.dev 0x10040 11
      then 1 else 0)).2 = false) ∧
    (∃ (s : State) (b : BootInput), s.dev.clk.porstLow = true) :=
  ⟨⟨(st (cl (fun c => { c with porstLow := true, wrstLow := true }) on)), ({ cmpt := true, bootsel := 3, testen := false }), boot0,
    by decide +kernel⟩,
   ⟨(st (cl (fun c => { c with porstLow := true }) on)), ({ cmpt := true, bootsel := 3, testen := true }), boot0, by decide +kernel⟩,
   ⟨(st { fuses := { lc := 2 } }), ({ cmpt := true, bootsel := 1, testen := false }), boot0, by decide +kernel⟩,
   ⟨(st { clk := { porstLow := false, wrstLow := true }, fuses := { lc := 2 } }), boot0, by decide +kernel⟩,
   ⟨(st (cl (fun c => { c with porstLow := true, wrstLow := true }) on)), boot0, by decide +kernel⟩⟩

theorem test_meets_SagAndClockFaultsTakeTheirResponse :
    (∃ (s : State) (det : Nat), running s.dev = true ∧ det < 8 ∧ s.dev.clk.sag.active = false) ∧
    (∃ (s : State) (det : Nat), running s.dev = true ∧ det < 8 ∧ s.dev.clk.sag.active = true ∧ s.dev.clk.sag.phase ≠ 1) ∧
    (∃ (s : State) (det : Nat), running s.dev = true ∧ det < 8 ∧ s.dev.clk.sag.active = true ∧ s.dev.clk.sag.phase = 1) ∧
    (∃ s : State, s.dev.clk.sag.active = true ∧ s.dev.clk.sag.phase = 1 ∧ s.dev.clk.sag.since + 1000 ≤ s.dev.clk.tclk) ∧
    (∃ s : State, s.dev.clk.sag.active = true ∧ 2 ≤ s.dev.clk.sag.phase ∧ s.dev.clk.sag.phase < 5 ∧ s.dev.clk.sag.since + 250 ≤
      s.dev.clk.tclk) ∧
    (∃ s : State, s.dev.clk.sag.active = true ∧ s.dev.clk.sag.phase = 5 ∧ s.dev.clk.sag.since + 250 ≤ s.dev.clk.tclk ∧ flag s.dev
      0x10010 31 = false ∧ mapSorted s.dev.tally = true) ∧
    (∃ s : State, s.dev.clk.sag.active = true ∧ s.dev.clk.sag.overLimit = false ∧ 2 ≤ s.dev.clk.mode.num ∧ s.dev.clk.sag.start + 500 *
      s.dev.clk.sag.limit < s.dev.clk.tclk) ∧
    (∃ (s : State) (p : Nat), running s.dev = true ∧ p < 4 ∧ bit s.dev.clk.pllLock p = true) ∧
    (∃ s : State, running s.dev = true ∧ s.dev.clk.xtalOk = true) ∧
    (∃ (s : State) (n : Nat), running s.dev = true ∧ n < 2 ∧ bit s.dev.clk.pllRun (4 + n) = true) ∧
    (∃ (s : State) (g r : Nat), (roleRecs s.dev 6).find? (fun r => pnGpio r == some g) = some r ∧ running s.dev = true ∧
      s.dev.clk.pinsOn = true ∧ s.dev.clk.safeOut = false ∧ s.dev.clk.phyOut.contains g = false ∧ s.dev.clk.pinsAt + usCycles (1000 *
      bits r 23 8) ≤ s.dev.clk.tclk) :=
  ⟨⟨(st (rg [(0x10010, 0x270F0000)] on)), 7, by decide +kernel⟩,
   ⟨(st (sg (fun g => { g with active := true, phase := 5 }) on)), 0, by decide +kernel⟩,
   ⟨(st (sg (fun g => { g with active := true, phase := 1 }) on)), 0, by decide +kernel⟩,
   ⟨(st (cl (fun c => { c with tclk := 1000 }) (sg (fun g => { g with active := true, phase := 1 }) on))), by decide +kernel⟩,
   ⟨(st (cl (fun c => { c with tclk := 250 }) (sg (fun g => { g with active := true, phase := 4, n := 7 }) on))), by decide +kernel⟩,
   ⟨(st (cl (fun c => { c with tclk := 250 }) (sg (fun g => { g with active := true, phase := 5 }) on))), by decide +kernel⟩,
   ⟨(st (cl (fun c => { c with tclk := 50001 }) (sg (fun g => { g with active := true, phase := 1, limit := 100 }) on))),
    by decide +kernel⟩,
   ⟨(st (cl (fun c => { c with pllLock := 9 }) on)), 3, by decide +kernel⟩,
   ⟨(st on), by decide +kernel⟩,
   ⟨(st (cl (fun c => { c with pllRun := 0x30 }) on)), 1, by decide +kernel⟩,
   ⟨(st { cl (fun c => { c with pinsOn := true, tclk := 1000 * 500 }) on with img := { img0 with pins := [0x1861 + 2 ^ 23] } }), 1,
    (0x1861 + 2 ^ 23), by decide +kernel⟩⟩

theorem test_meets_WakesStartTheWakeSequence :
    (∃ (s : State) (i : Nat) (rising : Bool), watching s.dev = true ∧ i < 8 ∧ flag s.dev (0x7E0100 + 8 * i) 0 = true ∧ edgeTaken s.dev i
      rising = true ∧ reg s.dev (0x7E0104 + 8 * i) = 0) ∧
    (∃ s : State, watching s.dev = true ∧ regPair s.dev 0x10038 ≠ 0 ∧ s.dev.clk.rtc = regPair s.dev 0x10038) ∧
    (∃ s : State, outOfReset s.dev = true ∧ s.dev.clk.mode = .m0 ∧ s.dev.clk.trans = .idle ∧ regPair s.dev 0x10038 ≠ 0 ∧ s.dev.clk.rtc =
      regPair s.dev 0x10038) ∧
    (∃ s : State, 2 ≤ s.dev.clk.mode.num ∧ s.dev.clk.trans = .idle) ∧
    (∃ s : State, s.dev.clk.trans = .wake true ∧ s.dev.clk.enSw = false) ∧
    (∃ (s : State) (ch dlc : Nat) (f : CanFrame), swkWatched s.dev ch = true ∧ f.fmt ≠ .classical) ∧
    (∃ (s : State) (ch k dlc : Nat) (f : CanFrame), swkWatched s.dev ch = true ∧ f.fmt = .classical ∧ canCluster s.dev ch = none ∧
      (List.range 4).find? (fun k => swkHit s.dev ch k dlc f) = some k) ∧
    (∃ (s : State) (ch : Nat), swkWatched s.dev ch = true ∧ flag s.dev (canBase ch + 0x70) 5 = true ∧ canCluster s.dev ch = none ∧ fld
      s.dev (canBase ch + 0x70) 6 6 < (canOf s.dev ch).swkFec) :=
  ⟨⟨(st (rg [(0x7E0138, 5)] (dev0 .m1))), 7, true, by decide +kernel⟩,
   ⟨(st (rg [(0x10038, 9)] (cl (fun c => { c with rtc := 9 }) (dev0 .m1)))), by decide +kernel⟩,
   ⟨(st (rg [(0x10038, 9)] (cl (fun c => { c with rtc := 9 }) (dev0 .m0)))), by decide +kernel⟩,
   ⟨(st on), by decide +kernel⟩,
   ⟨(st (cl (fun c => { c with trans := .wake true }) (dev0 .m0))), by decide +kernel⟩,
   ⟨(st (rg [(canBase 23 + 0x70, 1)] (dev0 .m1))), 23, 2, ({ fr0 with fmt := .fd }), by decide +kernel⟩,
   ⟨(st (rg [(canBase 23 + 0x70, 0x11), (canBase 23 + 0xE0, 5), (canBase 23 + 0xE4, 0x7FF)] (dev0 .m1))), 23, 3, 2, fr0,
    by decide +kernel⟩,
   ⟨(st { rg [(canBase 0 + 0x70, 0x21)] (dev0 .m1) with can := [(0, { swkFec := 1 })] }), 0, by decide +kernel⟩⟩

theorem test_meets_RequestsArePendedAndReplaced :
    (∃ (s : State) (who : Initiator) (w : Word) (auth : Bool), MayWrite s.dev who 0x10 ∧ bit w.toNat 11 = true ∧ modeBusy s.dev = true ∧
      (Mode.ofNum (bits w.toNat 8 3) ≠ .m7 ∨ auth = true) ∧ s.dev.clk.pendReq = none) ∧
    (∃ (s : State) (who : Initiator) (w : Word) (auth : Bool) (o : Mode), MayWrite s.dev who 0x10 ∧ bit w.toNat 11 = true ∧ modeBusy
      s.dev = true ∧ (Mode.ofNum (bits w.toNat 8 3) ≠ .m7 ∨ auth = true) ∧ s.dev.clk.pendReq = some o ∧ 2 ≤ s.dev.clk.mode.num) ∧
    (∃ (d : Dev) (t : Mode), d.clk.pendReq = some t ∧ d.clk.f4Pend = false ∧ d.clk.f3Pend = false ∧ d.clk.chain.drop 1 = []) :=
  ⟨⟨(st (cl (fun c => { c with trans := .watchEntry .m4 false false }) on)), .hspi, 0xF00, true, by unfold MayWrite; decide +kernel⟩,
   ⟨(st (cl (fun c => { c with chain := [.m3], pendReq := some .m7 }) on)), .eopod, 0x800, false, .m7,
    by unfold MayWrite; decide +kernel⟩,
   ⟨(cl (fun c => { c with chain := [.m1], pendReq := some .m3 }) on), .m3, by decide +kernel⟩⟩

theorem test_meets_ModeRequestsAreDecidedOrRejected :
    (∃ (s : State) (who : Initiator) (w : Word) (auth : Bool) (t : Mode), MayWrite s.dev who 0x10 ∧ bit w.toNat 11 = true ∧ modeBusy
      s.dev = false ∧ t = Mode.ofNum (bits w.toNat 8 3) ∧ t ≠ .m7 ∧ 2 ≤ s.dev.clk.mode.num ∧ reqReason (putFld s.dev 0x10 8 3 (bits
      w.toNat 8 3)) t ≠ 0) ∧
    (∃ (s : State) (who : Initiator) (w : Word) (auth : Bool), MayWrite s.dev who 0x10 ∧ bit w.toNat 11 = true ∧ modeBusy s.dev = false
      ∧ bits w.toNat 8 3 = 4 ∧ s.dev.clk.mode = .m3) ∧
    (∃ (s : State) (who : Initiator) (w : Word), MayWrite s.dev who 0x10 ∧ bit w.toNat 11 = true ∧ bits w.toNat 8 3 = 7 ∧ s.dev.clk.mode
      = .m3) ∧
    (∃ (s : State) (who : Initiator) (w : Word) (auth : Bool), MayWrite s.dev who 0x10 ∧ bit w.toNat 11 = false) :=
  ⟨⟨(st (dev0 .m6)), .eopod, 0xC00, true, .m4, by unfold MayWrite; decide +kernel⟩,
   ⟨(st (dev0 .m3)), .hspi, 0xC00, false, by unfold MayWrite; decide +kernel⟩,
   ⟨(st (dev0 .m3)), .eopod, 0xF00, by unfold MayWrite; decide +kernel⟩,
   ⟨(st (dev0 .m3)), .eopod, 0x700, false, by unfold MayWrite; decide +kernel⟩⟩

theorem test_meets_GrovesAreGatedAndRestored :
    (∃ (s : State) (g drop : Nat), g < 4 ∧ running s.dev = true ∧ s.dev.clk.trans = .regroup 0 drop ∧ bit drop g = true ∧ setBit drop g
      false ≠ 0 ∧ groveIdle s.dev g = true ∧ bit s.dev.clk.gating g = true ∧ groveInit s.dev g = true) ∧
    (∃ (s : State) (g add drop : Nat), g < 4 ∧ running s.dev = true ∧ s.dev.clk.trans = .regroup add drop ∧ bit add g = true ∧ setBit
      add g false ≠ 0 ∧ groveOn s.dev g = false) ∧
    (∃ (s : State) (g : Nat), 4 ≤ s.dev.clk.mode.num ∧ s.dev.clk.trans = .idle) :=
  ⟨⟨(st (cl (fun c => { c with trans := .regroup 0 0xC, gating := 0xC }) { (dev0 .m3) with img := { img0 with grove := [] } })), 3, 0xC,
    by decide +kernel⟩,
   ⟨(st (cl (fun c => { c with trans := .regroup 0xC 0, islands := 0x1E7 }) (dev0 .m3))), 3, 0xC, 0, by decide +kernel⟩,
   ⟨(st on), 3, by decide +kernel⟩⟩

theorem test_meets_WatchEntryReachesWatch :
    (∃ s : State, running s.dev = true ∧ s.dev.clk.routing = true ∧ s.dev.clk.f4Pend = false ∧ s.dev.clk.f3Pend = false ∧
      s.dev.clk.trans = .idle ∧ s.dev.clk.chain.head? = some .m1 ∧ allAsleep s.dev = true ∧ allShut s.dev = true) ∧
    (∃ (s : State) (src : Mode) (to0 : Bool), running s.dev = true ∧ s.dev.clk.trans = .watchEntry src to0 false ∧ mapSorted
      s.dev.rte.parse = true ∧ mapSorted s.dev.rte.lookup = true ∧ s.dev.brg.wait = []) ∧
    (∃ (s : State) (src : Mode), running s.dev = true ∧ s.dev.clk.trans = .watchEntry src false true ∧ s.dev.clk.f4Pend = false ∧ (∀ ch,
      ch < 24 → (canOf s.dev ch).state = 0) ∧ allAsleep s.dev = true ∧ s.dev.upd.expired = false ∧ s.dev.clk.pendReq = none) ∧
    (∃ (s : State) (src t : Mode), running s.dev = true ∧ s.dev.clk.trans = .watchEntry src false true ∧ s.dev.clk.f4Pend = false ∧ (∀
      ch, ch < 24 → (canOf s.dev ch).state = 0) ∧ allAsleep s.dev = true ∧ s.dev.upd.expired = false ∧ s.dev.clk.pendReq = some t) :=
  ⟨⟨(st (cl (fun c => { c with chain := [.m1] }) on)), by decide +kernel⟩,
   ⟨(st (cl (fun c => { c with chain := [.m1], trans := .watchEntry .m4 false false }) on)), .m4, false, by decide +kernel⟩,
   ⟨(st (cl (fun c => { c with trans := .watchEntry .m4 false true }) on)), .m4, by decide +kernel⟩,
   ⟨(st (cl (fun c => { c with trans := .watchEntry .m4 false true, pendReq := some .m3 }) on)), .m4, .m3, by decide +kernel⟩⟩

theorem test_meets_WatchTimersReachDormant :
    (∃ s : State, watching s.dev = true ∧ limitOver s.dev = true ∧ holdOver s.dev = true) ∧
    (∃ s : State, watching s.dev = true ∧ s.dev.rcd.sr = true ∧ fld s.dev 0x10050 16 16 ≠ 0 ∧ holdOver s.dev = true ∧ limitOver s.dev =
      false) :=
  ⟨⟨(st (rg [(0x10050, 1)] (cl (fun c => { c with tclk := 30000000000 }) (dev0 .m1)))), by decide +kernel⟩,
   ⟨(st (rg [(0x10050, 0x10000)] { cl (fun c => { c with tclk := 1800000000000 }) (dev0 .m1) with rcd := { sr := true } })),
    by decide +kernel⟩⟩

theorem test_meets_SplitLockAndSafeHoldAreEntered :
    (∃ s : State, running s.dev = true ∧ s.dev.clk.mode = .m3 ∧ s.dev.clk.trans = .idle ∧ s.dev.clk.chain = [.m4] ∧ s.dev.clk.f4Pend =
      false ∧ s.dev.clk.f3Pend = false ∧ s.dev.clk.pendReq = none ∧ splitTwinsRun s.dev = true) ∧
    (∃ s : State, running s.dev = true ∧ s.dev.clk.mode = .m4 ∧ s.dev.clk.trans = .idle ∧ s.dev.clk.chain = [.m3] ∧ s.dev.clk.f4Pend =
      false ∧ s.dev.clk.f3Pend = false ∧ s.dev.clk.pendReq = none) ∧
    (∃ s : State, holdDue s.dev = true) :=
  ⟨⟨(st (cl (fun c => { c with chain := [.m4] }) (dev0 .m3))), by decide +kernel⟩,
   ⟨(st (cl (fun c => { c with chain := [.m3] }) on)), by decide +kernel⟩,
   ⟨(st (cl (fun c => { c with f4Pend := true }) on)), by decide +kernel⟩⟩

theorem test_meets_WakeSequenceOpensRouting :
    (∃ (s : State) (b : BootInput), s.dev.clk.trans = .wake false ∧ s.dev.clk.xtalOk = false ∧ s.dev.clk.enSw = true ∧ outOfReset s.dev
      = true) ∧
    (∃ (s : State) (b : BootInput), s.dev.clk.trans = .wake true ∧ s.dev.clk.xtalOk = false ∧ s.dev.clk.enSw = true ∧ outOfReset s.dev =
      true) ∧
    (∃ s : State, waking s.dev = true ∧ outOfReset s.dev = true ∧ s.dev.clk.trans = .wake false ∧ s.dev.img.fast = true) :=
  ⟨⟨(st (cl (fun c => { c with trans := .wake false, xtalOk := false, enSw := true, routing := false }) (dev0 .m1))), boot0,
    by decide +kernel⟩,
   ⟨(st
    { cl (fun c => { c with trans := .wake true, xtalOk := false, enSw := true, routing := false }) (dev0 .m0) with fuses := { lc := 2 } }),
    boot0, by decide +kernel⟩,
   ⟨(st (cl (fun c => { c with trans := .wake false, routing := false, mode := .m2 }) (dev0 .m2))), by decide +kernel⟩⟩

theorem test_meets_CommitsOpenTheWindowAndAreStaged :
    (∃ (s : State) (who : Initiator), MayWrite s.dev who 0x20 ∧ s.dev.com.window = false) ∧
    (∃ (s : State) (who : Initiator) (regs : Bool), MayWrite s.dev who 0x20 ∧ s.dev.com.window = false) ∧
    (∃ (s : State) (who : Initiator), MayWrite s.dev who 0x20 ∧ s.dev.com.window = true) ∧
    (∃ s : State, running s.dev = true ∧ s.dev.com.due = true ∧ s.dev.com.stalled = []) :=
  ⟨⟨(st on), .hspi, by unfold MayWrite; decide +kernel⟩,
   ⟨(st on), .hspi, true, by unfold MayWrite; decide +kernel⟩,
   ⟨(st { on with com := { window := true } }), .hspi, by unfold MayWrite; decide +kernel⟩,
   ⟨(st { on with com := { due := true, window := true } }), by decide +kernel⟩⟩

theorem test_meets_WheelTurnsAndScrubs :
    (∃ s : State, running s.dev = true ∧ s.dev.upd.resetDue = false) ∧
    (∃ s : State, running s.dev = true ∧ s.dev.com.due = false ∧ s.dev.com.live = [] ∧ s.dev.kvt.slots = [] ∧ mapSorted s.dev.whl.scrub
      = true) ∧
    (∃ s : State, running s.dev = false) :=
  ⟨⟨(st { on with whl := { slot := 6 } }), by decide +kernel⟩,
   ⟨(st { on with whl := { slot := 6 } }), by decide +kernel⟩,
   ⟨(st {}), by decide +kernel⟩⟩

theorem test_meets_CrossingsCarryGroupsHandshakesAndPulses :
    (∃ (s : State) (x : Nat) (out : Bool) (ws : List RingWord), xRing x = true ∧ (xOf s.dev x out).timed = false ∧ (xOf s.dev x
      out).repair ≠ 2 ∧ (xOf s.dev x out).repair ≠ 3 ∧ xFill (xOf s.dev x out) + ws.length ≤ xDepth x) ∧
    (∃ (s : State) (x : Nat) (ws : List RingWord), x < 24 ∧ (xOf s.dev x false).timed = false ∧ (xDepth x < xFill (xOf s.dev x false) +
      ws.length ∨ (xOf s.dev x false).repair = 2 ∨ (xOf s.dev x false).repair = 3)) ∧
    (∃ (s : State) (x : Nat) (out : Bool) (w : List RingWord) (rest : List (List RingWord)), xRing x = true ∧ (xOf s.dev x out).groups =
      w :: rest ∧ (xOf s.dev x out).repair ≠ 1 ∧ w.any (fun v => v.bad) = false) ∧
    (∃ (s : State) (x : Nat) (out : Bool) (w : List RingWord) (rest : List (List RingWord)), xRing x = true ∧ (xOf s.dev x out).groups =
      w :: rest ∧ (xOf s.dev x out).repair ≠ 1 ∧ w.any (fun v => v.bad) = true) ∧
    (∃ (s : State) (x : Nat) (out : Bool) (w : FWord), xHs x = true ∧ (xOf s.dev x out).hs = none ∧ (xOf s.dev x out).timed = false ∧
      (xOf s.dev x out).repair ≠ 2) ∧
    (∃ (s : State) (x : Nat) (out : Bool) (w : FWord), ((xOf s.dev x out).hs.isSome = true ∨ (xOf s.dev x out).repair = 2)) ∧
    (∃ (s : State) (x : Nat) (out : Bool) (w : FWord), (xOf s.dev x out).hs = some w ∧ xPairing (xOf s.dev x out) = false) ∧
    (∃ (s : State) (x : Nat) (out inCycle : Bool) (n : Nat), xPulse x = true ∧ (xOf s.dev x out).timed = false ∧ xPairing (xOf s.dev x
      out) = false ∧ (xOf s.dev x out).xfer = none ∧ 0 < (xOf s.dev x out).acc + n ∧ (xOf s.dev x out).acc + n < 65535) ∧
    (∃ (s : State) (x : Nat) (out : Bool) (n k : Nat), (xOf s.dev x out).xfer = some n ∧ xPairing (xOf s.dev x out) = false ∧ (xOf s.dev
      x out).timed = false ∧ (xOf s.dev x out).acc + k < 65535) :=
  ⟨⟨(st on), 37, true, (List.replicate 128 ⟨1, false⟩), by decide +kernel⟩,
   ⟨(st { on with whl := { xings := [(xKey 23 false, { repair := 3 })] } }), 23, ([⟨1, false⟩]), by decide +kernel⟩,
   ⟨(st { on with whl := { xings := [(xKey 3 true, { groups := [[⟨1, false⟩], [⟨2, true⟩]], repair := 2 })] } }), 3, true, ([⟨1,
    false⟩]), ([[⟨2, true⟩]]), by decide +kernel⟩,
   ⟨(st { on with whl := { xings := [(xKey 3 true, { groups := [[⟨1, false⟩, ⟨2, true⟩]] })] } }), 3, true, ([⟨1, false⟩, ⟨2, true⟩]),
    ([]), by decide +kernel⟩,
   ⟨(st on), 40, true, 5, by decide +kernel⟩,
   ⟨(st { on with whl := { xings := [(xKey 40 true, { hs := some 4 })] } }), 40, true, 5, by decide +kernel⟩,
   ⟨(st { on with whl := { xings := [(xKey 40 true, { hs := some 4 })] } }), 40, true, 4, by decide +kernel⟩,
   ⟨(st { on with whl := { xings := [(xKey 39 false, { acc := 65533 })] } }), 39, false, true, 1, by decide +kernel⟩,
   ⟨(st { on with whl := { xings := [(xKey 39 false, { acc := 2, xfer := some 7 })] } }), 39, false, 7, 65532, by decide +kernel⟩⟩

theorem test_meets_CrossingsRepairStallAndTimeOut :
    (∃ (s : State) (x n : Nat) (out : Bool), xOneSide x = true ∧ xRing x = true ∧ (out = true ∨ x < 24 ∨ 32 < x ∨ (ethOf s.dev (x -
      24)).headIn = false)) ∧
    (∃ (s : State) (p n : Nat), p ≤ 8 ∧ (ethOf s.dev p).headIn = true) ∧
    (∃ (s : State) (x n : Nat) (out : Bool), xOneSide x = true) ∧
    (∃ (s : State) (x : Nat) (out : Bool), (xOf s.dev x out).repair ≠ 0 ∧ xClocked s.dev x = true ∧ 2 ≤ s.dev.clk.mode.num) ∧
    (∃ (s : State) (x : Nat) (out : Bool), compat s.dev = false ∧ (xOf s.dev x out).stalled = false ∧ xWaiting (xOf s.dev x out) = true
      ∧ xIdle s.dev x = false ∧ 2 ≤ s.dev.clk.mode.num) ∧
    (∃ (s : State) (x : Nat) (out : Bool), compat s.dev = true ∧ (xOf s.dev x out).timed = false ∧ xWaiting (xOf s.dev x out) = true ∧
      xIdle s.dev x = false ∧ 2 ≤ s.dev.clk.mode.num) ∧
    (∃ (s : State) (x : Nat) (out : Bool), (xOf s.dev x out).timed = false) ∧
    (∃ (s : State) (x : Nat) (out : Bool), (xOf s.dev x out).timed = true ∧ 2 ≤ s.dev.clk.mode.num) :=
  ⟨⟨(st on), 34, 1, true, by decide +kernel⟩,
   ⟨(st (eth1 8 { headIn := true } on)), 8, 3, by decide +kernel⟩,
   ⟨(st on), 40, 1, false, by decide +kernel⟩,
   ⟨(st { on with whl := { xings := [(xKey 3 true, { repair := 1 })] } }), 3, true, by decide +kernel⟩,
   ⟨(st { on with whl := { xings := [(xKey 39 true, { hs := some 4 })] } }), 39, true, by decide +kernel⟩,
   ⟨(st { cl (fun c => { c with cmpt := true }) on with whl := { xings := [(xKey 39 true, { hs := some 4 })] } }), 39, true,
    by decide +kernel⟩,
   ⟨(st on), 3, true, by decide +kernel⟩,
   ⟨(st { on with whl := { xings := [(xKey 39 true, { hs := some 4, timed := true })] } }), 39, true, by decide +kernel⟩⟩

theorem test_meets_CanReceptionFillsTheStage :
    (∃ (s : State) (ch back : Nat) (f : CanFrame) (l : CanLatch), waking s.dev = false ∧ canLive s.dev ch = true ∧ canRuns (canOf s.dev
      ch) = true ∧ (canOf s.dev ch).opmode ≠ 2 ∧ l = latchOf s.dev ch back ∧ protoKind s.dev ch l f = none ∧ (∀ k, canCluster s.dev ch =
      some k → nmSleeps s.dev k = false) ∧ (f.rtr = false ∨ bit (canCtl s.dev ch) 6 = true) ∧ (canOf s.dev ch).stage.length < 2) ∧
    (∃ (s : State) (ch back : Nat) (f : CanFrame), waking s.dev = false ∧ canLive s.dev ch = true ∧ canRuns (canOf s.dev ch) = true ∧
      (canOf s.dev ch).opmode ≠ 2 ∧ protoKind s.dev ch (latchOf s.dev ch back) f = none ∧ (∀ k, canCluster s.dev ch = some k → nmSleeps
      s.dev k = false) ∧ f.rtr = false ∧ (canOf s.dev ch).stage.length = 2 ∧ mapSorted s.dev.tally = true) ∧
    (∃ (s : State) (ch back : Nat) (f : CanFrame), waking s.dev = false ∧ canLive s.dev ch = true ∧ canRuns (canOf s.dev ch) = true ∧
      (canOf s.dev ch).opmode ≠ 2 ∧ protoKind s.dev ch (latchOf s.dev ch back) f = none ∧ (∀ k, canCluster s.dev ch = some k → nmSleeps
      s.dev k = false) ∧ f.rtr = true ∧ bit (canCtl s.dev ch) 6 = false) ∧
    (∃ (s : State) (ch back k : Nat) (f : CanFrame), waking s.dev = false ∧ canLive s.dev ch = true ∧ canRuns (canOf s.dev ch) = true ∧
      (canOf s.dev ch).opmode ≠ 2 ∧ protoKind s.dev ch (latchOf s.dev ch back) f = none ∧ canCluster s.dev ch = some k ∧ nmSleeps s.dev
      k = true ∧ bit (nmReg s.dev k 12) 8 = false) ∧
    (∃ (s : State) (ch back : Nat) (f : CanFrame), waking s.dev = true ∧ ch < 24 ∧ canInImage s.dev ch = true) ∧
    (∃ (s : State) (ch back : Nat) (f : CanFrame), waking s.dev = false ∧ (canLive s.dev ch = false ∨ canRuns (canOf s.dev ch) = false ∨
      (canOf s.dev ch).opmode = 2)) ∧
    (∃ (s : State) (ch : Nat), (canOf s.dev ch).stage = []) ∧
    (∃ (s : State) (ch : Nat) (r : RxStage) (rest : List RxStage), (canOf s.dev ch).stage = r :: rest ∧ filtAccepts s.dev (ch / 6) r =
      false) ∧
    (∃ (s : State) (ch : Nat) (r : RxStage) (rest : List RxStage), (canOf s.dev ch).stage = r :: rest ∧ ch < 24 ∧ filtAccepts s.dev (ch
      / 6) r = true ∧ s.dev.clk.ingress = true ∧ xTakes (xOf s.dev ch false) ch (frameWords r.frame) = true ∧ lkFill s.dev (ch / 6) <
      256) ∧
    (∃ (s : State) (ch : Nat) (r : RxStage) (rest : List RxStage), (canOf s.dev ch).stage = r :: rest ∧ filtAccepts s.dev (ch / 6) r =
      true ∧ (s.dev.clk.ingress = false ∨ ((xOf s.dev ch false).timed = false ∧ xTakes (xOf s.dev ch false) ch (frameWords r.frame) =
      false))) ∧
    (∃ (s : State) (ch : Nat) (r : RxStage) (rest : List RxStage), (canOf s.dev ch).stage = r :: rest ∧ filtAccepts s.dev (ch / 6) r =
      true ∧ s.dev.clk.ingress = true ∧ (xOf s.dev ch false).timed = true) :=
  ⟨⟨(st (can1 23 { state := 3, stage := [⟨fr0, 0, 0, false⟩], past := [{ base := 7, cnt := 1 }] } (rg [(canBase 23, 0x40)] on))), 23, 1,
    ({ fr0 with rtr := true }), ({ base := 7, cnt := 1 }), ⟨by decide +kernel, by decide +kernel, by decide +kernel, by decide +kernel,
    rfl, by decide +kernel, awake (by decide +kernel), by decide +kernel⟩⟩,
   ⟨(st (can1 23 { state := 2, stage := [⟨fr0, 0, 0, false⟩, ⟨fr0, 0, 0, false⟩] } on)), 23, 0, fr0, ⟨by decide +kernel, by
    decide +kernel, by decide +kernel, by decide +kernel, by decide +kernel, awake (by decide +kernel), by decide +kernel⟩⟩,
   ⟨(st (can1 23 { state := 2 } on)), 23, 0, ({ fr0 with rtr := true }), ⟨by decide +kernel, by decide +kernel, by decide +kernel, by
    decide +kernel, by decide +kernel, awake (by decide +kernel), by decide +kernel⟩⟩,
   ⟨(st (nm0 0 {})), 0, 0, 0, fr0, by decide +kernel⟩,
   ⟨(st (cl (fun c => { c with trans := .wake false, routing := false }) on)), 23, 0, fr0, by decide +kernel⟩,
   ⟨(st (can1 23 { state := 2, opmode := 2 } on)), 23, 0, fr0, by decide +kernel⟩,
   ⟨(st on), 23, by decide +kernel⟩,
   ⟨(st (can1 23 { stage := [⟨fr0, 0, 0, true⟩, ⟨fr0, 0, 0, false⟩] } on)), 23, (⟨fr0, 0, 0, true⟩), ([⟨fr0, 0, 0, false⟩]),
    by decide +kernel⟩,
   ⟨(st (can1 23 { stage := [⟨fr0, 0, 0, false⟩] } on)), 23, (⟨fr0, 0, 0, false⟩), ([]), ⟨by decide +kernel, by decide, by
    decide +kernel, by decide +kernel, xTakes_frame fr0 (by decide +kernel), by decide +kernel⟩⟩,
   ⟨(st { can1 23 { stage := [⟨fr0, 0, 0, false⟩] } on with whl := { xings := [(xKey 23 false, { repair := 2 })] } }), 23, (⟨fr0, 0, 0,
    false⟩), ([]), by decide +kernel⟩,
   ⟨(st { can1 23 { stage := [⟨fr0, 0, 0, false⟩] } on with whl := { xings := [(xKey 23 false, { timed := true })] } }), 23, (⟨fr0, 0,
    0, false⟩), ([]), by decide +kernel⟩⟩

theorem test_meets_CanErrorsMoveTheCounters :
    (∃ (s : State) (ch steps : Nat), canLive s.dev ch = true ∧ canRuns (canOf s.dev ch) = true ∧ (canOf s.dev ch).opmode ≠ 2) ∧
    (∃ (s : State) (ch b : Nat) (x : XbFrame), onBus (canOf s.dev ch) = some b ∧ xbOf (canOf s.dev ch) b = some x ∧ x.last = false ∧
      x.cancel = false ∧ x.expired = false ∧ canRuns (canOf s.dev ch) = true ∧ (canOf s.dev ch).tec + 8 ≤ 255) ∧
    (∃ (s : State) (ch b : Nat) (x : XbFrame), onBus (canOf s.dev ch) = some b ∧ xbOf (canOf s.dev ch) b = some x ∧ x.last = false ∧
      x.cancel = false ∧ x.expired = false) ∧
    (∃ (s : State) (ch b : Nat) (x : XbFrame), onBus (canOf s.dev ch) = some b ∧ xbOf (canOf s.dev ch) b = some x ∧ x.cancel = false ∧
      x.mbox = false ∧ x.store = none) :=
  ⟨⟨(st (can1 23 { state := 2, rec' := 127 } on)), 23, 1, by decide +kernel⟩,
   ⟨(st (can1 23 { state := 2, tec := 247, xb2 := some (xb1 id) } on)), 23, 2, (xb1 id), by decide +kernel⟩,
   ⟨(st (can1 23 { state := 2, tec := 248, xb2 := some (xb1 id) } on)), 23, 2, (xb1 id), by decide +kernel⟩,
   ⟨(st (can1 23 { state := 2, tec := 1, xb0 := some (xb1 id) } on)), 23, 0, (xb1 id), by decide +kernel⟩⟩

theorem test_meets_CanSelectionSendsThePick :
    (∃ (s : State) (ch : Nat), canLive s.dev ch = true ∧ canRuns (canOf s.dev ch) = true ∧ onBus (canOf s.dev ch) = none ∧ mayTx
      (btLatch s.dev ch) ch = true ∧ bit (canCtl s.dev ch) 9 = false) ∧
    (∃ (s : State) (ch : Nat), canLive s.dev ch = true ∧ canRuns (canOf s.dev ch) = true ∧ onBus (canOf s.dev ch) = none ∧ mayTx
      (btLatch s.dev ch) ch = true ∧ bit (canCtl s.dev ch) 9 = true) ∧
    (∃ (s : State) (ch b : Nat) (x : XbFrame), b < 3 ∧ (canOf s.dev ch).next = some b ∧ xbOf (canOf s.dev ch) b = some x ∧ mayTx s.dev
      ch = true ∧ onBus (canOf s.dev ch) = none ∧ ((canOf s.dev ch).schExcl = false ∨ b = 0) ∧ x.pkt = none) ∧
    (∃ (s : State) (ch b : Nat) (x : XbFrame) (p : Pkt), b < 3 ∧ (canOf s.dev ch).next = some b ∧ xbOf (canOf s.dev ch) b = some x ∧
      mayTx s.dev ch = true ∧ onBus (canOf s.dev ch) = none ∧ ((canOf s.dev ch).schExcl = false ∨ b = 0) ∧ x.pkt = some p) ∧
    (∃ (s : State) (ch b : Nat) (it : LaneItem), canLive s.dev ch = true ∧ 1 ≤ (canOf s.dev ch).state ∧ (canOf s.dev ch).state < 4 ∧
      outFrozen s.dev (6 + ch / 6) = false ∧ ((canOf s.dev ch).schLoad = none ∨ (canOf s.dev ch).xb0.isSome = true) ∧ (landingBufs s.dev
      ch).find? (fun b => (xbOf (canOf s.dev ch) b).isNone) = some b ∧ b < 3 ∧ (stagedHeads s.dev ch).find? (flowFree (canOf s.dev ch))
      = some it) :=
  ⟨⟨(st (can1 23 { state := 2, xb0 := some (xb1 (fun x => { x with onBus := false })) } on)), 23, by decide +kernel⟩,
   ⟨(st (can1 23 { state := 2, xb0 := some (xb1 (fun x => { x with onBus := false })) } (rg [(canBase 23, 0x200)] on))), 23,
    by decide +kernel⟩,
   ⟨(st (can1 23 { state := 2, next := some 2, xb2 := some (xb1 (fun x => { x with onBus := false, sof := false })) } on)), 23, 2, (xb1
    (fun x => { x with onBus := false, sof := false })), by decide +kernel⟩,
   ⟨(st (can1 23 { state := 2, next := some 0, xb0 := some (xb1 (fun x => { x with onBus := false, sof := false, pkt := some pk0 })) }
    on)), 23, 0, (xb1 (fun x => { x with onBus := false, sof := false, pkt := some pk0 })), pk0, by decide +kernel⟩,
   ⟨(st (can1 23 { state := 3 }
    { live on with lnd := { queues := [(qCan 23 3, [(9, ds0 (qCan 23 3))])], frames := [(9, sto pk0 (qCan 23 3))], lanes := [(53, { items := [it0 pk0 (qCan 23 3)] })] } })),
    23, 0, (it0 pk0 (qCan 23 3)), by decide +kernel⟩⟩

theorem test_meets_CanStatesFollowInitAndRecovery :
    (∃ (s : State) (who : Initiator) (ch : Nat), MayWriteCan s.dev who ch 0 ∧ canLive s.dev ch = true ∧ (canOf s.dev ch).state ≠ 0 ∧
      mapSorted s.dev.regs = true) ∧
    (∃ (s : State) (who : Initiator) (ch : Nat), MayWriteCan s.dev who ch 0 ∧ canLive s.dev ch = true ∧ (canOf s.dev ch).state = 0 ∧
      (canOf s.dev ch).demand = false ∧ s.dev.clk.routing = true ∧ btFault (btNow s.dev ch) = none ∧ mapSorted s.dev.regs = true) ∧
    (∃ (s : State) (ch : Nat), (canOf s.dev ch).initDue = true ∧ onBus (canOf s.dev ch) = none ∧ initCause s.dev ch = true) ∧
    (∃ (s : State) (ch : Nat), (canOf s.dev ch).state = 1 ∧ canLive s.dev ch = true) ∧
    (∃ (s : State) (who : Initiator) (ch : Nat), MayWriteCan s.dev who ch 0 ∧ canLive s.dev ch = true ∧ (canOf s.dev ch).state = 4) ∧
    (∃ (s : State) (ch : Nat), (canOf s.dev ch).state = 5 ∧ canLive s.dev ch = true) ∧
    (∃ (s : State) (ch : Nat), canLive s.dev ch = true) :=
  ⟨⟨(st (can1 23 { state := 4 } on)), .eopod, 23, by unfold MayWriteCan MayWrite; decide +kernel⟩,
   ⟨(st (rg [(canBase 23, 1), (canBase 23 + 0x10, 0xFFFE0), (canBase 23 + 0x14, 0x3C0), (canBase 23 + 0x18, 0x40)] on)), .eopod, 23,
    by unfold MayWriteCan MayWrite; decide +kernel⟩,
   ⟨(st (can1 23 { state := 2, initDue := true } (rg [(canBase 23, 1)] on))), 23, by decide +kernel⟩,
   ⟨(st (can1 23 { state := 1 } on)), 23, by decide +kernel⟩,
   ⟨(st (can1 23 { state := 4, tec := 200 } on)), .eopod, 23, by unfold MayWriteCan MayWrite; decide +kernel⟩,
   ⟨(st (can1 23 { state := 5, tec := 200 } on)), 23, by decide +kernel⟩,
   ⟨(st on), 23, by decide +kernel⟩⟩

theorem test_meets_CanMatrixCancelAndMailbox :
    (∃ (s : State) (ch : Nat), canLive s.dev ch = true ∧ canRuns (canOf s.dev ch) = true ∧ hasMatrix s.dev ch = true ∧ (canOf s.dev
      ch).schRun = false ∧ matrixAt s.dev ch 0 0 = none) ∧
    (∃ (s : State) (ch k route : Nat) (p : StoreFrame), canLive s.dev ch = true ∧ canRuns (canOf s.dev ch) = true ∧ hasMatrix s.dev ch =
      true ∧ (canOf s.dev ch).schRun = true ∧ matrixAt s.dev ch (canOf s.dev ch).schCyc (canOf s.dev ch).schCol = some (k, route) ∧ k <
      2 ∧ mapGet? (canOf s.dev ch).store route = some p ∧ (canOf s.dev ch).xb0 = none ∧ outFrozen s.dev (6 + ch / 6) = false) ∧
    (∃ (s : State) (ch : Nat), (canOf s.dev ch).schRun = true ∧ (canOf s.dev ch).xb0 = none) ∧
    (∃ (s : State) (who : Initiator) (ch : Nat) (w : Word), MayWriteCan s.dev who ch 0x40 ∧ canLive s.dev ch = true ∧ bits w.toNat 0 2 ≠
      3 ∧ (xbOf (canOf s.dev ch) (bits w.toNat 0 2)).filter (fun x => x.tag == bits w.toNat 16 16) = none) ∧
    (∃ (s : State) (who : Initiator) (ch : Nat) (w : Word) (x : XbFrame), MayWriteCan s.dev who ch 0x40 ∧ canLive s.dev ch = true ∧ bits
      w.toNat 0 2 ≠ 3 ∧ (xbOf (canOf s.dev ch) (bits w.toNat 0 2)).filter (fun x => x.tag == bits w.toNat 16 16) = some x ∧ x.cancel =
      false ∧ x.onBus = true) ∧
    (∃ (s : State) (who : Initiator) (ch n : Nat), MayWriteCan s.dev who ch 0x50 ∧ canLive s.dev ch = true ∧ mbNum who = some n ∧ (canOf
      s.dev ch).mbOwner = 0) ∧
    (∃ (s : State) (who : Initiator) (ch : Nat), MayWriteCan s.dev who ch 0x50 ∧ canLive s.dev ch = true ∧ mbNum who = some (canOf s.dev
      ch).mbOwner) ∧
    (∃ (s : State) (who : Initiator) (ch : Nat), MayWriteCan s.dev who ch 0x54 ∧ canLive s.dev ch = true ∧ mbNum who ≠ some (canOf s.dev
      ch).mbOwner) ∧
    (∃ (s : State) (who : Initiator) (ch : Nat), MayWriteCan s.dev who ch 0x54 ∧ canLive s.dev ch = true ∧ mbRefuse s.dev who ch = 0) :=
  ⟨⟨(st (can1 23 { state := 2 } { on with img := { img0 with sched := [23 + 3 * 32] } })), 23, by decide +kernel⟩,
   ⟨(st (can1 23 { state := 2, schRun := true, store := [(4, { pkt := pk0, dest := ds0 (qCan 23 3) })] }
    { on with img := { img0 with sched := [23 + 3 * 32, 23 + 4 * 2 ^ 21 ] } })), 23, 0, 4, ({ pkt := pk0, dest := ds0 (qCan 23 3) }),
    by decide +kernel⟩,
   ⟨(st (can1 23 { state := 2, schRun := true } on)), 23, by decide +kernel⟩,
   ⟨(st (can1 23 { state := 2, xb0 := some (xb1 id) } on)), .eopod, 23, 0x80000, by unfold MayWriteCan MayWrite; decide +kernel⟩,
   ⟨(st (can1 23 { state := 2, xb2 := some (xb1 id) } on)), .eopod, 23, 0x70002, (xb1 id),
    by unfold MayWriteCan MayWrite; decide +kernel⟩,
   ⟨(st { on with eps := [(1, { up := true })], can := [(23, {})] }), .pcie1, 23, 2, by unfold MayWriteCan MayWrite; decide +kernel⟩,
   ⟨(st { on with eps := [(1, { up := true })], can := [(23, { mbOwner := 2 })] }), .pcie1, 23,
    by unfold MayWriteCan MayWrite; decide +kernel⟩,
   ⟨(st { on with can := [(23, { mbOwner := 2 })] }), .eopod, 23, by unfold MayWriteCan MayWrite; decide +kernel⟩,
   ⟨(st
    { rg [(canBase 23 + 0x800, 5), (canBase 23 + 0x804, 8)] on with eps := [(0, { up := true })], can := [(23, { mbOwner := 1, mbOn := true, state := 2 })] }),
    .pcie0, 23, by unfold MayWriteCan MayWrite; decide +kernel⟩⟩

theorem test_meets_EthernetReceptionChecksAndPauses :
    (∃ (s : State) (p c : Nat) (f : Bytes) (e : Bool), waking s.dev = false ∧ ethLive s.dev p = true ∧ (ethOf s.dev p).st = 3 ∧
      ethReject s.dev p f e = some c) ∧
    (∃ (s : State) (p : Nat) (f : Bytes) (e : Bool), waking s.dev = false ∧ ethLive s.dev p = true ∧ (ethOf s.dev p).st = 3 ∧ ethReject
      s.dev p f e = none ∧ isMacCtl (f.take (f.length - 4)) = false ∧ msEn s.dev p = false ∧ s.dev.clk.ingress = true ∧ ethTakes s.dev p
      f.length = true ∧ (p < 8 → isAcf s.dev p (f.take (f.length - 4)) = false ∧ lkFill s.dev (ethInput p) < 256)) ∧
    (∃ (s : State) (p : Nat) (f : Bytes) (e : Bool), waking s.dev = false ∧ ethLive s.dev p = true ∧ (ethOf s.dev p).st ≠ 3) ∧
    (∃ (s : State) (p : Nat) (f : Bytes) (e : Bool), waking s.dev = true ∧ p ≤ 8 ∧ ethInImage s.dev p = true) ∧
    (∃ (s : State) (p q : Nat), ethLive s.dev p = true ∧ (ethOf s.dev p).st = 3 ∧ flag s.dev (ethBase p + 0x14) 0 = false) ∧
    (∃ (s : State) (p q : Nat), ethLive s.dev p = true ∧ (ethOf s.dev p).st = 3 ∧ flag s.dev (ethBase p + 0x14) 0 = true ∧ fld s.dev
      (ethBase p + 0x14) 16 16 = 0 ∧ q < 65536) ∧
    (∃ (s : State) (p : Nat), (ethOf s.dev p).paused = true ∧ (ethOf s.dev p).pauseEnd ≤ runNs s.dev) :=
  ⟨⟨(st (eth1 8 { st := 3 } on)), 8, 0x110, ([]), true, by decide +kernel⟩,
   ⟨(st (eth1 7 { st := 3 } (rg [(ethBase 7 + 4, 1518), (ethBase 7, 1518 * 65536)] on))), 7, eb0, false, by decide +kernel⟩,
   ⟨(st (eth1 7 { st := 2 } on)), 7, eb0, false, by decide +kernel⟩,
   ⟨(st (cl (fun c => { c with trans := .wake false, routing := false }) on)), 8, eb0, false, by decide +kernel⟩,
   ⟨(st (eth1 8 { st := 3 } on)), 8, 65535, by decide +kernel⟩,
   ⟨(st (eth1 7 { st := 3 } (rg [(ethBase 7 + 0x14, 1)] on))), 7, 65535, by decide +kernel⟩,
   ⟨(st (eth1 8 { st := 3, paused := true, pauseEnd := 0 } on)), 8, by decide +kernel⟩⟩

theorem test_meets_EthernetTransmissionStagesAndStarts :
    (∃ (s : State) (p tc : Nat) (its : List LaneItem), p < 8 ∧ ethLive s.dev p = true ∧ (ethOf s.dev p).st = 3 ∧ (ethOf s.dev p).paused
      = false ∧ stagedItems s.dev p = [] ∧ (ethOf s.dev p).cutFrame = none ∧ outFrozen s.dev (6 + p / 2) = false ∧ (ethOf s.dev
      p).wireEnd ≤ runNs s.dev + wireNs s.dev p 524 ∧ [7, 6, 5, 4, 3, 2, 1, 0].findSome? (eligible s.dev p (nowNs s.dev + ((ethOf s.dev
      p).wireEnd - runNs s.dev))) = some (tc, its)) ∧
    (∃ (s : State) (p : Nat), p < 8 ∧ ethLive s.dev p = true ∧ (ethOf s.dev p).st = 3 ∧ ((ethOf s.dev p).paused = true ∨ outFrozen s.dev
      (6 + p / 2) = true)) ∧
    (∃ (s : State) (p : Nat), p < 8 ∧ ethLive s.dev p = true ∧ (ethOf s.dev p).st = 3 ∧ (ethOf s.dev p).paused = false ∧ outFrozen s.dev
      (6 + p / 2) = false ∧ (ethOf s.dev p).cutFrame = none ∧ (ethOf s.dev p).wireEnd ≤ runNs s.dev ∧ msEn s.dev p = false ∧ (ethOf
      s.dev p).prot = none ∧ startReady s.dev (stagedItems s.dev p) = true ∧ (∀ it ∈ stagedItems s.dev p, it.pkt.part = false) ∧
      shaperOk s.dev p (ethOf s.dev p).stClass = true ∧ gateFits s.dev p (ethOf s.dev p).stClass (nowNs s.dev) (stagedLen s.dev p
      (stagedItems s.dev p)) = true) ∧
    (∃ (d : Dev) (p : Nat) (f : Bytes), (ethOf d p).wire = some f ∧ ethLoop d p = false ∧ mapSorted d.tally = true ∧ (ethOf d
      p).wireStart + wireNs d p (f.length + 12) ≤ runNs d) ∧
    (∃ (d : Dev) (p : Nat) (f : Bytes), (ethOf d p).wire = some f ∧ runNs d < (ethOf d p).wireStart + wireNs d p (f.length + 12)) :=
  ⟨⟨(st (eth1 7 { st := 3 } (lnq pe0 (qEth 7 0) on))), 7, 0, ([{ it0 pe0 (qEth 7 0) with got := 0, asked := 0 }]), by decide +kernel⟩,
   ⟨(st { eth1 7 { st := 3 } on with flt := { twins := [(9, { phase := 1 })] } }), 7, by decide +kernel⟩,
   ⟨(st (eth1 7 { st := 3, stBytes := some (frameOf on 7 [it0 pe0 (qEth 7 0)]) }
    { lnq pe0 (qEth 7 0) on with lnd := { (lnq pe0 (qEth 7 0) on).lnd with lanes := [(55, { items := [it0 pe0 (qEth 7 0)] })] } })), 7,
    by decide +kernel⟩,
   ⟨(eth1 7 { st := 3, wire := some (List.replicate 60 0x5A) } (cl (fun c => { c with tclk := 1000000 }) on)), 7, (List.replicate 60
    0x5A), by decide +kernel⟩,
   ⟨(eth1 7 { st := 3, wire := some (List.replicate 60 0x5A) } on), 7, (List.replicate 60 0x5A), by decide +kernel⟩⟩

theorem test_meets_GatesShapersAndDeviceTime :
    (∃ (s : State) (who : Initiator) (p : Nat), p < 8 ∧ MayWrite s.dev who (ethBase p + 0x40) ∧ ethLive s.dev p = true ∧ ((ethOf s.dev
      p).pend = none ∨ nowNs s.dev < (ethOf s.dev p).cct)) ∧
    (∃ (s : State) (who : Initiator) (p : Nat) (l : GateList), p < 8 ∧ MayWrite s.dev who (ethBase p + 0x40) ∧ ethLive s.dev p = true ∧
      (ethOf s.dev p).pend = some l ∧ (ethOf s.dev p).cct ≤ nowNs s.dev) ∧
    (∃ (s : State) (p : Nat) (l : GateList), (ethOf s.dev p).pend = some l ∧ (ethOf s.dev p).cct ≤ nowNs s.dev ∧ 2 ≤ s.dev.clk.mode.num) ∧
    (∃ (s : State) (p : Nat), p < 8 ∧ ethLive s.dev p = true) ∧
    (∃ (s : State) (p tc : Nat), p < 8 ∧ ethLive s.dev p = true ∧ hasShaper s.dev p tc = true ∧ classSends s.dev p tc = false ∧ queueOf
      s.dev (qEth p tc) ≠ [] ∧ gateOpen s.dev p tc = true ∧ 0 ≤ creditOf s.dev p tc) ∧
    (∃ (s : State) (p tc : Nat), creditOf s.dev p tc < 0) ∧
    (∃ (s : State) (who : Initiator) (hi : Word), MayWrite s.dev who 0xC8001C) ∧
    (∃ (s : State) (v : Nat), s.dev.clk.step = some v ∧ nowNs s.dev % 1000 < 3) ∧
    (∃ s : State, (s.dev.clk.step = none ∨ 3 ≤ nowNs s.dev % 1000)) ∧
    (∃ s : State, running s.dev = true) ∧
    (∃ s : State, running s.dev = true ∧ flag s.dev 0xC80020 1 = true ∧ s.dev.clk.pinsOn = true) ∧
    (∃ s : State, flag s.dev 0xC80020 1 = false) :=
  ⟨⟨(st on), .eopod, 7, by unfold MayWrite; decide +kernel⟩,
   ⟨(st (eth1 7 { pend := some { entries := [(100, 1)], base := 0, cycle := 100, ext := 0 } } on)), .eopod, 7,
    ({ entries := [(100, 1)], base := 0, cycle := 100, ext := 0 }), by unfold MayWrite; decide +kernel⟩,
   ⟨(st (eth1 7 { pend := some { entries := [(100, 1)], base := 0, cycle := 100, ext := 0 } } on)), 7,
    ({ entries := [(100, 1)], base := 0, cycle := 100, ext := 0 }), by decide +kernel⟩,
   ⟨(st on), 7, by decide +kernel⟩,
   ⟨(st (eth1 6 { st := 3, credit := [(3, 0)] } (lnq pe0 (qEth 6 3)
    { on with img := { img0 with grove := [(3, 0x3003F00 + 2 ^ 96 + 3 * 2 ^ 64)] } }))), 6, 3, by decide +kernel⟩,
   ⟨(st (eth1 6 { st := 3, credit := [(3, -5)] } on)), 6, 3, by decide +kernel⟩,
   ⟨(st on), .eopod, 5, by unfold MayWrite; decide +kernel⟩,
   ⟨(st (cl (fun c => { c with step := some 2000000000 }) on)), 2000000000, by decide +kernel⟩,
   ⟨(st (cl (fun c => { c with step := some 5, dtime := 3 * 2 ^ 39 }) on)), by decide +kernel⟩,
   ⟨(st on), by decide +kernel⟩,
   ⟨(st (rg [(0xC80020, 2)] (cl (fun c => { c with pinsOn := true }) on))), by decide +kernel⟩,
   ⟨(st on), by decide +kernel⟩⟩

theorem test_meets_LinkStatesFollowTheirFaults :
    (∃ (s : State) (p : Nat) (f : LinkFlt) (c : Instr), (c = .linkDown p f ∨ c = .linkFault p f) ∧ ethLive s.dev p = true ∧ (ethOf s.dev
      p).st = 3 ∧ f ≠ .enableZero ∧ (ethLoop s.dev p = false ∨ laneFault f = false)) ∧
    (∃ (s : State) (p : Nat) (c : Instr), (c = .linkDown p .pcs ∨ c = .linkFault p .pcs) ∧ ethLive s.dev p = true ∧ (ethOf s.dev p).st =
      2 ∧ ethLoop s.dev p = false) ∧
    (∃ (s : State) (p : Nat) (f : LinkFlt) (c : Instr), (c = .linkDown p f ∨ c = .linkFault p f) ∧ ethLoop s.dev p = true ∧ laneFault f
      = true) ∧
    (∃ (s : State) (p : Nat), ethLive s.dev p = true ∧ (ethOf s.dev p).st = 1) ∧
    (∃ (s : State) (p : Nat), ethLive s.dev p = true ∧ (ethOf s.dev p).st = 2 ∧ (ethOf s.dev p).dbStart + 500000 * (ethOf s.dev p).dbMs
      ≤ s.dev.clk.tclk) ∧
    (∃ (s : State) (who : Initiator) (p : Nat), p < 9 ∧ MayWrite s.dev who (ethBase p) ∧ ethLive s.dev p = true ∧ (ethOf s.dev p).st = 0) ∧
    (∃ (s : State) (who : Initiator) (p : Nat), p < 9 ∧ MayWrite s.dev who (ethBase p) ∧ ethLive s.dev p = true ∧ (ethOf s.dev p).st = 3) ∧
    (∃ (s : State) (p : Nat), p < 8 ∧ svcUp s.dev 0 = true ∧ ethLive s.dev p = true ∧ flag s.dev (ethBase p + 0x20) 0 = true) ∧
    (∃ (s : State) (p : Nat) (w : Word), p < 8 ∧ ethLive s.dev p = true ∧ (ethOf s.dev p).sleepReq = true ∧ (ethOf s.dev p).st = 1 ∧ bit
      w.toNat (fld s.dev (ethBase p + 0x28) 16 4) = true) :=
  ⟨⟨(st (eth1 7 { st := 3 } on)), 7, .pcs, (.linkDown 7 .pcs), by decide +kernel⟩,
   ⟨(st (eth1 7 { st := 2 } on)), 7, (.linkFault 7 .pcs), by decide +kernel⟩,
   ⟨(st (eth1 7 { st := 3 } (rg [(ethBase 7, 2)] on))), 7, .pcs, (.linkDown 7 .pcs), by decide +kernel⟩,
   ⟨(st (eth1 7 { st := 1 } on)), 7, by decide +kernel⟩,
   ⟨(st (cl (fun c => { c with tclk := 5000000 }) (eth1 7 { st := 2, dbMs := 10 } on))), 7, by decide +kernel⟩,
   ⟨(st on), .eopod, 8, by unfold MayWrite; decide +kernel⟩,
   ⟨(st (eth1 8 { st := 3 } on)), .eopod, 8, by unfold MayWrite; decide +kernel⟩,
   ⟨(st (rg [(ethBase 7 + 0x20, 1)] on)), 7, by decide +kernel⟩,
   ⟨(st (eth1 7 { st := 1, sleepReq := true } on)), 7, 1, by decide +kernel⟩⟩

theorem test_meets_ParsingAndLookupDecideFrames :
    (∃ (s : State) (src : Nat) (pre : List LookItem) (it : LookItem) (rest : List LookItem), (src < 4 → frozen s.dev (2 + src) = false)
      ∧ mapGet [] s.dev.rte.parse src = pre ++ it :: rest ∧ (∀ x ∈ pre, hasEngine s.dev src x = false) ∧ hasEngine s.dev src it = true) ∧
    (∃ (s : State) (src : Nat), src < 4 ∧ frozen s.dev (2 + src) = true) ∧
    (∃ (s : State) (client : Nat), (frozen s.dev 1 = true ∨ slotOwned s.dev 2 (lookupOwner client) = false)) ∧
    (∃ (s : State) (client ix : Nat) (it : LookItem) (rest : List LookItem), frozen s.dev 1 = false ∧ slotOwned s.dev 2 (lookupOwner
      client) = true ∧ arrivedWhole s.dev client it = true ∧ mapGet [] s.dev.rte.lookup client = it :: rest ∧ it.named = some ix ∧
      inSendWindow s.dev it.pkt.input ix = true ∧ rtValid (routeEntry s.dev ix) = false ∧ flag s.dev 0x580000 0 = false ∧ mapSorted
      s.dev.tally = true) ∧
    (∃ (s : State) (client ix : Nat) (it : LookItem) (rest : List LookItem) (xs : List Dest), frozen s.dev 1 = false ∧ slotOwned s.dev 2
      (lookupOwner client) = true ∧ arrivedWhole s.dev client it = true ∧ mapGet [] s.dev.rte.lookup client = it :: rest ∧ it.named =
      some ix ∧ inSendWindow s.dev it.pkt.input ix = true ∧ rtValid (routeEntry s.dev ix) = true ∧ holdMode s.dev = false ∧ pncOpen
      s.dev ix = true ∧ rtVerdict (routeEntry s.dev ix) = 0 ∧ rtMill (routeEntry s.dev ix) = false ∧ rtAltXl (routeEntry s.dev ix) =
      false ∧ rtPolEn (routeEntry s.dev ix) = false ∧ rtAuth (routeEntry s.dev ix) = 0 ∧ streamOf s.dev ix 0 = none ∧ streamOf s.dev ix
      1 = none ∧ streamOf s.dev ix 2 = none ∧ step2All s.dev (routeEntry s.dev ix) it.pkt (entryDests s.dev ix (routeEntry s.dev ix)) =
      (xs, [], []) ∧ xs ≠ []) ∧
    (∃ (s : State) (who : Initiator) (w : Word), MayWrite s.dev who 0x580040 ∧ bit w.toNat 16 = true ∧ mapSorted s.dev.rte.streams =
      true) ∧
    (∃ (s : State) (who : Initiator) (w : Word), MayWrite s.dev who 0x580040 ∧ bit w.toNat 16 = false) ∧
    (∃ (s : State) (idx : Nat) (r : Nat × Nat), (overlay s.dev 14 s.dev.img.stream).find? (fun r => stKind r.2 == 2 && bits r.2 0 12 ==
      idx) = some r ∧ (strmOf s.dev (4096 + idx)).recInit = true ∧ (strmOf s.dev (4096 + idx)).recLast + 500000 * bits (stParam r.2) 6
      16 ≤ s.dev.clk.tclk ∧ 2 ≤ s.dev.clk.mode.num ∧ mapSorted s.dev.rte.streams = true) ∧
    (∃ (s : State) (idx : Nat), (strmOf s.dev (4096 + idx)).recInit = false) :=
  ⟨⟨(st
    { on with rte := { parse := [(4, [{ pkt := pk0, named := none, eth := false, ptype := 0 }, { pkt := pk0, named := some 0, eth := false, ptype := 0 }])] } }),
    4, ([]), ({ pkt := pk0, named := none, eth := false, ptype := 0 }), ([{ pkt := pk0, named := some 0, eth := false, ptype := 0 }]),
    by decide +kernel⟩,
   ⟨(st { on with flt := { twins := [(5, { phase := 1 })] } }), 3, by decide +kernel⟩,
   ⟨(st { on with whl := { owners := [(2, [0x10])] } }), 7, by decide +kernel⟩,
   ⟨(st { live on with rte := { lookup := [(0, [{ pkt := pk0, named := some 1, eth := false, ptype := 0 }])] } }), 0, 1,
    ({ pkt := pk0, named := some 1, eth := false, ptype := 0 }), ([]), by decide +kernel⟩,
   ⟨(st { live on with rte := { lookup := [(0, [{ pkt := pk0, named := some 0, eth := false, ptype := 0 }])] } }), 0, 0,
    ({ pkt := pk0, named := some 0, eth := false, ptype := 0 }), ([]), ([{ ds0 (qCan 23 3) with route := 0 }]), by decide +kernel⟩,
   ⟨(st { on with rte := { streams := [(4095, { blocked := true })] } }), .eopod, 0x10FFF, by unfold MayWrite; decide +kernel⟩,
   ⟨(st { on with rte := { streams := [(4095, { blocked := true })] } }), .eopod, 0xFFF, by unfold MayWrite; decide +kernel⟩,
   ⟨(st { on with img := { img0 with stream := [(0, 0x2FFF)] }, rte := { streams := [(8191, { recInit := true, recHist := 3 })] } }),
    4095, ((0, 0x2FFF)), by decide +kernel⟩,
   ⟨(st on), 4095, by decide +kernel⟩⟩

theorem test_meets_AdmissionStoresWaitsOrDrops :
    (∃ (s : State) (input : Nat) (w : Decided) (x : Dest) (rest : List Decided), frozen s.dev 0 = false ∧ mapGet [] s.dev.lnd.waiting
      input = w :: rest ∧ w.since = none ∧ w.pkt.part = false ∧ w.pkt.seg = none ∧ w.dests = [x] ∧ fateOf s.dev w.pkt (admCells s.dev
      w.pkt) false x = .queue) ∧
    (∃ (s : State) (input : Nat) (w : Decided) (x : Dest) (rest : List Decided), frozen s.dev 0 = false ∧ waits input = false ∧ mapGet
      [] s.dev.lnd.waiting input = w :: rest ∧ w.since = none ∧ w.pkt.part = false ∧ w.pkt.seg = none ∧ w.dests = [x] ∧ fateOf s.dev
      w.pkt (admCells s.dev w.pkt) false x = .full) ∧
    (∃ (s : State) (input : Nat) (w : Decided) (x : Dest) (rest : List Decided), frozen s.dev 0 = false ∧ waits input = true ∧ mapGet []
      s.dev.lnd.waiting input = w :: rest ∧ w.since = none ∧ w.pkt.part = false ∧ w.pkt.seg = none ∧ w.dests = [x] ∧ isRec x.q = false ∧
      fateOf s.dev w.pkt (admCells s.dev w.pkt) false x = .full ∧ mapSorted s.dev.tally = true) ∧
    (∃ (s : State) (input : Nat) (w : Decided) (x : Dest) (t : Nat), frozen s.dev 0 = false ∧ waits input = true ∧ mapGet []
      s.dev.lnd.waiting input = [w] ∧ w.since = some t ∧ w.pkt.seg = none ∧ w.dests = [x] ∧ fateOf s.dev w.pkt (admCells s.dev w.pkt)
      false x = .queue) ∧
    (∃ (s : State) (input : Nat), waits input = false) ∧
    (∃ (s : State) (input : Nat) (w : Decided) (x : Dest) (rest : List Decided) (t : Nat), frozen s.dev 0 = false ∧ mapGet []
      s.dev.lnd.waiting input = w :: rest ∧ w.since = some t ∧ t + waitCycles s.dev ≤ s.dev.clk.tclk ∧ w.pkt.seg = none ∧ w.dests = [x]
      ∧ fateOf s.dev w.pkt (admCells s.dev w.pkt) false x = .full) :=
  ⟨⟨(st { can1 23 { state := 2 } (rg lq0 (live on)) with lnd := { waiting := [(0, [⟨pk0, [ds0 (qCan 23 3)], none⟩])] } }), 0, (⟨pk0,
    [ds0 (qCan 23 3)], none⟩), (ds0 (qCan 23 3)), ([]), by decide +kernel⟩,
   ⟨(st { can1 23 { state := 2 } (on) with lnd := { waiting := [(0, [⟨pk0, [ds0 (qCan 23 3)], none⟩])] } }), 0, (⟨pk0, [ds0 (qCan 23
    3)], none⟩), (ds0 (qCan 23 3)), ([]), by decide +kernel⟩,
   ⟨(st { can1 23 { state := 2 } (on) with lnd := { waiting := [(6, [⟨pk0, [ds0 (qCan 23 3)], none⟩])] } }), 6, (⟨pk0, [ds0 (qCan 23
    3)], none⟩), (ds0 (qCan 23 3)), ([]), by decide +kernel⟩,
   ⟨(st { can1 23 { state := 2 } (rg lq0 (live on)) with lnd := { waiting := [(4, [⟨pk0, [ds0 (qCan 23 3)], some 0⟩])] } }), 4, (⟨pk0,
    [ds0 (qCan 23 3)], some 0⟩), (ds0 (qCan 23 3)), 0, by decide +kernel⟩,
   ⟨(st on), 3, by decide +kernel⟩,
   ⟨(st
    { can1 23 { state := 2 } (cl (fun c => { c with tclk := 500 }) on) with lnd := { waiting := [(4, [⟨pk0, [ds0 (qCan 23 3)], some 0⟩])] } }),
    4, (⟨pk0, [ds0 (qCan 23 3)], some 0⟩), (ds0 (qCan 23 3)), ([]), 0, by decide +kernel⟩⟩

theorem test_meets_CellsMoveAndQueuesFlush :
    (∃ s : State, frozen s.dev 0 = false ∧ (∀ i, (mapGet [] s.dev.lnd.matched i).length ≤ 8)) ∧
    (∃ (s : State) (input : Nat) (unc : List (Nat × Nat)), frozen s.dev 0 = true) ∧
    (∃ (s : State) (input : Nat) (unc : List (Nat × Nat)), slotOwned s.dev 1 input = false) ∧
    (∃ (s : State) (input : Nat), frozen s.dev 0 = false ∧ slotOwned s.dev 1 input = true) ∧
    (∃ (s : State) (input cell : Nat) (c : MatchCell) (rest : List MatchCell), frozen s.dev 0 = false ∧ slotOwned s.dev 1 input = true ∧
      2 ≤ s.dev.clk.mode.num ∧ mapGet [] s.dev.lnd.matched input = c :: rest) ∧
    (∃ (s : State) (who : Initiator) (w : Word), MayWrite s.dev who 0x500028 ∧ qExists (bits w.toNat 0 9) = true ∧ mapSorted
      s.dev.lnd.queues = true) ∧
    (∃ (s : State) (who : Initiator) (w : Word), MayWrite s.dev who 0x500028 ∧ qExists (bits w.toNat 0 9) = false) :=
  ⟨⟨(st { on with lnd := { matched := [(6, [⟨9, 0, [0]⟩])] } }), ⟨by decide +kernel, fun i => by by_cases h : 6 = i <;> simp [st,
    mapGet, mapGet?, h]⟩⟩,
   ⟨(st { on with flt := { twins := [(0, { phase := 1 })] } }), 6, ([(0, 0)]), by decide +kernel⟩,
   ⟨(st { on with whl := { owners := [(1, [3])] } }), 6, ([]), by decide +kernel⟩,
   ⟨(st on), 6, by decide +kernel⟩,
   ⟨(st { on with lnd := { matched := [(6, [⟨9, 0, [0]⟩])] }, whl := { owners := [(1, [6])] } }), 6, 0, (⟨9, 0, [0]⟩), ([]),
    by decide +kernel⟩,
   ⟨(st (lnq pk0 423 on)), .eopod, 423, by unfold MayWrite; decide +kernel⟩,
   ⟨(st on), .eopod, 424, by unfold MayWrite; decide +kernel⟩⟩

theorem test_meets_DiagnosticGatewayAnswersTesters :
    (∃ (s : State) (t a : Nat), diagServes s.dev = true ∧ t < 4) ∧
    (∃ (s : State) (t a : Nat) (p : Bytes), diagServes s.dev = true ∧ (mapGet? s.dev.rte.testers t).isSome = true ∧ diagEntry s.dev a =
      none) ∧
    (∃ (s : State) (t a i : Nat) (p : Bytes), diagServes s.dev = true ∧ (mapGet? s.dev.rte.testers t).isSome = true ∧ diagEntry s.dev a
      = some i ∧ bit (diagWord s.dev i 0) 16 = false ∧ p.length ≤ diagMax (diagFmt s.dev i) ∧ s.dev.rte.diag.any (fun q => q.target ==
      a) = false) ∧
    (∃ (s : State) (a : Nat) (p : Bytes) (q : DiagReq), diagServes s.dev = true ∧ s.dev.rte.diag.find? (fun q => q.target == a) = some q
      ∧ (mapGet? s.dev.rte.testers q.tester).isSome = true) ∧
    (∃ (s : State) (a : Nat) (p : Bytes) (q : DiagReq), diagServes s.dev = true ∧ s.dev.rte.diag.find? (fun q => q.target == a) = some q
      ∧ mapGet? s.dev.rte.testers q.tester = none) ∧
    (∃ (s : State) (a : Nat) (ncr : Bool), s.dev.rte.diag.any (fun q => q.target == a && diagLate s.dev ncr q) = false) ∧
    (∃ (s : State) (a : Nat) (ncr : Bool), diagServes s.dev = true ∧ s.dev.rte.diag.any (fun q => q.target == a && diagLate s.dev ncr q)
      = true) ∧
    (∃ (s : State) (t : Nat), diagServes s.dev = true ∧ (mapGet? s.dev.rte.testers t).isSome = true ∧ mapSorted s.dev.rte.testers = true) ∧
    (∃ (s : State) (t a : Nat) (p : Bytes) (ncr : Bool), diagServes s.dev = false) :=
  ⟨⟨(st on), 3, 0xE80, by decide +kernel⟩,
   ⟨(st { on with rte := { testers := [(3, 0xE80)] } }), 3, 0x10, ([1]), by decide +kernel⟩,
   ⟨(st { on with rte := { testers := [(3, 0xE80)], diagTab := [(252, 0x20010)] } }), 3, 0x10, 63, ([1]), by decide +kernel⟩,
   ⟨(st { on with rte := { testers := [(3, 0xE80)], diag := [{ target := 0x10, tester := 3, func := false, phase := 1 }] } }), 0x10,
    ([1]), ({ target := 0x10, tester := 3, func := false, phase := 1 }), by decide +kernel⟩,
   ⟨(st { on with rte := { diag := [{ target := 0x10, tester := 3, func := false, phase := 1 }] } }), 0x10, ([1]),
    ({ target := 0x10, tester := 3, func := false, phase := 1 }), by decide +kernel⟩,
   ⟨(st { on with rte := { diag := [{ target := 0x10, tester := 3, func := false, phase := 1 }] } }), 0x10, true, by decide +kernel⟩,
   ⟨(st
    { cl (fun c => { c with tclk := 500000000 }) on with rte := { testers := [(3, 0xE80)], diag := [{ target := 0x10, tester := 3, func := false, phase := 1 }] } }),
    0x10, false, by decide +kernel⟩,
   ⟨(st { on with rte := { testers := [(3, 0xE80)] } }), 3, by decide +kernel⟩,
   ⟨(st {}), 3, 0x10, ([1]), true, by decide +kernel⟩⟩

theorem test_meets_MillPassesSignalsThroughItsCache :
    (∃ (s : State) (k : Nat) (it : LaneItem) (rest : List LaneItem), millRuns s.dev = true ∧ k < 8 ∧ s.dev.mil.split = false ∧ slotHeld
      s.dev 3 (0x20 + k) = true ∧ s.dev.mil.oos.contains (rtSrcPdu it.pkt.entry) = false ∧
      s.dev.mil.srcErr.contains (rtSrcPdu it.pkt.entry) = false ∧ mapGet? s.dev.mil.slices (sliceKey false k) = none ∧ (laneOf s.dev (144 + k)).items = it :: rest ∧ it.sent = true ∧ mapSorted s.dev.tally = true) ∧
    (∃ (s : State) (k r rd : Nat) (it : LaneItem) (rest : List LaneItem) (x : Place), millRuns s.dev = true ∧ k < 8 ∧ slotHeld s.dev 3
      (0x20 + k) = true ∧ s.dev.mil.oos.contains (rtSrcPdu it.pkt.entry) = false ∧
      s.dev.mil.srcErr.contains (rtSrcPdu it.pkt.entry) = false ∧ s.dev.mil.split = false ∧ mapSorted s.dev.mil.slices
      = true ∧ mapGet? s.dev.mil.slices (sliceKey false k) = none ∧ (laneOf s.dev (144 + k)).items = it :: rest ∧ it.sent = true ∧
      rtAuth it.pkt.entry = 0 ∧ srcRec s.dev (rtSrcPdu it.pkt.entry) = some r ∧ srcCount r = 1 ∧ (mapGet? s.dev.mil.cache (srcFirst r /
      2)).isSome = true ∧ lineLost s.dev (srcFirst r / 2) = false ∧ sgValid (entryNow s.dev (srcFirst r)) = true ∧ sgUbEn (entryNow
      s.dev (srcFirst r)) = false ∧ sgFilt (entryNow s.dev (srcFirst r)) = 0 ∧ sgExt (entryNow s.dev (srcFirst r)) = 0 ∧ pathFits
      (bitPath (sgBe (entryNow s.dev (srcFirst r))) (sgStart (entryNow s.dev (srcFirst r))) (sgLen (entryNow s.dev (srcFirst r))))
      it.pkt.data.length = true ∧ ownPlaces (entryNow s.dev (srcFirst r)) = [x] ∧ mapGet? s.dev.mil.desc x.pdu = some rd ∧ (dstOf s.dev
      x.pdu).oos = false ∧ pathFits (bitPath x.be x.pos (sgLen (entryNow s.dev (srcFirst r)))) (dsLen rd) = true) ∧
    (∃ (s : State) (l : Nat), millOn s.dev = true ∧ s.dev.mil.refills.contains l = true ∧ mapGet? s.dev.mil.wback l = none ∧
      s.dev.mil.slices = [] ∧ (setLines s.dev l).length < 4 - pinnedWays s.dev l) ∧
    (∃ (s : State) (l : Nat), millOn s.dev = true ∧ s.dev.mil.refills.contains l = true ∧ mapGet? s.dev.mil.wback l = none ∧
      s.dev.mil.slices = []) ∧
    (∃ (s : State) (l n : Nat) (a b : Bool) (c : List Nat), s.dev.mil.refills.contains l = false) ∧
    (∃ (s : State) (l : Nat) (c : CacheLine), millOn s.dev = true ∧ mapGet? s.dev.mil.wback l = some c ∧ mapSorted s.dev.mil.wback =
      true) :=
  ⟨⟨(st { on with lnd := { lanes := [(151, { items := [im0] })] }, whl := { owners := [(3, [0x27])] } }), 7, im0, ([]),
    by decide +kernel⟩,
   ⟨(st
    { on with img := { img0 with sigIdx := [(3, 2 ^ 36)] }, mil := { cache := [(0, { e0 := sent0, e1 := 0, dirty := false, used := 0 })], desc := [(0, 0)] }, lnd := { lanes := [(151, { items := [im0] })] } }),
    7, (2 ^ 36), 0, im0, ([]), (⟨0, 0, false⟩), by decide +kernel⟩,
   ⟨(st { on with mil := { refills := [8191] } }), 8191, by decide +kernel⟩,
   ⟨(st { on with mil := { refills := [8191] } }), 8191, by decide +kernel⟩,
   ⟨(st on), 0, 3, false, false, ([]), by decide +kernel⟩,
   ⟨(st { on with mil := { wback := [(5, { e0 := sent0, e1 := 0, dirty := true, used := 0 })] } }), 5,
    ({ e0 := sent0, e1 := 0, dirty := true, used := 0 }), by decide +kernel⟩⟩

theorem test_meets_MillDeadlinesAndEmissions :
    (∃ s : State, s.dev.clk.tclk - s.dev.mil.sweepAt < usCycles (max 1 (fld s.dev 0x600010 0 14))) ∧
    (∃ (s : State) (src t r : Nat), millRuns s.dev = true ∧ usCycles (max 1 (fld s.dev 0x600010 0 14)) ≤ s.dev.clk.tclk -
      s.dev.mil.sweepAt ∧ s.dev.mil.deadline = [(src, t)] ∧ srcRec s.dev src = some r ∧ src < fld s.dev 0x600014 0 17 ∧ srcToEn r = true
      ∧ srcToEvt r = true ∧ flag s.dev 0x600008 0 = true ∧ s.dev.mil.expired.contains src = false ∧ s.dev.mil.oos.contains src = false ∧
      s.dev.mil.srcErr.contains src = false ∧ deadlinePassed s.dev t = true) ∧
    (∃ (s : State) (src t r : Nat), millRuns s.dev = true ∧ usCycles (max 1 (fld s.dev 0x600010 0 14)) ≤ s.dev.clk.tclk -
      s.dev.mil.sweepAt ∧ s.dev.mil.deadline = [(src, t)] ∧ srcRec s.dev src = some r ∧ src < fld s.dev 0x600014 0 17 ∧
      s.dev.mil.oos.contains src = false ∧ s.dev.mil.srcErr = [src]) ∧
    (∃ s : State, milTicks s.dev < s.dev.mil.ticks + 1) ∧
    (∃ (s : State) (p r : Nat), millRuns s.dev = true ∧ s.dev.mil.ticks + 1 ≤ milTicks s.dev ∧ s.dev.mil.desc = [(p, r)] ∧ (dstOf s.dev
      p).start.isSome = true ∧ (dstOf s.dev p).oos = false ∧ s.dev.mil.due.contains p = false ∧ dueAt r (dstOf s.dev p) (s.dev.mil.ticks
      + 1) = (true, false, false)) ∧
    (∃ (s : State) (p r : Nat), millRuns s.dev = true ∧ mapGet? s.dev.mil.desc p = some r ∧ s.dev.mil.due.find? (fun q => match mapGet?
      s.dev.mil.desc q with | some t => emitterOf s.dev t == emitterOf s.dev r | none => false) = some p ∧ (dstOf s.dev p).oos = false ∧
      (dsForm r = 4 → dsL4 r = false) ∧ arrivalFull s.dev 9 = false) ∧
    (∃ (s : State) (p r : Nat), millRuns s.dev = true ∧ s.dev.mil.split = true ∧ mapGet? s.dev.mil.desc p = some r ∧ s.dev.mil.due.find?
      (fun q => match mapGet? s.dev.mil.desc q with | some t => emitterOf s.dev t == emitterOf s.dev r | none => false) = some p ∧
      (dstOf s.dev p).oos = false ∧ arrivalFull s.dev 9 = false) ∧
    (∃ (s : State) (p : Nat) (c : Bool), arrivalFull s.dev 9 = true) ∧
    (∃ (s : State) (p : Nat) (c : Bool), holdMode s.dev = true) :=
  ⟨⟨(st on), by decide +kernel⟩,
   ⟨(st
    { rg [(0x600008, 1), (0x600014, 4)] (cl (fun c => { c with tclk := 500 }) on) with img := { img0 with sigIdx := [(3, 2 ^ 65 + 2 ^ 82)] }, mil := { deadline := [(3, 0)] } }),
    3, 0, (2 ^ 65 + 2 ^ 82), by decide +kernel⟩,
   ⟨(st
    { rg [(0x600014, 4)] (cl (fun c => { c with tclk := 500 }) on) with img := { img0 with sigIdx := [(3, 2 ^ 65 + 2 ^ 82)] }, mil := { deadline := [(3, 0)], srcErr := [3] } }),
    3, 0, (2 ^ 65 + 2 ^ 82), by decide +kernel⟩,
   ⟨(st on), by decide +kernel⟩,
   ⟨(st
    { (cl (fun c => { c with tclk := 105000 }) on) with mil := { desc := [(7, 2 ^ 162 + 2 ^ 146)], ticks := 20, dst := [(7, { start := some 1 })] } }),
    7, (2 ^ 162 + 2 ^ 146), by decide +kernel⟩,
   ⟨(st { on with mil := { desc := [(7, 2 ^ 162 + 2 ^ 146)], due := [7], dst := [(7, { start := some 0 })] } }), 7, (2 ^ 162 + 2 ^ 146),
    by decide +kernel⟩,
   ⟨(st { on with mil := { desc := [(7, 2 ^ 162 + 2 ^ 146)], due := [7], split := true } }), 7, (2 ^ 162 + 2 ^ 146), by decide +kernel⟩,
   ⟨(st { on with rte := { lookup := [(9, [{ pkt := { pk0 with size := 16384 }, named := none, eth := false, ptype := 0 }])] } }), 7,
    false, by decide +kernel⟩,
   ⟨(st (dev0 .m6)), 7, true, by decide +kernel⟩⟩

theorem test_meets_SlowPartOfTheImageLoadsInOrder :
    (∃ (s : State) (b : Nat) (reads : List Bytes), b ≠ nextBlock s.dev) ∧
    (∃ (s : State) (b : Nat) (reads : List Bytes), millOn s.dev = true ∧ s.dev.img.pduOn = true ∧ b = nextBlock s.dev ∧ b <
      s.dev.img.blockDig.length ∧ 4 ≤ reads.length ∧ (∀ x ∈ reads.take 4, (x.length == blockLen s.dev b && sha384 x == nth []
      s.dev.img.blockDig b) = false)) ∧
    (∃ (s : State) (b : Nat) (reads : List Bytes), reads.length < 4 ∧ (∀ x ∈ reads, (x.length == blockLen s.dev b && sha384 x == nth []
      s.dev.img.blockDig b) = false)) ∧
    (∃ (s : State) (b : Nat) (x : Bytes) (rest : List Bytes), millOn s.dev = true ∧ s.dev.img.pduOn = true ∧ b = nextBlock s.dev ∧ b + 1
      = s.dev.img.blockDig.length ∧ x.length = blockLen s.dev b ∧ sha384 x = nth [] s.dev.img.blockDig b) ∧
    (∃ (s : State) (reads : List Bytes), millOn s.dev = true ∧ s.dev.img.pduOn = false ∧ s.dev.mil.pduBad = false ∧ s.dev.img.pduLen ≠ 0
      ∧ 4 ≤ reads.length ∧ (∀ x ∈ reads.take 4, (x.length == s.dev.img.pduLen && sha384 x == s.dev.img.pduDig) = false)) ∧
    (∃ (s : State) (x : Bytes) (rest : List Bytes), millOn s.dev = true ∧ s.dev.img.pduOn = false ∧ s.dev.mil.pduBad = false ∧ x.length
      = s.dev.img.pduLen ∧ s.dev.img.pduLen ≠ 0 ∧ sha384 x = s.dev.img.pduDig) :=
  ⟨⟨(st on), 1, ([]), by decide +kernel⟩,
   ⟨(st { on with img := { img0 with pduOn := true, blockDig := [[1]], sigLen := 4 } }), 0, ([[], [], [], []]), by decide +kernel⟩,
   ⟨(st { on with img := { img0 with pduOn := true, blockDig := [[1]], sigLen := 4 } }), 0, ([[], [], []]), by decide +kernel⟩,
   ⟨(st { on with img := { img0 with pduOn := true, blockDig := [sha384 [1, 2, 3, 4]], sigLen := 4 } }), 0, ([1, 2, 3, 4]), ([]), ⟨by
    decide +kernel, by decide +kernel, by decide +kernel, by decide +kernel, by decide +kernel, by simp [st, nth]⟩⟩,
   ⟨(st { on with img := { img0 with pduLen := 4, pduDig := [1] } }), ([[], [], [], []]), by decide +kernel⟩,
   ⟨(st { on with img := { img0 with pduLen := 4, pduDig := sha384 [1, 2, 3, 4] } }), ([1, 2, 3, 4]), ([]), ⟨by decide +kernel, by
    decide +kernel, by decide +kernel, by decide +kernel, by decide +kernel, by simp [st]⟩⟩⟩

theorem test_meets_TableWindowsShowTheirSelection :
    (∃ (s : State) (who : Initiator) (w : Word), MayWrite s.dev who 0x580050 ∧ mapSorted s.dev.regs = true) ∧
    (∃ (s : State) (who : Initiator) (w : Word), MayWrite s.dev who 0x600020 ∧ mapSorted s.dev.regs = true) ∧
    (∃ s : State, running s.dev = true ∧ bit s.dev.clk.islands 6 = true) ∧
    (∃ (s : State) (who : Initiator) (w : Word), MayWrite s.dev who 0x780040 ∧ mapSorted s.dev.regs = true) ∧
    (∃ s : State, cryOn s.dev = true) ∧
    (∃ s : State, bit s.dev.clk.islands 6 = false) ∧
    (∃ s : State, cryOn s.dev = false) :=
  ⟨⟨(st on), .eopod, 0x3FFFF1, by unfold MayWrite; decide +kernel⟩,
   ⟨(st on), .eopod, 0xFFFFFFFF, by unfold MayWrite; decide +kernel⟩,
   ⟨(st on), by decide +kernel⟩,
   ⟨(st on), .eopod, 0xFFFFFFFF, by unfold MayWrite; decide +kernel⟩,
   ⟨(st on), by decide +kernel⟩,
   ⟨(st (cl (fun c => { c with islands := 1 }) on)), by decide +kernel⟩,
   ⟨(st (cl (fun c => { c with islands := 1 }) on)), by decide +kernel⟩⟩

theorem test_meets_PagesTakeJobsAndCompleteThem :
    (∃ (s : State) (who : Initiator) (p : Nat) (w : Word), p < 128 ∧ MayWrite s.dev who (0x700000 + 0x1000 * p + 8) ∧ bit
      s.dev.clk.islands 7 = true ∧ ((pageOf s.dev p).tail + 32 - (pageOf s.dev p).head) % 32 ≤ (bits w.toNat 8 5 + 32 - (pageOf s.dev
      p).head) % 32) ∧
    (∃ (s : State) (who : Initiator) (p : Nat) (w : Word), p < 128 ∧ MayWrite s.dev who (0x700000 + 0x1000 * p + 8) ∧ (bits w.toNat 8 5
      + 32 - (pageOf s.dev p).head) % 32 < ((pageOf s.dev p).tail + 32 - (pageOf s.dev p).head) % 32) ∧
    (∃ (s : State) (who : Initiator) (p : Nat), p < 128 ∧ MayWrite s.dev who (0x700000 + 0x1000 * p) ∧ bit s.dev.clk.islands 7 = true) ∧
    (∃ (s : State) (q p : Nat) (j : Job), cryOn s.dev = true ∧ q < 16 ∧ frozen s.dev (sqTwin q) = false ∧ slotHeld s.dev 4 (0x30 + q) =
      true ∧ mapGet? s.dev.cry.cur q = some p ∧ sqOf s.dev p = q ∧ (pageOf s.dev p).job = some j ∧ j.ends = none ∧ j.done < jobSteps j ∧
      0 < (pageOf s.dev p).aborts) ∧
    (∃ (s : State) (p : Nat) (j : Job), cryOn s.dev = true ∧ p < 160 ∧ frozen s.dev (sqTwin (sqOf s.dev p)) = false ∧ (pageOf s.dev
      p).head ≠ (pageOf s.dev p).tail ∧ (pageOf s.dev p).job = some j ∧ j.ends = none ∧ jobSteps j ≤ j.done) ∧
    (∃ (s : State) (e q : Nat), cryOn s.dev = true ∧ e < 8 ∧ q < 16) ∧
    (∃ (s : State) (p q e : Nat), cryOn s.dev = false) :=
  ⟨⟨(st on), .eopod, 127, 0x1F00, by unfold MayWrite; decide +kernel⟩,
   ⟨(st { on with cry := { pages := [(127, { head := 2, tail := 5 })] } }), .eopod, 127, 0x300, by unfold MayWrite; decide +kernel⟩,
   ⟨(st { on with cry := { pages := [(127, { head := 2, tail := 5 })] } }), .eopod, 127, by unfold MayWrite; decide +kernel⟩,
   ⟨(st
    { rg [(0x7802FC, 15)] on with cry := { cur := [(15, 127)], pages := [(127, { head := 2, tail := 5, aborts := 1, job := some (job0 1 false) })] } }),
    15, 127, (job0 1 false), by decide +kernel⟩,
   ⟨(st { on with cry := { pages := [(159, { head := 2, tail := 5, job := some { job0 1 false with done := 1 } })] } }), 159,
    ({ job0 1 false with done := 1 }), by decide +kernel⟩,
   ⟨(st on), 7, 15, by decide +kernel⟩,
   ⟨(st (cl (fun c => { c with islands := 1 }) on)), 0, 0, 0, by decide +kernel⟩⟩

theorem test_meets_BlockOperationsRunOneBlockAtATime :
    (∃ (s : State) (p : Nat) (j : Job), JobRuns s.dev p j ∧ j.op = 1) ∧
    (∃ (s : State) (p : Nat) (j : Job), JobRuns s.dev p j ∧ j.op = 2) ∧
    (∃ (s : State) (p : Nat) (j : Job), JobRuns s.dev p j ∧ j.op = 3) ∧
    (∃ (s : State) (p : Nat) (j : Job), JobRuns s.dev p j ∧ j.op = 4) ∧
    (∃ (s : State) (p : Nat) (j : Job), JobRuns s.dev p j ∧ j.op = 6) ∧
    (∃ (s : State) (p : Nat) (j : Job), JobRuns s.dev p j ∧ j.op = 9) ∧
    (∃ (s t : State) (p n : Nat) (j : Job) (c : Nat → Instr), (c = Instr.enc p ∨ c = Instr.dec p ∨ c = Instr.gmul p ∨ c = Instr.ctrx p ∨
      c = Instr.gacc p ∨ c = Instr.macc p) ∧ JobRuns s.dev p j ∧ s.dev.cry.served.contains (sqOf s.dev p) = false ∧ exec (c 1) s = .next
      t) :=
  ⟨⟨(st (jr (job0 1 false))), 127, (job0 1 false), by unfold JobRuns; decide +kernel⟩,
   ⟨(st (jr (job0 2 false))), 127, (job0 2 false), by unfold JobRuns; decide +kernel⟩,
   ⟨(st (jr (job0 3 false))), 127, (job0 3 false), by unfold JobRuns; decide +kernel⟩,
   ⟨(st (jr (job0 4 false))), 127, (job0 4 false), by unfold JobRuns; decide +kernel⟩,
   ⟨(st (jr (job0 6 false))), 127, (job0 6 false), by unfold JobRuns; decide +kernel⟩,
   ⟨(st (jr (job0 9 false))), 127, (job0 9 false), by unfold JobRuns; decide +kernel⟩,
   ⟨(st (jr (job0 3 false))), _, 127, 1, (job0 3 false), (Instr.gmul 127), ⟨.inr (.inr (.inl rfl)), by unfold JobRuns; decide +kernel,
    by decide +kernel, rfl⟩⟩⟩

theorem test_meets_SubkeyAndTagOperations :
    (∃ (s : State) (p : Nat) (j : Job), JobRuns s.dev p j ∧ j.op = 5) ∧
    (∃ (s : State) (p : Nat) (j : Job), JobRuns s.dev p j ∧ j.op = 8) ∧
    (∃ (s : State) (p : Nat) (j : Job), JobRuns s.dev p j ∧ j.op = 7 ∧ j.verify = false) ∧
    (∃ (s : State) (p : Nat) (j : Job), JobRuns s.dev p j ∧ j.op = 7 ∧ j.verify = true) ∧
    (∃ (s : State) (p : Nat) (j : Job), JobRuns s.dev p j ∧ j.op = 10 ∧ j.verify = false) ∧
    (∃ (s : State) (p : Nat) (j : Job), JobRuns s.dev p j ∧ j.op = 10 ∧ j.verify = true) :=
  ⟨⟨(st (jr (job0 5 false))), 127, (job0 5 false), by unfold JobRuns; decide +kernel⟩,
   ⟨(st (jr (job0 8 false))), 127, (job0 8 false), by unfold JobRuns; decide +kernel⟩,
   ⟨(st (jr (job0 7 false))), 127, (job0 7 false), by unfold JobRuns; decide +kernel⟩,
   ⟨(st (jr (job0 7 true))), 127, (job0 7 true), by unfold JobRuns; decide +kernel⟩,
   ⟨(st (jr (job0 10 false))), 127, (job0 10 false), by unfold JobRuns; decide +kernel⟩,
   ⟨(st (jr (job0 10 true))), 127, (job0 10 true), by unfold JobRuns; decide +kernel⟩⟩

theorem test_meets_WholeModesRunInOneStep :
    (∃ (s : State) (p : Nat) (j : Job), JobRuns s.dev p j ∧ s.dev.cry.progs = true ∧ j.op = 16) ∧
    (∃ (s : State) (p : Nat) (j : Job), JobRuns s.dev p j ∧ s.dev.cry.progs = true ∧ j.op = 17) ∧
    (∃ (s : State) (p : Nat) (j : Job), JobRuns s.dev p j ∧ s.dev.cry.progs = true ∧ j.op = 18) ∧
    (∃ (s : State) (p : Nat) (j : Job), JobRuns s.dev p j ∧ s.dev.cry.progs = true ∧ j.op = 19) ∧
    (∃ (s : State) (p : Nat) (j : Job), JobRuns s.dev p j ∧ s.dev.cry.progs = true ∧ j.op = 20) ∧
    (∃ (s : State) (p : Nat) (j : Job), JobRuns s.dev p j ∧ s.dev.cry.progs = true ∧ j.op = 21) ∧
    (∃ (s : State) (p : Nat) (j : Job), JobRuns s.dev p j ∧ s.dev.cry.progs = true ∧ j.op = 22) ∧
    (∃ (s : State) (p : Nat) (c : Instr), s.dev.cry.progs = false ∧ (c = .ctr p ∨ c = .cbcEnc p ∨ c = .cbcDec p ∨ c = .cmacGen p ∨ c =
      .cmacVer p ∨ c = .gcmSeal p ∨ c = .gcmOpen p)) :=
  ⟨⟨(st (jr (job0 16 false))), 127, (job0 16 false), by unfold JobRuns; decide +kernel⟩,
   ⟨(st (jr (job0 17 false))), 127, (job0 17 false), by unfold JobRuns; decide +kernel⟩,
   ⟨(st (jr (job0 18 false))), 127, (job0 18 false), by unfold JobRuns; decide +kernel⟩,
   ⟨(st (jr (job0 19 false))), 127, (job0 19 false), by unfold JobRuns; decide +kernel⟩,
   ⟨(st (jr (job0 20 false))), 127, (job0 20 false), by unfold JobRuns; decide +kernel⟩,
   ⟨(st (jr (job0 21 false))), 127, (job0 21 false), by unfold JobRuns; decide +kernel⟩,
   ⟨(st (jr (job0 22 false))), 127, (job0 22 false), by unfold JobRuns; decide +kernel⟩,
   ⟨(st { jr (job0 21 false) with cry := {} }), 127, (.gcmOpen 127), by decide +kernel⟩⟩

theorem test_meets_AuthenticationJobsAndFreshness :
    (∃ (s : State) (q : Nat) (it : LaneItem) (hdr pay : Bytes) (t tag : Nat) (x : Dest) (xs : List Dest), cryOn s.dev = true ∧ q < 16 ∧
      frozen s.dev (sqTwin q) = false ∧ slotHeld s.dev 4 (0x30 + q) = true ∧ arrivalFull s.dev 8 = false ∧ (laneOf s.dev (128 +
      q)).items.find? (fun i => i.sent) = some it ∧ rtAuth it.pkt.entry = 1 ∧ it.pkt.plan = x :: xs ∧ s.dev.cry.locked = false ∧
      keyStatus s.dev (apKey (authRec s.dev (rtAuthProf it.pkt.entry))) 0 8 = 0 ∧ authParts (authRec s.dev (rtAuthProf it.pkt.entry))
      it.pkt.data = some (hdr, pay, t, tag) ∧ (freshOf s.dev (rtAuthProf it.pkt.entry)).val < candidate (authRec s.dev (rtAuthProf
      it.pkt.entry)) (freshOf s.dev (rtAuthProf it.pkt.entry)).val t ∧ candidate (authRec s.dev (rtAuthProf it.pkt.entry)) (freshOf
      s.dev (rtAuthProf it.pkt.entry)).val t ≤ (freshOf s.dev (rtAuthProf it.pkt.entry)).val + apWindow (authRec s.dev (rtAuthProf
      it.pkt.entry)) ∧ candidate (authRec s.dev (rtAuthProf it.pkt.entry)) (freshOf s.dev (rtAuthProf it.pkt.entry)).val t < 2 ^ 64) ∧
    (∃ (s : State) (q fv : Nat) (it : LaneItem) (x : Dest) (xs : List Dest), cryOn s.dev = true ∧ q < 16 ∧ frozen s.dev (sqTwin q) =
      false ∧ slotHeld s.dev 4 (0x30 + q) = true ∧ arrivalFull s.dev 8 = false ∧ (laneOf s.dev (128 + q)).items.find? (fun i => i.sent)
      = some it ∧ rtAuth it.pkt.entry = 3 ∧ it.pkt.plan = x :: xs ∧ s.dev.cry.locked = false ∧ keyStatus s.dev (apKey (authRec s.dev
      (rtAuthProf it.pkt.entry))) 0 4 = 0 ∧ freshNext (freshOf s.dev (rtAuthProf it.pkt.entry)) = .use fv) ∧
    (∃ (s : State) (q fv : Nat) (it : LaneItem) (x : Dest) (xs : List Dest), cryOn s.dev = true ∧ q < 16 ∧ frozen s.dev (sqTwin q) =
      false ∧ slotHeld s.dev 4 (0x30 + q) = true ∧ arrivalFull s.dev 8 = false ∧ (laneOf s.dev (128 + q)).items.find? (fun i => i.sent)
      = some it ∧ rtAuth it.pkt.entry = 4 ∧ it.pkt.plan = x :: xs ∧ apPair (authRec s.dev (rtAuthProf it.pkt.entry)) ≠ rtAuthProf
      it.pkt.entry ∧ keyStatus s.dev (apKey (authRec s.dev (apPair (authRec s.dev (rtAuthProf it.pkt.entry))))) 0 4 = 0 ∧ freshNext
      (freshOf s.dev (apPair (authRec s.dev (rtAuthProf it.pkt.entry)))) = .use fv) ∧
    (∃ (s : State) (p : Nat) (res : FlashRes), ckptDue s.dev p = false) ∧
    (∃ (s : State) (p : Nat), ckptMay s.dev = true ∧ ckptDue s.dev p = true ∧ s.dev.store.freshRo = false ∧ s.dev.store.fill < 127 ∧
      s.dev.store.ring ≠ 0) ∧
    (∃ s : State, ckptMay s.dev = true ∧ allAsleep s.dev = true ∧ s.dev.store.freshRo = false) ∧
    (∃ s : State, allAsleep s.dev = false) :=
  ⟨⟨(st (au0 1 24 [1, 2, 5, 0xAA, 0xBB, 0xCC])), 15, ({ it0 (pa0 1 [1, 2, 5, 0xAA, 0xBB, 0xCC]) 0 with sent := true }), ([]), ([1, 2]),
    5, 0xAABBCC, (ds0 (qCan 23 3)), ([]), by decide +kernel⟩,
   ⟨(st (au0 3 24 [1, 2])), 15, 1, ({ it0 (pa0 3 [1, 2]) 0 with sent := true }), (ds0 (qCan 23 3)), ([]), by decide +kernel⟩,
   ⟨(st (au0 4 0 [1, 2, 5])), 15, 1, ({ it0 (pa0 4 [1, 2, 5]) 0 with sent := true }), (ds0 (qCan 23 3)), ([]), by decide +kernel⟩,
   ⟨(st on), 7, .ok, by decide +kernel⟩,
   ⟨(st { on with kvt := { slots := [(1, ks 0 0 0)] }, cry := { fresh := [(7, { advances := 65536 })] }, store := { ring := 1 } }), 7,
    by decide +kernel⟩,
   ⟨(st { on with kvt := { slots := [(1, ks 0 0 0)] } }), by decide +kernel⟩,
   ⟨(st (cluster0 { st := 1 } on)), by decide +kernel⟩⟩

theorem test_meets_MacsecChecksAndProtects :
    (∃ (s : State) (p : Nat) (f : Bytes), msEn s.dev p = true ∧ ethLive s.dev p = true ∧ cryOn s.dev = true ∧ (ethOf s.dev p).st = 3 ∧
      ethReject s.dev p f false = none ∧ isMacCtl (f.take (f.length - 4)) = false) ∧
    (∃ (s : State) (p : Nat) (f : Bytes), msEn s.dev p = false) ∧
    (∃ (s : State) (p : Nat) (a : Sa) (key : Bytes), msEn s.dev p = true ∧ ethLive s.dev p = true ∧ cryOn s.dev = true ∧ startReady
      s.dev (stagedItems s.dev p) = true ∧ (ethOf s.dev p).prot = none ∧ txSaNow s.dev p = some a ∧ saKey s.dev a = some key) ∧
    (∃ (s : State) (p : Nat) (a : SakArgs), p < 8 ∧ cryOn s.dev = true ∧ svcUp s.dev 2 = true ∧ s.dev.kvt.locked = false ∧ 2 ≤ a.slot ∧
      a.slot < 4096 ∧ (slotOf s.dev a.slot).full = false ∧ (slotOf s.dev a.slot).retired = false ∧ a.tx = true) ∧
    (∃ (s : State) (p : Nat) (a : SakArgs), s.dev.kvt.locked = true) :=
  ⟨⟨(st (ms7 on)), 7, eb0, by decide +kernel⟩,
   ⟨(st on), 8, eb0, by decide +kernel⟩,
   ⟨(st
    { ms7 on with kvt := { slots := [(5, ks 0x3F 1 0)] }, cry := { txSa := [(14, sa0)] }, lnd := { lanes := [(55, { items := [it0 pe0 (qEth 7 0)] })] } }),
    7, sa0, (keyBytes (ks 0x3F 1 0)), by decide +kernel⟩,
   ⟨(st on), 7,
    ({ tx := true, sc := 0, an := 3, slot := 4095, sak := key5, sci := 1, ssci := 2, salt := zeros 12, pn := 1, suite := 0 }),
    by decide +kernel⟩,
   ⟨(st { on with kvt := { locked := true } }), 7,
    ({ tx := true, sc := 0, an := 3, slot := 4095, sak := key5, sci := 1, ssci := 2, salt := zeros 12, pn := 1, suite := 0 }),
    by decide +kernel⟩⟩

theorem test_meets_VaultCommandsKeepTheKeyTree :
    (∃ (s : State) (who : Initiator), KvtTakes s.dev who ∧ childStatus s.dev who (kvtArg s.dev who 0) (kvtArg s.dev who 1) 4 = 0) ∧
    (∃ (s : State) (who : Initiator), KvtTakes s.dev who ∧ childStatus s.dev who (kvtArg s.dev who 0) (kvtArg s.dev who 1) 4 ≠ 0) ∧
    (∃ (s : State) (who : Initiator), KvtTakes s.dev who ∧ childStatus s.dev who (kvtArg s.dev who 0) (kvtArg s.dev who 1) 5 = 0) ∧
    (∃ (s : State) (who : Initiator), KvtTakes s.dev who ∧ handleLive s.dev (kvtArg s.dev who 0) = true ∧ kvtMay s.dev who (slotOf s.dev
      (hSlot (kvtArg s.dev who 0))).domain = true) ∧
    (∃ (s : State) (who : Initiator) (b : Bytes), KvtTakes s.dev who) ∧
    (∃ (s : State) (who : Initiator), KvtTakes s.dev who ∧ leAt (kvtBuf s.dev who 0 256) 33 1 = 0) ∧
    (∃ (s : State) (who : Initiator) (sl q n : Nat), KvtTakes s.dev who ∧ persSlot s.dev (bits (kvtArg s.dev who 1) 0 8) = some (sl, q)
      ∧ n = (match latestRec s.dev (bits (kvtArg s.dev who 1) 0 8) with | some r => r.seq | none => q) + 1 ∧ n < 2 ^ 32 ∧ kvtLive s.dev
      (kvtArg s.dev who 0) = true ∧ kvtMay s.dev who (slotOf s.dev (hSlot (kvtArg s.dev who 0))).domain = true ∧ kvtMay s.dev who
      (slotOf s.dev sl).domain = true ∧ bit (slotOf s.dev (hSlot (kvtArg s.dev who 0))).usage 5 = true ∧ (slotOf s.dev (hSlot (kvtArg
      s.dev who 0))).ktype = 2 ∧ hasChild s.dev sl = false ∧ s.dev.store.keyRo = false) ∧
    (∃ (s : State) (x : Swap) (q : Nat), running s.dev = true ∧ s.dev.kvt.swap = some x ∧ s.dev.kvt.wait = [] ∧ (slotOf s.dev
      x.slot).full = true ∧ (slotOf s.dev x.slot).pers = some (x.id, q)) ∧
    (∃ s : State, s.dev.kvt.swap = none) ∧
    (∃ (s : State) (who : Initiator) (x : Swap), MayWrite s.dev who 0x7C0004 ∧ s.dev.kvt.swap = some x ∧ x.who ≠ who ∧ s.dev.kvt.wait =
      []) ∧
    (∃ (s : State) (l : Nat) (rest : List Nat), running s.dev = true ∧ s.dev.store.erase = l :: rest ∧ secRo s.dev l = false) :=
  ⟨⟨(st (kv [(kk 0, 0x1005), (kk 1, 0x101000A)] on)), .eopod, by unfold KvtTakes MayWrite; decide +kernel⟩,
   ⟨(st (kv [(kk 0, 0x1006), (kk 1, 0x101000A)] on)), .eopod, by unfold KvtTakes MayWrite; decide +kernel⟩,
   ⟨(st (kv ([(kk 0, 0x1005), (kk 1, 0x101000A)] ++ kb blob0) on)), .eopod, by unfold KvtTakes MayWrite; decide +kernel⟩,
   ⟨(st (kv [(kk 0, 0x1005)] on)), .eopod, by unfold KvtTakes MayWrite; decide +kernel⟩,
   ⟨(st (kv [] on)), .eopod, ([1]), by unfold KvtTakes MayWrite; decide +kernel⟩,
   ⟨(st (kv [] on)), .eopod, by unfold KvtTakes MayWrite; decide +kernel⟩,
   ⟨(st kr0), .eopod, 6, 9, 10, by unfold KvtTakes MayWrite; decide +kernel⟩,
   ⟨(st
    { on with kvt := { slots := [(5, { ks 0 0 0 with pers := some (7, 9) })], swap := some { who := .eopod, id := 7, slot := 5, seq := 10, mat := key5, ktype := 0, pos := 1 } } }),
    ({ who := .eopod, id := 7, slot := 5, seq := 10, mat := key5, ktype := 0, pos := 1 }), 9, by decide +kernel⟩,
   ⟨(st on), by decide +kernel⟩,
   ⟨(st { on with kvt := { swap := some { who := .jtag, id := 7, slot := 5, seq := 10, mat := key5, ktype := 0, pos := 1 } } }), .eopod,
    ({ who := .jtag, id := 7, slot := 5, seq := 10, mat := key5, ktype := 0, pos := 1 }), by unfold MayWrite; decide +kernel⟩,
   ⟨(st { on with store := { erase := [3, 4] } }), 3, ([4]), by decide +kernel⟩⟩

theorem test_meets_AlarmErasesEveryKey :
    (∃ (s : State) (src : Nat), outOfReset s.dev = true ∧ alarmTrips s.dev src = true) ∧
    (∃ (s : State) (src : Nat), (outOfReset s.dev = false ∨ alarmTrips s.dev src = false)) ∧
    (∃ (s : State) (m : Mismatch), twinLocked s.dev 31 = true) :=
  ⟨⟨(st on), 5, by decide +kernel⟩,
   ⟨(st on), 6, by decide +kernel⟩,
   ⟨(st on), ({ rail := false, evMain := true, evChecker := true, undoEntries := 0 }), by decide +kernel⟩⟩

theorem test_meets_TwinsFreezeReplayAndResume :
    (∃ (s : State) (t : Nat) (m : Mismatch), t ≠ 31 ∧ twinLocked s.dev t = true ∧ (twinOf s.dev t).phase = 0) ∧
    (∃ (s : State) (t ch b : Nat) (m : Mismatch) (x : XbFrame), twinLocked s.dev t = true ∧ (twinOf s.dev t).phase = 0 ∧ ((t = 0 ∧ ch <
      24) ∨ (6 ≤ t ∧ t ≤ 9 ∧ ch / 6 = t - 6))) ∧
    (∃ (s : State) (t : Nat) (m : Mismatch), 6 ≤ t ∧ t ≤ 9 ∧ twinLocked s.dev t = true ∧ (twinOf s.dev t).phase = 0 ∧ (window s.dev
      (twinOf s.dev t)).length < 2) ∧
    (∃ (s : State) (t : Nat) (m : Mismatch), t ≠ 31 ∧ t ≠ 0 ∧ (t < 6 ∨ 9 < t) ∧ twinLocked s.dev t = true ∧ (twinOf s.dev t).phase = 0 ∧
      (window s.dev (twinOf s.dev t)).length < 2) ∧
    (∃ (s : State) (t : Nat) (m : Mismatch), twinLocked s.dev t = false) ∧
    (∃ (s : State) (t : Nat), running s.dev = true ∧ (twinOf s.dev t).phase = 1) ∧
    (∃ (s : State) (t : Nat), running s.dev = true ∧ (twinOf s.dev t).phase = 2 ∧ twinDegraded s.dev t = false) ∧
    (∃ (s : State) (t n : Nat), running s.dev = true ∧ t ≠ 0 ∧ (twinOf s.dev t).flight.contains n = true) ∧
    (∃ (s : State) (t n : Nat), (twinOf s.dev t).flight.contains n = false) ∧
    (∃ (s : State) (x : Nat × Nat × Nat) (o p : Bool), running s.dev = true ∧ s.dev.flt.degraded = some x ∧ o || p) ∧
    (∃ (s : State) (p : Nat), running s.dev = true ∧ p < 4 ∧ s.dev.flt.scDown.contains p = false) ∧
    (∃ (s : State) (p : Nat), s.dev.flt.scDown.contains p = true) ∧
    (∃ s : State, running s.dev = true ∧ s.dev.flt.rail = false) :=
  ⟨⟨(st on), 30, mm0, by decide +kernel⟩,
   ⟨(st on), 9, 23, 2, mm0, (xb1 id), by decide +kernel⟩,
   ⟨(st on), 9, mm0, by decide +kernel⟩,
   ⟨(st on), 30, mm0, by decide +kernel⟩,
   ⟨(st { on with flt := { degraded := some (30, 0, 0) } }), 30, mm0, by decide +kernel⟩,
   ⟨(st (tw1 30 { phase := 1 })), 30, by decide +kernel⟩,
   ⟨(st (tw1 30 { phase := 2 })), 30, by decide +kernel⟩,
   ⟨(st (tw1 30 { flight := [4, 5] })), 30, 4, by decide +kernel⟩,
   ⟨(st (tw1 30 { flight := [4, 5] })), 30, 6, by decide +kernel⟩,
   ⟨(st { on with flt := { degraded := some (30, 0, 0) } }), ((30, 0, 0)), false, true, by decide +kernel⟩,
   ⟨(st on), 3, by decide +kernel⟩,
   ⟨(st { on with flt := { scDown := [2] } }), 2, by decide +kernel⟩,
   ⟨(st on), by decide +kernel⟩⟩

theorem test_meets_ClustersWakeAndRepeat :
    (∃ (s : State) (c : Nat) (n : NmPort) (b : Bytes), nmArrives s.dev c n = true ∧ b.length < lyLen (nmLay s.dev c)) ∧
    (∃ (s : State) (c : Nat) (n : NmPort) (b : Bytes), nmArrives s.dev c n = true ∧ lyLen (nmLay s.dev c) ≤ b.length ∧ nmRelevant s.dev
      c b = false) ∧
    (∃ (s : State) (c : Nat) (n : NmPort) (b : Bytes), nmArrives s.dev c n = false) ∧
    (∃ (s : State) (c : Nat) (n : NmPort) (b : Bytes), nmArrives s.dev c n = true ∧ lyLen (nmLay s.dev c) ≤ b.length ∧ nmRelevant s.dev
      c b = true ∧ holdMode s.dev = false ∧ ((clusterOf s.dev c).st = 0 ∨ (clusterOf s.dev c).st = 1 ∨ (clusterOf s.dev c).st = 5)) ∧
    (∃ (s : State) (c : Nat) (n : NmPort) (b : Bytes), c < 32 ∧ nmArrives s.dev c n = true ∧ lyLen (nmLay s.dev c) ≤ b.length ∧
      nmRelevant s.dev c b = true ∧ holdMode s.dev = false ∧ (clusterOf s.dev c).st = 4 ∧ cbvBit (nmLay s.dev c) (lyRmr (nmLay s.dev c))
      b = false ∧ localNeed s.dev c = false) ∧
    (∃ (s : State) (who : Initiator) (c : Nat) (w : Word), c < 32 ∧ MayWrite s.dev who (nmcBase c + 4) ∧ mapSorted s.dev.regs = true ∧
      bit w.toNat 0 = true ∧ holdMode s.dev = false ∧ s.dev.clk.routing = true ∧ nmTakesPart s.dev c = true ∧ (clusterOf s.dev c).st = 0) ∧
    (∃ (s : State) (c t : Nat), running s.dev = true ∧ s.dev.clk.routing = true ∧ nmTakesPart s.dev c = true ∧ holdMode s.dev = false ∧
      (clusterOf s.dev c).st = 3 ∧ (clusterOf s.dev c).kaT0 = some t ∧ t + msCycles (clusterOf s.dev c).kaLen ≤ s.dev.clk.tclk ∧ svcUp
      s.dev 0 = true) ∧
    (∃ (s : State) (c : Nat), nmTimes s.dev c = true ∧ (clusterOf s.dev c).st = 2 ∧ nmElapsed s.dev c = true) ∧
    (∃ (s : State) (c : Nat), nmTimes s.dev c = true ∧ nmElapsed s.dev c = false) :=
  ⟨⟨(st (nm0 0x800 {})), 0, (.can 0 0), ([1, 2, 3, 4, 5, 6, 7]), by decide +kernel⟩,
   ⟨(st (nm0 (2 ^ 64 + 0x100) {})), 0, (.can 0 0), ([1]), by decide +kernel⟩,
   ⟨(st (nm0 0x800 {})), 0, (.can 0 1), ([]), by decide +kernel⟩,
   ⟨(st (nm0 0 { st := 5 })), 0, (.can 0 0), ([]), by decide +kernel⟩,
   ⟨(st (nm0 0 { st := 4 })), 0, (.can 0 0), ([]), by decide +kernel⟩,
   ⟨(st (nm0 0 {})), .eopod, 0, 1, by unfold MayWrite; decide +kernel⟩,
   ⟨(st (nm0 0 { st := 3, kaT0 := some 0 })), 0, 0, by decide +kernel⟩,
   ⟨(st (nm0 0 { st := 2 })), 0, by decide +kernel⟩,
   ⟨(st (nm0 0 { st := 2, len := 1 })), 0, by decide +kernel⟩⟩

theorem test_meets_ClustersFallAsleep :
    (∃ (s : State) (c : Nat), nmTimes s.dev c = true ∧ (clusterOf s.dev c).st = 4 ∧ nmElapsed s.dev c = true) ∧
    (∃ (s : State) (c : Nat), nmTimes s.dev c = true ∧ (clusterOf s.dev c).st = 5 ∧ nmElapsed s.dev c = true) ∧
    (∃ (s : State) (c : Nat), nmTimes s.dev c = true ∧ (clusterOf s.dev c).st = 5 ∧ (clusterOf s.dev c).waited = true ∧ svcUp s.dev 0 =
      true) ∧
    (∃ (s : State) (c : Nat), (clusterOf s.dev c).waited = false) ∧
    (∃ (s : State) (c : Nat), nmTimes s.dev c = true ∧ (clusterOf s.dev c).st = 6 ∧ (clusterOf s.dev c).rewake = none ∧ localNeed s.dev
      c = false ∧ (∀ ch ∈ nmCans s.dev c, onBus (canOf s.dev ch) = none) ∧ (∀ p ∈ tc10Ports s.dev c, (ethOf s.dev p).st = 4)) ∧
    (∃ (s : State) (c : Nat), nmTimes s.dev c = true ∧ (clusterOf s.dev c).st = 6 ∧ (clusterOf s.dev c).rewake = none ∧ localNeed s.dev
      c = false ∧ nmElapsed s.dev c = true ∧ (∀ p ∈ tc10Ports s.dev c, (ethOf s.dev p).st = 4)) ∧
    (∃ (s : State) (c p : Nat), nmTimes s.dev c = true ∧ (clusterOf s.dev c).st = 6 ∧ nmElapsed s.dev c = true ∧ tc10Ports s.dev c = [p]
      ∧ (ethOf s.dev p).st = 2) ∧
    (∃ (s : State) (c : Nat), nmTimes s.dev c = true ∧ (clusterOf s.dev c).st = 1 ∧ nmElapsed s.dev c = true) :=
  ⟨⟨(st (nm0 0 { st := 4 })), 0, by decide +kernel⟩,
   ⟨(st (nm0 0 { st := 5 })), 0, by decide +kernel⟩,
   ⟨(st (nm0 0 { st := 5, waited := true })), 0, by decide +kernel⟩,
   ⟨(st (nm0 0 { st := 5 })), 0, by decide +kernel⟩,
   ⟨(st (nm0 0 { st := 6, len := 1 })), 0, by decide +kernel⟩,
   ⟨(st (nm0 0 { st := 6 })), 0, by decide +kernel⟩,
   ⟨(st (eth1 7 { st := 2 } (rg [(nmcBase 0 + 12, 0x80), (ethBase 7 + 0x20, 1)] (nm0 0 { st := 6 })))), 0, 7, by decide +kernel⟩,
   ⟨(st (nm0 0 { st := 1 })), 0, by decide +kernel⟩⟩

theorem test_meets_NetworkTimersOutsideTheClusters :
    (∃ (s : State) (p : Nat), running s.dev = true ∧ holdMode s.dev = false) ∧
    (∃ (s : State) (c t : Nat) (x : Charge), nmTimes s.dev c = true ∧ 0 < bits (nmReg s.dev c 0x28) 0 16 ∧ svcUp s.dev 0 = true ∧
      (clusterOf s.dev c).offT0 = some t ∧ t + secCycles * bits (nmReg s.dev c 0x28) 0 16 ≤ s.dev.clk.tclk ∧ (clusterOf s.dev c).charges
      = [x] ∧ s.dev.nmc.log = []) ∧
    (∃ (s : State) (j t : Nat), mapGet? s.dev.nmc.inhHold j = some t ∧ mapSorted s.dev.nmc.inhHold = true ∧ t + msCycles (fld s.dev
      (0x7E0200 + 8 * j) 16 16) ≤ s.dev.clk.tclk) ∧
    (∃ (s : State) (j : Nat), mapGet? s.dev.nmc.inhHold j = none) ∧
    (∃ s : State, running s.dev = true ∧ s.dev.clk.routing = true ∧ s.dev.clk.routingAt + msCycles (fld s.dev 0x7E0008 0 16) ≤
      s.dev.clk.tclk) ∧
    (∃ s : State, s.dev.clk.tclk < s.dev.clk.routingAt + msCycles (fld s.dev 0x7E0008 0 16)) ∧
    (∃ (s : State) (g r : Nat), (roleRecs s.dev 7).find? (fun r => pnGpio r == some g) = some r ∧ running s.dev = true ∧
      s.dev.clk.pinsOn = true ∧ bits r 23 4 < 8 ∧ flag s.dev (ethBase (bits r 23 4) + 0x20) 0 = true ∧ ethCluster s.dev (bits r 23 4) =
      none) ∧
    (∃ (s : State) (g : Nat), (roleRecs s.dev 7).find? (fun r => pnGpio r == some g) = none) :=
  ⟨⟨(st on), 63, by decide +kernel⟩,
   ⟨(st (rg [(nmcBase 0 + 0x28, 1)] (cl (fun c => { c with tclk := 500000000 }) (nm0 0
    { offT0 := some 0, charges := [⟨false, 0, 3, 4, 5⟩] })))), 0, 0, (⟨false, 0, 3, 4, 5⟩), by decide +kernel⟩,
   ⟨(st { on with nmc := { inhHold := [(7, 0)] } }), 7, 0, by decide +kernel⟩,
   ⟨(st on), 7, by decide +kernel⟩,
   ⟨(st on), by decide +kernel⟩,
   ⟨(st (rg [(0x7E0008, 1)] on)), by decide +kernel⟩,
   ⟨(st (rg [(ethBase 7 + 0x20, 1)] { cl (fun c => { c with pinsOn := true }) on with img := { img0 with pins := [0x3801C61] } })), 1,
    0x3801C61, by decide +kernel⟩,
   ⟨(st on), 23, by decide +kernel⟩⟩

theorem test_meets_HostQueuesMoveFramesBothWays :
    (∃ (s : State) (e : Nat), running s.dev = true ∧ e < 2 ∧ (epOf s.dev e).up = false) ∧
    (∃ (s : State) (e : Nat), running s.dev = true ∧ e < 2 ∧ (epOf s.dev e).up = true ∧ mapSorted s.dev.lnd.waiting = true) ∧
    (∃ (s : State) (e : Nat), (epOf s.dev e).up = false) ∧
    (∃ (s : State) (who : Initiator) (e t : Nat) (w : Word), endpointOf who = some e ∧ t < 16 ∧ MayWrite s.dev who (0x840004 + 0x40 * t)
      ∧ mapSorted s.dev.regs = true ∧ txUsed s.dev e t + (bits w.toNat 0 15 + 32768 - txTail s.dev e t) % 32768 < 32768) ∧
    (∃ (s : State) (e t : Nat) (x : TxDesc), running s.dev = true ∧ e < 2 ∧ t < 16 ∧ (epOf s.dev e).up = true ∧ s.dev.clk.ingress = true
      ∧ bit (tqReg s.dev e t 0) 0 = true ∧ txRingFree s.dev e t = true ∧ txBusy s.dev e t = false ∧ (txOf s.dev e t).skip = 0 ∧ (txOf
      s.dev e t).tso = none ∧ txWaits (txOf s.dev e t) = false ∧ x = txDesc (ringBytes (txOf s.dev e t) (txOf s.dev e t).head 32) ∧
      badRecord s.dev x = false ∧ x.tso = false ∧ x.path = false ∧ 32 + x.padded ≤ txAvail s.dev e t ∧ arrivalFull s.dev (4 + e) = false
      ∧ s.dev.brg.wait = []) ∧
    (∃ (s : State) (e t : Nat) (x : TxDesc), arrivalFull s.dev (4 + e) = true ∧ s.dev.brg.wait = [] ∧ (txOf s.dev e t).skip = 0 ∧ (txOf
      s.dev e t).tso = none ∧ x = txDesc (ringBytes (txOf s.dev e t) (txOf s.dev e t).head 32) ∧ badRecord s.dev x = false ∧ x.tso =
      false) ∧
    (∃ (s : State) (who : Initiator) (e off : Nat) (w : Word) (l : Loc), endpointOf who = some e ∧ MayWrite s.dev who off ∧ locate off =
      some l ∧ l.blk = .txWin ∧ absent s.dev l = false ∧ txOverrun s.dev e l.inst l.rel = true) ∧
    (∃ (s : State) (e t : Nat) (c : TxComp) (rest : List TxComp), running s.dev = true ∧ e < 2 ∧ (epOf s.dev e).up = true ∧ (epOf s.dev
      e).bme = true ∧ txRingFree s.dev e t = true ∧ (txOf s.dev e t).comps = c :: rest ∧ c.wait = false ∧ c.frame = none) ∧
    (∃ (s : State) (who : Initiator) (e r : Nat) (w : Word), endpointOf who = some e ∧ r < 64 ∧ MayWrite s.dev who (0x810004 + 0x40 * r)
      ∧ mapSorted s.dev.regs = true) ∧
    (∃ (s : State) (e r : Nat) (it : LaneItem), running s.dev = true ∧ e < 2 ∧ r < 64 ∧ (laneOf s.dev (16 * (4 + e) + r %
      4)).items.find? (fun i => i.dest.q == qHost e r && i.got == i.n) = some it ∧ rxReady s.dev e r (hostBytes it.pkt it.ecn).length =
      true ∧ outFrozen s.dev 0 = false) ∧
    (∃ (s : State) (e q : Nat), running s.dev = true ∧ e < 2 ∧ (epOf s.dev e).up = true ∧ (epOf s.dev e).bme = true ∧ bit (msixWord
      (epOf s.dev e) (4 * bits (tqReg s.dev e q 0) 16 6 + 3)) 0 = false ∧ 0 < (txOf s.dev e q).unsig ∧ (txOf s.dev e q).unsigAt +
      usCycles (modItr (tqReg s.dev e q 0x20)) ≤ s.dev.clk.tclk) ∧
    (∃ (s : State) (e q : Nat), running s.dev = true ∧ e < 2 ∧ (epOf s.dev e).up = true ∧ (epOf s.dev e).bme = true ∧ bit (msixWord
      (epOf s.dev e) (4 * bits (rqReg s.dev e q 0) 16 6 + 3)) 0 = false ∧ 0 < (rxOf s.dev e q).unsig ∧ (rxOf s.dev e q).unsigAt +
      usCycles (modItr (rqReg s.dev e q 0x20)) ≤ s.dev.clk.tclk) ∧
    (∃ (s : State) (e q : Nat), (txOf s.dev e q).unsig = 0) ∧
    (∃ (s : State) (e q : Nat), (rxOf s.dev e q).unsig = 0) ∧
    (∃ (s : State) (who : Initiator) (e v : Nat), endpointOf who = some e ∧ v < 64 ∧ MayWrite s.dev who (0x80100C + 16 * v) ∧ (epOf
      s.dev e).bme = true ∧ (epOf s.dev e).pba.contains v = true) ∧
    (∃ (s : State) (e v : Nat), running s.dev = true ∧ e < 2 ∧ (epOf s.dev e).up = true ∧ (epOf s.dev e).pba = [v] ∧ bit (msixWord (epOf
      s.dev e) (4 * v + 3)) 0 = false) ∧
    (∃ (s : State) (e : Nat), running s.dev = true ∧ e < 2 ∧ (epOf s.dev e).up = true) ∧
    (∃ (s : State) (who : Initiator) (e p : Nat) (w : Word), endpointOf who = some e ∧ p < 128 ∧ MayWrite s.dev who (0x800400 + 4 * p) ∧
      mapSorted s.dev.regs = true ∧ pageEp s.dev p = e + 1 ∧ pageBusy s.dev p = false ∧ bits w.toNat 4 4 ≠ 0 ∧ bit (fld s.dev (0x800010
      + 4 * e) 0 16) (bits w.toNat 4 4) = true) ∧
    (∃ (s : State) (who : Initiator) (e p : Nat) (w : Word), endpointOf who = some e ∧ p < 128 ∧ MayWrite s.dev who (0x800400 + 4 * p) ∧
      mapSorted s.dev.regs = true ∧ pageEp s.dev p = e + 1 ∧ pageBusy s.dev p = true) :=
  ⟨⟨(st on), 1, by decide +kernel⟩,
   ⟨(st (ep1 {} on)), 1, by decide +kernel⟩,
   ⟨(st on), 1, by decide +kernel⟩,
   ⟨(st (ep1 {} on)), .pcie1, 1, 15, 32767, by unfold MayWrite; decide +kernel⟩,
   ⟨(st (ep1 { tx := [(15, { win := [(0, 60)] })] } (rg [(tk 0, 1), (tk 4, 1000), (tk 0x18, 16)] on))), 1, 15,
    ({ len := 60, path := false, tso := false, tsreq := false, route := 0, w2 := 0, mss := 0, hdrlen := 0, cookie := 0 }),
    by decide +kernel⟩,
   ⟨(st
    { ep1 { tx := [(15, { win := [(0, 60)] })] } on with rte := { lookup := [(5, [{ pkt := { pk0 with size := 16384 }, named := none, eth := false, ptype := 0 }])] } }),
    1, 15, (txDesc (ringBytes (txOf (ep1 { tx := [(15, { win := [(0, 60)] })] } on) 1 15) 0 32)), by decide +kernel⟩,
   ⟨(st (ep1 {} (rg [(tk 4, 1000)] on))), .pcie1, 1, (0x880000 + 15 * 0x8000), 5, (⟨.txWin, 15, 0⟩), by unfold MayWrite; decide +kernel⟩,
   ⟨(st (ep1 { tx := [(15, { comps := [⟨0, 5, 0, 0, none, 7, false⟩] })] } (rg [(tk 0, 1), (tk 4, 1000), (tk 0x18, 16)] on))), 1, 15,
    (⟨0, 5, 0, 0, none, 7, false⟩), ([]), by decide +kernel⟩,
   ⟨(st (ep1 {} on)), .pcie1, 1, 63, 0xFFFFFFFF, by unfold MayWrite; decide +kernel⟩,
   ⟨(st (ep1 {} (rg [(rk 0, 0x801), (rk 4, 5), (rk 0x18, 16)]
    { on with lnd := { lanes := [(83, { items := [{ it0 pk0 0 with dest := ds0 383 }] })] } }))), 1, 63,
    ({ it0 pk0 0 with dest := ds0 383 }), by decide +kernel⟩,
   ⟨(st (ep1 { tx := [(15, { unsig := 1 })], msix := [(3, 0)] } on)), 1, 15, by decide +kernel⟩,
   ⟨(st (ep1 { rx := [(63, { unsig := 1 })], msix := [(3, 0)] } on)), 1, 63, by decide +kernel⟩,
   ⟨(st on), 1, 15, by decide +kernel⟩,
   ⟨(st on), 1, 63, by decide +kernel⟩,
   ⟨(st (ep1 { pba := [63] } on)), .pcie1, 1, 63, by unfold MayWrite; decide +kernel⟩,
   ⟨(st (ep1 { pba := [63], msix := [(255, 0)] } on)), 1, 63, by decide +kernel⟩,
   ⟨(st (ep1 { tx := [(15, { unsig := 1 })] } on)), 1, by decide +kernel⟩,
   ⟨(st (ep1 {} (rg [(0x8005FC, 2), (0x800014, 0x8000)] on))), .pcie1, 1, 127, 0xF0, by unfold MayWrite; decide +kernel⟩,
   ⟨(st { ep1 {} (rg [(0x8005FC, 2), (0x800014, 0x8000)] on) with cry := { pages := [(127, { tail := 1 })] } }), .pcie1, 1, 127, 0xF0,
    by unfold MayWrite; decide +kernel⟩⟩

theorem test_meets_EventFifosAreWrittenAndRead :
    (∃ (s : State) (bad : Bool) (f : Nat) (ev : Ev), running s.dev = true ∧ nextEv s.dev = some ev ∧ evqMap s.dev ev.code = [f] ∧
      (fifoOf s.dev f).lossCount = 0 ∧ (fifoOf s.dev f).entries.length + 2 ≤ fifoCap s.dev) ∧
    (∃ (s : State) (bad : Bool) (f : Nat) (ev : Ev), running s.dev = true ∧ nextEv s.dev = some ev ∧ evqMap s.dev ev.code = [f] ∧
      (fifoOf s.dev f).lossCount = 0 ∧ fifoCap s.dev < (fifoOf s.dev f).entries.length + 2) ∧
    (∃ (s : State) (bad : Bool), nextEv s.dev = none) ∧
    (∃ (s : State) (who : Initiator) (f : Nat), f < 8 ∧ MayWrite s.dev who (0x802000 + 0x100 * f)) ∧
    (∃ (s : State) (who : Initiator) (f : Nat), f < 8 ∧ MayWrite s.dev who (0x802000 + 0x100 * f) ∧ (fifoOf s.dev f).lossCount = 0) :=
  ⟨⟨(st (evf 2046)), false, 7, ev0, by decide +kernel⟩,
   ⟨(st (evf 2047)), false, 7, ev0, by decide +kernel⟩,
   ⟨(st on), true, by decide +kernel⟩,
   ⟨(st fx7), .eopod, 7, by unfold MayWrite; decide +kernel⟩,
   ⟨(st { fx7 with fifos := [(7, { entries := [een0], armed := false })] }), .eopod, 7, by unfold MayWrite; decide +kernel⟩⟩

theorem test_meets_RegisterAccessesAndHostSpi :
    (∃ (s : State) (who : Initiator) (off size : Nat) (w : Word), canAccess s.dev who = true ∧ waitsBehind s.dev who = false ∧ (size ≠ 4
      ∨ off % 4 ≠ 0)) ∧
    (∃ (s : State) (who : Initiator) (off : Nat) (w : Word) (l : Loc) (r : RegRow), MayWrite s.dev who off ∧ locate off = some l ∧
      absent s.dev l = false ∧ actsAt s.dev who off l w.toNat = none ∧ rowAt l = some r ∧ r.rws = 0 ∧ r.pair = 0 ∧ mapSorted s.dev.regs
      = true) ∧
    (∃ (s : State) (who : Initiator) (off : Nat) (w : Word) (l : Loc) (r : RegRow), MayWrite s.dev who off ∧ locate off = some l ∧
      absent s.dev l = false ∧ actsAt s.dev who off l w.toNat = none ∧ rowAt l = some r ∧ r.rws = 0 ∧ r.pair = 1) ∧
    (∃ (s : State) (who : Initiator) (off g : Nat) (w : Word) (l : Loc) (r : RegRow), MayWrite s.dev who off ∧ locate off = some l ∧
      absent s.dev l = false ∧ actsAt s.dev who off l w.toNat = none ∧ rowAt l = some r ∧ r.rws ≠ 0 ∧ groupOf l = some g ∧
      s.dev.com.window = false) ∧
    (∃ (s : State) (who : Initiator) (off size : Nat), canAccess s.dev who = true ∧ waitsBehind s.dev who = false ∧ (size ≠ 4 ∨ off % 4
      ≠ 0)) ∧
    (∃ (s : State) (who : Initiator) (off : Nat) (l : Loc), MayWrite s.dev who off ∧ locate off = some l ∧ l.blk ≠ .brgWin ∧ l.blk ≠
      .evq ∧ l.blk ≠ .page ∧ pairLow l = true ∧ latched s.dev who off l = none) ∧
    (∃ (s : State) (b : Bytes), running s.dev = true ∧ hspiOp b = 2 ∧ hspiWords b ≤ 64 ∧ 5 + 4 * hspiWords b < b.length ∧ crc8 (b.take
      (5 + 4 * hspiWords b)) = leAt b (5 + 4 * hspiWords b) 1) ∧
    (∃ (s : State) (b : Bytes), running s.dev = true ∧ hspiOp b = 2 ∧ hspiWords b ≤ 64 ∧ 5 + 4 * hspiWords b < b.length ∧ crc8 (b.take
      (5 + 4 * hspiWords b)) ≠ leAt b (5 + 4 * hspiWords b) 1) ∧
    (∃ (s : State) (b : Bytes) (n : Nat), running s.dev = true ∧ hspiOp b = 0x0B ∧ 5 ≤ b.length ∧ hspiWords b ≤ 64 ∧ hspiWords b ≤ n) ∧
    (∃ (s : State) (b : Bytes) (n : Nat), running s.dev = true ∧ hspiOp b = 0x0B ∧ 5 ≤ b.length ∧ hspiWords b ≤ 64 ∧ n < hspiWords b) ∧
    (∃ (s : State) (c : Byte), running s.dev = true ∧ c ≠ 2 ∧ c ≠ 0x0B) ∧
    (∃ (s : State) (b : Bytes), running s.dev = true ∧ hspiOp b = 2 ∧ b.length ≤ 5 + 4 * hspiWords b) :=
  ⟨⟨(st on), .eopod, 0x12, 4, 5, by decide +kernel⟩,
   ⟨(st on), .eopod, 0x30020, 0xFFFFFFFF, (⟨.swh, 0, 0x20⟩), (rwOnly 0x20 0x7F), by unfold MayWrite; decide +kernel⟩,
   ⟨(st on), .eopod, 0x10038, 0xFFFFFFFF, (⟨.ckp, 0, 0x38⟩), ({ lo := 0x38, rw := full, aon := full, pair := 1 }),
    by unfold MayWrite; decide +kernel⟩,
   ⟨(st on), .eopod, (canBase 23 + 0x10), ((groupOf ⟨.can, 23, 0x10⟩).getD 0), 0xFFFFFFFF, (⟨.can, 23, 0x10⟩), ((rowAt ⟨.can, 23,
    0x10⟩).getD { lo := 0 }), by unfold MayWrite; decide +kernel⟩,
   ⟨(st on), .eopod, 0x10, 2, by decide +kernel⟩,
   ⟨(st (cl (fun c => { c with rtc := 2 ^ 40 + 7 }) on)), .eopod, 0x10030, (⟨.ckp, 0, 0x30⟩), by unfold MayWrite; decide +kernel⟩,
   ⟨(st on), (hw0 ++ leBytes 1 (crc8 hw0)), by decide +kernel⟩,
   ⟨(st on), (hw0 ++ leBytes 1 (crc8 hw0 + 1)), by decide +kernel⟩,
   ⟨(st on), ([0x0B, 0x10, 0, 0, 0]), 1, by decide +kernel⟩,
   ⟨(st on), ([0x0B, 0x10, 0, 0, 1]), 1, by decide +kernel⟩,
   ⟨(st on), 0x33, by decide +kernel⟩,
   ⟨(st on), hw0, by decide +kernel⟩⟩

theorem test_meets_BridgeAccessesGoInOrder :
    (∃ (s : State) (who : Initiator) (off win o : Nat) (w : Word), MayWrite s.dev who off ∧ brgWindow off = some (win, o) ∧ (busQueue
      s.dev (farBus win)).length < 32) ∧
    (∃ (s : State) (who : Initiator) (off win o : Nat) (w : Word), MayWrite s.dev who off ∧ brgWindow off = some (win, o) ∧ 32 ≤
      (busQueue s.dev (farBus win)).length) ∧
    (∃ (s : State) (who : Initiator) (off win o : Nat), MayWrite s.dev who off ∧ brgWindow off = some (win, o) ∧ (busQueue s.dev (farBus
      win)).length < 32) ∧
    (∃ (s : State) (who : Initiator) (off win o : Nat), MayWrite s.dev who off ∧ brgWindow off = some (win, o) ∧ 32 ≤ (busQueue s.dev
      (farBus win)).length) ∧
    (∃ (s : State) (who : Initiator) (off size : Nat) (w : Word), canAccess s.dev who = true ∧ waitsBehind s.dev who = true) ∧
    (∃ (s : State) (b : Nat) (res : FarRes) (x : BrgWait) (d : Dev), s.dev.brg.wait = [x] ∧ x.gone = false ∧ bridgeOp x.cmd = none ∧ d =
      modBrg (brgFarDone s.dev b res) (fun g => { g with wait := [] }) ∧ windowReady d x.cmd = true) ∧
    (∃ (s : State) (b : Nat) (a : BrgAcc) (w : Word), running s.dev = true ∧ busQueue s.dev b = [a] ∧ a.issued = true ∧ a.write = false
      ∧ a.dead = false ∧ a.kind = 0 ∧ s.dev.brg.wait = [] ∧ mapSorted s.dev.brg.queues = true) ∧
    (∃ (s : State) (b r : Nat) (a : BrgAcc), running s.dev = true ∧ busQueue s.dev b = [a] ∧ a.issued = true ∧ a.write = true ∧
      s.dev.brg.wait = [] ∧ mapSorted s.dev.brg.queues = true) ∧
    (∃ (s : State) (b : Nat) (res : FarRes), busQueue s.dev b = [] ∧ s.dev.brg.wait = []) ∧
    (∃ (s : State) (b : Nat) (a : BrgAcc), running s.dev = true ∧ s.dev.brg.queues = [(b, [a])] ∧ a.write = false ∧ a.kind = 0 ∧ a.dead
      = false ∧ a.issued = false ∧ s.dev.brg.wait = []) ∧
    (∃ (s : State) (k : Nat), running s.dev = true ∧ k < 16 ∧ bit (reg s.dev (0x900100 + 0xC * k)) 0 = true ∧ bits (reg s.dev (0x900100
      + 0xC * k)) 1 3 ≠ 7 ∧ busQueue s.dev (farBus (bits (reg s.dev (0x900100 + 0xC * k)) 1 3)) = []) ∧
    (∃ (s : State) (k : Nat), running s.dev = true ∧ bit (reg s.dev (0x900100 + 0xC * k)) 0 = true ∧ busQueue s.dev (farBus (bits (reg
      s.dev (0x900100 + 0xC * k)) 1 3)) ≠ []) ∧
    (∃ (s : State) (b : Nat) (a : BrgAcc) (w : Word), running s.dev = true ∧ busQueue s.dev b = [a] ∧ a.issued = true ∧ a.write = false
      ∧ a.dead = false ∧ a.kind = 2 ∧ s.dev.brg.wait = [] ∧ farData s.dev (accWin a).1 (accWin a).2 w.toNat < 65536 ∧ ((mapGet 0
      s.dev.brg.pollVal a.poll ^^^ farData s.dev (accWin a).1 (accWin a).2 w.toNat) &&& bits (reg s.dev (0x900100 + 0xC * a.poll)) 16
      16) ≠ 0) :=
  ⟨⟨(st on), .eopod, 0x9FFFFC, 6, 0x1FFFC, 5, by unfold MayWrite; decide +kernel⟩,
   ⟨(st (bq 4 (List.replicate 32 ba0) on)), .eopod, 0x9FFFFC, 6, 0x1FFFC, 5, by unfold MayWrite; decide +kernel⟩,
   ⟨(st (bq 4 (List.replicate 31 ba0) on)), .eopod, 0x9FFFFC, 6, 0x1FFFC, by unfold MayWrite; decide +kernel⟩,
   ⟨(st (bq 4 (List.replicate 32 ba0) on)), .eopod, 0x9FFFFC, 6, 0x1FFFC, by unfold MayWrite; decide +kernel⟩,
   ⟨(st { on with brg := { wait := [⟨.eopod, .bridgeWrite .eopod 0x9E0000 5, false⟩] } }), .eopod, 0x10, 4, 5, by decide +kernel⟩,
   ⟨(st { bq 4 [ba0] on with brg := { queues := [(4, [ba0])], wait := [⟨.eopod, .registerWrite .eopod 0x10 4 0x500, false⟩] } }), 4,
    (.ok 5), (⟨.eopod, .registerWrite .eopod 0x10 4 0x500, false⟩), (modBrg (brgFarDone
    { on with brg := { queues := [(4, [ba0])], wait := [⟨.eopod, .registerWrite .eopod 0x10 4 0x500, false⟩] } } 4 (.ok 5)) (fun g =>
    { g with wait := [] })), ⟨rfl, rfl, rfl, rfl, rfl⟩⟩,
   ⟨(st (bq 4 [ba0] on)), 4, ba0, 0x12345678, by decide +kernel⟩,
   ⟨(st (bq 4 [{ ba0 with write := true }] on)), 4, 3, ({ ba0 with write := true }), by decide +kernel⟩,
   ⟨(st on), 4, (.ok 5), by decide +kernel⟩,
   ⟨(st (bq 4 [{ ba0 with issued := false }] on)), 4, ({ ba0 with issued := false }), by decide +kernel⟩,
   ⟨(st (rg [(0x9001B4, 1)] on)), 15, by decide +kernel⟩,
   ⟨(st (bq 0 [ba0] (rg [(0x9001B4, 1)] on))), 15, by decide +kernel⟩,
   ⟨(st (bq 4 [{ ba0 with kind := 2 }] (rg [(0x900100, 0xFFFF0009)] on))), 4, ({ ba0 with kind := 2 }), 0x5, by decide +kernel⟩⟩

theorem test_meets_IndirectI2cReadsAnswerByEvent :
    (∃ (s : State) (who : Initiator) (w : Word), MayWrite s.dev who 0x900040 ∧ s.dev.brg.irdOpen.contains (brgNum who) = false ∧
      (busQueue s.dev 4).length < 32) ∧
    (∃ (s : State) (b : Nat) (a : BrgAcc) (res : FarRes), running s.dev = true ∧ busQueue s.dev b = [a] ∧ a.issued = true ∧ a.write =
      false ∧ a.dead = false ∧ a.kind = 1 ∧ s.dev.brg.wait = []) ∧
    (∃ (s : State) (who : Initiator) (w : Word), MayWrite s.dev who 0x900040 ∧ s.dev.brg.irdOpen.contains (brgNum who) = true) ∧
    (∃ (s : State) (who : Initiator) (w : Word), MayWrite s.dev who 0x900040 ∧ s.dev.brg.irdOpen.contains (brgNum who) = false ∧ 32 ≤
      (busQueue s.dev 4).length) ∧
    (∃ (s : State) (who : Initiator) (w : Word), canAccess s.dev who = true ∧ waitsBehind s.dev who = true) :=
  ⟨⟨(st on), .eopod, 0x12, by unfold MayWrite; decide +kernel⟩,
   ⟨(st (bq 2 [{ ba0 with kind := 1, off := 0x9C0000 }] on)), 2, ({ ba0 with kind := 1, off := 0x9C0000 }), (.ok 5), by decide +kernel⟩,
   ⟨(st { on with brg := { irdOpen := [2] } }), .eopod, 0x12, by unfold MayWrite; decide +kernel⟩,
   ⟨(st (bq 4 (List.replicate 32 ba0) on)), .eopod, 0x12, by unfold MayWrite; decide +kernel⟩,
   ⟨(st { on with brg := { wait := [⟨.eopod, .bridgeWrite .eopod 0x9E0000 5, false⟩] } }), .eopod, 0x12, by decide +kernel⟩⟩

theorem test_meets_RecorderTriggersFreezesAndReadsOut :
    (∃ (s : State) (who : Initiator), MayWrite s.dev who 0xA00000 ∧ s.dev.rcd.st = 1 ∧ flag s.dev 0xA00000 9 = true) ∧
    (∃ s : State, running s.dev = true ∧ s.dev.clk.pinsOn = true ∧ roleRecs s.dev 4 ≠ [] ∧ s.dev.rcd.st = 1 ∧ flag s.dev 0xA00000 8 =
      true) ∧
    (∃ (s : State) (who : Initiator), flag s.dev 0xA00000 9 = false ∧ MayWrite s.dev who 0xA00000) ∧
    (∃ (s : State) (it : LaneItem), running s.dev = true ∧ s.dev.rcd.st = 1 ∧ recItem s.dev = some it ∧ (frameRecord s.dev it (it.dest.q
      - 392)).1.length ≤ segLeft s.dev.rcd.wptr ∧ slotHeld s.dev 5 0x42 = true ∧ outFrozen s.dev 0 = false) ∧
    (∃ s : State, running s.dev = true ∧ s.dev.rcd.st = 2 ∧ s.dev.rcd.trigs = [] ∧ msPassed s.dev = true) ∧
    (∃ s : State, s.dev.rcd.st ≠ 2) ∧
    (∃ (s : State) (who : Initiator), MayWrite s.dev who 0xA00000) ∧
    (∃ (s : State) (who : Initiator) (e : Nat), endpointOf who = some e ∧ MayWrite s.dev who 0xA00064 ∧ s.dev.rcd.readout.busy = false ∧
      s.dev.rcd.st = 3 ∧ (epOf s.dev e).bme = true ∧ slotsOf s.dev 5 0x44 ≠ 0 ∧ reg s.dev 0xA00060 / 64 ≠ 0 ∧ reg s.dev 0xA00060 / 64 *
      64 ≤ 2 ^ 28) ∧
    (∃ (s : State) (who : Initiator) (e : Nat), endpointOf who = some e ∧ MayWrite s.dev who 0xA00064 ∧ s.dev.rcd.readout.busy = false ∧
      s.dev.rcd.st ≠ 3) ∧
    (∃ (s : State) (who : Initiator), MayWrite s.dev who 0xA00064 ∧ s.dev.rcd.readout.busy = true) ∧
    (∃ s : State, running s.dev = true ∧ s.dev.rcd.readout.busy = true) :=
  ⟨⟨(st (rc 1 (rg [(0xA00000, 0x200)] on))), .eopod, by unfold MayWrite; decide +kernel⟩,
   ⟨(st { rc 1 (rg [(0xA00000, 0x100)] (cl (fun c => { c with pinsOn := true }) on)) with img := { img0 with pins := [0x1061] } }),
    by decide +kernel⟩,
   ⟨(st on), .eopod, by unfold MayWrite; decide +kernel⟩,
   ⟨(st { rc 1 on with lnd := { lanes := [(112, { items := [itr] })] } }), itr, by decide +kernel⟩,
   ⟨(st (cl (fun c => { c with dtime := 1000000 * 2 ^ 39 }) (rc 2 (rg [(0xA0000C, 0x10000)] on)))), by decide +kernel⟩,
   ⟨(st (rc 1 on)), by decide +kernel⟩,
   ⟨(st (rc 3 on)), .eopod, by unfold MayWrite; decide +kernel⟩,
   ⟨(st { rc 3 (ep1 {} (rg [(0xA00060, 0x10000000)] on)) with whl := { owners := [(5, [0x44])] } }), .pcie1, 1,
    by unfold MayWrite; decide +kernel⟩,
   ⟨(st (rc 1 (ep1 {} on))), .pcie1, 1, by unfold MayWrite; decide +kernel⟩,
   ⟨(st { on with rcd := { readout := { busy := true } } }), .eopod, by unfold MayWrite; decide +kernel⟩,
   ⟨(st { on with rcd := { readout := { busy := true } } }), by decide +kernel⟩⟩

theorem test_meets_UpdatesAreVerifiedArmedAndConfirmed :
    (∃ (s : State) (who : Initiator) (res : FlashRes), MayWrite s.dev who 0xB00000 ∧ svcUp s.dev 7 = true ∧ updMode s.dev = false ∧
      updOther s.dev who = false ∧ s.dev.upd.sess = 1 ∧ streamOver s.dev = true ∧ s.dev.upd.isDelta = true ∧ 0 < fld s.dev 0xB00010 0 13
      ∧ fld s.dev 0xB00010 0 13 ≤ 4096 ∧ fld s.dev 0xB0000C 0 26 + fld s.dev 0xB00010 0 13 ≤ updLen s.dev ∧ crc32 (updBuf s.dev (fld
      s.dev 0xB00010 0 13)) = reg s.dev 0xB00014 ∧ s.dev.upd.prog = []) ∧
    (∃ (s : State) (who : Initiator) (res : FlashRes), MayWrite s.dev who 0xB00000 ∧ svcUp s.dev 7 = true ∧ updMode s.dev = false ∧
      updOther s.dev who = false ∧ s.dev.upd.sess = 1 ∧ streamOver s.dev = true ∧ (fld s.dev 0xB00010 0 13 = 0 ∨ 4096 < fld s.dev
      0xB00010 0 13 ∨ updLen s.dev < fld s.dev 0xB0000C 0 26 + fld s.dev 0xB00010 0 13)) ∧
    (∃ (s : State) (who : Initiator), MayWrite s.dev who 0xB00000 ∧ svcUp s.dev 7 = true ∧ updMode s.dev = false ∧ updOther s.dev who =
      false ∧ s.dev.upd.sess = 1 ∧ s.dev.upd.done = updLen s.dev ∧ s.dev.upd.isDelta = false) ∧
    (∃ (s : State) (who : Initiator), MayWrite s.dev who 0xB00000 ∧ svcUp s.dev 7 = true ∧ updMode s.dev = false ∧ updOther s.dev who =
      false ∧ s.dev.upd.sess = 3 ∧ s.dev.upd.isDelta = false ∧ s.dev.upd.target < 2) ∧
    (∃ (s : State) (who : Initiator), MayWrite s.dev who 0xB00000 ∧ svcUp s.dev 7 = true ∧ updMode s.dev = false ∧ updOther s.dev who =
      false ∧ s.dev.upd.sess ≠ 0) ∧
    (∃ s : State, running s.dev = true ∧ trialOver s.dev = true ∧ s.dev.upd.booted < 2) ∧
    (∃ s : State, trialOver s.dev = false) ∧
    (∃ (s : State) (who : Initiator) (b : Bool), MayWrite s.dev who 0xB00000 ∧ updMode s.dev = false ∧ s.dev.clk.mode ≠ .m5 ∧ strapsFree
      s.dev = true ∧ s.dev.upd.expired = false ∧ b.toNat = s.dev.upd.booted ∧ slotState s.dev.upd.brec s.dev.upd.booted = 3 ∧ trialOver
      s.dev = false) ∧
    (∃ (s : State) (who : Initiator), MayWrite s.dev who 0xB00000 ∧ svcUp s.dev 7 = true ∧ updMode s.dev = false ∧ updOther s.dev who =
      false ∧ (s.dev.upd.sess = 0 ∨ s.dev.upd.isDelta = false)) ∧
    (∃ (s : State) (who : Initiator), MayWrite s.dev who 0xB00000 ∧ updMode s.dev = false ∧ strapsFree s.dev = true ∧ slotBootable
      s.dev.upd.brec (1 - s.dev.upd.booted) = true) :=
  ⟨⟨(st (up { sess := 1, isDelta := true } (rg [(0xB00008, 5), (0xB0000C, 4), (0xB00010, 1), (0xB00014, crc32 [9]), (0xB01000, 9)]
    on))), .eopod, .fail, by unfold MayWrite; decide +kernel⟩,
   ⟨(st (up { sess := 1 } (rg [(0xB00008, 5), (0xB0000C, 4), (0xB00010, 2)] on))), .eopod, .ok, by unfold MayWrite; decide +kernel⟩,
   ⟨(st (up { sess := 1, target := 1 } on)), .eopod, by unfold MayWrite; decide +kernel⟩,
   ⟨(st (up { sess := 3, target := 1 } (rg [(0xB0001C, 0x50002)] on))), .eopod, by unfold MayWrite; decide +kernel⟩,
   ⟨(st (up { sess := 4, target := 1 } on)), .eopod, by unfold MayWrite; decide +kernel⟩,
   ⟨(st (up { brec := { stateB := 3 }, booted := 1 } on)), by decide +kernel⟩,
   ⟨(st on), by decide +kernel⟩,
   ⟨(st (up { brec := { stateA := 4, stateB := 3, secs := 1 }, booted := 1 } on)), .eopod, true, by unfold MayWrite; decide +kernel⟩,
   ⟨(st (up {} on)), .eopod, by unfold MayWrite; decide +kernel⟩,
   ⟨(st (up { brec := { valid := true, stateB := 4 } } on)), .eopod, by unfold MayWrite; decide +kernel⟩⟩

theorem test_meets_UpdateSessionHasOneOwner :
    (∃ (s : State) (who : Initiator) (delta : Bool) (c : Instr), c = (if delta then Instr.updOpenDelta who else Instr.updOpen who) ∧
      MayWrite s.dev who 0xB00000 ∧ svcUp s.dev 7 = true ∧ updMode s.dev = false ∧ who ≠ .jtag ∧ s.dev.upd.sess = 0 ∧ slotState
      s.dev.upd.brec s.dev.upd.booted ≠ 3 ∧ targetArmed s.dev = false ∧ (delta = false → strapsFree s.dev = true) ∧ updLen s.dev ≤ (if
      delta then 262144 else 48 * 1048576)) ∧
    (∃ (s : State) (who : Initiator) (c : Instr), (c = .updOpen who ∨ c = .updOpenDelta who) ∧ MayWrite s.dev who 0xB00000 ∧ svcUp s.dev
      7 = true ∧ updMode s.dev = false ∧ s.dev.upd.sess ≠ 0 ∧ s.dev.upd.owner = ownerNum who ∧ who ≠ .jtag ∧ slotState s.dev.upd.brec
      s.dev.upd.booted ≠ 3) ∧
    (∃ (s : State) (who : Initiator) (res : FlashRes) (c : Instr), (c = .updOpen who ∨ c = .updOpenDelta who ∨ c = .updWrite who res ∨ c
      = .updVerify who ∨ c = .updArm who ∨ c = .updAbort who ∨ c = .updReset who) ∧ MayWrite s.dev who 0xB00000 ∧ svcUp s.dev 7 = true ∧
      updMode s.dev = false ∧ s.dev.upd.sess ≠ 0 ∧ s.dev.upd.owner ≠ ownerNum who) ∧
    (∃ (s : State) (who : Initiator) (res : FlashRes) (c : Instr), (c = .updOpen who ∨ c = .updOpenDelta who ∨ c = .updWrite who res ∨ c
      = .updVerify who ∨ c = .updArm who ∨ c = .updAbort who ∨ c = .updReset who) ∧ MayWrite s.dev who 0xB00000 ∧ svcUp s.dev 7 = false) :=
  ⟨⟨(st (up {} (rg [(0xB00008, 262144)] on))), .eopod, true, (.updOpenDelta .eopod), by unfold MayWrite; decide +kernel⟩,
   ⟨(st (up { sess := 1 } on)), .eopod, (.updOpen .eopod), by unfold MayWrite; decide +kernel⟩,
   ⟨(st (up { sess := 1 } on)), .hspi, .ok, (.updReset .hspi), by unfold MayWrite; decide +kernel⟩,
   ⟨(st { up { sess := 1 } on with flt := { scDown := [3] } }), .hspi, .ok, (.updReset .hspi), by unfold MayWrite; decide +kernel⟩⟩

theorem test_meets_ClearsAreAskedForAndComeAtTheBoundary :
    (∃ (s : State) (who : Initiator) (w : Word) (c : Instr) (off lo hi : Nat), ((c, off, lo, hi) = (Instr.milClr who w, 0x6001F0,
      0x600100, 0x600180) ∨ (c, off, lo, hi) = (Instr.kvtClr who w, 0x7C02F0, 0x7C0200, 0x7C0210) ∨ (c, off, lo, hi) = (Instr.recClr who
      w, 0xA001F0, 0xA00100, 0xA00130) ∨ (c, off, lo, hi) = (Instr.updClr who w, 0xB000F0, 0xB00040, 0xB00050)) ∧ MayWrite s.dev who off) ∧
    (∃ (s : State) (who : Initiator) (w : Word), MayWrite s.dev who 0x10070) ∧
    (∃ (s : State) (who : Initiator) (w : Word), MayWrite s.dev who 0x30070) ∧
    (∃ (s : State) (who : Initiator) (ch : Nat) (w : Word), ch < 24 ∧ MayWrite s.dev who (canBase ch + 0x1F0)) ∧
    (∃ (s : State) (who : Initiator) (p : Nat) (w : Word), p < 9 ∧ MayWrite s.dev who (ethBase p + 0x1F0)) ∧
    (∃ (s : State) (who : Initiator) (w : Word), MayWrite s.dev who 0x5000F0) ∧
    (∃ (s : State) (who : Initiator) (w : Word), MayWrite s.dev who 0x5800F4) ∧
    (∃ (s : State) (who : Initiator) (w : Word), MayWrite s.dev who 0x7808F0) ∧
    (∃ (s : State) (who : Initiator) (w : Word), MayWrite s.dev who 0x200F0) ∧
    (∃ (s : State) (who : Initiator) (w : Word), MayWrite s.dev who 0x7E00F0) ∧
    (∃ (s : State) (who : Initiator) (w : Word), MayWrite s.dev who 0x8000F0) :=
  ⟨⟨(st on), .eopod, 1, (.updClr .eopod 1), 0xB000F0, 0xB00040, 0xB00050, by unfold MayWrite; decide +kernel⟩,
   ⟨(st on), .eopod, 7, by unfold MayWrite; decide +kernel⟩,
   ⟨(st on), .eopod, 3, by unfold MayWrite; decide +kernel⟩,
   ⟨(st on), .eopod, 23, 1, by unfold MayWrite; decide +kernel⟩,
   ⟨(st on), .eopod, 8, 1, by unfold MayWrite; decide +kernel⟩,
   ⟨(st on), .eopod, 7, by unfold MayWrite; decide +kernel⟩,
   ⟨(st on), .eopod, 3, by unfold MayWrite; decide +kernel⟩,
   ⟨(st on), .eopod, 3, by unfold MayWrite; decide +kernel⟩,
   ⟨(st on), .eopod, 3, by unfold MayWrite; decide +kernel⟩,
   ⟨(st { on with nmc := { log := [none] } }), .eopod, 7, by unfold MayWrite; decide +kernel⟩,
   ⟨(st fx7), .eopod, 1, by unfold MayWrite; decide +kernel⟩⟩

end

end Sys2Proof.Tests
end

section
/-! SUPPORT. Commits, gate lists, shapers and device time (chapters 05 and 08): what a register write, a port, a lane and an event
read after a change; what a commit stages; what a staging instant, a change of gate lists and a step of device time do. -/

namespace Sys2Proof.Machine

/-! ## Commands -/

/-- R45, R444: a register write that waits behind nothing and meets no access error has its effect alone. -/
theorem access_regWr {s : State} {who : Initiator} {off : Nat} (h : MayWrite s.dev who off) (cmd : Instr) (f : Dev → Dev) :
    access who cmd (fun d => regWr d who off f) s = act f s := by
  rw [access_of h, act, act, regWr_of h]

/-- A command that acts by `f` answers the state after what `f` leaves of the device. -/
theorem exec_of_act {c : Instr} {s : State} {f : Dev → Dev} {d : Dev} (h : exec c s = act f s) (hf : f s.dev = d) :
    exec c s = .next (after s d) := by
  rw [h, act, hf, after]

/-- R444: only a running device takes a register write. -/
theorem running_of_mayWrite {d : Dev} {who : Initiator} {off : Nat} (h : MayWrite d who off) : running d = true := by
  have hc := h.1
  simp only [canAccess, Bool.and_eq_true] at hc
  exact hc.1

/-- R86: a running device is in M2 to M7. -/
theorem mode_of_running {d : Dev} (h : running d = true) : 2 ≤ d.clk.mode.num := by
  simp only [running, Bool.and_eq_true, decide_eq_true_eq] at h
  exact h.2

/-! ## Ports -/

theorem ethOf_modEth_same (d : Dev) (p : Nat) (f : EthP → EthP) : ethOf (modEth d p f) p = f (ethOf d p) := by
  simp [ethOf, modEth, mapMod, mapGet, mapGet?_mapPut]

theorem ethOf_modEth_ne (d : Dev) {p q : Nat} (h : q ≠ p) (f : EthP → EthP) : ethOf (modEth d p f) q = ethOf d q := by
  simp [ethOf, modEth, mapMod, mapGet, mapGet?_mapPut, Ne.symm h]

@[simp] theorem ethOf_settle (d : Dev) (p : Nat) : ethOf (settle d) p = ethOf d p := by simp [ethOf]
@[simp] theorem creditOf_settle (d : Dev) (p tc : Nat) : creditOf (settle d) p tc = creditOf d p tc := by simp [creditOf]
@[simp] theorem ethOf_raise (d : Dev) (code cls : Nat) (data : Bytes) (p : Nat) : ethOf (raise d code cls data) p = ethOf d p := by
  simp [ethOf]

@[simp] theorem modEth_clk (d : Dev) (p : Nat) (f : EthP → EthP) : (modEth d p f).clk = d.clk := rfl
@[simp] theorem modEth_regs (d : Dev) (p : Nat) (f : EthP → EthP) : (modEth d p f).regs = d.regs := rfl
@[simp] theorem modEth_lnd (d : Dev) (p : Nat) (f : EthP → EthP) : (modEth d p f).lnd = d.lnd := rfl
@[simp] theorem modEth_evs (d : Dev) (p : Nat) (f : EthP → EthP) : (modEth d p f).evs = d.evs := rfl

/-- A change of one port shows at that port alone. -/
theorem onlyEth_modEth (d : Dev) (p : Nat) (f : EthP → EthP) : OnlyEth d p (settle (modEth d p f)) :=
  ⟨fun q hq => by rw [ethOf_settle, ethOf_modEth_ne d hq], by rw [settle_eth]; rfl⟩

/-! ## Lanes -/

@[simp] theorem laneOf_settle (d : Dev) (k : Nat) : laneOf (settle d) k = laneOf d k := by simp [laneOf]
@[simp] theorem laneOf_modEth (d : Dev) (p : Nat) (f : EthP → EthP) (k : Nat) : laneOf (modEth d p f) k = laneOf d k := rfl

theorem laneOf_modLane_same (d : Dev) (k : Nat) (f : Lane → Lane) : laneOf (modLane d k f) k = f (laneOf d k) := by
  simp [laneOf, modLane, mapMod, mapGet, mapGet?_mapPut]


/-! ## Events and time -/

/-- R458: in M2 to M7 an event joins those that wait. -/
theorem raise_evs {d : Dev} (h : 2 ≤ d.clk.mode.num) (code cls : Nat) (data : Bytes) :
    (raise d code cls data).evs = d.evs ++ [evNow d code cls data] := by
  simp only [raise, raiseAt, h, decide_true, if_true]; rfl

@[simp] theorem evNow_modEth (d : Dev) (p : Nat) (f : EthP → EthP) (code cls : Nat) (data : Bytes) :
    evNow (modEth d p f) code cls data = evNow d code cls data := rfl

theorem nowNs_congr {a b : Dev} (h : a.clk = b.clk) : nowNs a = nowNs b := by simp [nowNs, h]

/-! ## The commit window and its staging (R14, R32, R135, R141) -/

/-- R141: a write of GLB_COMMIT with REGS or DELTA opens a closed window. -/
theorem commitWrite_closed {d : Dev} (h : d.com.window = false) {w : Word} (hw : w.toNat % 4 ≠ 0) (who : Initiator) :
    commitWrite d who w = commitOpen d (w.toNat % 4) := by
  simp [commitWrite, hw, h]

/-- R135: inside the window a write of GLB_COMMIT is stalled. -/
theorem commitWrite_open {d : Dev} (h : d.com.window = true) {w : Word} (hw : w.toNat % 4 ≠ 0) (who : Initiator) :
    commitWrite d who w = { d with com := { d.com with stalled := d.com.stalled ++ [(who, 0x20, w)] } } := by
  simp [commitWrite, hw, h]

/-- R141: without DELTA the window opens for the groups alone. -/
theorem commitOpen_regs (d : Dev) : commitOpen d 1 =
    { d with com := { d.com with window := true, due := false, winDelta := false } } := by
  simp [commitOpen, show bit 1 1 = false from rfl]

/-- R141: with DELTA the window carries the staged delta, or DELTAERR says that none is staged. -/
theorem commitOpen_delta (d : Dev) {w : Nat} (h : bit w 1 = true) : commitOpen d w = { d with com := { d.com with
    window := true, due := false, winDelta := d.com.graftOn, deltaErr := d.com.deltaErr || !d.com.graftOn } } := by
  simp [commitOpen, h]

/-- R149: the first duty of a kerf slot is the commit that is due. -/
theorem kerfSlot_commitStage {d : Dev} (hr : running d = true) (hd : d.com.due = true) : kerfSlot d {} none = commitStage d := by
  simp [kerfSlot, srcErrors, hr, hd]

/-- R14, R32: staging changes the commit state alone where no write is stalled. -/
theorem commitStage_eq {d : Dev} (h : d.com.stalled = []) : commitStage d = { d with com := (commitStage d).com } := by
  simp only [commitStage, h, landStalled]

/-- R14, R32, R135: what the staging leaves of the commit state where no write is stalled. -/
theorem commitStage_com {d : Dev} (h : d.com.stalled = []) : (commitStage d).com.window = false ∧ (commitStage d).com.due = false ∧
    (commitStage d).com.staged = true ∧ (commitStage d).com.groups = d.com.dirty ∧ (commitStage d).com.dirty = [] ∧
    (commitStage d).com.delta = d.com.winDelta := by
  simp only [commitStage, h, landStalled, and_self]

/-- Settles O19: a GLB_COMMIT write meets an open or a closed window, and the kerf slot that is due stages. -/
theorem commitsOpenTheWindowAndAreStaged : Obligations.CommitsOpenTheWindowAndAreStaged := by
  unfold Obligations.CommitsOpenTheWindowAndAreStaged
  refine ⟨fun s who hw hc => ?_, fun s who regs hw hc => ?_, fun s who hw ho => ?_, fun s hr hd hs => ?_⟩
  · exact exec_of_act (access_regWr hw ..) ((commitWrite_closed hc (by decide) who).trans (commitOpen_regs s.dev))
  · refine exec_of_act (access_regWr hw ..) ?_
    rw [commitWrite_closed hc (by cases regs <;> decide), commitOpen_delta s.dev (by cases regs <;> decide)]
  · exact exec_of_act (access_regWr hw ..) (commitWrite_open ho (by decide) who)
  · refine yields_act (f := fun d => kerfSlot d {} none) rfl ?_
    obtain ⟨hwin, hdue, hst, hgr, hdi, hde⟩ := commitStage_com hs
    rw [kerfSlot_commitStage hr hd, settle_com]
    exact ⟨hwin, hdue, hst, hgr, hdi, hde, congrArg settle (commitStage_eq hs)⟩

/-! ## The staging instant (R219, R261) -/

/-- R261: the device with copies of class `tc` staged at a port, the bytes `b` of their frame fixed with them. -/
def stagedWith (d : Dev) (p tc : Nat) (its : List LaneItem) (b : Option Bytes) : Dev :=
  modEth (modLane d (ethLane p) (fun l => { l with items := l.items ++ its })) p
    (fun e => { e with stClass := tc, stBytes := b, prot := none })

/-- R261: a staging instant stages copies, or nothing. -/
theorem ethStage_cases (d : Dev) (p : Nat) : ethStage d p = d ∨ ∃ tc its b, ethStage d p = stagedWith d p tc its b := by
  unfold ethStage
  dsimp only
  split
  · split
    · exact .inl rfl
    · exact .inr ⟨_, _, _, rfl⟩
  · exact .inl rfl

/-- R219, R261: at an idle port whose next frame may be staged, the highest class with eligible copies is. -/
theorem ethStage_of_eligible {d : Dev} {p tc : Nat} {its : List LaneItem} (hp : p < 8) (hl : ethLive d p = true)
    (hf : [7, 6, 5, 4, 3, 2, 1, 0].findSome? (eligible d p (nowNs d + ((ethOf d p).wireEnd - runNs d))) = some (tc, its))
    (hst : (ethOf d p).st = 3) (hpa : (ethOf d p).paused = false) (hfr : outFrozen d (6 + p / 2) = false)
    (hsi : stagedItems d p = []) (hcut : (ethOf d p).cutFrame = none) (hw : (ethOf d p).wireEnd ≤ runNs d + wireNs d p 524) :
    ∃ b, ethStage d p = stagedWith d p tc its b := by
  simp only [ethStage, hp, hl, hst, hpa, hfr, hsi, hcut, hw, hf]
  exact ⟨_, rfl⟩

@[simp] theorem stagedWith_clk (d : Dev) (p tc : Nat) (its : List LaneItem) (b : Option Bytes) :
    (stagedWith d p tc its b).clk = d.clk := rfl
@[simp] theorem stagedWith_regs (d : Dev) (p tc : Nat) (its : List LaneItem) (b : Option Bytes) :
    (stagedWith d p tc its b).regs = d.regs := rfl
@[simp] theorem stagedWith_evs (d : Dev) (p tc : Nat) (its : List LaneItem) (b : Option Bytes) :
    (stagedWith d p tc its b).evs = d.evs := rfl
@[simp] theorem stagedWith_queues (d : Dev) (p tc : Nat) (its : List LaneItem) (b : Option Bytes) :
    (stagedWith d p tc its b).lnd.queues = d.lnd.queues := rfl

theorem ethOf_stagedWith (d : Dev) (p tc : Nat) (its : List LaneItem) (b : Option Bytes) :
    ethOf (stagedWith d p tc its b) p = { ethOf d p with stClass := tc, stBytes := b, prot := none } :=
  ethOf_modEth_same ..

theorem ethOf_stagedWith_ne (d : Dev) {p q : Nat} (h : q ≠ p) (tc : Nat) (its : List LaneItem) (b : Option Bytes) :
    ethOf (stagedWith d p tc its b) q = ethOf d q :=
  ethOf_modEth_ne _ h _

theorem laneOf_stagedWith (d : Dev) (p tc : Nat) (its : List LaneItem) (b : Option Bytes) :
    (laneOf (stagedWith d p tc its b) (ethLane p)).items = (laneOf d (ethLane p)).items ++ its := by
  rw [stagedWith, laneOf_modEth, laneOf_modLane_same]

/-- A staging instant keeps what staging copies keeps. -/
theorem ethStage_keeps {α : Type} (g : Dev → α) (p : Nat) (h : ∀ d tc its b, g (stagedWith d p tc its b) = g d) (d : Dev) :
    g (ethStage d p) = g d := by
  obtain he | ⟨tc, its, b, he⟩ := ethStage_cases d p <;> rw [he]
  exact h d tc its b

@[simp] theorem ethStage_clk (d : Dev) (p : Nat) : (ethStage d p).clk = d.clk :=
  ethStage_keeps Dev.clk p (fun d => stagedWith_clk d p) d
@[simp] theorem ethStage_regs (d : Dev) (p : Nat) : (ethStage d p).regs = d.regs :=
  ethStage_keeps Dev.regs p (fun d => stagedWith_regs d p) d
@[simp] theorem ethStage_evs (d : Dev) (p : Nat) : (ethStage d p).evs = d.evs :=
  ethStage_keeps Dev.evs p (fun d => stagedWith_evs d p) d
@[simp] theorem ethStage_queues (d : Dev) (p : Nat) : (ethStage d p).lnd.queues = d.lnd.queues :=
  ethStage_keeps (fun d => d.lnd.queues) p (fun d => stagedWith_queues d p) d
theorem ethOf_ethStage_ne (d : Dev) {p q : Nat} (h : q ≠ p) : ethOf (ethStage d p) q = ethOf d q :=
  ethStage_keeps (fun d => ethOf d q) p (fun d => ethOf_stagedWith_ne d h) d
theorem ethStage_entry (d : Dev) (p : Nat) : (ethOf (ethStage d p) p).entry = (ethOf d p).entry :=
  ethStage_keeps (fun d => (ethOf d p).entry) p (fun d _ _ _ => by rw [ethOf_stagedWith]) d
theorem ethStage_oper (d : Dev) (p : Nat) : (ethOf (ethStage d p) p).oper = (ethOf d p).oper :=
  ethStage_keeps (fun d => (ethOf d p).oper) p (fun d _ _ _ => by rw [ethOf_stagedWith]) d
theorem ethStage_credit (d : Dev) (p tc : Nat) : creditOf (ethStage d p) p tc = creditOf d p tc :=
  ethStage_keeps (fun d => creditOf d p tc) p (fun d _ _ _ => by simp only [creditOf, ethOf_stagedWith]) d

/-! ## Gate control lists (R228, R229) -/

/-- R229: the pending list of a port becomes operational, at its entry of the time. -/
def operational (d : Dev) (p : Nat) (l : GateList) : Dev :=
  modEth d p (fun e => { e with oper := some l, pend := none, entry := (listAt l (nowNs d)).2.2 })

/-- R229: the DATA of GCL_CHANGED. -/
def changedData (d : Dev) (p : Nat) : Bytes := e1 p ++ e4 ((ethOf d p).cct % 1000000000)

/-- R229: a list whose change time has come is operational, and reported. -/
theorem gclChange_due {d : Dev} {p : Nat} {l : GateList} (hl : (ethOf d p).pend = some l) (ht : (ethOf d p).cct ≤ nowNs d) :
    gclChange d p = raise (operational d p l) 0x0805 0 (changedData d p) := by
  simp only [gclChange, hl, ht, if_true]; rfl

/-- R229: without a list whose change time has come nothing changes. -/
theorem gclChange_early {d : Dev} {p : Nat} (h : (ethOf d p).pend = none ∨ nowNs d < (ethOf d p).cct) : gclChange d p = d := by
  unfold gclChange
  dsimp only
  split
  · rfl
  · rename_i l hl
    obtain hn | ht := h
    · rw [hn] at hl; cases hl
    · rw [if_neg (by omega)]

/-- R229: GCL_CHANGED makes a pending list operational, or does nothing. -/
theorem gclChange_cases (d : Dev) (p : Nat) :
    gclChange d p = d ∨ ∃ l, gclChange d p = raise (operational d p l) 0x0805 0 (changedData d p) := by
  cases hl : (ethOf d p).pend with
  | none => exact .inl (gclChange_early (.inl hl))
  | some l =>
    by_cases ht : (ethOf d p).cct ≤ nowNs d
    · exact .inr ⟨l, gclChange_due hl ht⟩
    · exact .inl (gclChange_early (.inr (by omega)))

@[simp] theorem gclChange_clk (d : Dev) (p : Nat) : (gclChange d p).clk = d.clk := by
  obtain h | ⟨l, h⟩ := gclChange_cases d p <;> rw [h]
  rw [raise_clk]; rfl

@[simp] theorem gclChange_regs (d : Dev) (p : Nat) : (gclChange d p).regs = d.regs := by
  obtain h | ⟨l, h⟩ := gclChange_cases d p <;> rw [h]
  rw [raise_regs]; rfl

theorem ethOf_gclChange_due {d : Dev} {p : Nat} {l : GateList} (hl : (ethOf d p).pend = some l) (ht : (ethOf d p).cct ≤ nowNs d) :
    ethOf (gclChange d p) p = { ethOf d p with oper := some l, pend := none, entry := (listAt l (nowNs d)).2.2 } := by
  rw [gclChange_due hl ht, ethOf_raise, operational, ethOf_modEth_same]

theorem gclChange_due_evs {d : Dev} {p : Nat} {l : GateList} (hl : (ethOf d p).pend = some l) (ht : (ethOf d p).cct ≤ nowNs d)
    (hm : 2 ≤ d.clk.mode.num) : (gclChange d p).evs = d.evs ++ [evNow d 0x0805 0 (changedData d p)] := by
  rw [gclChange_due hl ht, raise_evs (by simpa [operational] using hm), operational, evNow_modEth, modEth_evs]

/-- R229: the administrative list is read from the registers. -/
theorem adminList_congr {a b : Dev} (h : a.regs = b.regs) (p : Nat) : adminList a p = adminList b p := by
  simp [adminList, fld, reg, regK, h]

/-- R229: CFGCHG takes the administrative values over, after a list whose change time has come took effect. -/
theorem gclRequest_eq {d : Dev} {p : Nat} (hp : p < 8) (hl : ethLive d p = true) : gclRequest d p =
    modEth (gclChange d p) p (fun e => { e with pend := some (adminList d p), cct := changeTime (adminList d p) (nowNs d) }) := by
  simp only [gclRequest, hp, hl, decide_true, Bool.and_self, if_true, adminList_congr (gclChange_regs d p),
    nowNs_congr (gclChange_clk d p)]

/-- R229: a CFGCHG write that meets no access error is the request alone. -/
theorem exec_gclCfgchg {s : State} {who : Initiator} {p : Nat} (hp : p < 8) (hw : MayWrite s.dev who (ethBase p + 0x40)) :
    exec (.gclCfgchg who p) s = act (fun d => gclRequest d p) s := by
  rw [← access_regWr hw (.gclCfgchg who p)]
  change execGclCfgchg who p s = _
  simp only [execGclCfgchg, hp, if_true]

/-- R228: an entry advance takes the entry that device time gives, and a staging instant. -/
theorem gclAdvance_eq {d : Dev} {p : Nat} (hp : p < 8) (hl : ethLive d p = true) :
    gclAdvance d p = ethStage (modEth d p (fun e => { e with entry := (gatesAt e (nowNs d)).2.2 })) p := by
  simp [gclAdvance, hp, hl]

@[simp] theorem gclAdvance_clk (d : Dev) (p : Nat) : (gclAdvance d p).clk = d.clk := by
  unfold gclAdvance
  split
  · rw [ethStage_clk, modEth_clk]
  · rfl

@[simp] theorem gclAdvance_regs (d : Dev) (p : Nat) : (gclAdvance d p).regs = d.regs := by
  unfold gclAdvance
  split
  · rw [ethStage_regs, modEth_regs]
  · rfl

/-- GCL_CFGCHG where no pending list is due. -/
theorem gclCfgchg_pends (s : State) (who : Initiator) (p : Nat) (hp : p < 8) (hw : MayWrite s.dev who (ethBase p + 0x40))
    (hl : ethLive s.dev p = true) (h : (ethOf s.dev p).pend = none ∨ nowNs s.dev < (ethOf s.dev p).cct) :
    Yields (.gclCfgchg who p) s (fun d => ethOf d p = { ethOf s.dev p with
      pend := some (adminList s.dev p), cct := changeTime (adminList s.dev p) (nowNs s.dev) } ∧ OnlyEth s.dev p d) := by
  refine yields_act (exec_gclCfgchg hp hw) ?_
  rw [gclRequest_eq hp hl, gclChange_early h]
  exact ⟨by rw [ethOf_settle, ethOf_modEth_same], onlyEth_modEth ..⟩

/-- GCL_CFGCHG where a pending list is due. -/
theorem gclCfgchg_after_change (s : State) (who : Initiator) (p : Nat) (l : GateList) (hp : p < 8)
    (hw : MayWrite s.dev who (ethBase p + 0x40)) (hlive : ethLive s.dev p = true) (hl : (ethOf s.dev p).pend = some l)
    (ht : (ethOf s.dev p).cct ≤ nowNs s.dev) :
    Yields (.gclCfgchg who p) s (fun d => (ethOf d p).oper = some l ∧ (ethOf d p).pend = some (adminList s.dev p) ∧
      (ethOf d p).cct = changeTime (adminList s.dev p) (nowNs s.dev) ∧
      d.evs = s.dev.evs ++ [evNow s.dev 0x0805 0 (changedData s.dev p)]) := by
  refine yields_act (exec_gclCfgchg hp hw) ?_
  rw [gclRequest_eq hp hlive, ethOf_settle, ethOf_modEth_same, ethOf_gclChange_due hl ht, settle_evs, modEth_evs,
    gclChange_due_evs hl ht (mode_of_running (running_of_mayWrite hw))]
  exact ⟨rfl, rfl, rfl, rfl⟩

theorem gclChanged_at_change_time (s : State) (p : Nat) (l : GateList) (hl : (ethOf s.dev p).pend = some l)
    (ht : (ethOf s.dev p).cct ≤ nowNs s.dev) (hm : 2 ≤ s.dev.clk.mode.num) :
    Yields (.gclChanged p) s (fun d => ethOf d p = { ethOf s.dev p with
        oper := some l, pend := none, entry := (listAt l (nowNs s.dev)).2.2 } ∧
      d.evs = s.dev.evs ++ [evNow s.dev 0x0805 0 (changedData s.dev p)] ∧
      (∀ q, q ≠ p → ethOf d q = ethOf s.dev q) ∧ d.lnd = s.dev.lnd) := by
  refine yields_act (f := fun d => gclChange d p) rfl ⟨?_, ?_, fun q hq => ?_, ?_⟩
  · rw [ethOf_settle, ethOf_gclChange_due hl ht]
  · rw [settle_evs, gclChange_due_evs hl ht hm]
  · rw [ethOf_settle, gclChange_due hl ht, ethOf_raise, operational, ethOf_modEth_ne _ hq]
  · rw [settle_lnd, gclChange_due hl ht, raise_lnd, operational, modEth_lnd]

theorem gclEntryAdvance_takes_entry (s : State) (p : Nat) (hp : p < 8) (hl : ethLive s.dev p = true) :
    Yields (.gclEntryAdvance p) s (fun d => (ethOf d p).entry = (gatesAt (ethOf s.dev p) (nowNs s.dev)).2.2 ∧
      (ethOf d p).oper = (ethOf s.dev p).oper ∧ (∀ q, q ≠ p → ethOf d q = ethOf s.dev q) ∧ d.evs = s.dev.evs) := by
  refine yields_act (f := fun d => gclAdvance d p) rfl ?_
  rw [gclAdvance_eq hp hl, ethOf_settle]
  refine ⟨?_, ?_, fun q hq => ?_, ?_⟩
  · rw [ethStage_entry, ethOf_modEth_same]
  · rw [ethStage_oper, ethOf_modEth_same]
  · rw [ethOf_settle, ethOf_ethStage_ne _ hq, ethOf_modEth_ne _ hq]
  · rw [settle_evs, ethStage_evs, modEth_evs]

/-! ## Shapers (R231) -/

/-- R231: a class whose credit has risen to zero while frames wait takes the staging instant of its port. -/
theorem creditZero_stages {d : Dev} {p tc : Nat} (hp : p < 8) (hl : ethLive d p = true) (hs : hasShaper d p tc = true)
    (hn : classSends d p tc = false) (hq : queueOf d (qEth p tc) ≠ []) (hg : gateOpen d p tc = true) (hc : 0 ≤ creditOf d p tc) :
    creditZero d p tc = ethStage d p := by
  simp [creditZero, hp, hl, hs, hn, hq, hg, hc]

/-- R231: a class with negative credit does not. -/
theorem creditZero_negative {d : Dev} {p tc : Nat} (h : creditOf d p tc < 0) : creditZero d p tc = d := by
  simp only [creditZero, decide_eq_false (Int.not_le.mpr h), Bool.and_false, Bool.false_eq_true, if_false]

theorem shaperCreditZero_stages (s : State) (p tc : Nat) (hp : p < 8) (hl : ethLive s.dev p = true)
    (hs : hasShaper s.dev p tc = true) (hn : classSends s.dev p tc = false) (hq : queueOf s.dev (qEth p tc) ≠ [])
    (hg : gateOpen s.dev p tc = true) (hc : 0 ≤ creditOf s.dev p tc) :
    Yields (.shaperCreditZero p tc) s (fun d => creditOf d p tc = creditOf s.dev p tc ∧ (∀ q, q ≠ p → ethOf d q = ethOf s.dev q) ∧
      (∀ c its, [7, 6, 5, 4, 3, 2, 1, 0].findSome? (eligible s.dev p (nowNs s.dev + ((ethOf s.dev p).wireEnd - runNs s.dev))) =
          some (c, its) → (ethOf s.dev p).st = 3 → (ethOf s.dev p).paused = false → outFrozen s.dev (6 + p / 2) = false →
          stagedItems s.dev p = [] → (ethOf s.dev p).cutFrame = none →
          (ethOf s.dev p).wireEnd ≤ runNs s.dev + wireNs s.dev p 524 →
        (laneOf d (ethLane p)).items = (laneOf s.dev (ethLane p)).items ++ its) ∧
      d.lnd.queues = s.dev.lnd.queues ∧ d.evs = s.dev.evs) := by
  refine yields_act (f := fun d => creditZero d p tc) rfl ?_
  rw [creditZero_stages hp hl hs hn hq hg hc]
  refine ⟨?_, fun q hq => ?_, fun c its hf hst hpa hfr hsi hcut hw => ?_, ?_, ?_⟩
  · rw [creditOf_settle, ethStage_credit]
  · rw [ethOf_settle, ethOf_ethStage_ne _ hq]
  · obtain ⟨b, hb⟩ := ethStage_of_eligible hp hl hf hst hpa hfr hsi hcut hw
    rw [laneOf_settle, hb, laneOf_stagedWith]
  · rw [settle_lnd, ethStage_queues]
  · rw [settle_evs, ethStage_evs]

/-! ## Device time (R15, R225, R227, R241) -/

theorem heldLow_congr {a b : Dev} (h : a.pairs = b.pairs) (who : Initiator) (off : Nat) : heldLow a who off = heldLow b who off := by
  simp [heldLow, pairOf, h]

/-- R15: a low word that has been used is no longer held. -/
theorem heldLow_dropHold (d : Dev) (who : Initiator) (off : Nat) : heldLow (dropHold d who) who off = none := by
  simp [heldLow, pairOf, dropHold, mapGet, mapGet?_mapPut]

/-- R227: the high-word write of TBS_STEP changes the step that is pending and the low word that is held; one that is not held
counts as 0 (DEDUCED, log entry 99). -/
theorem stepWrite_eq (d : Dev) (who : Initiator) (hi : Nat) : stepWrite d who hi = { d with
    clk := { d.clk with step := some ((heldLow d who 0xC80018).getD 0 + hi * 2 ^ 32) },
    pairs := if (heldLow d who 0xC80018).isSome then (dropHold d who).pairs else d.pairs } := by
  unfold stepWrite
  dsimp only
  split <;> rfl

theorem heldLow_stepWrite (d : Dev) (who : Initiator) (hi : Nat) : heldLow (stepWrite d who hi) who 0xC80018 = none := by
  by_cases h : (heldLow d who 0xC80018).isSome
  · rw [heldLow_congr (b := dropHold d who) (by rw [stepWrite_eq, if_pos h]), heldLow_dropHold]
  · rw [heldLow_congr (b := d) (by rw [stepWrite_eq, if_neg h])]
    exact Option.not_isSome_iff_eq_none.mp h

theorem timeStepWrite_pends (s : State) (who : Initiator) (hi : Word) (hw : MayWrite s.dev who 0xC8001C) :
    Yields (.timeStepWrite who hi) s (fun d =>
      d.clk = { s.dev.clk with step := some ((heldLow s.dev who 0xC80018).getD 0 + hi.toNat * 2 ^ 32) } ∧
      heldLow d who 0xC80018 = none ∧ d.evs = s.dev.evs ∧ d.eth = s.dev.eth ∧ d.regs = s.dev.regs) := by
  refine yields_act (access_regWr hw (.timeStepWrite who hi) (fun d => stepWrite d who hi.toNat)) ?_
  rw [heldLow_congr (settle_pairs _), heldLow_stepWrite, stepWrite_eq]
  simp only [settle_clk, settle_evs, settle_eth, settle_regs, and_self]

/-- R227: realigning the lists of every port keeps what each change of lists and each entry advance keeps. -/
theorem realign_keeps {α : Type} (g : Dev → α) (hc : ∀ d p, g (gclChange d p) = g d) (ha : ∀ d p, g (gclAdvance d p) = g d)
    (l : List Nat) (d : Dev) : g (l.foldl (fun d p => gclAdvance (gclChange d p) p) d) = g d := by
  induction l generalizing d with
  | nil => rfl
  | cons p l ih => rw [List.foldl_cons, ih, ha, hc]

/-- R225, R227: the clocks once the step `v` is applied. -/
def steppedClk (c : Clk) (v : Nat) : Clk :=
  { c with dtime := (((c.dtime : Int) + signed64 v * 2 ^ 39) % (timeWrap : Int)).toNat, step := none }

/-- R227: at a microsecond boundary the step is applied and reported, and every list realigned. -/
theorem timeStep_due {d : Dev} {v : Nat} (hv : d.clk.step = some v) (hu : nowNs d % 1000 < 3) : timeStep d =
    (List.range 8).foldl (fun d p => gclAdvance (gclChange d p) p)
      (raise { d with clk := steppedClk d.clk v } 0x0809 0 (e4 v)) := by
  simp only [timeStep, hv, if_neg (Nat.not_le.mpr hu)]; rfl

/-- R227: without a step, or away from a microsecond boundary, device time is not stepped. -/
theorem timeStep_early {d : Dev} (h : d.clk.step = none ∨ 3 ≤ nowNs d % 1000) : timeStep d = d := by
  unfold timeStep
  split
  · rfl
  · rename_i v hv
    obtain hn | hu := h
    · rw [hn] at hv; cases hv
    · rw [if_pos hu]

theorem timeStep_moves_device_time (s : State) (v : Nat) (hv : s.dev.clk.step = some v) (hu : nowNs s.dev % 1000 < 3) :
    Yields .timeStep s (fun d => d.clk.step = none ∧
      d.clk.dtime = (((s.dev.clk.dtime : Int) + signed64 v * 2 ^ 39) % (timeWrap : Int)).toNat ∧ d.clk.rtc = s.dev.clk.rtc ∧
      d.regs = s.dev.regs) := by
  have hclk : (timeStep s.dev).clk = steppedClk s.dev.clk v := by
    rw [timeStep_due hv hu, realign_keeps Dev.clk gclChange_clk gclAdvance_clk, raise_clk]
  have hregs : (timeStep s.dev).regs = s.dev.regs := by
    rw [timeStep_due hv hu, realign_keeps Dev.regs gclChange_regs gclAdvance_regs, raise_regs]
  refine yields_act (f := timeStep) rfl ?_
  rw [settle_clk, settle_regs, hclk, hregs]
  exact ⟨rfl, rfl, rfl, rfl⟩

/-- R241: an edge of PPS_IN is stamped with device time. -/
theorem ppsIn_running {d : Dev} (h : running d = true) : ppsIn d = { d with clk := { d.clk with ppsIn := nowNs d } } := by
  simp [ppsIn, h]

/-- R241: PPS_OUT rises with PPSEN, at its ball where the pin section assigns it. -/
theorem ppsOut_enabled {d : Dev} (h : running d = true) (he : flag d 0xC80020 1 = true) (hp : d.clk.pinsOn = true) :
    ppsOut d = { d with clk := { d.clk with ppsOut := true }
                        out := if pinOff d 6 then d.out else .line 6 (true != pinInv d 6) :: d.out } := by
  simp only [ppsOut, h, he, hp, Bool.and_self, if_true, drive_eq]; rfl

theorem ppsOut_disabled {d : Dev} (h : flag d 0xC80020 1 = false) : ppsOut d = d := by simp [ppsOut, h]

/-- Settles O30: one lemma per command, from what the staging instant, a change of lists and a step of device time do. -/
theorem gatesShapersAndDeviceTime : Obligations.GatesShapersAndDeviceTime := by
  unfold Obligations.GatesShapersAndDeviceTime
  refine ⟨gclCfgchg_pends, gclCfgchg_after_change, gclChanged_at_change_time, gclEntryAdvance_takes_entry,
    shaperCreditZero_stages, fun s p tc h => ?_, timeStepWrite_pends, timeStep_moves_device_time, fun s h => ?_, fun s h => ?_,
    fun s h he hp => ?_, fun s h => ?_⟩
  · exact exec_of_act rfl (creditZero_negative h)
  · exact exec_of_act rfl (timeStep_early h)
  · exact exec_of_act rfl (ppsIn_running h)
  · exact exec_of_act rfl (ppsOut_enabled h he hp)
  · exact exec_of_act rfl (ppsOut_disabled h)

end Sys2Proof.Machine
end

section
/-! SUPPORT. The Peripheral Bridge (chapter 16): what a bus queue reads after a change, which accesses are taken and which wait,
what the end of a transaction, a timeout and a poll leave of the bridge, and when the accesses that waited take effect. -/

namespace Sys2Proof.Machine

/-! ## Outcomes -/

/-- A command that answers the state after `d` yields what holds of the settled `d`. -/
theorem yields_after {c : Instr} {s : State} {d : Dev} {P : Dev → Prop} (h : exec c s = .next (after s d)) (hp : P (settle d)) :
    Yields c s P :=
  ⟨_, h, rfl, hp⟩

/-- R45, R451, R471: an access that waits behind another, or that finds no place, joins those that wait. -/
theorem accessWhen_held {s : State} {who : Initiator} {full : Dev → Bool} (hc : canAccess s.dev who = true)
    (hw : waitsBehind s.dev who = true ∨ full s.dev = true) (cmd : Instr) (f : Dev → Dev) :
    accessWhen who cmd full f s = .next (after s (holdAccess s.dev who cmd)) := by
  obtain h | h := hw <;> simp [accessWhen, act, after, hc, h]

/-- R45, R451, R471: an access that waits behind none of its initiator and finds its place takes effect at once. -/
theorem accessWhen_takes {s : State} {who : Initiator} {off : Nat} {full : Dev → Bool} (h : MayWrite s.dev who off)
    (hf : full s.dev = false) (cmd : Instr) (f : Dev → Dev) : accessWhen who cmd full f s = .next (after s (f s.dev)) := by
  simp [accessWhen, act, after, h.2.1, hf]

theorem mem_out_drainLine {d : Dev} {o : Output} (h : o ∈ d.out) (n : Nat) (low : Bool) : o ∈ (drainLine n low d).out := by
  unfold drainLine
  split
  · exact List.mem_cons_of_mem _ h
  · exact h

/-- What leaves the device stays in its log when the lines follow. -/
theorem mem_out_settle {d : Dev} {o : Output} (h : o ∈ d.out) : o ∈ (settle d).out := by
  have hdrain := mem_out_drainLine (mem_out_drainLine h 0 (irqLow d)) 1 (hspiLow d)
  unfold settle faultLine
  split
  · exact List.mem_cons_of_mem _ hdrain
  · exact hdrain

/-! ## Bus queues (R471) -/

theorem busQueue_congr {a b : Dev} (h : a.brg.queues = b.brg.queues) (c : Nat) : busQueue a c = busQueue b c := by
  rw [busQueue, busQueue, h]

@[simp] theorem busQueue_settle (d : Dev) (b : Nat) : busQueue (settle d) b = busQueue d b := busQueue_congr (by rw [settle_brg]) b

@[simp] theorem setBus_clk (d : Dev) (b : Nat) (l : List BrgAcc) : (setBus d b l).clk = d.clk := rfl
@[simp] theorem setBus_regs (d : Dev) (b : Nat) (l : List BrgAcc) : (setBus d b l).regs = d.regs := rfl
@[simp] theorem setBus_evs (d : Dev) (b : Nat) (l : List BrgAcc) : (setBus d b l).evs = d.evs := rfl
@[simp] theorem setBus_wait (d : Dev) (b : Nat) (l : List BrgAcc) : (setBus d b l).brg.wait = d.brg.wait := rfl

/-- Read after write; emptying a queue needs the table of queues in its canonical order. -/
theorem busQueue_setBus {d : Dev} {b : Nat} {l : List BrgAcc} (h : l ≠ [] ∨ mapSorted d.brg.queues = true) (c : Nat) :
    busQueue (setBus d b l) c = if b = c then l else busQueue d c := by
  cases l with
  | nil =>
    have hs := h.resolve_left (fun hn => hn rfl)
    simp only [busQueue, setBus, modBrg, List.isEmpty_nil, if_true, mapGet, mapGet?_mapDel hs]
    split <;> rfl
  | cons a l =>
    simp only [busQueue, setBus, modBrg, List.isEmpty_cons, Bool.false_eq_true, if_false, mapGet, mapGet?_mapPut]
    split <;> rfl

/-- R471: issuing marks the head of a bus queue, where it is not marked already, and puts its transaction out. -/
theorem brgIssue_cases (d : Dev) (b : Nat) : brgIssue d b = d ∧ (∀ a l, busQueue d b = a :: l → a.issued = true) ∨
    ∃ a l o, busQueue d b = a :: l ∧ brgIssue d b = emit (setBus d b ({ a with issued := true } :: l)) o := by
  unfold brgIssue
  split
  · rename_i h
    exact .inl ⟨rfl, fun a l hl => by rw [h] at hl; cases hl⟩
  · rename_i a l h
    split
    · rename_i hi
      exact .inl ⟨rfl, fun a' l' hl => by rw [h] at hl; cases hl; exact hi⟩
    · exact .inr ⟨a, l, _, h, rfl⟩

theorem brgIssue_empty {d : Dev} {b : Nat} (h : busQueue d b = []) : brgIssue d b = d := by simp only [brgIssue, h]

/-- R471: the bus queues after the head of one is issued. -/
theorem busQueue_brgIssue (d : Dev) (b c : Nat) : busQueue (brgIssue d b) c =
    if b = c then (busQueue d b).modifyHead (fun x => { x with issued := true }) else busQueue d c := by
  obtain ⟨h, hi⟩ | ⟨a, l, o, hq, h⟩ := brgIssue_cases d b <;> rw [h]
  · split
    · rename_i hbc
      subst hbc
      cases hq : busQueue d b with
      | nil => rfl
      | cons a l =>
        obtain ⟨⟩ := a
        cases hi _ _ hq
        rfl
    · rfl
  · rw [hq]
    exact busQueue_setBus (.inl (List.cons_ne_nil _ _)) c

/-- Issuing keeps what a change of a queue and an output keep. -/
theorem brgIssue_keeps {α : Type} (g : Dev → α) (h : ∀ d b l o, g (emit (setBus d b l) o) = g d) (d : Dev) (b : Nat) :
    g (brgIssue d b) = g d := by
  obtain ⟨he, -⟩ | ⟨a, l, o, -, he⟩ := brgIssue_cases d b <;> rw [he]
  exact h ..

@[simp] theorem brgIssue_regs (d : Dev) (b : Nat) : (brgIssue d b).regs = d.regs := brgIssue_keeps Dev.regs (fun _ _ _ _ => rfl) d b
@[simp] theorem brgIssue_lnd (d : Dev) (b : Nat) : (brgIssue d b).lnd = d.lnd := brgIssue_keeps Dev.lnd (fun _ _ _ _ => rfl) d b
@[simp] theorem brgIssue_evs (d : Dev) (b : Nat) : (brgIssue d b).evs = d.evs := brgIssue_keeps Dev.evs (fun _ _ _ _ => rfl) d b
@[simp] theorem brgIssue_seq (d : Dev) (b : Nat) : (brgIssue d b).brg.seq = d.brg.seq :=
  brgIssue_keeps (fun d => d.brg.seq) (fun _ _ _ _ => rfl) d b
@[simp] theorem brgIssue_wait (d : Dev) (b : Nat) : (brgIssue d b).brg.wait = d.brg.wait :=
  brgIssue_keeps (fun d => d.brg.wait) (fun _ _ _ _ => rfl) d b
@[simp] theorem brgIssue_pollVal (d : Dev) (b : Nat) : (brgIssue d b).brg.pollVal = d.brg.pollVal :=
  brgIssue_keeps (fun d => d.brg.pollVal) (fun _ _ _ _ => rfl) d b

/-! ## Acceptance (R471, R472) -/

/-- R471: an accepted access joins its queue under the number that was next; the head of the queue is issued. -/
theorem busQueue_brgAccept (d : Dev) (b : Nat) (a : BrgAcc) (c : Nat) : busQueue (brgAccept d b a) c =
    if b = c then (busQueue d b ++ [{ a with seq := d.brg.seq }]).modifyHead (fun x => { x with issued := true })
    else busQueue d c := by
  have hne : busQueue d b ++ [{ a with seq := d.brg.seq }] ≠ [] := List.append_ne_nil_of_right_ne_nil _ (List.cons_ne_nil _ _)
  rw [brgAccept, busQueue_brgIssue, busQueue_setBus (.inl hne), busQueue_setBus (.inl hne), if_pos rfl]
  by_cases hbc : b = c
  · rw [if_pos hbc, if_pos hbc]
  · rw [if_neg hbc, if_neg hbc, if_neg hbc]
    rfl

@[simp] theorem brgAccept_seq (d : Dev) (b : Nat) (a : BrgAcc) : (brgAccept d b a).brg.seq = (d.brg.seq + 1) % 2 ^ 32 :=
  brgIssue_seq ..
@[simp] theorem brgAccept_regs (d : Dev) (b : Nat) (a : BrgAcc) : (brgAccept d b a).regs = d.regs := brgIssue_regs ..
@[simp] theorem brgAccept_lnd (d : Dev) (b : Nat) (a : BrgAcc) : (brgAccept d b a).lnd = d.lnd := brgIssue_lnd ..
@[simp] theorem brgAccept_evs (d : Dev) (b : Nat) (a : BrgAcc) : (brgAccept d b a).evs = d.evs := brgIssue_evs ..

/-- R471: what an acceptance on the bus `b` leaves, once the lines have followed. -/
theorem settle_brgAccept (d : Dev) (b : Nat) (a : BrgAcc) :
    (settle (brgAccept d b a)).brg.seq = (d.brg.seq + 1) % 2 ^ 32 ∧
    busQueue (settle (brgAccept d b a)) b =
      (busQueue d b ++ [{ a with seq := d.brg.seq }]).modifyHead (fun x => { x with issued := true }) ∧
    (∀ c, c ≠ b → busQueue (settle (brgAccept d b a)) c = busQueue d c) ∧
    (settle (brgAccept d b a)).regs = d.regs ∧ (settle (brgAccept d b a)).lnd = d.lnd ∧ (settle (brgAccept d b a)).evs = d.evs := by
  refine ⟨by simp, ?_, fun c hc => ?_, by simp, by simp, by simp⟩
  · rw [busQueue_settle, busQueue_brgAccept, if_pos rfl]
  · rw [busQueue_settle, busQueue_brgAccept, if_neg (Ne.symm hc)]

/-- R471: whether a command that is a bridge access and meets no access error finds its bus queue full. -/
theorem brgFull_eq {d : Dev} {who : Initiator} {off : Nat} {cmd : Instr} {op : BrgOp} (h : MayWrite d who off)
    (hop : bridgeOp cmd = some op) : brgFull cmd who off d = !brgRoom d who op := by
  simp only [brgFull, h.2.2, hop, beq_self_eq_true, Bool.true_and]

section Window
variable {s : State} {who : Initiator} {off win o : Nat} (hm : MayWrite s.dev who off) (hwin : brgWindow off = some (win, o))
include hm hwin

/-- R471: a write of a window has its place while fewer than 32 accesses are in the queue of its bus. -/
theorem brgFull_bridgeWrite (w : Word) : brgFull (.bridgeWrite who off w) who off s.dev = !busRoom s.dev (farBus win) := by
  rw [brgFull_eq hm (cmd := .bridgeWrite who off w) (op := .write off w.toNat) rfl, brgRoom, hwin]

/-- R471: so has a read. -/
theorem brgFull_bridgeRead : brgFull (.bridgeRead who off) who off s.dev = !busRoom s.dev (farBus win) := by
  rw [brgFull_eq hm (cmd := .bridgeRead who off) (op := .read off) rfl, brgRoom, hwin]

theorem exec_bridgeWrite_room (w : Word) (hroom : (busQueue s.dev (farBus win)).length < 32) :
    exec (.bridgeWrite who off w) s = .next (after s (brgAccept s.dev (farBus win) (newAcc s.dev who win off true w.toNat))) := by
  have hfull : brgFull (.bridgeWrite who off w) who off s.dev = false := by
    rw [brgFull_bridgeWrite hm hwin, busRoom, decide_eq_true hroom, Bool.not_true]
  change execBridgeWrite who off w s = _
  rw [execBridgeWrite, accessWhen_takes hm hfull, regWr_of hm, brgWrite, brgTake, hwin]

theorem exec_bridgeWrite_full (w : Word) (hfull : 32 ≤ (busQueue s.dev (farBus win)).length) :
    exec (.bridgeWrite who off w) s = .next (after s (holdAccess s.dev who (.bridgeWrite who off w))) := by
  change execBridgeWrite who off w s = _
  refine accessWhen_held hm.1 (.inr ?_) _ _
  rw [brgFull_bridgeWrite hm hwin, busRoom, decide_eq_false (Nat.not_lt.mpr hfull), Bool.not_false]

theorem exec_bridgeRead_room (hroom : (busQueue s.dev (farBus win)).length < 32) :
    exec (.bridgeRead who off) s = .next (after s (brgAccept s.dev (farBus win) (newAcc s.dev who win off false 0))) := by
  have hfull : brgFull (.bridgeRead who off) who off s.dev = false := by
    rw [brgFull_bridgeRead hm hwin, busRoom, decide_eq_true hroom, Bool.not_true]
  have htake : brgRead s.dev who off = brgAccept s.dev (farBus win) (newAcc s.dev who win off false 0) := by
    rw [brgRead, hwin, brgTake, hwin]; rfl
  change execBridgeRead who off s = _
  rw [execBridgeRead, accessWhen_takes hm hfull, ← htake]
  simp [hm.1, hm.2.2, hwin]

theorem exec_bridgeRead_full (hfull : 32 ≤ (busQueue s.dev (farBus win)).length) :
    exec (.bridgeRead who off) s = .next (after s (holdAccess s.dev who (.bridgeRead who off))) := by
  change execBridgeRead who off s = _
  refine accessWhen_held hm.1 (.inr ?_) _ _
  rw [brgFull_bridgeRead hm hwin, busRoom, decide_eq_false (Nat.not_lt.mpr hfull), Bool.not_false]

end Window

section Behind
variable {s : State} {who : Initiator} (hc : canAccess s.dev who = true) (hb : waitsBehind s.dev who = true)
include hc hb

theorem exec_registerWrite_behind (off size : Nat) (w : Word) :
    exec (.registerWrite who off size w) s = .next (after s (holdAccess s.dev who (.registerWrite who off size w))) := by
  change execRegisterWrite who off size w s = _
  exact accessWhen_held hc (.inl hb) _ _

theorem exec_registerRead_behind (r : ReadAt) :
    exec (.registerPairLowRead who r) s = .next (after s (holdAccess s.dev who (.registerPairLowRead who r))) := by
  change execRegisterPairLowRead who r s = _
  exact accessWhen_held hc (.inl hb) _ _

end Behind

/-! ## Accesses that waited (R45, R451, log entry 119) -/

theorem admitHeld_none {d : Dev} (h : d.brg.wait = []) : admitHeld d = d := by
  rw [admitHeld, h, List.foldl_nil, modBrg, ← h]

/-- R45, R451: the one access that waited, which is of no bridge queue, takes effect once its window has room. -/
theorem admitHeld_one {d : Dev} {x : BrgWait} (h : d.brg.wait = [x]) (hg : x.gone = false) (hop : bridgeOp x.cmd = none)
    (hr : windowReady (modBrg d (fun g => { g with wait := [] })) x.cmd = true) :
    admitHeld d = effectOf (accessOf x.cmd) (modBrg d (fun g => { g with wait := [] })) := by
  have hready : heldReady (modBrg d (fun g => { g with wait := [] })) x = true := by rw [heldReady, hop]; exact hr
  have hfirst : waitsBehind (modBrg d (fun g => { g with wait := [] })) x.who = false := rfl
  rw [admitHeld, h, List.foldl_cons, List.foldl_nil, heldStep, hready, hfirst, hg]
  rfl

/-! ## Results (R472 to R475) -/

/-- R473: a posted write that failed is reported. -/
theorem brgPostedFail_evs {d : Dev} (h : 2 ≤ d.clk.mode.num) (a : BrgAcc) (r : Nat) : (brgPostedFail d a r).evs =
    d.evs ++ [evNow d 0x1010 0 (e4 a.seq ++ e4 a.off ++ e4 a.data.toNat ++ e1 a.who ++ e1 r)] :=
  raise_evs (d := bump (brgLog d a a.who r) 0x901400 0) h ..

@[simp] theorem brgPostedFail_regs (d : Dev) (a : BrgAcc) (r : Nat) : (brgPostedFail d a r).regs = d.regs := raise_regs ..

/-- R473: a posted write that failed enters the log. -/
theorem brgPostedFail_logNext (d : Dev) (a : BrgAcc) (r : Nat) : (brgPostedFail d a r).brg.logNext = d.brg.logNext + 1 := by
  rw [brgPostedFail, raise_brg]; rfl

/-- R472: a read that failed is reported. -/
theorem brgReadFail_evs {d : Dev} (h : 2 ≤ d.clk.mode.num) (a : BrgAcc) (r : Nat) : (brgReadFail d a r).evs =
    d.evs ++ [evNow d 0x1011 0 (e4 a.seq ++ e4 a.off ++ e1 a.who ++ e1 r)] :=
  raise_evs (d := bump (brgLog (emit (modBrg d (fun g => { g with rderr := true }))
    (.completion (brgWho a.who) a.off 0xFFFFFFFF)) a a.who r) 0x901408 0) h ..

@[simp] theorem brgReadFail_regs (d : Dev) (a : BrgAcc) (r : Nat) : (brgReadFail d a r).regs = d.regs := raise_regs ..

theorem brgReadFail_rderr (d : Dev) (a : BrgAcc) (r : Nat) : (brgReadFail d a r).brg.rderr = true := by
  rw [brgReadFail, raise_brg]; rfl

/-- R472: a read that failed answers all ones. -/
theorem brgReadFail_out (d : Dev) (a : BrgAcc) (r : Nat) :
    Output.completion (brgWho a.who) a.off 0xFFFFFFFF ∈ (brgReadFail d a r).out := by
  rw [brgReadFail, raise_out]; exact List.mem_cons_self ..

theorem brgReadFail_frame (d : Dev) (a : BrgAcc) (r : Nat) :
    (brgReadFail d a r).brg.queues = d.brg.queues ∧ (brgReadFail d a r).brg.wait = d.brg.wait := by
  rw [brgReadFail, raise_brg]; exact ⟨rfl, rfl⟩

/-- R475: a poll that shows a change of its masked bits holds the new value and reports it. -/
theorem brgPollDone_changed {d : Dev} {a : BrgAcc} {w : Nat} (hm : 2 ≤ d.clk.mode.num) (hw : w < 65536)
    (hc : (mapGet 0 d.brg.pollVal a.poll ^^^ w) &&& bits (reg d (0x900100 + 0xC * a.poll)) 16 16 ≠ 0) :
    mapGet? (brgPollDone d a w).brg.pollVal a.poll = some w ∧ (brgPollDone d a w).evs = d.evs ++
      [evNow d 0x1012 0 (e1 a.poll ++ e2 (mapGet 0 d.brg.pollVal a.poll) ++ e2 w)] := by
  have he : brgPollDone d a w = raise (modBrg d (fun g => { g with pollVal := mapPut g.pollVal a.poll w })) 0x1012 0
      (e1 a.poll ++ e2 (mapGet 0 d.brg.pollVal a.poll) ++ e2 w) := by
    simp only [brgPollDone, Nat.mod_eq_of_lt hw, bne_iff_ne.mpr hc, if_true]
  rw [he]
  refine ⟨?_, raise_evs (d := modBrg d (fun g => { g with pollVal := mapPut g.pollVal a.poll w })) hm ..⟩
  rw [raise_brg]
  exact (mapGet?_mapPut ..).trans (if_pos rfl)

/-! ## The end of a transaction (R471) -/

/-- No result changes the queues of the buses or what waits for them. -/
theorem brgEnd_frame (d : Dev) (a : BrgAcc) (res : FarRes) :
    (brgEnd d a res).brg.queues = d.brg.queues ∧ (brgEnd d a res).brg.wait = d.brg.wait := by
  have hpoll : ∀ w, (brgPollDone d a w).brg.queues = d.brg.queues ∧ (brgPollDone d a w).brg.wait = d.brg.wait := by
    intro w
    unfold brgPollDone
    dsimp only
    split
    · rw [raise_brg]; exact ⟨rfl, rfl⟩
    · exact ⟨rfl, rfl⟩
  have hird : ∀ w st, (brgIrdDone d a w st).brg.queues = d.brg.queues ∧ (brgIrdDone d a w st).brg.wait = d.brg.wait := by
    intro w st
    rw [brgIrdDone, raise_brg]; exact ⟨rfl, rfl⟩
  cases res with
  | ok w =>
    simp only [brgEnd]
    split
    · exact ⟨rfl, rfl⟩
    · split
      · exact hird ..
      · split
        · exact hpoll ..
        · exact ⟨rfl, rfl⟩
  | failed r =>
    simp only [brgEnd]
    split
    · rw [brgPostedFail, raise_brg]; exact ⟨rfl, rfl⟩
    · split
      · exact ⟨rfl, rfl⟩
      · split
        · exact hird ..
        · split
          · exact ⟨rfl, rfl⟩
          · exact brgReadFail_frame ..

/-- R471: the end of the transaction in progress takes the head of the queue and issues the next access. -/
theorem brgFarDone_issued {d : Dev} {b : Nat} {a : BrgAcc} {l : List BrgAcc} (hr : running d = true) (hq : busQueue d b = a :: l)
    (hi : a.issued = true) (res : FarRes) : brgFarDone d b res = brgIssue (brgEnd (setBus d b l) a res) b := by
  simp only [brgFarDone, hr, hq, hi, Bool.not_true, Bool.false_eq_true, if_false, if_true]

/-- R471: the end of the only transaction of a bus leaves its queue empty. -/
theorem brgFarDone_last {d : Dev} {b : Nat} {a : BrgAcc} (hr : running d = true) (hq : busQueue d b = [a]) (hi : a.issued = true)
    (hs : mapSorted d.brg.queues = true) (res : FarRes) : brgFarDone d b res = brgEnd (setBus d b []) a res := by
  rw [brgFarDone_issued hr hq hi, brgIssue_empty]
  rw [busQueue_congr (brgEnd_frame ..).1, busQueue_setBus (.inr hs), if_pos rfl]

/-- Without a transaction on a bus there is no end of one. -/
theorem brgFarDone_idle {d : Dev} {b : Nat} (h : busQueue d b = []) (res : FarRes) : brgFarDone d b res = d := by
  simp only [brgFarDone, h, ite_self]

@[simp] theorem brgFarDone_wait (d : Dev) (b : Nat) (res : FarRes) : (brgFarDone d b res).brg.wait = d.brg.wait := by
  unfold brgFarDone
  split
  · rfl
  · split
    · rfl
    · split
      · rw [brgIssue_wait, (brgEnd_frame ..).2, setBus_wait]
      · rfl

/-- Where no access waits, BRIDGE_FAR_DONE is the end of the transaction alone. -/
theorem exec_bridgeFarDone {s : State} (h : s.dev.brg.wait = []) (b : Nat) (res : FarRes) :
    exec (.bridgeFarDone b res) s = .next (after s (brgFarDone s.dev b res)) :=
  exec_of_act (f := fun d => admitHeld (brgFarDone d b res)) rfl (admitHeld_none (by rw [brgFarDone_wait, h]))

theorem bridgeFarDone_admits (s : State) (b : Nat) (res : FarRes) (x : BrgWait) (d : Dev) (hx : s.dev.brg.wait = [x])
    (hg : x.gone = false) (hop : bridgeOp x.cmd = none) (hd : d = modBrg (brgFarDone s.dev b res) (fun g => { g with wait := [] }))
    (hr : windowReady d x.cmd = true) : exec (.bridgeFarDone b res) s = .next (after s (effectOf (accessOf x.cmd) d)) := by
  subst hd
  exact exec_of_act (f := fun d => admitHeld (brgFarDone d b res)) rfl (admitHeld_one (by rw [brgFarDone_wait, hx]) hg hop hr)

theorem bridgeFarDone_answers_read (s : State) (b : Nat) (a : BrgAcc) (w : Word) (hr : running s.dev = true)
    (hq : busQueue s.dev b = [a]) (hi : a.issued = true) (hw : a.write = false) (hdead : a.dead = false) (hk : a.kind = 0)
    (hwait : s.dev.brg.wait = []) (hs : mapSorted s.dev.brg.queues = true) :
    Yields (.bridgeFarDone b (.ok w)) s (fun d => busQueue d b = [] ∧ (∀ c, c ≠ b → busQueue d c = busQueue s.dev c) ∧
      Output.completion (brgWho a.who) a.off (BitVec.ofNat 32 (farData s.dev (accWin a).1 (accWin a).2 w.toNat)) ∈ d.out ∧
      d.regs = s.dev.regs ∧ d.evs = s.dev.evs) := by
  have hend : brgEnd (setBus s.dev b []) a (.ok w) = emit (setBus s.dev b [])
      (.completion (brgWho a.who) a.off (BitVec.ofNat 32 (farData s.dev (accWin a).1 (accWin a).2 w.toNat))) := by
    simp only [brgEnd, hw, hdead, hk]; rfl
  have hqueue : ∀ c, busQueue (settle (brgFarDone s.dev b (.ok w))) c = if b = c then [] else busQueue s.dev c := by
    intro c
    rw [busQueue_settle, brgFarDone_last hr hq hi hs, busQueue_congr (brgEnd_frame ..).1, busQueue_setBus (.inr hs)]
  refine yields_after (exec_bridgeFarDone hwait b _) ⟨?_, fun c hc => ?_, ?_, ?_, ?_⟩
  · rw [hqueue, if_pos rfl]
  · rw [hqueue, if_neg (Ne.symm hc)]
  · rw [brgFarDone_last hr hq hi hs, hend]
    exact mem_out_settle (List.mem_cons_self ..)
  · rw [settle_regs, brgFarDone_last hr hq hi hs, hend, emit_regs, setBus_regs]
  · rw [settle_evs, brgFarDone_last hr hq hi hs, hend, emit_evs, setBus_evs]

theorem bridgeFarDone_reports_write (s : State) (b r : Nat) (a : BrgAcc) (hr : running s.dev = true)
    (hq : busQueue s.dev b = [a]) (hi : a.issued = true) (hw : a.write = true) (hwait : s.dev.brg.wait = [])
    (hs : mapSorted s.dev.brg.queues = true) :
    Yields (.bridgeFarDone b (.failed r)) s (fun d => busQueue d b = [] ∧ d.brg.logNext = s.dev.brg.logNext + 1 ∧
      d.evs = s.dev.evs ++ [evNow s.dev 0x1010 0 (e4 a.seq ++ e4 a.off ++ e4 a.data.toNat ++ e1 a.who ++ e1 r)] ∧
      d.regs = s.dev.regs) := by
  have hend : brgEnd (setBus s.dev b []) a (.failed r) = brgPostedFail (setBus s.dev b []) a r := by
    simp only [brgEnd, hw, if_true]
  refine yields_after (exec_bridgeFarDone hwait b _) ?_
  rw [busQueue_settle, settle_brg, settle_evs, settle_regs, brgFarDone_last hr hq hi hs]
  refine ⟨?_, ?_, ?_, ?_⟩
  · rw [busQueue_congr (brgEnd_frame ..).1, busQueue_setBus (.inr hs), if_pos rfl]
  · rw [hend, brgPostedFail_logNext]; rfl
  · rw [hend]; exact brgPostedFail_evs (d := setBus s.dev b []) (mode_of_running hr) a r
  · rw [hend, brgPostedFail_regs, setBus_regs]

theorem bridgeFarDone_reports_poll (s : State) (b : Nat) (a : BrgAcc) (w : Word) (hr : running s.dev = true)
    (hq : busQueue s.dev b = [a]) (hi : a.issued = true) (hw : a.write = false) (hdead : a.dead = false) (hk : a.kind = 2)
    (hwait : s.dev.brg.wait = []) (hlt : farData s.dev (accWin a).1 (accWin a).2 w.toNat < 65536)
    (hc : ((mapGet 0 s.dev.brg.pollVal a.poll ^^^ farData s.dev (accWin a).1 (accWin a).2 w.toNat) &&&
      bits (reg s.dev (0x900100 + 0xC * a.poll)) 16 16) ≠ 0) :
    Yields (.bridgeFarDone b (.ok w)) s (fun d =>
      mapGet? d.brg.pollVal a.poll = some (farData s.dev (accWin a).1 (accWin a).2 w.toNat) ∧
      d.evs = s.dev.evs ++ [evNow s.dev 0x1012 0 (e1 a.poll ++ e2 (mapGet 0 s.dev.brg.pollVal a.poll) ++
        e2 (farData s.dev (accWin a).1 (accWin a).2 w.toNat))]) := by
  have hend : brgEnd (setBus s.dev b []) a (.ok w) =
      brgPollDone (setBus s.dev b []) a (farData s.dev (accWin a).1 (accWin a).2 w.toNat) := by
    simp only [brgEnd, hw, hdead, hk]; rfl
  refine yields_after (exec_bridgeFarDone hwait b _) ?_
  rw [settle_brg, settle_evs, brgFarDone_issued hr hq hi, brgIssue_pollVal, brgIssue_evs, hend]
  exact brgPollDone_changed (d := setBus s.dev b []) (mode_of_running hr) hlt hc

/-! ## Timeouts and polls (R472, R475) -/

/-- R472: a read alone in the bridge that has not begun is cancelled 64 µs after its acceptance. -/
theorem brgTimeout_lone {d : Dev} {b : Nat} {a : BrgAcc} (hr : running d = true) (hq : d.brg.queues = [(b, [a])])
    (hw : a.write = false) (hk : a.kind = 0) (hdead : a.dead = false) (hi : a.issued = false) :
    brgTimeout d a.seq = brgReadFail (setBus d b []) a 5 := by
  simp [brgTimeout, hr, hq, hw, hk, hdead, hi]

theorem bridgeReadTimeout_cancels (s : State) (b : Nat) (a : BrgAcc) (hr : running s.dev = true)
    (hq : s.dev.brg.queues = [(b, [a])]) (hw : a.write = false) (hk : a.kind = 0) (hdead : a.dead = false)
    (hi : a.issued = false) (hwait : s.dev.brg.wait = []) :
    Yields (.bridgeReadTimeout a.seq) s (fun d => busQueue d b = [] ∧ d.brg.rderr = true ∧
      Output.completion (brgWho a.who) a.off 0xFFFFFFFF ∈ d.out ∧
      d.evs = s.dev.evs ++ [evNow s.dev 0x1011 0 (e4 a.seq ++ e4 a.off ++ e1 a.who ++ e1 5)] ∧ d.regs = s.dev.regs) := by
  obtain ⟨hqueues, hkept⟩ := brgReadFail_frame (setBus s.dev b []) a 5
  have hadmit : admitHeld (brgTimeout s.dev a.seq) = brgReadFail (setBus s.dev b []) a 5 := by
    rw [brgTimeout_lone hr hq hw hk hdead hi, admitHeld_none (by rw [hkept, setBus_wait, hwait])]
  refine yields_after (exec_of_act (f := fun d => admitHeld (brgTimeout d a.seq)) rfl hadmit) ⟨?_, ?_, ?_, ?_, ?_⟩
  · rw [busQueue_settle, busQueue_congr hqueues, busQueue_setBus (.inr (by rw [hq]; rfl)), if_pos rfl]
  · rw [settle_brg, brgReadFail_rderr]
  · exact mem_out_settle (brgReadFail_out ..)
  · rw [settle_evs]; exact brgReadFail_evs (d := setBus s.dev b []) (mode_of_running hr) a 5
  · rw [settle_regs, brgReadFail_regs, setBus_regs]

/-- R475: BUS of BRG_POLLCFG. -/
def pollWin (d : Dev) (k : Nat) : Nat := bits (reg d (0x900100 + 0xC * k)) 1 3

/-- R475: the read of a poll entry, before its acceptance. -/
def pollAcc (d : Dev) (k : Nat) : BrgAcc :=
  { seq := 0, who := 3, off := winBase (pollWin d k) + bits (reg d (0x900104 + 0xC * k)) 0 20,
    addr := if pollWin d k = 2 || pollWin d k = 3 then bits (reg d (0x900104 + 0xC * k)) 20 10 else 0,
    write := false, data := 0, kind := 2, poll := k, issued := false, dead := false }

/-- R475: an enabled poll whose bus is empty is accepted on it. -/
theorem brgPoll_starts {d : Dev} {k : Nat} (hr : running d = true) (hk : k < 16) (he : bit (reg d (0x900100 + 0xC * k)) 0 = true)
    (hwin : pollWin d k ≠ 7) (hq : busQueue d (farBus (pollWin d k)) = []) :
    brgPoll d k = brgAccept d (farBus (pollWin d k)) (pollAcc d k) := by
  have hmay : (!running d || decide (16 ≤ k) || !bit (reg d (0x900100 + 0xC * k)) 0 || decide (pollWin d k = 7) ||
      !(busQueue d (farBus (pollWin d k))).isEmpty) = false := by
    simp [hr, he, hwin, hq, hk]
  exact if_neg (ne_true_of_eq_false hmay)

/-- R475: a poll does not start while its bus has an access. -/
theorem brgPoll_busy {d : Dev} {k : Nat} (h : busQueue d (farBus (pollWin d k)) ≠ []) : brgPoll d k = d := by
  have hne : (busQueue d (farBus (pollWin d k))).isEmpty = false := by simpa using h
  unfold pollWin at hne
  simp only [brgPoll, hne, Bool.not_false, Bool.or_true, if_true]

theorem bridgePoll_reads (s : State) (k : Nat) (hr : running s.dev = true) (hk : k < 16)
    (he : bit (reg s.dev (0x900100 + 0xC * k)) 0 = true) (hwin : pollWin s.dev k ≠ 7)
    (hq : busQueue s.dev (farBus (pollWin s.dev k)) = []) :
    Yields (.bridgePoll k) s (fun d => ∃ a, busQueue d (farBus (pollWin s.dev k)) = [a] ∧ a.kind = 2 ∧ a.poll = k ∧
      a.who = 3 ∧ a.issued = true ∧ a.write = false ∧ d.regs = s.dev.regs ∧ d.evs = s.dev.evs) := by
  obtain ⟨-, hqueue, -, hregs, -, hevs⟩ := settle_brgAccept s.dev (farBus (pollWin s.dev k)) (pollAcc s.dev k)
  rw [hq] at hqueue
  exact yields_after (exec_of_act (f := fun d => brgPoll d k) rfl (brgPoll_starts hr hk he hwin hq))
    ⟨_, hqueue, rfl, rfl, rfl, rfl, rfl, hregs, hevs⟩

/-- Settles O55: acceptance and waiting by whether the bus queue has a place, the end of a transaction by its result, the
timeout and the poll by what their bus holds. -/
theorem bridgeAccessesGoInOrder : Obligations.BridgeAccessesGoInOrder := by
  unfold Obligations.BridgeAccessesGoInOrder
  refine ⟨fun s who off win o w hm hwin hroom => ?_, fun s who off win o w hm hwin hfull => exec_bridgeWrite_full hm hwin w hfull,
    fun s who off win o hm hwin hroom => ?_, fun s who off win o hm hwin hfull => exec_bridgeRead_full hm hwin hfull,
    fun s who off size w hc hb => ⟨exec_registerWrite_behind hc hb off size w, exec_registerRead_behind hc hb ⟨off, size⟩⟩,
    bridgeFarDone_admits, bridgeFarDone_answers_read, bridgeFarDone_reports_write, fun s b res hq hwait => ?_,
    bridgeReadTimeout_cancels, bridgePoll_reads, fun s k _ _ hq => ?_, bridgeFarDone_reports_poll⟩
  case refine_1 =>
    obtain ⟨hseq, hqueue, hother, hregs, hlnd, hevs⟩ :=
      settle_brgAccept s.dev (farBus win) (newAcc s.dev who win off true w.toNat)
    exact yields_after (exec_bridgeWrite_room hm hwin w hroom)
      ⟨hseq, ⟨_, hqueue, rfl, rfl, rfl, rfl, BitVec.ofNat_toNat ..⟩, hother, hregs, hlnd, hevs⟩
  case refine_2 =>
    obtain ⟨hseq, hqueue, hother, hregs, -, hevs⟩ := settle_brgAccept s.dev (farBus win) (newAcc s.dev who win off false 0)
    exact yields_after (exec_bridgeRead_room hm hwin hroom)
      ⟨hseq, ⟨_, hqueue, rfl, rfl, rfl, rfl⟩, hother, hregs, hevs⟩
  case refine_3 => rw [exec_bridgeFarDone hwait, brgFarDone_idle hq]
  case refine_4 => exact exec_of_act (f := fun d => brgPoll d k) rfl (brgPoll_busy hq)

end Sys2Proof.Machine
end

section
/-! SUPPORT. Reset pins, rails and a boot without an image (chapters 03, 04 and 18): what a reset leaves of the lines, the
register file and the wake bits, and what the end of a boot without an image leaves in force. -/

namespace Sys2Proof.Machine

/-! ## Bits -/

theorem bit_setBit (v i j : Nat) (b : Bool) : bit (setBit v i b) j = if i = j then b else bit v j := by
  have hform : setBit v i b = 2 ^ i * (2 ^ 1 * (v >>> (i + 1)) + b.toNat) + v % 2 ^ i := by
    have hb : b.toNat % 2 ^ 1 = b.toNat := by cases b <;> rfl
    rw [setBit, setBits, hb, Nat.pow_succ, Nat.pow_one, Nat.mul_add, Nat.mul_comm (v >>> (i + 1)), Nat.mul_assoc,
      Nat.mul_comm b.toNat]
  rw [bit, bit, hform, Nat.testBit_two_pow_mul_add _ (Nat.mod_lt _ (Nat.two_pow_pos i))]
  rcases Nat.lt_trichotomy j i with hlt | rfl | hgt
  · rw [if_pos hlt, if_neg (by omega), Nat.testBit_mod_two_pow]
    simp [hlt]
  · rw [if_neg (Nat.lt_irrefl j), if_pos rfl, Nat.sub_self, Nat.testBit_two_pow_mul_add _ b.toNat_lt]
    cases b <;> rfl
  · rw [if_neg (by omega), if_neg (by omega), Nat.testBit_two_pow_mul_add _ b.toNat_lt, if_neg (by omega), Nat.testBit_shiftRight]
    congr 1
    omega

/-- R4: a word keeps its 32 bits. -/
theorem bit_word {i : Nat} (h : i < 32) (v : Nat) : bit (v % 2 ^ 32) i = bit v i := by
  rw [bit, bit, Nat.testBit_mod_two_pow, decide_eq_true h, Bool.true_and]

/-- A bit of a register word reads as the word that was written. -/
theorem flag_putReg {d : Dev} (hs : mapSorted d.regs = true) {i : Nat} (h : i < 32) (off v : Nat) :
    flag (putReg d off v) off i = bit v i := by
  rw [flag, reg, putReg, regK_putK hs, bit_word h]

/-! ## The lines after a reset (R63, R65, R415, R464) -/

/-- R464: without an entry in a FIFO HSPI_IRQ_N is released. -/
theorem hspiLow_of_no_fifos {d : Dev} (h : d.fifos = []) : hspiLow d = false := by
  simp [hspiLow, fifoOf, mapGet, h]

theorem drainLine_released {d : Dev} {n : Nat} (h : lineOf d.out n = none) : drainLine n false d = d := by
  simp [drainLine, h]

/-- R64, R415, R464: before the pin section applies, a device without events and with both interrupt balls Z has nothing to
follow. -/
theorem settle_of_reset {d : Dev} (hpins : d.clk.pinsOn = false) (hfifos : d.fifos = []) (h0 : lineOf d.out 0 = none)
    (h1 : lineOf d.out 1 = none) : settle d = d := by
  have hirq : irqLow d = false := by simp [irqLow, hpins]
  have hfault : faultLine d = d := by simp [faultLine, hpins]
  rw [settle, hirq, hspiLow_of_no_fifos hfifos, drainLine_released h0, drainLine_released h1, hfault]

/-- R65: the resets of the DRAM stay high with a frozen trace and are Z without one; no other ball changes. -/
theorem lineOf_ddrHold (r : Rec) (out : List Output) (n : Nat) :
    lineOf (ddrHold r out) n = if n = 8 ∨ n = 9 then (if r.sr then some true else none) else lineOf out n := by
  by_cases h8 : n = 8
  · cases hr : r.sr <;> simp [ddrHold, lineOf, hr, h8]
  · by_cases h9 : n = 9
    · cases hr : r.sr <;> simp [ddrHold, lineOf, hr, h9]
    · cases hr : r.sr <;> simp [ddrHold, lineOf, hr, h8, h9, Ne.symm h8, Ne.symm h9]

/-- R490: WRST_N holds the DRAM in self-refresh exactly for a trace in POST or FROZEN. -/
theorem recWrst_sr (r : Rec) : (recWrst r).sr = true ↔ r.st = 2 ∨ r.st = 3 := by
  unfold recWrst
  split
  next h => simp [recKeep, h]
  next h =>
    split
    next h2 => simp [recKeep, h2]
    next h2 => simp [h, h2]

/-! ## PORST_N (R63, R75) -/

theorem execPorstAssert_high {s : State} (h : s.dev.clk.porstLow = false) :
    exec .porstAssert s = .next (after s (porstDev s.dev)) :=
  exec_of_act (f := fun d => if d.clk.porstLow then d else porstDev d) rfl (if_neg (ne_true_of_eq_false h))

/-- R75: the loss of the always-on rails acts as PORST_N (log entry 5). -/
theorem execRailLoss_alwaysOn {s : State} (h : s.dev.clk.porstLow = false) :
    exec (.railLoss .alwaysOn) s = .next (after s (modClk (porstDev s.dev) (fun c => { c with alwaysOn := false }))) :=
  exec_of_act (f := fun d => railLoss d .alwaysOn) rfl (by simp only [railLoss, h, Bool.false_eq_true, if_false])

/-! ## WRST_N (R13, R65, R105) -/

/-- R13: what AON keeps of the register file is in its sorted form. -/
theorem aonRegs_sorted (d : Dev) : mapSorted (aonRegs d) = true := by
  unfold aonRegs
  refine List.foldlRecOn (motive := fun m => mapSorted m = true) _ _ rfl (fun m hm e _ => ?_)
  split
  · exact mapSorted_mapStore hm ..
  · exact hm

/-- R66: out of M0 and M1 a fall of WRST_N resets the device. -/
theorem wrstLower_resets {d : Dev} (hp : d.clk.porstLow = false) (hw : d.clk.wrstLow = false) (hm : 2 ≤ d.clk.mode.num) :
    wrstLower d = modClk (wrstDev d) (fun c => { c with wrstLow := true }) := by
  have hig : wrstIgnored d = false := by simp [wrstIgnored, Nat.not_lt.mpr hm]
  simp only [wrstLower, hp, hw, hig, Bool.false_eq_true, if_false, modClk]

/-- R105: CKP_WAKESRC names PORST_N and WRST_N as the start tells. -/
theorem flag_wakeBits {d : Dev} (hs : mapSorted d.regs = true) (porst wrst : Bool) :
    flag (wakeBits d porst wrst) 0x10040 10 = porst ∧ flag (wakeBits d porst wrst) 0x10040 11 = wrst := by
  constructor <;> rw [wakeBits, flag_putReg hs (by decide)] <;> simp [bit_setBit]

/-- R65: the balls under WRST_N. -/
theorem lineOf_wrstDev (d : Dev) (n : Nat) :
    lineOf (wrstDev d).out n = if n = 8 ∨ n = 9 then (if d.rcd.st = 2 ∨ d.rcd.st = 3 then some true else none) else none := by
  have hout : (wrstDev d).out = ddrHold (recWrst d.rcd) (.ballsZ :: d.out) := rfl
  rw [hout, lineOf_ddrHold]
  simp only [recWrst_sr, lineOf]

/-- R65: WRST_N leaves its reset state, and the lines have nothing to follow. -/
theorem wrstAssert_resets {s : State} (hp : s.dev.clk.porstLow = false) (hw : s.dev.clk.wrstLow = false)
    (hm : 2 ≤ s.dev.clk.mode.num) :
    Yields .wrstAssert s (fun d => d = modClk (wrstDev s.dev) (fun c => { c with wrstLow := true })) :=
  yields_after (exec_of_act (f := wrstLower) rfl (wrstLower_resets hp hw hm))
    (settle_of_reset rfl rfl (lineOf_wrstDev ..) (lineOf_wrstDev ..))

/-- Settles O8: PORST_N and WRST_N leave their reset states, which the lines follow without a change, and a lost rail
of the retained or switched group changes its presence alone, by the model's choice (log entry 5). -/
theorem resetPinsLeaveTheResetState : Obligations.ResetPinsLeaveTheResetState := by
  unfold Obligations.ResetPinsLeaveTheResetState
  refine ⟨fun s hp => ?_, fun s hp hw hm => ?_, fun s => rfl, fun s => rfl, fun s hp => ?_⟩
  case refine_1 =>
    refine yields_after (execPorstAssert_high hp) ?_
    rw [settle_of_reset (d := porstDev s.dev) rfl rfl rfl rfl]
    exact ⟨rfl, rfl, rfl, fun _ => rfl, rfl, rfl, rfl, rfl, rfl, rfl, rfl, rfl, rfl, rfl, rfl, rfl, rfl, rfl⟩
  case refine_2 =>
    obtain ⟨t, ht, hq, hd⟩ := wrstAssert_resets hp hw hm
    obtain ⟨hporst, hwrst⟩ := flag_wakeBits (d := { wrstDev s.dev with regs := aonRegs s.dev }) (aonRegs_sorted s.dev) false true
    refine ⟨t, ht, hq, ?_⟩
    rw [hd]
    refine ⟨rfl, rfl, rfl, rfl, fun n h8 h9 => ?_, fun n hn => ?_, rfl, rfl, rfl, rfl, rfl, rfl, rfl, rfl, rfl, hwrst, hporst⟩
    · rw [modClk_out, lineOf_wrstDev, if_neg (not_or_intro h8 h9)]
    · rw [modClk_out, lineOf_wrstDev, if_pos hn]
  case refine_3 =>
    refine yields_after (execRailLoss_alwaysOn hp) ?_
    rw [settle_of_reset (d := modClk (porstDev s.dev) _) rfl rfl rfl rfl]
    exact ⟨rfl, rfl, rfl, rfl, rfl, fun _ => rfl⟩

/-! ## The end of a boot without an image (R87, R504) -/

/-- What an event says beside its operands is device time, its synchronisation and the cycle. -/
theorem evNow_congr {a b : Dev} (hc : a.clk = b.clk) (hr : a.regs = b.regs) (code cls : Nat) (data : Bytes) :
    evNow a code cls data = evNow b code cls data := by
  simp [evNow, nowNs, synced, flag, reg, regK, hc, hr]

/-- R87, R504: M7 Provision is in force after a boot: user pages held, MODE_CHANGE and BOOT_REPORT raised last. -/
def ProvisionOpen (d : Dev) : Prop :=
  d.clk.mode = .m7 ∧ d.clk.trans = .idle ∧ d.clk.islands = 0x1FE ∧ d.cry.hold = true ∧
    (∃ l e, d.evs = l ++ [e, evNow d 0x1201 0 (e4 d.upd.bootRep)] ∧ e.code = 0x0401)

/-- The device as a boot without an image enters M7, before its events. -/
def provisionDev (d : Dev) : Dev :=
  let d := modClk d (fun c => { c with mode := .m7, target := .m7, trans := .idle, islands := 0x1FE })
  pllSync { d with cry := { d.cry with hold := true } }

theorem provisionDev_mode (d : Dev) : (provisionDev d).clk.mode = .m7 := rfl

theorem bootOpen_false (d : Dev) :
    bootOpen d false = bootEvent (raise (provisionDev d) 0x0401 0 (e1 d.clk.mode.num ++ e1 7 ++ e1 4)) := rfl

/-- R458: in M2 to M7 the boot's report stands last among the events that wait, as the lines leave them. -/
theorem settle_bootEvent_evs {d : Dev} (h : 2 ≤ d.clk.mode.num) :
    (settle (bootEvent d)).evs = d.evs ++ [evNow (settle (bootEvent d)) 0x1201 0 (e4 (settle (bootEvent d)).upd.bootRep)] := by
  have hclk : (settle (bootEvent d)).clk = d.clk := by rw [settle_clk, bootEvent, raise_clk]
  have hregs : (settle (bootEvent d)).regs = d.regs := by rw [settle_regs, bootEvent, raise_regs]
  have hupd : (settle (bootEvent d)).upd = d.upd := by rw [settle_upd, bootEvent, raise_upd]
  rw [evNow_congr hclk hregs, hupd, settle_evs, bootEvent, raise_evs h]

theorem provisionOpen_bootOpen (d : Dev) : ProvisionOpen (settle (bootOpen d false)) := by
  have hmode : 2 ≤ (provisionDev d).clk.mode.num := by rw [provisionDev_mode]; decide
  rw [bootOpen_false]
  generalize e1 d.clk.mode.num ++ e1 7 ++ e1 4 = data
  have hclk : (settle (bootEvent (raise (provisionDev d) 0x0401 0 data))).clk = (provisionDev d).clk := by
    rw [settle_clk, bootEvent, raise_clk, raise_clk]
  have hcry : (settle (bootEvent (raise (provisionDev d) 0x0401 0 data))).cry = (provisionDev d).cry := by
    rw [settle_cry, bootEvent, raise_cry, raise_cry]
  have hevs := settle_bootEvent_evs (d := raise (provisionDev d) 0x0401 0 data) (by rwa [raise_clk])
  rw [raise_evs hmode, List.append_assoc] at hevs
  rw [ProvisionOpen, hclk, hcry]
  exact ⟨rfl, rfl, rfl, rfl, _, _, hevs, rfl⟩

/-- R504: a command whose boot finds no image opens M7 Provision. -/
theorem yields_provisionOpen {c : Instr} {s : State} {d : Dev} {b : BootInput} {cause : Nat}
    (h : exec c s = .next (after s (bootFull d b cause))) (hb : (bootRun d b cause).2 = false) : Yields c s ProvisionOpen := by
  refine yields_after h ?_
  rw [bootFull, hb]
  exact provisionOpen_bootOpen _

/-! ## Resets released (R70, R71, R504) -/

/-- R70, R71: the device with its straps sampled and its rails up (log entry 140). -/
def strapped (d : Dev) (st : Straps) : Dev :=
  { d with clk := { d.clk with
      cmpt := st.cmpt, bootsel := st.bootsel.toNat, testen := st.testen, alwaysOn := true, retained := true, switched := true } }

/-- R70, R71: what the rise of PORST_N comes to once the straps are sampled: TESTEN 1 holds the device (log entry 69). -/
theorem porstRelease_strapped {d : Dev} (h : d.clk.porstLow = true) (st : Straps) (b : BootInput) :
    porstRelease d st b = if st.testen then strapped d st
      else if d.clk.wrstLow then modClk (strapped d st) (fun c => { c with porstLow := false })
      else bootFull (strapped d st) b 0 := by
  simp only [porstRelease, h, Bool.not_true, Bool.false_eq_true, if_false]
  rfl

theorem wrstRelease_boots {d : Dev} (hp : d.clk.porstLow = false) (hw : d.clk.wrstLow = true) (b : BootInput) :
    wrstRelease d b = bootFull d b (if flag d 0x10040 11 then 1 else 0) := by
  simp only [wrstRelease, hp, hw, Bool.false_eq_true, if_false, if_true]

theorem exec_porstRelease (s : State) (st : Straps) (b : BootInput) :
    exec (.porstRelease st b) s = .next (after s (porstRelease s.dev st b)) := rfl

theorem exec_wrstRelease (s : State) (b : BootInput) : exec (.wrstRelease b) s = .next (after s (wrstRelease s.dev b)) := rfl

/-- Settles O9: PORST_N and WRST_N by whether TESTEN and the other pin hold the boot; a boot that runs without an image ends in
M7 Provision. -/
theorem bootWithoutAnImageOpensProvision : Obligations.BootWithoutAnImageOpensProvision := by
  unfold Obligations.BootWithoutAnImageOpensProvision
  refine ⟨fun s st b hp hw ht => ?_, fun s st b hp ht => ?_, fun s st b hp hw ht hb => ?_, fun s b hp hw hb => ?_, fun s b hp => ?_⟩
  case refine_1 =>
    rw [exec_porstRelease, porstRelease_strapped hp, ht, hw, strapped, ht]; rfl
  case refine_2 =>
    rw [exec_porstRelease, porstRelease_strapped hp, ht, strapped, ht]; rfl
  case refine_3 =>
    refine yields_provisionOpen (d := strapped s.dev st) (b := b) (cause := 0) ?_ (by rw [strapped, ht]; exact hb)
    rw [exec_porstRelease, porstRelease_strapped hp, ht, hw]; rfl
  case refine_4 =>
    exact yields_provisionOpen (by rw [exec_wrstRelease, wrstRelease_boots hp hw]) hb
  case refine_5 =>
    rw [exec_wrstRelease, wrstRelease, hp, if_pos rfl, modClk]

end Sys2Proof.Machine
end

section
/-! SUPPORT. The slow part of the image (chapters 05 and 11): what the reads of a piece decide, what the loading of a block and
of PDUIMG leaves of the device beside the Mill, and how a load ends. -/

namespace Sys2Proof.Machine

/-! ## The reads of a piece (R131, R317) -/

/-- R131, R317: four bad reads fail the piece. -/
theorem readPiece_bad {ok : Bytes → Bool} {reads : List Bytes} (hlen : 4 ≤ reads.length)
    (hbad : ∀ x ∈ reads.take 4, ok x = false) : readPiece ok reads = .bad := by
  have hnone : (reads.take 4).find? ok = none := by simpa [List.find?_eq_none] using hbad
  simp only [readPiece, hnone, if_pos hlen]

/-- R131, R317: fewer than four bad reads decide nothing. -/
theorem readPiece_more {ok : Bytes → Bool} {reads : List Bytes} (hlen : reads.length < 4)
    (hbad : ∀ x ∈ reads, ok x = false) : readPiece ok reads = .more := by
  have hnone : (reads.take 4).find? ok = none := by
    rw [List.take_of_length_le (Nat.le_of_lt hlen)]
    simpa [List.find?_eq_none] using hbad
  simp only [readPiece, hnone, if_neg (Nat.not_le.mpr hlen)]

/-- R131, R317: a good first read decides. -/
theorem readPiece_good {ok : Bytes → Bool} {x : Bytes} (h : ok x = true) (rest : List Bytes) :
    readPiece ok (x :: rest) = .good x := by
  simp only [readPiece, List.take_succ_cons, List.find?_cons, h]

/-! ## What a load leaves of the device -/

/-- What the writing of the slow part into the Mill does not touch: clocks, registers, the image's own state, Landing, and
whether PDUIMG has failed. -/
structure LoadKeeps (a b : Dev) : Prop where
  clk : b.clk = a.clk
  regs : b.regs = a.regs
  img : b.img = a.img
  lnd : b.lnd = a.lnd
  pduBad : b.mil.pduBad = a.mil.pduBad

theorem LoadKeeps.refl (d : Dev) : LoadKeeps d d := ⟨rfl, rfl, rfl, rfl, rfl⟩

theorem LoadKeeps.trans {a b c : Dev} (h : LoadKeeps a b) (k : LoadKeeps b c) : LoadKeeps a c :=
  ⟨k.clk.trans h.clk, k.regs.trans h.regs, k.img.trans h.img, k.lnd.trans h.lnd, k.pduBad.trans h.pduBad⟩

/-- A load goes through its entries, lines or records in order. -/
theorem LoadKeeps.foldl {α : Type} {f : Dev → α → Dev} (h : ∀ d x, LoadKeeps d (f d x)) (d : Dev) (l : List α) :
    LoadKeeps d (l.foldl f d) :=
  List.foldlRecOn (motive := LoadKeeps d) l f (.refl d) (fun _ hb x _ => hb.trans (h _ x))

theorem LoadKeeps.ite {a b c : Dev} {p : Prop} [Decidable p] (hb : LoadKeeps a b) (hc : LoadKeeps a c) :
    LoadKeeps a (if p then b else c) := by
  split
  · exact hb
  · exact hc

/-- A record that is skipped is counted and reported. -/
theorem loadKeeps_raise_bumpM (d : Dev) (ix code cls : Nat) (data : Bytes) :
    LoadKeeps d (raise (bumpM d ix) code cls data) := by
  constructor <;> simp [bumpM]

theorem loadKeeps_setTabs (d : Dev) (l : Nat) (e : Nat × Nat) : LoadKeeps d (setTabs d l e) := ⟨rfl, rfl, rfl, rfl, rfl⟩

theorem loadKeeps_setEntry (d : Dev) (e v : Nat) : LoadKeeps d (setEntry d e v) :=
  .ite ⟨rfl, rfl, rfl, rfl, rfl⟩ (.ite ⟨rfl, rfl, rfl, rfl, rfl⟩ (loadKeeps_setTabs ..))

theorem loadKeeps_loadEntry (d : Dev) (e : Nat) : LoadKeeps d (loadEntry d e) := by
  have hzero := loadKeeps_setEntry d e (setBits (entryNow d e) 170 34 0)
  unfold loadEntry
  exact .ite ((hzero.trans (loadKeeps_setEntry ..)).trans (loadKeeps_raise_bumpM ..)) hzero

theorem loadKeeps_pinLine (d : Dev) (l : Nat) : LoadKeeps d (pinLine d l) :=
  .ite ⟨rfl, rfl, rfl, rfl, rfl⟩ (.refl d)

theorem loadKeeps_setDeadline (d : Dev) (src r : Nat) : LoadKeeps d (setDeadline d src r) :=
  .ite ⟨rfl, rfl, rfl, rfl, rfl⟩ (.refl d)

theorem loadKeeps_readyDeadlines (d : Dev) (was : List Nat) : LoadKeeps d (readyDeadlines d was) := by
  unfold readyDeadlines
  refine .foldl (fun d s => ?_) ..
  exact .ite (loadKeeps_setDeadline ..) (.refl d)

theorem loadKeeps_pduRecord (lim : NMap Nat) (d : Dev) (b : Bytes) : LoadKeeps d (pduRecord lim d b) :=
  .ite ⟨rfl, rfl, rfl, rfl, rfl⟩ (loadKeeps_raise_bumpM ..)

/-! ## A good block (R131, R132) -/

/-- R131, R309, R322: a good block is in both tables, its entries checked and its pinned lines cached. -/
def blockInTables (d : Dev) (blk : Nat) (b : Bytes) : Dev :=
  let n := b.length / 32
  let e0 := 2048 * blk
  let srcs := overlay d 0x20 d.img.sigIdx
  let d := (List.range ((n + 1) / 2)).foldl (fun d i =>
    setTabs d (e0 / 2 + i) (blockEntry d b (e0 + 2 * i) (2 * i), blockEntry d b (e0 + 2 * i + 1) (2 * i + 1))) d
  let d := (List.range n).foldl (fun d i => if inSomeSource srcs (e0 + i) then loadEntry d (e0 + i) else d) d
  (List.range ((n + 1) / 2)).foldl (fun d i => pinLine d (e0 / 2 + i)) d

/-- R131: a block is active from now on. -/
def blockActive (d : Dev) (blk : Nat) : Dev :=
  { d with img := { d.img with active := d.img.active ++ [blk] },
           mil := { d.mil with blkTick := mapPut d.mil.blkTick blk (milTicks d) } }

/-- R131, R313: a good block is in force, before SIGNALS_ACTIVE. -/
def blockInForce (d : Dev) (blk : Nat) (b : Bytes) : Dev :=
  readyDeadlines (blockActive (blockInTables d blk b) blk) (readySources d)

theorem blockGood_eq (d : Dev) (blk : Nat) (b : Bytes) : blockGood d blk b =
    if blk + 1 = (blockInForce d blk b).img.blockDig.length then
      raise { blockInForce d blk b with img := { (blockInForce d blk b).img with sigEvent := true } } 0x0502 0
        (eCount (blockInForce d blk b).img.preLost)
    else blockInForce d blk b := rfl

theorem loadKeeps_blockInTables (d : Dev) (blk : Nat) (b : Bytes) : LoadKeeps d (blockInTables d blk b) :=
  ((LoadKeeps.foldl (fun d _ => loadKeeps_setTabs d _ _) d _).trans
    (.foldl (fun d _ => .ite (loadKeeps_loadEntry d _) (.refl d)) ..)).trans
    (.foldl (fun d _ => loadKeeps_pinLine d _) ..)

/-- R131: of the image's state a good block changes the list of active blocks alone. -/
theorem loadKeeps_blockInForce (d : Dev) (blk : Nat) (b : Bytes) :
    LoadKeeps { d with img := { d.img with active := d.img.active ++ [blk] } } (blockInForce d blk b) := by
  obtain ⟨hclk, hregs, himg, hlnd, hbad⟩ := loadKeeps_blockInTables d blk b
  have hactive : LoadKeeps { d with img := { d.img with active := d.img.active ++ [blk] } }
      (blockActive (blockInTables d blk b) blk) :=
    ⟨hclk, hregs, by simp only [blockActive, himg], hlnd, hbad⟩
  exact hactive.trans (loadKeeps_readyDeadlines ..)

/-- R132: the last block raises SIGNALS_ACTIVE with the count of losses before; the last by position, whatever happened to
earlier ones (log entry 157). -/
theorem blockGood_last {d : Dev} {blk : Nat} (h : blk + 1 = d.img.blockDig.length) (b : Bytes) : blockGood d blk b =
    raise { blockInForce d blk b with img := { d.img with active := d.img.active ++ [blk], sigEvent := true } } 0x0502 0
      (eCount d.img.preLost) := by
  rw [blockGood_eq, (loadKeeps_blockInForce d blk b).img, if_pos h]

/-! ## The loads (R131, R317) -/

/-- R86: the Mill is on in M2 to M7 alone. -/
theorem mode_of_millOn {d : Dev} (h : millOn d = true) : 2 ≤ d.clk.mode.num := by
  simp only [millOn, Bool.and_eq_true] at h
  exact mode_of_running h.1.1

/-- R458: an event is stamped by the clocks and registers of the device before the load. -/
theorem raise_evs_congr {a b : Dev} (hclk : b.clk = a.clk) (hregs : b.regs = a.regs) (hon : millOn a = true)
    {code cls : Nat} {data : Bytes} : (raise b code cls data).evs = b.evs ++ [evNow a code cls data] := by
  rw [raise_evs (by rw [hclk]; exact mode_of_millOn hon), evNow_congr hclk hregs]

theorem exec_signalBlockLoad {s : State} {b : Nat} {reads : List Bytes} {d : Dev} (h : blockLoad s.dev b reads = d) :
    exec (.signalBlockLoad b reads) s = .next (after s d) :=
  exec_of_act (f := fun d => blockLoad d b reads) rfl h

theorem exec_pduimgLoad {s : State} {reads : List Bytes} {d : Dev} (h : pduimgLoad s.dev reads = d) :
    exec (.pduimgLoad reads) s = .next (after s d) :=
  exec_of_act (f := fun d => pduimgLoad d reads) rfl h

/-- R131: a read of a block is good. -/
def blockReadOk (d : Dev) (b : Nat) (x : Bytes) : Bool := x.length == blockLen d b && sha384 x == nth [] d.img.blockDig b

/-- R131: what the reads of the block that the stream is at come to. -/
def blockSettled (d : Dev) (b : Nat) : Reads → Dev
  | .more => d
  | .bad => raise { d with img := { d.img with failed := d.img.failed ++ [b] } } 0x0503 0 (e2 b)
  | .good x => blockGood d b x

theorem blockLoad_outOfTurn {d : Dev} {b : Nat} (h : b ≠ nextBlock d) (reads : List Bytes) : blockLoad d b reads = d := by
  simp [blockLoad, h]

theorem blockLoad_more {d : Dev} {b : Nat} {reads : List Bytes} (h : readPiece (blockReadOk d b) reads = .more) :
    blockLoad d b reads = d := by
  have h' : readPiece (fun x => x.length == blockLen d b && sha384 x == nth [] d.img.blockDig b) reads = .more := h
  simp only [blockLoad, h', ite_self]

/-- R131: after PDUIMG the reads settle the block that the stream is at. -/
theorem blockLoad_inTurn {d : Dev} {b : Nat} (hon : millOn d = true) (hpdu : d.img.pduOn = true) (hb : b = nextBlock d)
    (hlt : b < d.img.blockDig.length) (reads : List Bytes) :
    blockLoad d b reads = blockSettled d b (readPiece (blockReadOk d b) reads) := by
  unfold blockLoad
  rw [if_neg (by simp [hon, hpdu, ← hb, hlt])]
  rfl

/-- R317: a read of PDUIMG is good. -/
def pduReadOk (d : Dev) (x : Bytes) : Bool := x.length == d.img.pduLen && sha384 x == d.img.pduDig

/-- R317: what the reads of PDUIMG come to. -/
def pduSettled (d : Dev) : Reads → Dev
  | .more => d
  | .bad => raise { d with mil := { d.mil with pduBad := true } } 0x0B05 0 []
  | .good x =>
    let loaded := (pduRecords (x.length / 8) x).foldl (pduRecord (limitMap d)) d
    { loaded with img := { loaded.img with pduOn := true }, mil := { loaded.mil with pduTick := milTicks loaded } }

/-- R317: the reads settle a PDUIMG that neither is on nor has failed. -/
theorem pduimgLoad_pending {d : Dev} (hon : millOn d = true) (hpdu : d.img.pduOn = false) (hbad : d.mil.pduBad = false)
    (hlen : d.img.pduLen ≠ 0) (reads : List Bytes) :
    pduimgLoad d reads = pduSettled d (readPiece (pduReadOk d) reads) := by
  unfold pduimgLoad
  rw [if_neg (by simp [hon, hpdu, hbad, hlen])]
  rfl

/-- Settles O38: each clause by what its reads decide; the last block raises SIGNALS_ACTIVE by its position, by the model's
choice (log entry 157). -/
theorem slowPartOfTheImageLoadsInOrder : Obligations.SlowPartOfTheImageLoadsInOrder := by
  unfold Obligations.SlowPartOfTheImageLoadsInOrder
  refine ⟨fun s b reads hb => ?_, fun s b reads hon hpdu hb hlt hlen hbad => ?_, fun s b reads hlen hbad => ?_,
    fun s b x rest hon hpdu hb hlast hlen hdig => ?_, fun s reads hon hpdu hnot hne hlen hbad => ?_,
    fun s x rest hon hpdu hnot hlen hne hdig => ?_⟩
  case refine_1 => exact exec_signalBlockLoad (blockLoad_outOfTurn hb reads)
  case refine_2 =>
    have hload := blockLoad_inTurn hon hpdu hb hlt reads
    rw [readPiece_bad (ok := blockReadOk s.dev b) hlen hbad] at hload
    refine yields_after (exec_signalBlockLoad hload) ?_
    simp only [blockSettled, settle_img, settle_evs, settle_mil, raise_img, raise_mil]
    refine ⟨trivial, trivial, ?_, trivial⟩
    refine raise_evs_congr ?_ ?_ hon <;> rfl
  case refine_3 => exact exec_signalBlockLoad (blockLoad_more (readPiece_more hlen hbad))
  case refine_4 =>
    have hok : blockReadOk s.dev b x = true := by simp [blockReadOk, hlen, hdig]
    have hload := blockLoad_inTurn hon hpdu hb (by omega) (x :: rest)
    rw [readPiece_good hok, blockSettled, blockGood_last hlast] at hload
    obtain ⟨hclk, hregs, -, hlnd, -⟩ := loadKeeps_blockInForce s.dev b x
    refine yields_after (exec_signalBlockLoad hload) ?_
    simp only [settle_img, settle_evs, settle_lnd, raise_img, raise_lnd]
    refine ⟨trivial, trivial, trivial, ⟨(blockInForce s.dev b x).evs, ?_⟩, hlnd⟩
    refine raise_evs_congr ?_ ?_ hon
    · exact hclk
    · exact hregs
  case refine_5 =>
    have hload := pduimgLoad_pending hon hpdu hnot hne reads
    rw [readPiece_bad (ok := pduReadOk s.dev) hlen hbad] at hload
    refine yields_after (exec_pduimgLoad hload) ?_
    simp only [pduSettled, settle_img, settle_evs, settle_mil, raise_img, raise_mil]
    refine ⟨trivial, trivial, ?_⟩
    refine raise_evs_congr ?_ ?_ hon <;> rfl
  case refine_6 =>
    have hok : pduReadOk s.dev x = true := by simp [pduReadOk, hlen, hdig]
    have hload := pduimgLoad_pending hon hpdu hnot hne (x :: rest)
    rw [readPiece_good hok] at hload
    obtain ⟨-, hregs, -, hlnd, hsame⟩ :=
      LoadKeeps.foldl (loadKeeps_pduRecord (limitMap s.dev)) s.dev (pduRecords (x.length / 8) x)
    refine yields_after (exec_pduimgLoad hload) ?_
    simp only [pduSettled, settle_img, settle_mil, settle_lnd, settle_regs]
    exact ⟨trivial, hsame.trans hnot, hlnd, hregs⟩

end Sys2Proof.Machine
end

section
/-! SUPPORT. CAN channels (chapter 07): what a channel reads after a change, what a step of one channel leaves of the rest of the
device, and what the shared operations of a channel (buffers, error counters, the late load of XB0) make of it. -/

namespace Sys2Proof.Machine

/-! ## Channels -/

/-- Of two values listed at one key the later one stays. -/
theorem mapPut_mapPut {α : Type} (m : NMap α) (k : Nat) (v w : α) : mapPut (mapPut m k v) k w = mapPut m k w := by
  induction m with
  | nil => simp [mapPut]
  | cons e r ih =>
    obtain ⟨a, u⟩ := e
    rcases Nat.lt_trichotomy k a with hlt | rfl | hgt
    · simp [mapPut, hlt]
    · simp [mapPut]
    · have hne : k ≠ a := by omega
      simp [mapPut, Nat.not_lt.mpr (Nat.le_of_lt hgt), hne, ih]

theorem canOf_congr {a b : Dev} (h : a.can = b.can) (ch : Nat) : canOf a ch = canOf b ch := by rw [canOf, canOf, h]

@[simp] theorem canOf_modCan_same (d : Dev) (ch : Nat) (f : CanCh → CanCh) : canOf (modCan d ch f) ch = f (canOf d ch) := by
  simp [canOf, modCan, mapMod, mapGet, mapGet?_mapPut]

theorem canOf_modCan_ne (d : Dev) {ch c : Nat} (h : c ≠ ch) (f : CanCh → CanCh) : canOf (modCan d ch f) c = canOf d c := by
  simp [canOf, modCan, mapMod, mapGet, mapGet?_mapPut, Ne.symm h]

/-- Two changes of one channel are one. -/
theorem modCan_modCan (d : Dev) (ch : Nat) (f g : CanCh → CanCh) : modCan (modCan d ch f) ch g = modCan d ch (fun c => g (f c)) := by
  have hread : mapGet {} (mapMod {} d.can ch f) ch = f (mapGet {} d.can ch) := canOf_modCan_same d ch f
  have hmap : mapMod {} (mapMod {} d.can ch f) ch g = mapMod {} d.can ch (fun c => g (f c)) := by
    rw [mapMod, hread, mapMod, mapMod, mapPut_mapPut]
  exact congrArg (fun m => { d with can := m }) hmap

/-- A change of a channel depends on what it makes of the channel alone. -/
theorem modCan_congr {d : Dev} {ch : Nat} {f g : CanCh → CanCh} (h : f (canOf d ch) = g (canOf d ch)) :
    modCan d ch f = modCan d ch g := by
  have hval : f (mapGet {} d.can ch) = g (mapGet {} d.can ch) := h
  rw [modCan, modCan, mapMod, mapMod, hval]

@[simp] theorem canOf_settle (d : Dev) (ch : Nat) : canOf (settle d) ch = canOf d ch := canOf_congr (settle_can d) ch
@[simp] theorem canOf_raise (d : Dev) (code cls : Nat) (data : Bytes) (ch : Nat) : canOf (raise d code cls data) ch = canOf d ch :=
  canOf_congr (raise_can ..) ch
@[simp] theorem canOf_bumpC (d : Dev) (c rel ch : Nat) : canOf (bumpC d c rel) ch = canOf d ch := rfl

@[simp] theorem modCan_clk (d : Dev) (ch : Nat) (f : CanCh → CanCh) : (modCan d ch f).clk = d.clk := rfl
@[simp] theorem modCan_regs (d : Dev) (ch : Nat) (f : CanCh → CanCh) : (modCan d ch f).regs = d.regs := rfl
@[simp] theorem modCan_lnd (d : Dev) (ch : Nat) (f : CanCh → CanCh) : (modCan d ch f).lnd = d.lnd := rfl
@[simp] theorem modCan_evs (d : Dev) (ch : Nat) (f : CanCh → CanCh) : (modCan d ch f).evs = d.evs := rfl
@[simp] theorem modCan_tally (d : Dev) (ch : Nat) (f : CanCh → CanCh) : (modCan d ch f).tally = d.tally := rfl
@[simp] theorem modCan_out (d : Dev) (ch : Nat) (f : CanCh → CanCh) : (modCan d ch f).out = d.out := rfl

@[simp] theorem evNow_modCan (d : Dev) (ch : Nat) (f : CanCh → CanCh) (code cls : Nat) (data : Bytes) :
    evNow (modCan d ch f) code cls data = evNow d code cls data := rfl

/-- A change of one channel shows at that channel alone. -/
theorem onlyCan_modCan (d : Dev) (ch : Nat) (f : CanCh → CanCh) : OnlyCan d ch (settle (modCan d ch f)) :=
  ⟨fun c hc => by rw [canOf_settle, canOf_modCan_ne d hc], by rw [settle_can]; rfl⟩

/-- A command that changes one channel yields the channel changed, and nothing else. -/
theorem yields_modCan {c : Instr} {s : State} {ch : Nat} {f : CanCh → CanCh} (h : exec c s = .next (after s (modCan s.dev ch f))) :
    Yields c s (fun d => canOf d ch = f (canOf s.dev ch) ∧ OnlyCan s.dev ch d) :=
  yields_after h ⟨by rw [canOf_settle, canOf_modCan_same], onlyCan_modCan s.dev ch f⟩

/-- What a command yields, it yields of what follows from it. -/
theorem Yields.mono {c : Instr} {s : State} {P Q : Dev → Prop} (h : Yields c s P) (hq : ∀ d, P d → Q d) : Yields c s Q := by
  obtain ⟨t, ht, hqueue, hp⟩ := h
  exact ⟨t, ht, hqueue, hq _ hp⟩

/-- R163: a live channel is powered in a running device, in M2 to M7. -/
theorem mode_of_canLive {d : Dev} {ch : Nat} (h : canLive d ch = true) : 2 ≤ d.clk.mode.num := by
  simp only [canLive, Bool.and_eq_true] at h
  exact mode_of_running h.2

theorem btNow_congr {a b : Dev} (h : a.regs = b.regs) (ch : Nat) : btNow a ch = btNow b ch := by
  simp [btNow, reg, regK, h]

theorem canCtl_congr {a b : Dev} (h : a.regs = b.regs) (ch : Nat) : canCtl a ch = canCtl b ch := by
  simp [canCtl, reg, regK, h]

/-- R163: a register write to a channel of the image, which waits behind nothing and meets no access error, has its effect alone. -/
theorem access_canWr {s : State} {who : Initiator} {ch rel : Nat} (h : MayWriteCan s.dev who ch rel) (cmd : Instr) (f : Dev → Dev) :
    access who cmd (fun d => canWr d who ch rel f) s = act f s := by
  obtain ⟨hch, himg, hmay⟩ := h
  have hwr : canWr s.dev who ch rel f = f s.dev := by
    rw [canWr, if_neg (Nat.not_le.mpr hch), regWr_of hmay, if_pos himg]
  rw [access_of hmay, act, act, hwr]

/-! ## What a step of one channel leaves -/

/-- The step of a channel leaves the other channels, the Landing, the registers and the clocks, and what has left the device stays
in its log. -/
structure CanKeeps (ch : Nat) (a b : Dev) : Prop where
  others : ∀ c, c ≠ ch → canOf b c = canOf a c
  lnd : b.lnd = a.lnd
  regs : b.regs = a.regs
  clk : b.clk = a.clk
  out : ∀ o ∈ a.out, o ∈ b.out

theorem CanKeeps.refl (ch : Nat) (d : Dev) : CanKeeps ch d d := ⟨fun _ _ => rfl, rfl, rfl, rfl, fun _ h => h⟩

theorem CanKeeps.trans {ch : Nat} {a b c : Dev} (h : CanKeeps ch a b) (k : CanKeeps ch b c) : CanKeeps ch a c :=
  ⟨fun x hx => (k.others x hx).trans (h.others x hx), k.lnd.trans h.lnd, k.regs.trans h.regs, k.clk.trans h.clk,
    fun o ho => k.out o (h.out o ho)⟩

theorem canKeeps_modCan (d : Dev) (ch : Nat) (f : CanCh → CanCh) : CanKeeps ch d (modCan d ch f) :=
  ⟨fun _ hc => canOf_modCan_ne d hc f, rfl, rfl, rfl, fun _ h => h⟩

theorem canKeeps_bumpC (d : Dev) (ch rel : Nat) : CanKeeps ch d (bumpC d ch rel) :=
  ⟨fun _ _ => rfl, rfl, rfl, rfl, fun _ h => h⟩

theorem canKeeps_emit (d : Dev) (ch : Nat) (o : Output) : CanKeeps ch d (emit d o) :=
  ⟨fun _ _ => rfl, rfl, rfl, rfl, fun _ h => List.mem_cons_of_mem _ h⟩

theorem canKeeps_raise (d : Dev) (ch code cls : Nat) (data : Bytes) : CanKeeps ch d (raise d code cls data) :=
  ⟨fun c _ => canOf_raise .., raise_lnd .., raise_regs .., raise_clk .., fun o h => by rwa [raise_out]⟩

theorem canKeeps_settle (d : Dev) (ch : Nat) : CanKeeps ch d (settle d) :=
  ⟨fun c _ => canOf_settle d c, settle_lnd d, settle_regs d, settle_clk d, fun _ h => mem_out_settle h⟩

theorem CanKeeps.settle {ch : Nat} {a b : Dev} (h : CanKeeps ch a b) : CanKeeps ch a (settle b) := h.trans (canKeeps_settle b ch)

/-! ## Transmit buffers (R181) -/

/-- R181: a buffer on the bus is one of the three. -/
theorem lt_three_of_onBus {c : CanCh} {b : Nat} (h : onBus c = some b) : b < 3 := by
  have hmem := List.mem_of_find?_eq_some h
  simp only [List.mem_cons, List.not_mem_nil, or_false] at hmem
  omega

/-- R181: read after write of a buffer. -/
theorem xbOf_setXb {b : Nat} (h : b < 3) (c : CanCh) (x : Option XbFrame) : xbOf (setXb c b x) b = x := by
  obtain rfl | rfl | rfl : b = 0 ∨ b = 1 ∨ b = 2 := by omega
  all_goals rfl

/-- R181: what is neither a buffer nor the pick survives a change of a buffer that gives up its pick. -/
theorem unpick_setXb_rest (c : CanCh) (b : Nat) (x : Option XbFrame) :
    (unpick (setXb c b x) b).tec = c.tec ∧ (unpick (setXb c b x) b).stage = c.stage ∧
    (unpick (setXb c b x) b).state = c.state ∧ (unpick (setXb c b x) b).schLoad = c.schLoad := by
  unfold unpick setXb
  refine ⟨?_, ?_, ?_, ?_⟩ <;> (repeat' split) <;> rfl

theorem xbOf_unpick (c : CanCh) (b k : Nat) : xbOf (unpick c b) k = xbOf c k := by
  unfold unpick
  split <;> rfl

/-! ## The late load of XB0 (R189) -/

/-- R189: a late load fills an empty XB0 or drops the route that waits for it; it changes nothing that the other buffers, the
counters, the state and the stage read. -/
theorem lateLoad_cases (d : Dev) (ch : Nat) : lateLoad d ch = d ∨ ∃ g : CanCh → CanCh, lateLoad d ch = modCan d ch g ∧
    (canOf d ch).schLoad ≠ none ∧ (canOf d ch).xb0 = none ∧
    ∀ c, (g c).tec = c.tec ∧ (g c).stage = c.stage ∧ ∀ b, b ≠ 0 → xbOf (g c) b = xbOf c b := by
  unfold lateLoad
  dsimp only
  split
  · exact .inl rfl
  · rename_i route hroute
    split
    · exact .inl rfl
    · rename_i hfree
      have hload : (canOf d ch).schLoad ≠ none := by rw [hroute]; exact Option.some_ne_none route
      obtain ⟨-, hempty⟩ : (canOf d ch).schRun = true ∧ (canOf d ch).xb0 = none := by simpa using hfree
      refine .inr ?_
      split
      · exact ⟨_, rfl, hload, hempty, fun c => ⟨rfl, rfl, fun b hb => by simp [xbOf, hb]⟩⟩
      · exact ⟨_, rfl, hload, hempty, fun c => ⟨rfl, rfl, fun b _ => rfl⟩⟩

theorem canKeeps_lateLoad (d : Dev) (ch : Nat) : CanKeeps ch d (lateLoad d ch) := by
  obtain h | ⟨g, h, -⟩ := lateLoad_cases d ch <;> rw [h]
  · exact CanKeeps.refl ch d
  · exact canKeeps_modCan d ch g

@[simp] theorem lateLoad_evs (d : Dev) (ch : Nat) : (lateLoad d ch).evs = d.evs := by
  obtain h | ⟨g, h, -⟩ := lateLoad_cases d ch <;> rw [h]
  rfl

@[simp] theorem lateLoad_tec (d : Dev) (ch : Nat) : (canOf (lateLoad d ch) ch).tec = (canOf d ch).tec := by
  obtain h | ⟨g, h, -, -, hg⟩ := lateLoad_cases d ch <;> rw [h]
  rw [canOf_modCan_same, (hg _).1]

@[simp] theorem lateLoad_stage (d : Dev) (ch : Nat) : (canOf (lateLoad d ch) ch).stage = (canOf d ch).stage := by
  obtain h | ⟨g, h, -, -, hg⟩ := lateLoad_cases d ch <;> rw [h]
  rw [canOf_modCan_same, (hg _).2.1]

/-- R189: a late load changes no buffer but an empty XB0 that a route waits for. -/
theorem xbOf_lateLoad {d : Dev} {ch b : Nat} (h : b ≠ 0 ∨ (canOf d ch).schLoad = none ∨ (canOf d ch).xb0 ≠ none) :
    xbOf (canOf (lateLoad d ch) ch) b = xbOf (canOf d ch) b := by
  obtain he | ⟨g, he, hload, hempty, hg⟩ := lateLoad_cases d ch <;> rw [he]
  have hb : b ≠ 0 := h.resolve_right (not_or.mpr ⟨hload, fun hne => hne hempty⟩)
  rw [canOf_modCan_same, (hg _).2.2 b hb]

/-! ## Error counters (R193, R195) -/

theorem canKeeps_errState (d : Dev) (ch tec0 rec0 : Nat) : CanKeeps ch d (errState d ch tec0 rec0) := by
  unfold errState
  dsimp only
  split
  · exact (canKeeps_raise ..).trans (canKeeps_modCan ..)
  · exact canKeeps_modCan ..

/-- R193: the counters give the state, and nothing else of the channel changes. -/
theorem canOf_errState (d : Dev) (ch tec0 rec0 : Nat) : canOf (errState d ch tec0 rec0) ch =
    { canOf d ch with state := if 127 < (canOf d ch).tec || 127 < (canOf d ch).rec' then 3 else 2 } := by
  unfold errState
  dsimp only
  split <;> rw [canOf_modCan_same]
  rw [canOf_raise]

theorem canKeeps_recAdd (d : Dev) (ch n : Nat) : CanKeeps ch d (recAdd d ch n) :=
  (canKeeps_modCan ..).trans (canKeeps_errState ..)

theorem canOf_recAdd (d : Dev) (ch n : Nat) : ∃ st, canOf (recAdd d ch n) ch =
    { canOf d ch with rec' := min ((canOf d ch).rec' + n) 255, state := st } := by
  rw [recAdd, canOf_errState, canOf_modCan_same]
  exact ⟨_, rfl⟩

theorem recSteps_succ (d : Dev) (ch n : Nat) : recSteps d ch (n + 1) = recAdd (recSteps d ch n) ch 8 := by
  rw [recSteps, List.range_succ, List.foldl_append]
  rfl

theorem canKeeps_recSteps (d : Dev) (ch n : Nat) : CanKeeps ch d (recSteps d ch n) := by
  induction n with
  | zero => exact canKeeps_recAdd d ch 1
  | succ n ih => rw [recSteps_succ]; exact ih.trans (canKeeps_recAdd ..)

/-- R193: REC after an error that the standard counts in `n` further steps of 8; it saturates at 255. -/
theorem canOf_recSteps (d : Dev) (ch n : Nat) : ∃ st, canOf (recSteps d ch n) ch =
    { canOf d ch with rec' := min ((canOf d ch).rec' + 1 + 8 * n) 255, state := st } := by
  induction n with
  | zero => exact canOf_recAdd d ch 1
  | succ n ih =>
    obtain ⟨st, hsteps⟩ := ih
    obtain ⟨st', hadd⟩ := canOf_recAdd (recSteps d ch n) ch 8
    have hsum : min (min ((canOf d ch).rec' + 1 + 8 * n) 255 + 8) 255 = min ((canOf d ch).rec' + 1 + 8 * (n + 1)) 255 := by omega
    rw [recSteps_succ, hadd, hsteps, hsum]
    exact ⟨st', rfl⟩

/-- R193, R195: below bus-off TEC rises, and the counters give the state. -/
theorem tecAdd_below {d : Dev} {ch n : Nat} (h : (canOf d ch).tec + n ≤ 255) : tecAdd d ch n =
    errState (modCan d ch (fun c => { c with tec := min (c.tec + n) 256 })) ch (canOf d ch).tec (canOf d ch).rec' := by
  simp only [tecAdd, if_neg (Nat.not_lt.mpr h)]

theorem canKeeps_tecAdd_below {d : Dev} {ch n : Nat} (h : (canOf d ch).tec + n ≤ 255) : CanKeeps ch d (tecAdd d ch n) := by
  rw [tecAdd_below h]
  exact (canKeeps_modCan ..).trans (canKeeps_errState ..)

theorem canOf_tecAdd_below {d : Dev} {ch n : Nat} (h : (canOf d ch).tec + n ≤ 255) : ∃ st, canOf (tecAdd d ch n) ch =
    { canOf d ch with tec := (canOf d ch).tec + n, state := st } := by
  have hcap : min ((canOf d ch).tec + n) 256 = (canOf d ch).tec + n := by omega
  rw [tecAdd_below h, canOf_errState, canOf_modCan_same, hcap]
  exact ⟨_, rfl⟩

theorem canKeeps_tecGood (d : Dev) (ch : Nat) : CanKeeps ch d (tecGood d ch) :=
  (canKeeps_modCan ..).trans (canKeeps_errState ..)

/-- R193: a good transmission lowers TEC by 1, and the counters give the state. -/
theorem canOf_tecGood (d : Dev) (ch : Nat) : ∃ st, canOf (tecGood d ch) ch =
    { canOf d ch with tec := (canOf d ch).tec - 1, state := st } := by
  rw [tecGood, canOf_errState, canOf_modCan_same]
  exact ⟨_, rfl⟩

end Sys2Proof.Machine
end

section
/-! SUPPORT. Errors, arbitration and completion of a CAN channel (chapter 07): what an attempt that fails or completes leaves of its
frame, of the counters and of the receive stage. -/

namespace Sys2Proof.Machine

/-! ## Errors of a reception (R193) -/

/-- R202: no channel that is live is watched in M1 Watch. -/
theorem swkWatched_of_canLive {d : Dev} {ch : Nat} (h : canLive d ch = true) : swkWatched d ch = false := by
  have hmode : d.clk.mode ≠ .m1 := fun he => absurd (mode_of_canLive h) (by rw [he]; decide)
  simp [swkWatched, hmode]

theorem canError_running {d : Dev} {ch : Nat} (hl : canLive d ch = true) (hr : canRuns (canOf d ch) = true)
    (ho : (canOf d ch).opmode ≠ 2) (steps : Nat) :
    canError d ch steps = recSteps (bumpC (modCan d ch (fun c => { c with past := [] })) ch 0x118) ch steps := by
  simp [canError, swkWatched_of_canLive hl, rxError, hl, hr, ho]

theorem canRxError_counts (s : State) (ch steps : Nat) (hl : canLive s.dev ch = true) (hr : canRuns (canOf s.dev ch) = true)
    (ho : (canOf s.dev ch).opmode ≠ 2) :
    Yields (.canRxError ch steps) s (fun d =>
      (canOf d ch).rec' = min ((canOf s.dev ch).rec' + 1 + 8 * steps) 255 ∧ (canOf d ch).tec = (canOf s.dev ch).tec ∧
      (canOf d ch).stage = (canOf s.dev ch).stage ∧ d.regs = s.dev.regs ∧
      (∀ c, c ≠ ch → canOf d c = canOf s.dev c) ∧ d.lnd = s.dev.lnd) := by
  refine yields_after (exec_of_act (f := fun d => canError d ch steps) rfl (canError_running hl hr ho steps)) ?_
  have hkeeps := ((canKeeps_modCan s.dev ch (fun c => { c with past := [] })).trans (canKeeps_bumpC _ ch 0x118)).trans
    (canKeeps_recSteps _ ch steps)
  obtain ⟨st, hsteps⟩ := canOf_recSteps (bumpC (modCan s.dev ch (fun c => { c with past := [] })) ch 0x118) ch steps
  rw [canOf_settle, hsteps, canOf_bumpC, canOf_modCan_same]
  exact ⟨rfl, rfl, rfl, hkeeps.settle.regs, hkeeps.settle.others, hkeeps.settle.lnd⟩

/-! ## Attempts that fail (R186, R193, R194) -/

/-- A frame of a failed attempt as it waits for its next one. -/
def retried (x : XbFrame) : XbFrame := { x with onBus := false, failed := true }

section Kept
variable {x : XbFrame} (hlast : x.last = false) (hcancel : x.cancel = false) (hexp : x.expired = false)
include hlast hcancel hexp

/-- R186, R194: a frame that nothing withdraws keeps its buffer after a failed attempt. -/
theorem attemptOver_kept (d : Dev) (ch b : Nat) :
    attemptOver d ch b x = modCan d ch (fun c => unpick (setXb c b (some (retried x))) b) := by
  simp only [attemptOver, hlast, hcancel, hexp, Bool.false_eq_true, if_false, retried]

theorem canKeeps_attemptOver_kept (d : Dev) (ch b : Nat) : CanKeeps ch d (attemptOver d ch b x) := by
  rw [attemptOver_kept hlast hcancel hexp]
  exact canKeeps_modCan ..

theorem xbOf_attemptOver_kept {b : Nat} (hb : b < 3) (d : Dev) (ch : Nat) :
    xbOf (canOf (attemptOver d ch b x) ch) b = some (retried x) := by
  rw [attemptOver_kept hlast hcancel hexp, canOf_modCan_same, xbOf_unpick, xbOf_setXb hb]

theorem tec_attemptOver_kept (d : Dev) (ch b : Nat) : (canOf (attemptOver d ch b x) ch).tec = (canOf d ch).tec := by
  rw [attemptOver_kept hlast hcancel hexp, canOf_modCan_same, (unpick_setXb_rest ..).1]

theorem canRuns_attemptOver_kept (d : Dev) (ch b : Nat) :
    canRuns (canOf (attemptOver d ch b x) ch) = canRuns (canOf d ch) := by
  obtain ⟨-, -, hstate, -⟩ := unpick_setXb_rest (canOf d ch) b (some (retried x))
  rw [attemptOver_kept hlast hcancel hexp, canOf_modCan_same, canRuns, hstate, canRuns]

end Kept

/-- R189: a late load leaves a buffer that holds a frame. -/
theorem xbOf_lateLoad_some {d : Dev} {ch b : Nat} {x : XbFrame} (h : xbOf (canOf d ch) b = some x) :
    xbOf (canOf (lateLoad d ch) ch) b = some x := by
  rw [xbOf_lateLoad, h]
  by_cases hb : b = 0
  · subst hb
    have hxb : (canOf d ch).xb0 = some x := h
    exact .inr (.inr (by rw [hxb]; exact Option.some_ne_none x))
  · exact .inl hb

theorem txError_detected {d : Dev} {ch b : Nat} {x : XbFrame} (hb : onBus (canOf d ch) = some b) (hx : xbOf (canOf d ch) b = some x)
    (n : Nat) : txError d ch (.detected n) = attemptFails d ch b x n := by
  simp only [txError, hb, hx]

theorem arbLost_onBus {d : Dev} {ch b : Nat} {x : XbFrame} (hb : onBus (canOf d ch) = some b) (hx : xbOf (canOf d ch) b = some x) :
    arbLost d ch = lateLoad (attemptOver (bumpC d ch 0x128) ch b x) ch := by
  simp only [arbLost, hb, hx]

/-- R193: the one step of 8 of a running channel. -/
theorem tecSteps_one {d : Dev} {ch : Nat} (h : canRuns (canOf d ch) = true) : tecSteps d ch 1 = tecAdd d ch 8 := by
  simp [tecSteps, List.range_succ, h]

/-- R193: a frame that nothing withdraws waits for its next attempt while TEC has risen by 8. -/
theorem attemptFails_kept {d : Dev} {ch b : Nat} {x : XbFrame} (hlast : x.last = false) (hcancel : x.cancel = false)
    (hexp : x.expired = false) (hb : b < 3) (hr : canRuns (canOf d ch) = true) (htec : (canOf d ch).tec + 8 ≤ 255) :
    CanKeeps ch d (attemptFails d ch b x 1) ∧ (canOf (attemptFails d ch b x 1) ch).tec = (canOf d ch).tec + 8 ∧
    xbOf (canOf (attemptFails d ch b x 1) ch) b = some (retried x) := by
  have hkeeps := (canKeeps_bumpC d ch 0x120).trans (canKeeps_attemptOver_kept hlast hcancel hexp _ ch b)
  have hkept := xbOf_attemptOver_kept hlast hcancel hexp hb (bumpC d ch 0x120) ch
  have hcount := tec_attemptOver_kept hlast hcancel hexp (bumpC d ch 0x120) ch b
  have hruns := canRuns_attemptOver_kept hlast hcancel hexp (bumpC d ch 0x120) ch b
  rw [canOf_bumpC] at hcount hruns
  rw [attemptFails]
  generalize attemptOver (bumpC d ch 0x120) ch b x = d1 at *
  rw [tecSteps_one (hruns.trans hr)]
  have hbelow : (canOf d1 ch).tec + 8 ≤ 255 := by omega
  obtain ⟨st, hadd⟩ := canOf_tecAdd_below hbelow
  refine ⟨(hkeeps.trans (canKeeps_tecAdd_below hbelow)).trans (canKeeps_lateLoad ..), ?_, xbOf_lateLoad_some ?_⟩
  · rw [lateLoad_tec, hadd, hcount]
  · rw [hadd]; exact hkept

theorem canTxError_retries (s : State) (ch b : Nat) (x : XbFrame) (hb : onBus (canOf s.dev ch) = some b)
    (hx : xbOf (canOf s.dev ch) b = some x) (hlast : x.last = false) (hcancel : x.cancel = false) (hexp : x.expired = false)
    (hr : canRuns (canOf s.dev ch) = true) (htec : (canOf s.dev ch).tec + 8 ≤ 255) :
    Yields (.canTxError ch (.detected 1)) s (fun d => (canOf d ch).tec = (canOf s.dev ch).tec + 8 ∧
      xbOf (canOf d ch) b = some { x with onBus := false, failed := true } ∧ d.lnd = s.dev.lnd ∧ d.regs = s.dev.regs ∧
      (∀ c, c ≠ ch → canOf d c = canOf s.dev c)) := by
  obtain ⟨hkeeps, hcount, hkept⟩ := attemptFails_kept hlast hcancel hexp (lt_three_of_onBus hb) hr htec
  refine yields_after (exec_of_act (f := fun d => txError d ch (.detected 1)) rfl (txError_detected hb hx 1)) ?_
  rw [canOf_settle]
  exact ⟨hcount, hkept, hkeeps.settle.lnd, hkeeps.settle.regs, hkeeps.settle.others⟩

theorem canArbLost_retries (s : State) (ch b : Nat) (x : XbFrame) (hb : onBus (canOf s.dev ch) = some b)
    (hx : xbOf (canOf s.dev ch) b = some x) (hlast : x.last = false) (hcancel : x.cancel = false) (hexp : x.expired = false) :
    Yields (.canArbLost ch) s (fun d => (canOf d ch).tec = (canOf s.dev ch).tec ∧
      xbOf (canOf d ch) b = some { x with onBus := false, failed := true } ∧ d.lnd = s.dev.lnd ∧ d.evs = s.dev.evs ∧
      (∀ c, c ≠ ch → canOf d c = canOf s.dev c)) := by
  refine yields_after (exec_of_act (f := fun d => arbLost d ch) rfl (arbLost_onBus hb hx)) ?_
  have hkeeps := (((canKeeps_bumpC s.dev ch 0x128).trans (canKeeps_attemptOver_kept hlast hcancel hexp _ ch b)).trans
    (canKeeps_lateLoad _ ch)).settle
  have hkept := xbOf_attemptOver_kept hlast hcancel hexp (lt_three_of_onBus hb) (bumpC s.dev ch 0x128) ch
  refine ⟨?_, ?_, hkeeps.lnd, ?_, hkeeps.others⟩
  · rw [canOf_settle, lateLoad_tec, tec_attemptOver_kept hlast hcancel hexp, canOf_bumpC]
  · rw [canOf_settle, xbOf_lateLoad_some hkept, retried]
  · rw [settle_evs, lateLoad_evs, attemptOver_kept hlast hcancel hexp]; rfl

/-! ## Completion (R162, R172, R186) -/

/-- R172: a frame as it leaves, with the error state of its channel in ESI. -/
def sentFrame (c : CanCh) (x : XbFrame) : CanFrame := { x.frame with esi := c.state == 3 && x.frame.fmt != .classical }

theorem canKeeps_stageFrame (d : Dev) (ch : Nat) (l : CanLatch) (f : CanFrame) : CanKeeps ch d (stageFrame d ch l f) := by
  unfold stageFrame
  split
  · exact canKeeps_bumpC ..
  · split
    · exact canKeeps_bumpC ..
    · exact canKeeps_modCan ..

/-- R172, R179: a frame bound for the receive stage changes the stage alone. -/
theorem canOf_stageFrame (d : Dev) (ch : Nat) (l : CanLatch) (f : CanFrame) :
    ∃ st, canOf (stageFrame d ch l f) ch = { canOf d ch with stage := st } := by
  unfold stageFrame
  split
  · exact ⟨_, rfl⟩
  · split
    · exact ⟨_, rfl⟩
    · rw [canOf_modCan_same]; exact ⟨_, rfl⟩

/-- R179: a data frame joins a receive stage that has a place. -/
theorem stage_stageFrame {d : Dev} {ch : Nat} {f : CanFrame} (hrtr : f.rtr = false) (hlen : (canOf d ch).stage.length < 2)
    (l : CanLatch) : (canOf (stageFrame d ch l f) ch).stage = (canOf d ch).stage ++ [⟨f, l.base, l.cnt, l.rej⟩] := by
  simp [stageFrame, hrtr, Nat.not_le.mpr hlen]

/-- R162: in internal loop-back the frame goes to the channel's own receive stage. -/
theorem canOut_loopback {d : Dev} {ch : Nat} (h : (canOf d ch).opmode = 2) (x : XbFrame) :
    canOut d ch x = stageFrame d ch (latchOf d ch (canOf d ch).past.length) (sentFrame (canOf d ch) x) := by
  simp only [canOut, h, if_true, sentFrame]

/-- R170, R172: out of loop-back the frame leaves, behind its PWM coding where it has one. -/
theorem canOut_bus {d : Dev} {ch : Nat} (h : (canOf d ch).opmode ≠ 2) (x : XbFrame) :
    ∃ d', (d' = d ∨ ∃ o, d' = emit d o) ∧ canOut d ch x = emit d' (.can ch (sentFrame (canOf d ch) x)) := by
  simp only [canOut, if_neg h]
  refine ⟨_, ?_, rfl⟩
  split
  · exact .inr ⟨_, rfl⟩
  · exact .inl rfl

theorem canKeeps_canOut (d : Dev) (ch : Nat) (x : XbFrame) : CanKeeps ch d (canOut d ch x) := by
  by_cases h : (canOf d ch).opmode = 2
  · rw [canOut_loopback h]
    exact canKeeps_stageFrame ..
  · obtain ⟨d', rfl | ⟨o, rfl⟩, he⟩ := canOut_bus h x <;> rw [he]
    · exact canKeeps_emit ..
    · exact (canKeeps_emit ..).trans (canKeeps_emit ..)

/-- R162, R172: sending changes the receive stage of the channel at most. -/
theorem canOf_canOut (d : Dev) (ch : Nat) (x : XbFrame) : ∃ st, canOf (canOut d ch x) ch = { canOf d ch with stage := st } := by
  by_cases h : (canOf d ch).opmode = 2
  · rw [canOut_loopback h]
    exact canOf_stageFrame ..
  · obtain ⟨d', rfl | ⟨o, rfl⟩, he⟩ := canOut_bus h x <;> rw [he] <;> exact ⟨_, rfl⟩

/-- R181: emptying a buffer gives up its pick, and MBEN may act. -/
theorem clearXb_eq (d : Dev) (ch b : Nat) :
    ∃ m, clearXb d ch b = modCan d ch (fun c => { unpick (setXb c b none) b with mbOn := m }) := by
  rw [clearXb, mbSync]
  split
  · rw [modCan_modCan]
    exact ⟨_, rfl⟩
  · exact ⟨(unpick (setXb (canOf d ch) b none) b).mbOn, modCan_congr rfl⟩

theorem canKeeps_clearXb (d : Dev) (ch b : Nat) : CanKeeps ch d (clearXb d ch b) := by
  obtain ⟨m, h⟩ := clearXb_eq d ch b
  rw [h]
  exact canKeeps_modCan ..

/-- The device as a frame without a cancel, mailbox or store has completed, before XB0 may be loaded late. -/
def completed (d : Dev) (ch b : Nat) (x : XbFrame) : Dev :=
  tecGood (bumpC (clearXb (modCan (canOut d ch x) ch (fun c => { c with past := [] })) ch b) ch 0x108) ch

theorem frameSent_completed {d : Dev} {ch b : Nat} {x : XbFrame} (hb : onBus (canOf d ch) = some b)
    (hx : xbOf (canOf d ch) b = some x) (hcancel : x.cancel = false) (hmbox : x.mbox = false) (hstore : x.store = none) :
    frameSent d ch = lateLoad (completed d ch b x) ch := by
  simp only [frameSent, hb, hx, storeDrop, hstore, hcancel, mbLeft, hmbox, Bool.false_eq_true, if_false, completed]

theorem canKeeps_completed (d : Dev) (ch b : Nat) (x : XbFrame) : CanKeeps ch (canOut d ch x) (completed d ch b x) :=
  (((canKeeps_modCan ..).trans (canKeeps_clearXb ..)).trans (canKeeps_bumpC ..)).trans (canKeeps_tecGood ..)

/-- R186: what the channel reads once its frame has completed. -/
theorem canOf_completed (d : Dev) {ch b : Nat} (hb : b < 3) (x : XbFrame) :
    (canOf (completed d ch b x) ch).tec = (canOf d ch).tec - 1 ∧
    (canOf (completed d ch b x) ch).stage = (canOf (canOut d ch x) ch).stage ∧
    (canOf (completed d ch b x) ch).schLoad = (canOf d ch).schLoad ∧ xbOf (canOf (completed d ch b x) ch) b = none := by
  obtain ⟨st, hout⟩ := canOf_canOut d ch x
  obtain ⟨m, hclear⟩ := clearXb_eq (modCan (canOut d ch x) ch (fun c => { c with past := [] })) ch b
  obtain ⟨htec, hstage, -, hload⟩ := unpick_setXb_rest { canOf (canOut d ch x) ch with past := [] } b none
  obtain ⟨e, hgood⟩ := canOf_tecGood (bumpC (clearXb (modCan (canOut d ch x) ch (fun c => { c with past := [] })) ch b) ch 0x108) ch
  rw [completed, hgood, canOf_bumpC, hclear, canOf_modCan_same, canOf_modCan_same]
  refine ⟨?_, hstage, ?_, (xbOf_unpick ..).trans (xbOf_setXb hb ..)⟩
  · dsimp only; rw [htec, hout]
  · dsimp only; rw [hload, hout]

theorem canFrameSent_completes (s : State) (ch b : Nat) (x : XbFrame) (hb : onBus (canOf s.dev ch) = some b)
    (hx : xbOf (canOf s.dev ch) b = some x) (hcancel : x.cancel = false) (hmbox : x.mbox = false) (hstore : x.store = none) :
    Yields (.canFrameSent ch) s (fun d => ((canOf s.dev ch).schLoad = none ∨ b ≠ 0 → xbOf (canOf d ch) b = none) ∧
      (canOf d ch).tec = (canOf s.dev ch).tec - 1 ∧
      ((canOf s.dev ch).opmode = 2 → x.frame.rtr = false → (canOf s.dev ch).stage.length < 2 →
        (canOf d ch).stage = (canOf s.dev ch).stage ++
          [⟨sentFrame (canOf s.dev ch) x, (latchOf s.dev ch (canOf s.dev ch).past.length).base,
            (latchOf s.dev ch (canOf s.dev ch).past.length).cnt, (latchOf s.dev ch (canOf s.dev ch).past.length).rej⟩]) ∧
      ((canOf s.dev ch).opmode ≠ 2 → Output.can ch (sentFrame (canOf s.dev ch) x) ∈ d.out) ∧ d.lnd = s.dev.lnd ∧
      (∀ c, c ≠ ch → canOf d c = canOf s.dev c)) := by
  obtain ⟨htec, hstage, hload, hfree⟩ := canOf_completed s.dev (lt_three_of_onBus hb) x
  have hafter := ((canKeeps_completed s.dev ch b x).trans (canKeeps_lateLoad _ ch)).settle
  have hkeeps := (canKeeps_canOut s.dev ch x).trans hafter
  refine yields_after (exec_of_act (f := fun d => frameSent d ch) rfl (frameSent_completed hb hx hcancel hmbox hstore)) ?_
  rw [canOf_settle, lateLoad_tec, lateLoad_stage, htec, hstage]
  refine ⟨fun h => ?_, rfl, fun hloop hrtr hlen => ?_, fun hbus => hafter.out _ ?_, hkeeps.lnd, hkeeps.others⟩
  · rw [xbOf_lateLoad, hfree]
    exact h.elim (fun hnone => .inr (.inl (hload.trans hnone))) .inl
  · rw [canOut_loopback hloop]
    exact stage_stageFrame (f := sentFrame (canOf s.dev ch) x) hrtr hlen _
  · obtain ⟨d', -, he⟩ := canOut_bus hbus x
    rw [he]
    exact List.mem_cons_self ..

/-- Settles O24: one lemma per command, from what a failed or completed attempt leaves of its frame and of the counters. -/
theorem canErrorsMoveTheCounters : Obligations.CanErrorsMoveTheCounters :=
  ⟨canRxError_counts, canTxError_retries, canArbLost_retries, canFrameSent_completes⟩

end Sys2Proof.Machine
end

section
/-! SUPPORT. Copies that commit or are dropped, and flushes (chapters 07 and 09): what neither of them touches. -/

namespace Sys2Proof.Machine

/-! ## The end of a copy (R252, R397, R400) -/

/-- What `g` reads is no part of the Landing, the twins and the endpoints, which alone the end of a copy changes. -/
structure CopyBlind {α : Type} (g : Dev → α) : Prop where
  lnd : ∀ d l, g { d with lnd := l } = g d
  flt : ∀ d f, g { d with flt := f } = g d
  eps : ∀ d e, g { d with eps := e } = g d

theorem foldl_keeps {α β : Type} {g : Dev → α} {f : Dev → β → Dev} (h : ∀ d x, g (f d x) = g d) (d : Dev) (l : List β) :
    g (l.foldl f d) = g d :=
  List.foldlRecOn (motive := fun e => g e = g d) l f rfl (fun e he x _ => (h e x).trans he)

section CopyBlind
variable {α : Type} {g : Dev → α} (hg : CopyBlind g)
include hg

theorem CopyBlind.freeCells (d : Dev) : g (freeCells d) = g d := by
  unfold Machine.freeCells
  dsimp only
  rw [hg.lnd]
  exact foldl_keeps (fun d _ => hg.flt d _) d _

theorem CopyBlind.copyGone (d : Dev) (id : Nat) (committed : Bool) (stamp : Nat) : g (copyGone d id committed stamp) = g d := by
  have hcommit : ∀ d, g (if committed then commitOut d 0 id else d) = g d := by
    intro d
    split
    · exact hg.flt d _
    · rfl
  unfold Machine.copyGone
  split
  · rfl
  · dsimp only
    rw [hg.freeCells]
    split
    · split
      · exact (hg.eps _ _).trans ((hcommit _).trans (hg.lnd d _))
      · exact (hcommit _).trans (hg.lnd d _)
    · exact (hcommit _).trans (hg.lnd d _)

theorem CopyBlind.copyDrop (d : Dev) (id : Nat) : g (copyDrop d id) = g d := hg.copyGone ..

theorem CopyBlind.unqueue (d : Dev) (q id : Nat) : g (unqueue d q id) = g d := hg.lnd ..

theorem CopyBlind.unstage (d : Dev) (q id : Nat) : g (unstage d q id) = g d := hg.lnd ..

end CopyBlind

theorem copyBlind_can : CopyBlind Dev.can := ⟨fun _ _ => rfl, fun _ _ => rfl, fun _ _ => rfl⟩

/-- R400: the commit of a copy leaves the channels. -/
theorem canOf_copyCommit (d : Dev) (id ch : Nat) : canOf (copyCommit d id) ch = canOf d ch :=
  canOf_congr (copyBlind_can.copyGone ..) ch

/-! ## Flushes (R165, R265) -/

/-- What `g` reads is nothing that a flush of a channel changes: the registers and the clocks are such. -/
structure FlushBlind {α : Type} (g : Dev → α) : Prop extends CopyBlind g where
  can : ∀ d m, g { d with can := m } = g d
  rcd : ∀ d r, g { d with rcd := r } = g d
  whl : ∀ d w, g { d with whl := w } = g d
  bump : ∀ d off inst, g (bump d off inst) = g d
  raise : ∀ d code cls data, g (raise d code cls data) = g d

section FlushBlind
variable {α : Type} {g : Dev → α} (hg : FlushBlind g)
include hg

theorem FlushBlind.modCan (d : Dev) (ch : Nat) (f : CanCh → CanCh) : g (modCan d ch f) = g d := hg.can ..

theorem FlushBlind.clearXb (d : Dev) (ch b : Nat) : g (clearXb d ch b) = g d := by
  obtain ⟨m, h⟩ := clearXb_eq d ch b
  rw [h, hg.modCan]

theorem FlushBlind.xbDrop (d : Dev) (x : XbFrame) : g (xbDrop d x) = g d := by
  unfold Machine.xbDrop
  split
  · rfl
  · split
    · exact hg.copyDrop ..
    · rfl

theorem FlushBlind.storeDrop (d : Dev) (ch : Nat) (x : XbFrame) : g (storeDrop d ch x) = g d := by
  unfold Machine.storeDrop
  split
  · rfl
  · split
    · split
      · exact hg.modCan ..
      · rfl
    · rfl

theorem FlushBlind.mbLeft (d : Dev) (ch : Nat) (x : XbFrame) (result : Nat) : g (mbLeft d ch x result) = g d := by
  unfold Machine.mbLeft
  split
  · rw [hg.raise, hg.modCan]
  · rfl

theorem FlushBlind.cancelXb (d : Dev) (ch b : Nat) (x : XbFrame) : g (cancelXb d ch b x) = g d := by
  simp only [Machine.cancelXb, bumpC]
  rw [hg.mbLeft, hg.raise, hg.bump, hg.modCan, hg.storeDrop, hg.xbDrop, hg.clearXb]

theorem FlushBlind.flushXb (d : Dev) (ch b : Nat) : g (flushXb d ch b) = g d := by
  unfold Machine.flushXb
  split
  · rfl
  · split
    · exact hg.cancelXb ..
    · rw [hg.mbLeft, bumpC, hg.bump, hg.xbDrop, hg.clearXb]

theorem FlushBlind.recLoss (d : Dev) (q : Nat) : g (recLoss d q) = g d := by
  unfold Machine.recLoss
  split
  · exact hg.rcd ..
  · rfl

theorem FlushBlind.hostLoss (d : Dev) (q : Nat) : g (hostLoss d q) = g d := by
  have hreport : ∀ (late : Bool) (a b : Lnd) (data : Bytes),
      g (if late then Machine.raise { d with lnd := a } 0x0902 0 data else { d with lnd := b }) = g d := by
    intro late a b data
    cases late
    · exact hg.lnd d b
    · exact (hg.raise ..).trans (hg.lnd d a)
  unfold Machine.hostLoss
  split
  · exact hg.recLoss ..
  · exact (hg.eps ..).trans (hreport ..)

theorem FlushBlind.portFlushCount (d : Dev) (q : Nat) : g (portFlushCount d q) = g d := by
  unfold Machine.portFlushCount
  split
  · exact hg.bump ..
  · split
    · exact hg.bump ..
    · rfl

theorem FlushBlind.flushCopy (d : Dev) (q id : Nat) : g (flushCopy d q id) = g d := by
  rw [Machine.flushCopy, hg.copyDrop, hg.hostLoss, hg.portFlushCount, bumpQ, hg.bump, hg.unstage, hg.unqueue]

theorem FlushBlind.flushQueue (d : Dev) (q : Nat) (p : Nat × Dest → Bool) : g (flushQueue d q p) = g d := by
  unfold Machine.flushQueue
  dsimp only
  split
  · rfl
  · exact (hg.raise ..).trans (foldl_keeps (f := fun d (c : Nat × Dest) => Machine.flushCopy d q c.1)
      (fun d c => hg.flushCopy d q c.1) d _)

theorem FlushBlind.flushQueues (d : Dev) (qs : List Nat) : g (flushQueues d qs) = g d :=
  foldl_keeps (fun d q => hg.flushQueue d q _) d qs

theorem FlushBlind.flushChannel (d : Dev) (ch : Nat) : g (flushChannel d ch) = g d := by
  rw [Machine.flushChannel, hg.modCan, hg.flushQueues]
  exact foldl_keeps (fun d b => hg.flushXb d ch b) d _

theorem FlushBlind.crossReset (d : Dev) (x : Nat) (out reader : Bool) (n : Nat) : g (crossReset d x out reader n) = g d := by
  unfold Machine.crossReset
  split
  · exact hg.whl ..
  · rfl

theorem FlushBlind.enterInit (d : Dev) (ch : Nat) : g (enterInit d ch) = g d := by
  rw [Machine.enterInit, hg.modCan, crossOutside, hg.crossReset, hg.crossReset, hg.flushChannel]

end FlushBlind

theorem flushBlind_regs : FlushBlind Dev.regs :=
  { lnd := fun _ _ => rfl, flt := fun _ _ => rfl, eps := fun _ _ => rfl, can := fun _ _ => rfl, rcd := fun _ _ => rfl,
    whl := fun _ _ => rfl, bump := fun _ _ _ => rfl, raise := fun _ _ _ _ => raise_regs .. }

theorem flushBlind_clk : FlushBlind Dev.clk :=
  { lnd := fun _ _ => rfl, flt := fun _ _ => rfl, eps := fun _ _ => rfl, can := fun _ _ => rfl, rcd := fun _ _ => rfl,
    whl := fun _ _ => rfl, bump := fun _ _ _ => rfl, raise := fun _ _ _ _ => raise_clk .. }

end Sys2Proof.Machine
end

section
/-! SUPPORT. The transmitter of a CAN channel (chapter 07): the pick, the SOF and the refill. -/

namespace Sys2Proof.Machine

/-! ## Selection and SOF (R168, R183, R184) -/

/-- R168, R184: the selection instant latches the bit timing and picks under ORDER. -/
theorem selection_picks {d : Dev} {ch : Nat} (hl : canLive d ch = true) (hr : canRuns (canOf d ch) = true)
    (hb : onBus (canOf d ch) = none) (hm : mayTx (btLatch d ch) ch = true) :
    selection d ch = modCan d ch (fun c => { c with
      bt := btNow d ch
      next := if bit (canCtl d ch) 9 then (readyBufs (canOf d ch)).head?.map (fun p => p.1) else bestReady (readyBufs (canOf d ch)) }) := by
  have hctl : canCtl (btLatch d ch) ch = canCtl d ch := rfl
  simp only [selection, hl, hr, hb, hm, hctl, Bool.not_true, Option.isSome_none, Bool.or_self, Bool.false_eq_true, if_false]
  exact modCan_modCan ..

/-- R168, R184: the selection instant changes the channel alone. -/
theorem canSelection_picks (s : State) {ch : Nat} (hl : canLive s.dev ch = true) (hr : canRuns (canOf s.dev ch) = true)
    (hb : onBus (canOf s.dev ch) = none) (hm : mayTx (btLatch s.dev ch) ch = true) :
    Yields (.canSelection ch) s (fun d => canOf d ch = { canOf s.dev ch with
        bt := btNow s.dev ch
        next := if bit (canCtl s.dev ch) 9 then (readyBufs (canOf s.dev ch)).head?.map (fun p => p.1)
          else bestReady (readyBufs (canOf s.dev ch)) } ∧ OnlyCan s.dev ch d) :=
  yields_modCan (exec_of_act (f := fun d => selection d ch) rfl (selection_picks hl hr hb hm))

/-- R183: the device with the SOF of the frame `x` in buffer `b` out. -/
def sofSent (d : Dev) (ch b : Nat) (x : XbFrame) : Dev :=
  modCan d ch (fun c => { setXb c b (some { x with sof := true, onBus := true }) with past := [] })

theorem xbOf_sofSent {b : Nat} (h : b < 3) (d : Dev) (ch : Nat) (x : XbFrame) :
    xbOf (canOf (sofSent d ch b x) ch) b = some { x with sof := true, onBus := true } := by
  rw [sofSent, canOf_modCan_same]
  exact xbOf_setXb h ..

/-- R189: outside an exclusive column, or from XB0, a SOF is not held back. -/
theorem not_exclusive {c : CanCh} {b : Nat} (h : c.schExcl = false ∨ b = 0) : (c.schExcl && b != 0) = false := by
  rcases h with h | h <;> simp [h]

section Sof
variable {d : Dev} {ch b : Nat} {x : XbFrame} (hn : (canOf d ch).next = some b) (hx : xbOf (canOf d ch) b = some x)
  (hm : mayTx d ch = true) (hb : onBus (canOf d ch) = none) (he : (canOf d ch).schExcl = false ∨ b = 0)
include hn hx hm hb he

/-- R183: a frame without a stored copy is put on the bus, and nothing commits. -/
theorem sofStep_unstored (hp : x.pkt = none) : sofStep d ch = sofSent d ch b x := by
  simp only [sofStep, hn, hx, hm, hb, not_exclusive he, hp, Bool.not_true, Option.isSome_none, Bool.or_self, Bool.false_eq_true, if_false,
    sofSent]

/-- R183, R400: the commit of a copy at its first SOF leaves the channels as the SOF does. -/
theorem canOf_sofStep (c : Nat) : canOf (sofStep d ch) c = canOf (sofSent d ch b x) c := by
  simp only [sofStep, hn, hx, hm, hb, not_exclusive he, Bool.not_true, Option.isSome_none, Bool.or_self, Bool.false_eq_true, if_false]
  split
  · rfl
  · split
    · rfl
    · split
      · rfl
      · exact canOf_copyCommit ..

end Sof

/-! ## Refill (R182) -/

/-- R182: a staged head as it fills a buffer. -/
def filled (d : Dev) (ch : Nat) (it : LaneItem) : XbFrame :=
  { frame := canFrameOf d ch it.pkt it.dest.fmt, tag := it.tag.getD (canOf d ch).nextTag, flow := flowOf it, pkt := some it.pkt,
    item := some it, store := none, mbox := false, sof := false, onBus := false, failed := false, cancel := false, expired := false,
    order := (canOf d ch).fills }

theorem xbOf_fillXb {b : Nat} (h : b < 3) (d : Dev) (ch : Nat) (it : LaneItem) :
    xbOf (canOf (fillXb d ch b it) ch) b = some (filled d ch it) := by
  rw [fillXb, canOf_modCan_same]
  exact xbOf_setXb h ..

theorem canOf_fillXb_ne (d : Dev) {ch c : Nat} (h : c ≠ ch) (b : Nat) (it : LaneItem) : canOf (fillXb d ch b it) c = canOf d c := by
  rw [fillXb, canOf_modCan_ne _ h]
  rfl

@[simp] theorem fillXb_regs (d : Dev) (ch b : Nat) (it : LaneItem) : (fillXb d ch b it).regs = d.regs := rfl

/-- R182, R189, R403: the first free Landing-fed buffer takes the first staged head that the flow guard lets pass, while no store
awaits XB0 and nothing is frozen. -/
theorem refill_fills {d : Dev} {ch b : Nat} {it : LaneItem} (hl : canLive d ch = true) (h1 : 1 ≤ (canOf d ch).state)
    (h4 : (canOf d ch).state < 4) (hf : outFrozen d (6 + ch / 6) = false)
    (hs : (canOf d ch).schLoad = none ∨ (canOf d ch).xb0.isSome = true)
    (hb : (landingBufs d ch).find? (fun b => (xbOf (canOf d ch) b).isNone) = some b)
    (hi : (stagedHeads d ch).find? (flowFree (canOf d ch)) = some it) : refill d ch = fillXb d ch b it := by
  have hload : ((canOf d ch).schLoad.isSome && (canOf d ch).xb0.isNone) = false := by
    rcases hs with hs | hs
    · simp [hs]
    · simp [Option.isNone_eq_false_iff.mpr hs]
  have hne : (canOf d ch).state ≠ 0 := Nat.one_le_iff_ne_zero.mp h1
  simp only [refill, hl, hf, hload, hne, Nat.not_le.mpr h4, hb, hi, Bool.not_true, decide_false, Bool.or_self, Bool.false_eq_true,
    if_false]

/-- Settles O25: the selection and the SOF as changes of the channel alone, the commit of a copy beside them, and the refill as one
fill. -/
theorem canSelectionSendsThePick : Obligations.CanSelectionSendsThePick := by
  unfold Obligations.CanSelectionSendsThePick
  refine ⟨fun s ch hl hr hb hm ho => ?_, fun s ch hl hr hb hm ho => ?_, fun s ch b x hlt hn hx hm hb he hp => ?_,
    fun s ch b x p hlt hn hx hm hb he hp => ?_, fun s ch b it hl h1 h4 hf hs hb hlt hi => ?_⟩
  case refine_1 => simpa only [ho, Bool.false_eq_true, if_false] using canSelection_picks s hl hr hb hm
  case refine_2 => simpa only [ho, if_true] using canSelection_picks s hl hr hb hm
  case refine_3 =>
    refine yields_after (exec_of_act (f := fun d => sofStep d ch) rfl (sofStep_unstored hn hx hm hb he hp)) ⟨?_, onlyCan_modCan ..⟩
    rw [canOf_settle, xbOf_sofSent hlt]
  case refine_4 =>
    refine yields_act (f := fun d => sofStep d ch) rfl ?_
    rw [canOf_settle, canOf_sofStep hn hx hm hb he, xbOf_sofSent hlt]
  case refine_5 =>
    refine yields_after (exec_of_act (f := fun d => refill d ch) rfl (refill_fills hl h1 h4 hf hs hb hi)) ?_
    refine ⟨filled s.dev ch it, ?_, rfl, rfl, rfl, rfl, rfl, ?_, fun c hc => ?_⟩
    · rw [canOf_settle, xbOf_fillXb hlt]
    · rw [settle_regs, fillXb_regs]
    · rw [canOf_settle, canOf_fillXb_ne _ hc]

end Sys2Proof.Machine
end

section
/-! SUPPORT. The schedule matrix, a cancel and the direct mailbox of a CAN channel (chapter 07). -/

namespace Sys2Proof.Machine

/-! ## Columns (R187 to R190) -/

/-- R187: the first column after integration is column 0 of cycle 0; where the matrix leaves it free, nothing is loaded. -/
theorem columnStart_first {d : Dev} {ch : Nat} (hl : canLive d ch = true) (hr : canRuns (canOf d ch) = true)
    (hm : hasMatrix d ch = true) (hrun : (canOf d ch).schRun = false) (hfree : matrixAt d ch 0 0 = none) :
    columnStart d ch = modCan d ch (fun c =>
      { c with schRun := true, schCyc := 0, schCol := 0, schExcl := false, schLoad := none }) := by
  have hat : matrixAt (modCan d ch (fun c => { c with schRun := true, schCyc := 0, schCol := 0 })) ch 0 0 = none := hfree
  simp only [columnStart, hl, hr, hm, hrun, Bool.not_true, Bool.or_self, Bool.false_eq_true, if_false, canOf_modCan_same, hat]
  exact modCan_modCan ..

/-- R189: a channel in a column of KIND `k`: the mark of an exclusive column, in which no other buffer keeps its pick. -/
def inColumn (k : Nat) (c : CanCh) : CanCh :=
  { c with schExcl := k == 0, schLoad := none, next := c.next.filter (fun b => k != 0 || b == 0) }

/-- R188, R189: a stored frame as it takes XB0. -/
def storedXb (d : Dev) (ch route : Nat) (p : StoreFrame) : XbFrame :=
  { frame := canFrameOf d ch p.pkt p.dest.fmt, tag := (canOf d ch).nextTag, flow := (p.pkt.ingress, route, p.dest.tc),
    pkt := some p.pkt, item := none, store := some route, mbox := false, sof := false, onBus := false, failed := false,
    cancel := false, expired := false, order := (canOf d ch).fills }

/-- R189: the column of a stored frame loads it into a free XB0, unless the Landing or the egress twin is frozen. -/
theorem columnStart_loads {d : Dev} {ch k route : Nat} {p : StoreFrame} (hl : canLive d ch = true)
    (hr : canRuns (canOf d ch) = true) (hm : hasMatrix d ch = true) (hrun : (canOf d ch).schRun = true)
    (hat : matrixAt d ch (canOf d ch).schCyc (canOf d ch).schCol = some (k, route)) (hk : k < 2)
    (hp : mapGet? (canOf d ch).store route = some p) (hfree : (canOf d ch).xb0 = none) (hf : outFrozen d (6 + ch / 6) = false) :
    columnStart d ch = modCan d ch (fun c => { inColumn k c with
      xb0 := some (storedXb d ch route p), nextTag := (c.nextTag + 1) % 65536, fills := c.fills + 1 }) := by
  have hkind : k = 0 ∨ k = 1 := by omega
  have hfrozen : outFrozen (modCan d ch (inColumn k)) (6 + ch / 6) = false := hf
  have hload : loadStore (modCan d ch (inColumn k)) ch route = storeXb (modCan d ch (inColumn k)) ch route p := by
    simp only [loadStore, canOf_modCan_same, inColumn, hp, hfree, Option.isSome_none, Bool.false_or]
    exact if_neg (ne_true_of_eq_false hfrozen)
  have hstart : columnStart d ch = loadStore (modCan d ch (inColumn k)) ch route := by
    simp only [columnStart, hl, hr, hm, hrun, hat, Bool.not_true, Bool.or_self, Bool.false_eq_true, if_false, if_true]
    exact if_pos (by simpa using hkind)
  have hframe : storedXb (modCan d ch (inColumn k)) ch route p = storedXb d ch route p := by
    simp only [storedXb, canOf_modCan_same]
    rfl
  rw [hstart, hload, ← hframe]
  exact modCan_modCan ..

/-- R187, R190: the end of a column moves matrix time on; without a frame in XB0 no window is missed. -/
theorem columnEnd_empty {d : Dev} {ch : Nat} (hrun : (canOf d ch).schRun = true) (hfree : (canOf d ch).xb0 = none) :
    columnEnd d ch = modCan d ch (fun c => { c with
      schExcl := false, schLoad := none, schCol := (c.schCol + 1) % 32,
      schCyc := if c.schCol % 32 = 31 then (c.schCyc + 1) % 64 else c.schCyc }) := by
  simp only [columnEnd, hrun, hfree, Bool.not_true, Bool.false_eq_true, if_false]

/-! ## Cancel (R191, R192) -/

section Cancel
variable {d : Dev} {ch w : Nat} (hl : canLive d ch = true) (hb : bits w 0 2 ≠ 3)
include hl hb

/-- R191: a cancel of a tag that the buffer does not hold has RESULT 2. -/
theorem cancelRequest_unheld (hx : (xbOf (canOf d ch) (bits w 0 2)).filter (fun x => x.tag == bits w 16 16) = none) :
    cancelRequest d ch w = raise (modCan d ch (fun c => { c with cBuf := bits w 0 2, cRes := 2, cTag := bits w 16 16 })) 0x0705 0
      (e1 ch ++ e1 (bits w 0 2) ++ e2 (bits w 16 16) ++ e1 2) := by
  simp only [cancelRequest, hl, hb, hx, Bool.not_true, decide_false, Bool.or_self, Bool.false_eq_true, if_false]

/-- R192: the cancel of a frame on the bus waits for its attempt. -/
theorem cancelRequest_onBus {x : XbFrame}
    (hx : (xbOf (canOf d ch) (bits w 0 2)).filter (fun x => x.tag == bits w 16 16) = some x) (hc : x.cancel = false)
    (ho : x.onBus = true) : cancelRequest d ch w = modCan d ch (fun c =>
      { setXb c (bits w 0 2) (some { x with cancel := true }) with cBuf := bits w 0 2, cRes := 3, cTag := bits w 16 16 }) := by
  simp only [cancelRequest, hl, hb, hx, hc, ho, Bool.not_true, decide_false, Bool.or_self, Bool.false_eq_true, if_false, if_true]

end Cancel

/-! ## Direct mailbox (R199, R200) -/

theorem mbAcq_free {d : Dev} {who : Initiator} {ch n : Nat} (hl : canLive d ch = true) (hn : mbNum who = some n)
    (ho : (canOf d ch).mbOwner = 0) : mbAcq d who ch = modCan d ch (fun c => { c with mbOwner := n }) := by
  simp [mbAcq, hl, hn, ho]

theorem mbRel_held {d : Dev} {who : Initiator} {ch : Nat} (hl : canLive d ch = true) (hn : mbNum who = some (canOf d ch).mbOwner) :
    mbRel d who ch = modCan d ch (fun c => { c with mbOwner := 0 }) := by
  simp [mbRel, hl, hn]

/-- R200: GO of an initiator without the lock is refused and counted, whatever other ground holds (log entry 154). -/
theorem mbGo_unlocked {d : Dev} {who : Initiator} {ch : Nat} (hl : canLive d ch = true)
    (hn : mbNum who ≠ some (canOf d ch).mbOwner) :
    mbGo d who ch = modCan (bumpC d ch 0x180) ch (fun c => { c with mbRef := true, mbReason := 1 }) := by
  have hr : mbRefuse d who ch = 1 := by simp [mbRefuse, hn]
  simp [mbGo, hl, hr]

/-- R198, R199: the frame of the mailbox shadow as GO puts it into XB2. -/
def mailed (d : Dev) (ch : Nat) : XbFrame :=
  { frame := mbFrame d ch, tag := (canOf d ch).nextTag, flow := (0x100, 0, 0), pkt := none, item := none, store := none,
    mbox := true, sof := false, onBus := false, failed := false, cancel := false, expired := false, order := (canOf d ch).fills }

theorem mbGo_accepted {d : Dev} {who : Initiator} {ch : Nat} (hl : canLive d ch = true) (hr : mbRefuse d who ch = 0) :
    mbGo d who ch = modCan d ch (fun c => { c with
      xb2 := some (mailed d ch), nextTag := (c.nextTag + 1) % 65536, fills := c.fills + 1,
      mbRef := false, mbReason := 0, mbTag := (mailed d ch).tag }) := by
  simp [mbGo, hl, hr, mailed]

/-! ## The commands -/

theorem exec_canCancelRequest {s : State} {who : Initiator} {ch : Nat} (h : MayWriteCan s.dev who ch 0x40) (w : Word) :
    exec (.canCancelRequest who ch w) s = act (fun d => cancelRequest d ch w.toNat) s := access_canWr h ..

theorem exec_canMbAcq {s : State} {who : Initiator} {ch : Nat} (h : MayWriteCan s.dev who ch 0x50) :
    exec (.canMbAcq who ch) s = act (fun d => mbAcq d who ch) s := access_canWr h ..

theorem exec_canMbRel {s : State} {who : Initiator} {ch : Nat} (h : MayWriteCan s.dev who ch 0x50) :
    exec (.canMbRel who ch) s = act (fun d => mbRel d who ch) s := access_canWr h ..

theorem exec_canMbGo {s : State} {who : Initiator} {ch : Nat} (h : MayWriteCan s.dev who ch 0x54) :
    exec (.canMbGo who ch) s = act (fun d => mbGo d who ch) s := access_canWr h ..

theorem canCancelRequest_unheld (s : State) (who : Initiator) (ch : Nat) (w : Word) (hmay : MayWriteCan s.dev who ch 0x40)
    (hl : canLive s.dev ch = true) (hb : bits w.toNat 0 2 ≠ 3)
    (hx : (xbOf (canOf s.dev ch) (bits w.toNat 0 2)).filter (fun x => x.tag == bits w.toNat 16 16) = none) :
    Yields (.canCancelRequest who ch w) s (fun d => canOf d ch = { canOf s.dev ch with
        cBuf := bits w.toNat 0 2, cRes := 2, cTag := bits w.toNat 16 16 } ∧
      d.evs = s.dev.evs ++ [evNow s.dev 0x0705 0 (e1 ch ++ e1 (bits w.toNat 0 2) ++ e2 (bits w.toNat 16 16) ++ e1 2)]) := by
  refine yields_after (exec_of_act (exec_canCancelRequest hmay w) (cancelRequest_unheld hl hb hx)) ⟨?_, ?_⟩
  · rw [canOf_settle, canOf_raise, canOf_modCan_same]
  · rw [settle_evs, raise_evs (mode_of_canLive hl : 2 ≤ (modCan s.dev ch _).clk.mode.num), modCan_evs, evNow_modCan]

theorem canCancelRequest_onBus (s : State) (who : Initiator) (ch : Nat) (w : Word) (x : XbFrame)
    (hmay : MayWriteCan s.dev who ch 0x40) (hl : canLive s.dev ch = true) (hb : bits w.toNat 0 2 ≠ 3)
    (hx : (xbOf (canOf s.dev ch) (bits w.toNat 0 2)).filter (fun x => x.tag == bits w.toNat 16 16) = some x)
    (hc : x.cancel = false) (ho : x.onBus = true) :
    Yields (.canCancelRequest who ch w) s (fun d => (canOf d ch).cRes = 3 ∧ (canOf d ch).cTag = bits w.toNat 16 16 ∧
      xbOf (canOf d ch) (bits w.toNat 0 2) = some { x with cancel := true } ∧ OnlyCan s.dev ch d) := by
  have hthree : bits w.toNat 0 2 < 3 := by
    have hfour : bits w.toNat 0 2 < 4 := Nat.mod_lt _ (by decide)
    omega
  refine (yields_modCan (exec_of_act (exec_canCancelRequest hmay w) (cancelRequest_onBus hl hb hx hc ho))).mono ?_
  rintro d ⟨hcan, honly⟩
  rw [hcan]
  exact ⟨rfl, rfl, xbOf_setXb hthree .., honly⟩

/-- Settles O27: each command as one change of its channel, beside the event or the counter that reports it; GO without the lock is
refused before any other ground by the model's choice (log entry 154). -/
theorem canMatrixCancelAndMailbox : Obligations.CanMatrixCancelAndMailbox := by
  unfold Obligations.CanMatrixCancelAndMailbox
  refine ⟨fun s ch hl hr hm hrun hfree => ?_, fun s ch k route p hl hr hm hrun hat hk hp hfree hf => ?_,
    fun s ch hrun hfree => ?_, canCancelRequest_unheld, canCancelRequest_onBus, fun s who ch n hmay hl hn ho => ?_,
    fun s who ch hmay hl hn => ?_, fun s who ch hmay hl hn => ?_, fun s who ch hmay hl hr => ?_⟩
  case refine_1 =>
    exact yields_modCan (exec_of_act (f := fun d => columnStart d ch) rfl (columnStart_first hl hr hm hrun hfree))
  case refine_2 =>
    have hload := columnStart_loads hl hr hm hrun hat hk hp hfree hf
    refine (yields_modCan (exec_of_act (f := fun d => columnStart d ch) rfl hload)).mono ?_
    rintro d ⟨hcan, honly⟩
    rw [hcan]
    exact ⟨rfl, ⟨_, rfl, rfl, rfl⟩, honly⟩
  case refine_3 => exact yields_modCan (exec_of_act (f := fun d => columnEnd d ch) rfl (columnEnd_empty hrun hfree))
  case refine_4 => exact yields_modCan (exec_of_act (exec_canMbAcq hmay) (mbAcq_free hl hn ho))
  case refine_5 => exact yields_modCan (exec_of_act (exec_canMbRel hmay) (mbRel_held hl hn))
  case refine_6 =>
    refine yields_after (exec_of_act (exec_canMbGo hmay) (mbGo_unlocked hl hn)) ⟨?_, ?_, ?_, ?_⟩
    · rw [canOf_settle, canOf_modCan_same, canOf_bumpC]
    · rw [settle_tally, modCan_tally, bumpC]
    · rw [settle_lnd, modCan_lnd, bumpC, bump_lnd]
    · rw [settle_regs, modCan_regs, bumpC, bump_regs]
  case refine_7 =>
    refine (yields_modCan (exec_of_act (exec_canMbGo hmay) (mbGo_accepted hl hr))).mono ?_
    rintro d ⟨hcan, honly⟩
    rw [hcan]
    exact ⟨⟨_, rfl, rfl, rfl, rfl⟩, rfl, rfl, honly⟩

end Sys2Proof.Machine
end

section
/-! SUPPORT. The states of a CAN channel (chapter 07): entry to INIT and its causes, integration, bus-off recovery and a parity error
of the protocol state. -/

namespace Sys2Proof.Machine

/-! ## Entry to INIT (R165) -/

@[simp] theorem enterInit_regs (d : Dev) (ch : Nat) : (enterInit d ch).regs = d.regs := flushBlind_regs.enterInit ..
@[simp] theorem enterInit_clk (d : Dev) (ch : Nat) : (enterInit d ch).clk = d.clk := flushBlind_clk.enterInit ..

/-- R165: the channel after an entry to INIT. -/
theorem canOf_enterInit (d : Dev) (ch : Nat) :
    (canOf (enterInit d ch) ch).state = 0 ∧ (canOf (enterInit d ch) ch).tec = 0 ∧ (canOf (enterInit d ch) ch).rec' = 0 ∧
    (canOf (enterInit d ch) ch).stage = [] ∧ (canOf (enterInit d ch) ch).initDue = false := by
  rw [enterInit, canOf_modCan_same]
  exact ⟨rfl, rfl, rfl, rfl, rfl⟩

theorem initEntry_due {d : Dev} {ch : Nat} (hd : (canOf d ch).initDue = true) (hb : onBus (canOf d ch) = none)
    (hc : initCause d ch = true) : initEntry d ch = enterInit d ch := by
  simp only [initEntry, hd, hb, hc, Option.isNone_none, Bool.and_self, if_true]

/-- R164, R168: a channel that leaves INIT integrates, and keeps its counters and its stage. -/
theorem leaveInit_cases (d : Dev) (ch : Nat) : leaveInit d ch = d ∨ leaveInit d ch =
    modCan d ch (fun c => { c with bt := btNow d ch, state := 1, initDue := false, opmode := bits (canCtl d ch) 1 2 }) := by
  unfold leaveInit
  split
  · exact .inr (modCan_modCan ..)
  · exact .inl rfl

theorem leaveInit_free {d : Dev} {ch : Nat} (hs : (canOf d ch).state = 0) (hc : initCause d ch = false)
    (hr : d.clk.routing = true) (hl : canLive d ch = true) : leaveInit d ch =
    modCan d ch (fun c => { c with bt := btNow d ch, state := 1, initDue := false, opmode := bits (canCtl d ch) 1 2 }) := by
  simp only [leaveInit, hs, hc, hr, hl, decide_true, Bool.not_false, Bool.and_self, if_true]
  exact modCan_modCan ..

theorem leaveInit_outside {d : Dev} {ch : Nat} (h : (canOf d ch).state ≠ 0) : leaveInit d ch = d := by
  simp [leaveInit, h]

/-! ## The causes of INIT (R165, R167) -/

theorem initCause_congr {a b : Dev} {ch : Nat} (hr : a.regs = b.regs) (hd : (canOf a ch).demand = (canOf b ch).demand) :
    initCause a ch = initCause b ch := by
  rw [initCause, initCause, canCtl_congr hr, btNow_congr hr, hd]

/-- The first step of a change of the causes: BTERR follows the group in force, and is reported when it becomes set. -/
def btChecked (d : Dev) (ch : Nat) : Dev :=
  match btFault (btNow d ch) with
  | some r =>
    if (canOf d ch).bterr then modCan d ch (fun c => { c with bterr := (btFault (btNow d ch)).isSome })
    else raise (modCan d ch (fun c => { c with bterr := (btFault (btNow d ch)).isSome })) 0x070A 0 (e1 ch ++ e1 r)
  | none => modCan d ch (fun c => { c with bterr := (btFault (btNow d ch)).isSome })

theorem initUpdate_eq (d : Dev) (ch : Nat) : initUpdate d ch = leaveInit (modCan (btChecked d ch) ch (fun c =>
    { c with initDue := c.state != 0 && initCause (btChecked d ch) ch })) ch := rfl

theorem canKeeps_btChecked (d : Dev) (ch : Nat) : CanKeeps ch d (btChecked d ch) := by
  unfold btChecked
  split
  · split
    · exact canKeeps_modCan ..
    · exact (canKeeps_modCan ..).trans (canKeeps_raise ..)
  · exact canKeeps_modCan ..

theorem canOf_btChecked (d : Dev) (ch : Nat) :
    canOf (btChecked d ch) ch = { canOf d ch with bterr := (btFault (btNow d ch)).isSome } := by
  unfold btChecked
  split
  · split
    · rw [canOf_modCan_same]
    · rw [canOf_raise, canOf_modCan_same]
  · rw [canOf_modCan_same]

theorem initCause_btChecked (d : Dev) (ch : Nat) : initCause (btChecked d ch) ch = initCause d ch :=
  initCause_congr (canKeeps_btChecked d ch).regs (by rw [canOf_btChecked])

theorem canKeeps_leaveInit (d : Dev) (ch : Nat) : CanKeeps ch d (leaveInit d ch) := by
  obtain h | h := leaveInit_cases d ch <;> rw [h]
  · exact CanKeeps.refl ch d
  · exact canKeeps_modCan ..

theorem canKeeps_initUpdate (d : Dev) (ch : Nat) : CanKeeps ch d (initUpdate d ch) := by
  rw [initUpdate_eq]
  exact ((canKeeps_btChecked d ch).trans (canKeeps_modCan ..)).trans (canKeeps_leaveInit ..)

/-- R165: outside INIT a cause makes an entry due, and the state stays. -/
theorem canOf_initUpdate_outside {d : Dev} {ch : Nat} (hs : (canOf d ch).state ≠ 0) : canOf (initUpdate d ch) ch =
    { canOf d ch with bterr := (btFault (btNow d ch)).isSome, initDue := initCause d ch } := by
  have hmod : canOf (modCan (btChecked d ch) ch (fun c => { c with initDue := c.state != 0 && initCause (btChecked d ch) ch })) ch =
      { canOf d ch with bterr := (btFault (btNow d ch)).isSome, initDue := initCause d ch } := by
    have hne : ((canOf d ch).state != 0) = true := bne_iff_ne.mpr hs
    rw [canOf_modCan_same, canOf_btChecked, initCause_btChecked, hne, Bool.true_and]
  rw [initUpdate_eq, leaveInit_outside (by rw [hmod]; exact hs), hmod]

/-- R164, R168: a channel in INIT that nothing holds there integrates under the timing in force, without a report. -/
theorem initUpdate_leaves {d : Dev} {ch : Nat} (hs : (canOf d ch).state = 0) (hc : initCause d ch = false)
    (hr : d.clk.routing = true) (hl : canLive d ch = true) : initUpdate d ch = modCan d ch (fun c =>
      { c with bterr := false, bt := btNow d ch, state := 1, initDue := false, opmode := bits (canCtl d ch) 1 2 }) := by
  have hfault : btFault (btNow d ch) = none := by
    simp only [initCause, Bool.or_eq_false_iff, Option.isSome_eq_false_iff, Option.isNone_iff_eq_none] at hc
    exact hc.2
  have hchecked : btChecked d ch = modCan d ch (fun c => { c with bterr := false }) := by
    simp only [btChecked, hfault, Option.isSome_none]
  have hmarked : modCan (btChecked d ch) ch (fun c => { c with initDue := c.state != 0 && initCause (btChecked d ch) ch }) =
      modCan d ch (fun c => { c with bterr := false, initDue := false }) := by
    rw [initCause_btChecked, hchecked, hc, modCan_modCan]
    exact modCan_congr (by rw [Bool.and_false])
  have hcause : initCause (modCan d ch (fun c => { c with bterr := false, initDue := false })) ch = false := by
    rw [← hc]
    exact initCause_congr rfl (by rw [canOf_modCan_same])
  rw [initUpdate_eq, hmarked, leaveInit_free (by rw [canOf_modCan_same]; exact hs) hcause hr hl, modCan_modCan]
  rfl

/-! ## INIT as it is written (R165) -/

/-- CAN_CTL of a channel with INIT written. -/
theorem initBit_putFld {d : Dev} (hs : mapSorted d.regs = true) (ch : Nat) (b : Bool) :
    flag (putFld d (canBase ch) 0 1 b.toNat) (canBase ch) 0 = b := by
  rw [putFld, flag_putReg hs (by decide)]
  exact (bit_setBit ..).trans (if_pos rfl)

/-- R167: the bit timing is no part of CAN_CTL. -/
theorem btNow_putFld {d : Dev} (hs : mapSorted d.regs = true) (ch lo w v : Nat) :
    btNow (putFld d (canBase ch) lo w v) ch = btNow d ch := by
  have hreg : ∀ rel, rel ≠ 0 → reg (putFld d (canBase ch) lo w v) (canBase ch + rel) = reg d (canBase ch + rel) :=
    fun rel hrel => regK_putK_ne hs (by omega) _
  rw [btNow, hreg _ (by decide), hreg _ (by decide), hreg _ (by decide), hreg _ (by decide), btNow]

theorem exec_canInitRequest {s : State} {who : Initiator} {ch : Nat} (h : MayWriteCan s.dev who ch 0) :
    exec (.canInitRequest who ch) s = act (fun d => initRequest d ch) s := access_canWr h ..

theorem exec_canInitLeave {s : State} {who : Initiator} {ch : Nat} (h : MayWriteCan s.dev who ch 0) :
    exec (.canInitLeave who ch) s = act (fun d => initLeave d ch) s := access_canWr h ..

theorem exec_canRecover {s : State} {who : Initiator} {ch : Nat} (h : MayWriteCan s.dev who ch 0) :
    exec (.canRecover who ch) s = act (fun d => canRecover d ch) s := access_canWr h ..

theorem initRequest_live {d : Dev} {ch : Nat} (h : canLive d ch = true) :
    initRequest d ch = initUpdate (putFld d (canBase ch) 0 1 (true).toNat) ch := if_pos h

theorem initLeave_live {d : Dev} {ch : Nat} (h : canLive d ch = true) :
    initLeave d ch = initUpdate (putFld d (canBase ch) 0 1 (false).toNat) ch := if_pos h

theorem flag_congr {a b : Dev} (h : a.regs = b.regs) (off i : Nat) : flag a off i = flag b off i := by
  simp [flag, reg, regK, h]

theorem canInitRequest_due (s : State) (who : Initiator) (ch : Nat) (hmay : MayWriteCan s.dev who ch 0)
    (hl : canLive s.dev ch = true) (hst : (canOf s.dev ch).state ≠ 0) (hs : mapSorted s.dev.regs = true) :
    Yields (.canInitRequest who ch) s (fun d => (canOf d ch).initDue = true ∧ (canOf d ch).state = (canOf s.dev ch).state ∧
      flag d (canBase ch) 0 = true ∧ d.lnd = s.dev.lnd ∧ (∀ c, c ≠ ch → canOf d c = canOf s.dev c)) := by
  have hinit := initBit_putFld hs ch true
  have hcause : initCause (putFld s.dev (canBase ch) 0 1 (true).toNat) ch = true := by
    have hbit : bit (canCtl (putFld s.dev (canBase ch) 0 1 (true).toNat) ch) 0 = true := hinit
    rw [initCause, hbit, Bool.true_or, Bool.true_or]
  have hkeeps := (canKeeps_initUpdate (putFld s.dev (canBase ch) 0 1 (true).toNat) ch).settle
  refine yields_after (exec_of_act (exec_canInitRequest hmay) (initRequest_live hl))
    ⟨?_, ?_, (flag_congr hkeeps.regs ..).trans hinit, hkeeps.lnd, hkeeps.others⟩ <;>
    rw [canOf_settle, canOf_initUpdate_outside (d := putFld s.dev (canBase ch) 0 1 (true).toNat) hst]
  · exact hcause
  · rfl

theorem canInitLeave_integrates (s : State) (who : Initiator) (ch : Nat) (hmay : MayWriteCan s.dev who ch 0)
    (hl : canLive s.dev ch = true) (hst : (canOf s.dev ch).state = 0) (hd : (canOf s.dev ch).demand = false)
    (hr : s.dev.clk.routing = true) (hf : btFault (btNow s.dev ch) = none) (hs : mapSorted s.dev.regs = true) :
    Yields (.canInitLeave who ch) s (fun d => (canOf d ch).state = 1 ∧ (canOf d ch).bt = btNow s.dev ch ∧
      flag d (canBase ch) 0 = false ∧ d.lnd = s.dev.lnd ∧ d.evs = s.dev.evs ∧ (∀ c, c ≠ ch → canOf d c = canOf s.dev c)) := by
  have hinit := initBit_putFld hs ch false
  have hbt := btNow_putFld hs ch 0 1 (false).toNat
  have hcause : initCause (putFld s.dev (canBase ch) 0 1 (false).toNat) ch = false := by
    have hbit : bit (canCtl (putFld s.dev (canBase ch) 0 1 (false).toNat) ch) 0 = false := hinit
    have hdem : (canOf (putFld s.dev (canBase ch) 0 1 (false).toNat) ch).demand = false := hd
    rw [initCause, hbit, hdem, hbt, hf]
    rfl
  have hleave := initUpdate_leaves (d := putFld s.dev (canBase ch) 0 1 (false).toNat) hst hcause hr hl
  have hkeeps := (canKeeps_initUpdate (putFld s.dev (canBase ch) 0 1 (false).toNat) ch).settle
  refine yields_after (exec_of_act (exec_canInitLeave hmay) (initLeave_live hl))
    ⟨?_, ?_, (flag_congr hkeeps.regs ..).trans hinit, hkeeps.lnd, ?_, hkeeps.others⟩
  · rw [canOf_settle, hleave, canOf_modCan_same]
  · rw [canOf_settle, hleave, canOf_modCan_same, hbt]
  · rw [settle_evs, hleave]; rfl

/-! ## Integration and recovery (R164, R195, R196) -/

theorem integrated_active {d : Dev} {ch : Nat} (hs : (canOf d ch).state = 1) (hl : canLive d ch = true) :
    integrated d ch = modCan d ch (fun c => { c with state := 2 }) := by
  simp [integrated, hs, hl]

theorem canRecover_busOff {d : Dev} {ch : Nat} (hs : (canOf d ch).state = 4) (hl : canLive d ch = true) :
    canRecover d ch = modCan d ch (fun c => { c with state := 5, byReq := true }) := by
  simp [canRecover, hs, hl]

/-- R196: the end of the recovery clears both counters, integrates under the timing in force and reports. -/
theorem busOn_recovering {d : Dev} {ch : Nat} (hs : (canOf d ch).state = 5) (hl : canLive d ch = true) :
    busOn d ch = raise (modCan d ch (fun c => { c with state := 1, tec := 0, rec' := 0, bt := btNow d ch })) 0x0703 0
      (e1 ch ++ eFlag (canOf d ch).byReq) := by
  simp only [busOn, hs, hl, decide_true, Bool.and_self, if_true, btLatch]
  rw [modCan_modCan]
  rfl

theorem canBusOn_reports (s : State) (ch : Nat) (hst : (canOf s.dev ch).state = 5) (hl : canLive s.dev ch = true) :
    Yields (.canBusOn ch) s (fun d => (canOf d ch).state = 1 ∧ (canOf d ch).tec = 0 ∧ (canOf d ch).rec' = 0 ∧
      (canOf d ch).bt = btNow s.dev ch ∧ d.evs = s.dev.evs ++ [evNow s.dev 0x0703 0 (e1 ch ++ eFlag (canOf s.dev ch).byReq)] ∧
      (∀ c, c ≠ ch → canOf d c = canOf s.dev c) ∧ d.lnd = s.dev.lnd) := by
  have hkeeps := ((canKeeps_modCan s.dev ch (fun c => { c with state := 1, tec := 0, rec' := 0, bt := btNow s.dev ch })).trans
    (canKeeps_raise _ ch 0x0703 0 (e1 ch ++ eFlag (canOf s.dev ch).byReq))).settle
  refine yields_after (exec_of_act (f := fun d => busOn d ch) rfl (busOn_recovering hst hl)) ?_
  rw [canOf_settle, canOf_raise, canOf_modCan_same]
  refine ⟨rfl, rfl, rfl, rfl, ?_, hkeeps.others, hkeeps.lnd⟩
  rw [settle_evs, raise_evs (mode_of_canLive hl : 2 ≤ (modCan s.dev ch _).clk.mode.num), modCan_evs, evNow_modCan]

/-! ## A parity error of the protocol state (R197) -/

/-- R197: the bus sees a frame in progress cut. -/
def cutFrame (d : Dev) (ch : Nat) : Dev := if (onBus (canOf d ch)).isSome then emit d (.canXbit ch 0) else d

@[simp] theorem cutFrame_clk (d : Dev) (ch : Nat) : (cutFrame d ch).clk = d.clk := by
  unfold cutFrame
  split <;> rfl

/-- R197: the device in INIT, with the parity error reported. -/
def parityInit (d : Dev) (ch : Nat) : Dev :=
  raiseF (enterInit (cutFrame d ch) ch) 0x070B 1 (e1 ch ++ eCount (heldFrames d ch))

theorem stateParity_live {d : Dev} {ch : Nat} (h : canLive d ch = true) : stateParity d ch = leaveInit (parityInit d ch) ch :=
  if_pos h

theorem parityInit_evs {d : Dev} {ch : Nat} (h : 2 ≤ d.clk.mode.num) : (parityInit d ch).evs = (enterInit (cutFrame d ch) ch).evs ++
    [evNow (enterInit (cutFrame d ch) ch) 0x070B 1 (e1 ch ++ eCount (heldFrames d ch))] := by
  rw [parityInit, raiseF, noteClass_evs, raise_evs (by rwa [enterInit_clk, cutFrame_clk])]

theorem canOf_parityInit (d : Dev) (ch : Nat) : canOf (parityInit d ch) ch = canOf (enterInit (cutFrame d ch) ch) ch :=
  canOf_raise ..

theorem canStateParity_reports (s : State) (ch : Nat) (hl : canLive s.dev ch = true) :
    Yields (.canStateParity ch) s (fun d => (canOf d ch).tec = 0 ∧ (canOf d ch).rec' = 0 ∧ (canOf d ch).stage = [] ∧
      ((canOf d ch).state = 0 ∨ (canOf d ch).state = 1) ∧
      ∃ l e, d.evs = l ++ [e] ∧ e.code = 0x070B ∧ e.cls = 1 ∧ e.data = e1 ch ++ eCount (heldFrames s.dev ch)) := by
  obtain ⟨hstate, htec, hrec, hstage, -⟩ := canOf_enterInit (cutFrame s.dev ch) ch
  have hevs := parityInit_evs (ch := ch) (mode_of_canLive hl)
  refine yields_after (exec_of_act (f := fun d => stateParity d ch) rfl (stateParity_live hl)) ?_
  rw [canOf_settle, settle_evs]
  obtain h | h := leaveInit_cases (parityInit s.dev ch) ch <;> rw [h]
  · rw [canOf_parityInit]
    exact ⟨htec, hrec, hstage, .inl hstate, _, _, hevs, rfl, rfl, rfl⟩
  · rw [canOf_modCan_same, canOf_parityInit]
    exact ⟨htec, hrec, hstage, .inr rfl, _, _, hevs, rfl, rfl, rfl⟩

/-- Settles O26: the two writes of INIT by what they make of its causes, the entry by its flush, and each further state by its one
change; a written INIT is only due, on an idle bus too, by the model's choice (log entry 14). -/
theorem canStatesFollowInitAndRecovery : Obligations.CanStatesFollowInitAndRecovery := by
  unfold Obligations.CanStatesFollowInitAndRecovery
  refine ⟨canInitRequest_due, canInitLeave_integrates, fun s ch hd hb hc => ?_, fun s ch hst hl => ?_,
    fun s who ch hmay hl hst => ?_, canBusOn_reports, canStateParity_reports⟩
  case refine_1 =>
    obtain ⟨hstate, htec, hrec, hstage, hdue⟩ := canOf_enterInit s.dev ch
    refine yields_after (exec_of_act (f := fun d => initEntry d ch) rfl (initEntry_due hd hb hc)) ?_
    rw [canOf_settle, settle_regs, enterInit_regs]
    exact ⟨hstate, htec, hrec, hstage, hdue, rfl⟩
  case refine_2 => exact yields_modCan (exec_of_act (f := fun d => integrated d ch) rfl (integrated_active hst hl))
  case refine_3 => exact yields_modCan (exec_of_act (exec_canRecover hmay) (canRecover_busOff hst hl))

end Sys2Proof.Machine
end

section
/-! SUPPORT. Link states and TC10 (chapter 08): what a port and the rest of the device read after a link-down instant, and each
command of a link as one change of its port. -/

namespace Sys2Proof.Machine

/-! ## Ports -/

/-- Two changes of one port are one. -/
theorem modEth_modEth (d : Dev) (p : Nat) (f g : EthP → EthP) : modEth (modEth d p f) p g = modEth d p (fun e => g (f e)) := by
  have hread : mapGet {} (mapMod {} d.eth p f) p = f (mapGet {} d.eth p) := ethOf_modEth_same d p f
  have hmap : mapMod {} (mapMod {} d.eth p f) p g = mapMod {} d.eth p (fun e => g (f e)) := by
    rw [mapMod, hread, mapMod, mapMod, mapPut_mapPut]
  exact congrArg (fun m => { d with eth := m }) hmap

theorem ethOf_congr {a b : Dev} (h : a.eth = b.eth) (p : Nat) : ethOf a p = ethOf b p := by rw [ethOf, ethOf, h]

/-- A command that answers the state after one change of a port yields the changed port, and nothing else. -/
theorem yields_modEth {c : Instr} {s : State} {p : Nat} {f : EthP → EthP} (h : exec c s = .next (after s (modEth s.dev p f))) :
    Yields c s (fun d => ethOf d p = f (ethOf s.dev p) ∧ OnlyEth s.dev p d) :=
  yields_after h ⟨by rw [ethOf_settle, ethOf_modEth_same], onlyEth_modEth ..⟩

/-- R86: a port that lives is one of a running device. -/
theorem mode_of_ethLive {d : Dev} {p : Nat} (h : ethLive d p = true) : 2 ≤ d.clk.mode.num := by
  simp only [ethLive, Bool.and_eq_true] at h
  exact mode_of_running h.2

/-! ## The link-down instant (R222, R236, R239) -/

/-- A stage that may be left out keeps what it keeps where it is not. -/
theorem keeps_ite {α : Type} {g : Dev → α} {c : Prop} {i : Decidable c} {a b : Dev} (h : g a = g b) : g (if c then a else b) = g b := by
  split
  · exact h
  · rfl

theorem flushBlind_eth : FlushBlind Dev.eth :=
  { lnd := fun _ _ => rfl, flt := fun _ _ => rfl, eps := fun _ _ => rfl, can := fun _ _ => rfl, rcd := fun _ _ => rfl,
    whl := fun _ _ => rfl, bump := fun _ _ _ => rfl, raise := fun _ _ _ _ => raise_eth .. }

section FlushBlind
variable {α : Type} {g : Dev → α} (hg : FlushBlind g) (hrte : ∀ d r, g { d with rte := r } = g d)
include hg hrte

/-- The queues of the Route Engine and of the Landing change together. -/
theorem FlushBlind.rteLnd (d : Dev) (r : Rte) (l : Lnd) : g { d with rte := r, lnd := l } = g d :=
  (hg.lnd { d with rte := r } l).trans (hrte d r)

/-- R222: the end of a segmentation request touches the Landing, the Route Engine and the endpoints. -/
theorem FlushBlind.tsoEnd (d : Dev) (port : Option Nat) (tx : TxRef) : g (tsoEnd d port tx) = g d := by
  have hdrop : ∀ d, g (dropSegs d tx) = g d := fun d => hg.rteLnd hrte d _ _
  unfold Machine.tsoEnd
  refine (hg.eps _ _).trans ((hdrop _).trans ?_)
  split
  · exact hg.bump ..
  · rfl

theorem FlushBlind.tsoCut (d : Dev) (p : Nat) : g (tsoCut d p) = g d := by
  refine foldl_keeps (fun d e => foldl_keeps (fun d t => ?_) d _) d _
  split
  · exact keeps_ite (hg.tsoEnd hrte ..)
  · rfl

/-- R224: a partial frame that proves bad leaves what its stomps and the drops of its copies leave. -/
theorem FlushBlind.killPart (hstomp : ∀ d o n, g (stomp d o n) = g d) (d : Dev) (p : Nat) (sent : Nat → Nat) :
    g (killPart d p sent) = g d := by
  have hdrop : ∀ (d : Dev) (q id : Nat), g (Machine.copyDrop (Machine.unstage (Machine.unqueue d q id) q id) id) = g d := by
    intro d q id
    rw [hg.copyDrop, hg.unstage, hg.unqueue]
  refine (hg.rteLnd hrte _ _ _).trans ?_
  refine (foldl_keeps (fun d id => foldl_keeps (fun d q => ?_) d _) _ _).trans (foldl_keeps (fun d o => hstomp d o _) d _)
  exact keeps_ite (hdrop d q id)

end FlushBlind

theorem tsoCut_clk (d : Dev) (p : Nat) : (tsoCut d p).clk = d.clk := flushBlind_clk.tsoCut (fun _ _ => rfl) d p
theorem tsoCut_eth (d : Dev) (p : Nat) : (tsoCut d p).eth = d.eth := flushBlind_eth.tsoCut (fun _ _ => rfl) d p

theorem crossOutside_clk (d : Dev) (x n : Nat) : (crossOutside d x n).clk = d.clk :=
  (flushBlind_clk.crossReset ..).trans (flushBlind_clk.crossReset ..)
theorem crossOutside_eth (d : Dev) (x n : Nat) : (crossOutside d x n).eth = d.eth :=
  (flushBlind_eth.crossReset ..).trans (flushBlind_eth.crossReset ..)

theorem flushQueues_clk (d : Dev) (qs : List Nat) : (flushQueues d qs).clk = d.clk := flushBlind_clk.flushQueues d qs
theorem modLane_clk (d : Dev) (k : Nat) (f : Lane → Lane) : (modLane d k f).clk = d.clk := rfl
theorem stomp_clk (d : Dev) (o sent : Nat) : (stomp d o sent).clk = d.clk := by
  rw [stomp, bumpBy_clk, bumpE, bumpE, bump_clk, bump_clk, emit_clk, modEth_clk, modLane_clk]
theorem killPart_clk (d : Dev) (p : Nat) (sent : Nat → Nat) : (killPart d p sent).clk = d.clk :=
  flushBlind_clk.killPart (fun _ _ => rfl) stomp_clk d p sent

/-- R236: the link-down instant leaves the clocks. -/
theorem portCut_clk (d : Dev) (p st : Nat) : (portCut d p st).clk = d.clk := by
  unfold portCut
  dsimp only
  rw [crossOutside_clk, tsoCut_clk, modEth_clk]
  simp only [apply_ite Dev.clk, bumpE, bump_clk, killPart_clk, modLane_clk, emit_clk, flushQueues_clk, ite_self]

/-- R236: after the link-down instant the port is in `st`, with no frame half sent or half received. -/
theorem ethOf_portCut (d : Dev) (p st : Nat) : (ethOf (portCut d p st) p).st = st ∧ (ethOf (portCut d p st) p).cutFrame = none ∧
    (ethOf (portCut d p st) p).headIn = false := by
  unfold portCut
  dsimp only
  rw [ethOf_congr (crossOutside_eth ..), ethOf_congr (tsoCut_eth ..), ethOf_modEth_same]
  exact ⟨rfl, rfl, rfl⟩

/-- R239: the DATA of LINK_DOWN fit an event. -/
theorem linkDownData_length (p reason n : Nat) : (e1 p ++ e1 reason ++ eCount n).length ≤ 16 := by
  simp [e1, eCount, leBytes]

/-- R236, R239: what a link-down instant leaves of its port, and how it is reported. -/
theorem linkDown_reports {d : Dev} (h : 2 ≤ d.clk.mode.num) (p reason st : Nat) :
    (ethOf (settle (linkDown d p reason st)) p).st = st ∧ (ethOf (settle (linkDown d p reason st)) p).cutFrame = none ∧
    (ethOf (settle (linkDown d p reason st)) p).headIn = false ∧
    ∃ l e, (settle (linkDown d p reason st)).evs = l ++ [e] ∧ e.code = 0x0801 ∧ ∃ n, e.data = e1 p ++ e1 reason ++ eCount n := by
  have hport : ethOf (settle (linkDown d p reason st)) p = ethOf (portCut d p st) p := by
    rw [ethOf_settle, linkDown, ethOf_raise]
    rfl
  have hmode : 2 ≤ (bumpE (portCut d p st) p 0x1A0).clk.mode.num := by
    rw [bumpE, bump_clk, portCut_clk]
    exact h
  obtain ⟨hst, hcut, hhead⟩ := ethOf_portCut d p st
  rw [hport]
  exact ⟨hst, hcut, hhead, _, _, (settle_evs _).trans (raise_evs hmode ..), rfl, _,
    List.take_of_length_le (linkDownData_length p reason _)⟩

/-! ## Faults (R210, R235, R240) -/

/-- R235: noting a fault keeps what a change of its port that keeps the state and the sleep request, and the report of a mismatch,
keep. -/
theorem noteFault_keeps {α : Type} (g : Dev → α) (p : Nat)
    (hm : ∀ d f, (∀ e, (f e).st = e.st ∧ (f e).sleepReq = e.sleepReq) → g (modEth d p f) = g d)
    (hr : ∀ d code cls data, g (raise d code cls data) = g d) (d : Dev) (f : LinkFlt) : g (noteFault d p f) = g d := by
  cases f with
  | anMismatch r =>
    have hport : g (modEth d p (fun e => { e with anmis := true })) = g d := hm d _ fun _ => ⟨rfl, rfl⟩
    unfold noteFault
    dsimp only
    split
    · exact hport
    · exact (hr ..).trans hport
  | enableZero => rfl
  | pcs => exact hm d _ fun _ => ⟨rfl, rfl⟩
  | localFault => exact hm d _ fun _ => ⟨rfl, rfl⟩
  | remoteFault => exact hm d _ fun _ => ⟨rfl, rfl⟩
  | inBand => exact hm d _ fun _ => ⟨rfl, rfl⟩
  | sdsPll => exact hm d _ fun _ => ⟨rfl, rfl⟩

theorem noteFault_clk (d : Dev) (p : Nat) (f : LinkFlt) : (noteFault d p f).clk = d.clk :=
  noteFault_keeps Dev.clk p (fun _ _ _ => rfl) raise_clk d f
theorem noteFault_st (d : Dev) (p : Nat) (f : LinkFlt) : (ethOf (noteFault d p f) p).st = (ethOf d p).st :=
  noteFault_keeps (fun d => (ethOf d p).st) p (fun d f hf => by simp only [ethOf_modEth_same, (hf _).1])
    (fun d _ _ _ => by simp only [ethOf_raise]) d f
theorem noteFault_sleepReq (d : Dev) (p : Nat) (f : LinkFlt) : (ethOf (noteFault d p f) p).sleepReq = (ethOf d p).sleepReq :=
  noteFault_keeps (fun d => (ethOf d p).sleepReq) p (fun d f hf => by simp only [ethOf_modEth_same, (hf _).2])
    (fun d _ _ _ => by simp only [ethOf_raise]) d f

/-- R239: REASON depends on the fault and on the sleep request of the port. -/
theorem linkReason_noteFault (d : Dev) (p : Nat) (f : LinkFlt) : linkReason (noteFault d p f) p f = linkReason d p f := by
  unfold linkReason
  rw [noteFault_sleepReq]

/-- R235: a fault of a port in LINK_UP is its link-down instant. -/
theorem linkFault_up {d : Dev} {p : Nat} {f : LinkFlt} (hl : ethLive d p = true) (hst : (ethOf d p).st = 3) (hf : f ≠ .enableZero)
    (hs : ethLoop d p = false ∨ laneFault f = false) :
    linkFault d p f = linkDown (noteFault d p f) p (linkReason d p f) 1 := by
  have hseen : (ethLoop d p && laneFault f) = false := by
    obtain h | h := hs <;> simp [h]
  simp [linkFault, hl, hseen, noteFault_st, hst, hf, linkReason_noteFault]

/-- R235: a fault of the PCS of a port in DEBOUNCE is noted and returns it to DOWN. -/
theorem linkFault_debounce {d : Dev} {p : Nat} (hl : ethLive d p = true) (hst : (ethOf d p).st = 2) (hs : ethLoop d p = false) :
    linkFault d p .pcs = modEth d p (fun e => { e with pcs := true, st := 1 }) := by
  have hnote : noteFault d p .pcs = modEth d p (fun e => { e with pcs := true }) := rfl
  simp [linkFault, hl, hs, hnote, ethOf_modEth_same, hst, modEth_modEth]

/-- R240: a port in PCS loop-back sees no fault of its lane. -/
theorem linkFault_loop {d : Dev} {p : Nat} {f : LinkFlt} (hs : ethLoop d p = true) (hf : laneFault f = true) :
    linkFault d p f = d := by
  simp [linkFault, hs, hf]

/-- LINK_DOWN and LINK_FAULT are one effect. -/
theorem exec_linkFault {s : State} {p : Nat} {f : LinkFlt} {c : Instr} (h : c = .linkDown p f ∨ c = .linkFault p f) :
    exec c s = act (fun d => linkFault d p f) s := by
  obtain rfl | rfl := h <;> rfl

theorem linkFault_takes_port_down (s : State) (p : Nat) (f : LinkFlt) (c : Instr) (hc : c = .linkDown p f ∨ c = .linkFault p f)
    (hl : ethLive s.dev p = true) (hst : (ethOf s.dev p).st = 3) (hf : f ≠ .enableZero)
    (hs : ethLoop s.dev p = false ∨ laneFault f = false) :
    Yields c s (fun d => (ethOf d p).st = 1 ∧ (ethOf d p).cutFrame = none ∧ (ethOf d p).headIn = false ∧
      ∃ l e, d.evs = l ++ [e] ∧ e.code = 0x0801 ∧ ∃ n, e.data = e1 p ++ e1 (linkReason s.dev p f) ++ eCount n) := by
  refine yields_act (exec_linkFault hc) ?_
  rw [linkFault_up hl hst hf hs]
  exact linkDown_reports (by rw [noteFault_clk]; exact mode_of_ethLive hl) ..

/-! ## A good link (R235, R239) -/

/-- R235: a good link in DOWN starts its DEBOUNCE. -/
theorem linkGood_down {d : Dev} {p : Nat} (hl : ethLive d p = true) (hst : (ethOf d p).st = 1) :
    linkGood d p = modEth d p (fun e => { e with
      pcs := false, lfault := false, rfault := false, inband := false, anmis := false, pll := false, st := 2,
      dbMs := debounceMs d p, dbStart := d.clk.tclk }) := by
  simp only [linkGood, hl, Bool.not_true, Bool.false_eq_true, if_false, ethOf_modEth_same, hst, if_true, modEth_modEth]
  rfl

/-- R235: a link that was good for DEBOUNCE ms is up, and reported. -/
theorem linkUp_debounced {d : Dev} {p : Nat} (hl : ethLive d p = true) (hst : (ethOf d p).st = 2)
    (ht : (ethOf d p).dbStart + 500000 * (ethOf d p).dbMs ≤ d.clk.tclk) :
    linkUp d p = raise (modEth d p (fun e => { e with st := 3, sleepReq := false })) 0x0802 0 (e1 p ++ e2 (macRate d p)) := by
  simp [linkUp, hl, hst, ht]

theorem linkUp_reports (s : State) (p : Nat) (hl : ethLive s.dev p = true) (hst : (ethOf s.dev p).st = 2)
    (ht : (ethOf s.dev p).dbStart + 500000 * (ethOf s.dev p).dbMs ≤ s.dev.clk.tclk) :
    Yields (.linkUp p) s (fun d => ethOf d p = { ethOf s.dev p with st := 3, sleepReq := false } ∧
      d.evs = s.dev.evs ++ [evNow s.dev 0x0802 0 (e1 p ++ e2 (macRate s.dev p))] ∧
      (∀ q, q ≠ p → ethOf d q = ethOf s.dev q) ∧ d.lnd = s.dev.lnd) := by
  refine yields_after (exec_of_act (f := fun d => linkUp d p) rfl (linkUp_debounced hl hst ht)) ⟨?_, ?_, fun q hq => ?_, ?_⟩
  · rw [ethOf_settle, ethOf_raise, ethOf_modEth_same]
  · rw [settle_evs, raise_evs (by rw [modEth_clk]; exact mode_of_ethLive hl), evNow_modEth, modEth_evs]
  · rw [ethOf_settle, ethOf_raise, ethOf_modEth_ne _ hq]
  · rw [settle_lnd, raise_lnd, modEth_lnd]

/-! ## ENABLE (R235) -/

theorem exec_ethEnableWrite {s : State} {who : Initiator} {p : Nat} (hp : p < 9) (hw : MayWrite s.dev who (ethBase p)) (en : Bool) :
    exec (.ethEnableWrite who p en) s = act (fun d => ethEnable d p en) s := by
  rw [← access_regWr hw (.ethEnableWrite who p en)]
  change execEthEnableWrite who p en s = _
  simp only [execEthEnableWrite, hp, if_true]

theorem ethLive_putFld (d : Dev) (p off lo w v : Nat) : ethLive (putFld d off lo w v) p = ethLive d p := rfl
theorem ethOf_putFld (d : Dev) (p off lo w v : Nat) : ethOf (putFld d off lo w v) p = ethOf d p := rfl

/-- R235: ENABLE starts a disabled port. -/
theorem ethEnable_disabled {d : Dev} {p : Nat} (hl : ethLive d p = true) (hst : (ethOf d p).st = 0) :
    ethEnable d p true = modEth (putFld d (ethBase p) 0 1 1) p (fun e => { e with st := 1 }) := by
  simp [ethEnable, ethLive_putFld, ethOf_putFld, hl, hst]

/-- R235: ENABLE 0 of a port in LINK_UP is its link-down instant, for DISABLED. -/
theorem ethEnable_stops {d : Dev} {p : Nat} (hl : ethLive d p = true) (hst : (ethOf d p).st = 3) :
    ethEnable d p false = linkDown (putFld d (ethBase p) 0 1 0) p 4 0 := by
  simp [ethEnable, ethLive_putFld, ethOf_putFld, hl, hst]

theorem ethEnableWrite_starts (s : State) (who : Initiator) (p : Nat) (hp : p < 9) (hw : MayWrite s.dev who (ethBase p))
    (hl : ethLive s.dev p = true) (hst : (ethOf s.dev p).st = 0) :
    Yields (.ethEnableWrite who p true) s (fun d => ethOf d p = { ethOf s.dev p with st := 1 } ∧
      d.regs = (putFld s.dev (ethBase p) 0 1 1).regs ∧ (∀ q, q ≠ p → ethOf d q = ethOf s.dev q) ∧ d.lnd = s.dev.lnd ∧
      d.evs = s.dev.evs) := by
  refine yields_after (exec_of_act (exec_ethEnableWrite hp hw true) (ethEnable_disabled hl hst)) ⟨?_, ?_, fun q hq => ?_, ?_, ?_⟩
  · rw [ethOf_settle, ethOf_modEth_same, ethOf_putFld]
  · rw [settle_regs, modEth_regs]
  · rw [ethOf_settle, ethOf_modEth_ne _ hq, ethOf_putFld]
  · rw [settle_lnd, modEth_lnd, putFld, putReg_lnd]
  · rw [settle_evs, modEth_evs, putFld, putReg_evs]

theorem ethEnableWrite_stops (s : State) (who : Initiator) (p : Nat) (hp : p < 9) (hw : MayWrite s.dev who (ethBase p))
    (hl : ethLive s.dev p = true) (hst : (ethOf s.dev p).st = 3) :
    Yields (.ethEnableWrite who p false) s (fun d => (ethOf d p).st = 0 ∧
      ∃ l e, d.evs = l ++ [e] ∧ e.code = 0x0801 ∧ ∃ n, e.data = e1 p ++ e1 4 ++ eCount n) := by
  refine yields_after (exec_of_act (exec_ethEnableWrite hp hw false) (ethEnable_stops hl hst)) ?_
  obtain ⟨hdown, -, -, hev⟩ := linkDown_reports (d := putFld s.dev (ethBase p) 0 1 0) (mode_of_ethLive hl) p 4 0
  exact ⟨hdown, hev⟩

/-! ## TC10 (R237, R238) -/

/-- R238: a sleep request is noted at its port and written to the PHY. -/
theorem tc10Sleep_requests {d : Dev} {p : Nat} (hp : p < 8) (hu : svcUp d 0 = true) (hl : ethLive d p = true)
    (ht : flag d (ethBase p + 0x20) 0 = true) :
    tc10Sleep d p = tc10Write (modEth d p (fun e => { e with sleepReq := true })) p (fld d (ethBase p + 0x24) 0 16) := by
  simp [tc10Sleep, hp, hu, hl, ht]

theorem tc10SleepRequest_writes (s : State) (p : Nat) (hp : p < 8) (hu : svcUp s.dev 0 = true) (hl : ethLive s.dev p = true)
    (ht : flag s.dev (ethBase p + 0x20) 0 = true) :
    Yields (.tc10SleepRequest p) s (fun d => ethOf d p = { ethOf s.dev p with sleepReq := true } ∧
      (∀ q, q ≠ p → ethOf d q = ethOf s.dev q) ∧ d.lnd = s.dev.lnd ∧ d.evs = s.dev.evs ∧
      Output.far (bits (reg s.dev (ethBase p + 0x20)) 1 1)
        (bits (reg s.dev (ethBase p + 0x20)) 2 10 * 65536 + bits (reg s.dev (ethBase p + 0x20)) 16 16) true
        (fld s.dev (ethBase p + 0x24) 0 16) ∈ d.out) := by
  refine yields_after (exec_of_act (f := fun d => tc10Sleep d p) rfl (tc10Sleep_requests hp hu hl ht))
    ⟨?_, fun q hq => ?_, ?_, ?_, mem_out_settle (List.mem_cons_self ..)⟩
  · rw [ethOf_settle, tc10Write, ethOf_congr (emit_eth ..), ethOf_modEth_same]
  · rw [ethOf_settle, tc10Write, ethOf_congr (emit_eth ..), ethOf_modEth_ne _ hq]
  · rw [settle_lnd, tc10Write, emit_lnd, modEth_lnd]
  · rw [settle_evs, tc10Write, emit_evs, modEth_evs]

/-- R238: the port enters SLEEP when the status of its PHY shows it. -/
theorem tc10Poll_sleeps {d : Dev} {p w : Nat} (hp : p < 8) (hl : ethLive d p = true) (hr : (ethOf d p).sleepReq = true)
    (hst : (ethOf d p).st = 1) (hb : bit w (fld d (ethBase p + 0x28) 16 4) = true) :
    tc10Poll d p w = modEth d p (fun e => { e with st := 4 }) := by
  simp [tc10Poll, hp, hl, hr, hst, hb]

/-- Settles O31: a fault by the state of its port, with the link-down instant for a port in LINK_UP; each other command as one change
of its port beside the event, the register or the PHY write that goes with it. That a port in PCS loop-back sees no fault of its lane
is the model's choice (log entry 95), as is a PHY write that leaves at once (log entry 33). -/
theorem linkStatesFollowTheirFaults : Obligations.LinkStatesFollowTheirFaults := by
  unfold Obligations.LinkStatesFollowTheirFaults
  refine ⟨linkFault_takes_port_down, fun s p c hc hl hst hs => ?_, fun s p f c hc hs hf => ?_, fun s p hl hst => ?_,
    linkUp_reports, ethEnableWrite_starts, ethEnableWrite_stops, tc10SleepRequest_writes, fun s p w hp hl hr hst hb => ?_⟩
  · exact yields_modEth (exec_of_act (exec_linkFault hc) (linkFault_debounce hl hst hs))
  · exact exec_of_act (exec_linkFault hc) (linkFault_loop hs hf)
  · exact yields_modEth (exec_of_act (f := fun d => linkGood d p) rfl (linkGood_down hl hst))
  · exact yields_modEth (exec_of_act (f := fun d => tc10Poll d p w.toNat) rfl (tc10Poll_sleeps hp hl hr hst hb))

end Sys2Proof.Machine
end

section
/-! SUPPORT. Transmission of an Ethernet port (chapters 08 and 09): what a staging instant fixes, what the start of a staged frame
leaves of its port, and when the frame on the wire has left. -/

namespace Sys2Proof.Machine

/-! ## The staging instant (R219, R261) -/

/-- R261: the bytes of the frame of copies that are staged: fixed, unless a part of it has not come. -/
def fixedBytes (d : Dev) (p : Nat) (its : List LaneItem) : Option Bytes :=
  if its.any (fun it => it.pkt.part) then none else some (frameOf d p its)

/-- R261: the staging instant of a port fixes the bytes of what it stages. -/
theorem ethStage_fixes_bytes {d : Dev} {p tc : Nat} {its : List LaneItem} (hp : p < 8) (hl : ethLive d p = true)
    (hst : (ethOf d p).st = 3) (hpa : (ethOf d p).paused = false) (hsi : stagedItems d p = []) (hcut : (ethOf d p).cutFrame = none)
    (hfr : outFrozen d (6 + p / 2) = false) (hw : (ethOf d p).wireEnd ≤ runNs d + wireNs d p 524)
    (hf : [7, 6, 5, 4, 3, 2, 1, 0].findSome? (eligible d p (nowNs d + ((ethOf d p).wireEnd - runNs d))) = some (tc, its)) :
    ethStage d p = stagedWith d p tc its (fixedBytes d p its) := by
  simp only [ethStage, hp, hl, hst, hpa, hfr, hsi, hcut, hw, hf]
  rfl

theorem laneOf_modLane_ne (d : Dev) {k j : Nat} (h : j ≠ k) (f : Lane → Lane) : laneOf (modLane d k f) j = laneOf d j := by
  simp [laneOf, modLane, mapMod, mapGet, mapGet?_mapPut, Ne.symm h]

theorem laneOf_stagedWith_ne (d : Dev) {p k : Nat} (h : k ≠ ethLane p) (tc : Nat) (its : List LaneItem) (b : Option Bytes) :
    laneOf (stagedWith d p tc its b) k = laneOf d k := by
  rw [stagedWith, laneOf_modEth, laneOf_modLane_ne d h]

/-- R218, R403: a port that is paused, or whose output is frozen, stages nothing. -/
theorem ethStage_held {d : Dev} {p : Nat} (h : (ethOf d p).paused = true ∨ outFrozen d (6 + p / 2) = true) : ethStage d p = d := by
  obtain h | h := h <;> simp [ethStage, h]

/-- R218, R403: nor does it start a frame. -/
theorem txStart_held {d : Dev} {p : Nat} (h : (ethOf d p).paused = true ∨ outFrozen d (6 + p / 2) = true) : txStart d p = d := by
  obtain h | h := h <;> simp [txStart, h]

theorem ethStagingInstant_stages (s : State) (p tc : Nat) (its : List LaneItem) (hp : p < 8) (hl : ethLive s.dev p = true)
    (hst : (ethOf s.dev p).st = 3) (hpa : (ethOf s.dev p).paused = false) (hsi : stagedItems s.dev p = [])
    (hcut : (ethOf s.dev p).cutFrame = none) (hfr : outFrozen s.dev (6 + p / 2) = false)
    (hw : (ethOf s.dev p).wireEnd ≤ runNs s.dev + wireNs s.dev p 524)
    (hf : [7, 6, 5, 4, 3, 2, 1, 0].findSome? (eligible s.dev p (nowNs s.dev + ((ethOf s.dev p).wireEnd - runNs s.dev))) =
      some (tc, its)) :
    Yields (.ethStagingInstant p) s (fun d =>
      (laneOf d (ethLane p)).items = (laneOf s.dev (ethLane p)).items ++ its ∧ (ethOf d p).stClass = tc ∧
      (ethOf d p).stBytes = fixedBytes s.dev p its ∧
      (∀ k, k ≠ ethLane p → laneOf d k = laneOf s.dev k) ∧ d.lnd.queues = s.dev.lnd.queues ∧ d.evs = s.dev.evs) := by
  refine yields_after (exec_of_act (f := fun d => ethStage d p) rfl (ethStage_fixes_bytes hp hl hst hpa hsi hcut hfr hw hf)) ?_
  rw [ethOf_settle, ethOf_stagedWith]
  refine ⟨?_, rfl, rfl, fun k hk => ?_, ?_, ?_⟩
  · rw [laneOf_settle, laneOf_stagedWith]
  · rw [laneOf_settle, laneOf_stagedWith_ne _ hk]
  · rw [settle_lnd, stagedWith_queues]
  · rw [settle_evs, stagedWith_evs]

/-! ## The start of a frame (R219, R261, R293, R400) -/

/-- R293, R400: the device once the copies of a staged frame have committed at its first bit, before the port takes the frame. -/
def framed (d : Dev) (p : Nat) (its : List LaneItem) : Dev :=
  let e := its.foldl (fun d it => copyGone (unqueue d it.dest.q it.pkt.id) it.pkt.id true (nowNs d + wireNs d p 8)) d
  let e := modLane e (ethLane p) (fun l => { l with items := its.map (fun it => { it with sent := true }) })
  if its.any (fun it => !ethForm it.pkt) then
    { e with rte := { e.rte with tunSeq := mapPut e.rte.tunSeq p ((mapGet 0 e.rte.tunSeq p + 1) % 256) } }
  else e

/-- R400: the commit of the copies leaves all but the Landing, the twins, the endpoints and the tunnel sequences. -/
theorem CopyBlind.framed {α : Type} {g : Dev → α} (hg : CopyBlind g) (hrte : ∀ d r, g { d with rte := r } = g d) (d : Dev) (p : Nat)
    (its : List LaneItem) : g (framed d p its) = g d := by
  refine (keeps_ite (hrte _ _)).trans ((hg.lnd _ _).trans (foldl_keeps (fun d it => ?_) d its))
  rw [hg.copyGone, hg.unqueue]

theorem ethOf_framed (d : Dev) (p q : Nat) (its : List LaneItem) : ethOf (framed d p its) q = ethOf d q :=
  CopyBlind.framed (g := fun d => ethOf d q) ⟨fun _ _ => rfl, fun _ _ => rfl, fun _ _ => rfl⟩ (fun _ _ => rfl) d p its
theorem runNs_framed (d : Dev) (p : Nat) (its : List LaneItem) : runNs (framed d p its) = runNs d :=
  CopyBlind.framed (g := runNs) ⟨fun _ _ => rfl, fun _ _ => rfl, fun _ _ => rfl⟩ (fun _ _ => rfl) d p its
theorem wireNs_framed (d : Dev) (p q n : Nat) (its : List LaneItem) : wireNs (framed d p its) q n = wireNs d q n :=
  CopyBlind.framed (g := fun d => wireNs d q n) ⟨fun _ _ => rfl, fun _ _ => rfl, fun _ _ => rfl⟩ (fun _ _ => rfl) d p its

/-- R219, R400: the start of a frame is the commit of its copies, and a change of its port. -/
theorem startFrame_eq (d : Dev) (p : Nat) (its : List LaneItem) : startFrame d p its = modEth (framed d p its) p (fun e => { e with
    prot := none, stBytes := none, wireStart := runNs (framed d p its),
    wireEnd := runNs (framed d p its) + wireNs (framed d p its) p (stagedLen d p its + 20),
    cutFrame := if its.any (fun it => it.pkt.part) then (its.head?).map (fun it => it.pkt.id) else none,
    wire := if its.any (fun it => it.pkt.part) then none else some ((ethOf d p).prot.getD (stagedFrame d p its)) }) := rfl

/-- R219: what the start of a frame that has come whole leaves of its port: its bytes on the wire, for its length with preamble and
gap. -/
theorem ethOf_startFrame {d : Dev} {p : Nat} {its : List LaneItem} (hpart : its.any (fun it => it.pkt.part) = false) :
    ethOf (startFrame d p its) p = { ethOf d p with
      prot := none, stBytes := none, wireStart := runNs d, wireEnd := runNs d + wireNs d p (stagedLen d p its + 20),
      cutFrame := none, wire := some ((ethOf d p).prot.getD (stagedFrame d p its)) } := by
  rw [startFrame_eq, ethOf_modEth_same, ethOf_framed, runNs_framed, wireNs_framed, hpart]
  rfl

/-- R219, R228, R231, R261: a frame staged whole starts at a free port, within its gate and its credit. -/
theorem txStart_starts {d : Dev} {p : Nat} (hp : p < 8) (hl : ethLive d p = true) (hst : (ethOf d p).st = 3)
    (hpa : (ethOf d p).paused = false) (hfr : outFrozen d (6 + p / 2) = false) (hcut : (ethOf d p).cutFrame = none)
    (hw : (ethOf d p).wireEnd ≤ runNs d) (hms : msEn d p = false) (hready : startReady d (stagedItems d p) = true)
    (hsh : shaperOk d p (ethOf d p).stClass = true)
    (hg : gateFits d p (ethOf d p).stClass (nowNs d) (stagedLen d p (stagedItems d p)) = true) :
    txStart d p = startFrame d p (stagedItems d p) := by
  simp [txStart, hp, hl, hst, hpa, hfr, hcut, hw, hms, hready, hsh, hg]

/-! ## The end of a frame (R240) -/

/-- R240: what the port leaves behind with the last bit of a frame: one frame and its bytes with FCS in its counters. -/
def sentWhole (d : Dev) (p : Nat) (f : Bytes) : Dev :=
  bumpBy (bumpE (modEth d p (fun e => { e with wire := none })) p 0x150) (ethBase p + 0x158) 0 (f.length + 4)

/-- R240: the frame on the wire of a port without a loop is out, with its FCS, once its last bit has left. -/
theorem txDone_sent {d : Dev} {p : Nat} {f : Bytes} (hf : (ethOf d p).wire = some f) (hloop : ethLoop d p = false)
    (ht : (ethOf d p).wireStart + wireNs d p (f.length + 12) ≤ runNs d) :
    txDone d p = emit (sentWhole d p f) (.eth p (f ++ fcsOf f)) := by
  have hout : ethLoop (sentWhole d p f) p ≠ true := ne_true_of_eq_false hloop
  simp only [txDone, hf, ht, if_true]
  exact if_neg hout

theorem txDone_waits {d : Dev} {p : Nat} {f : Bytes} (hf : (ethOf d p).wire = some f)
    (ht : runNs d < (ethOf d p).wireStart + wireNs d p (f.length + 12)) : txDone d p = d := by
  simp only [txDone, hf, if_neg (Nat.not_le.mpr ht)]

theorem tallyOf_emit (d : Dev) (o : Output) (off inst : Nat) : tallyOf (emit d o) off inst = tallyOf d off inst := rfl
theorem tallyOf_modEth (d : Dev) (p : Nat) (f : EthP → EthP) (off inst : Nat) : tallyOf (modEth d p f) off inst = tallyOf d off inst :=
  rfl

/-- R240: the frames and the bytes that a port has sent are counted apart. -/
theorem sentWhole_counts {d : Dev} (hs : mapSorted d.tally = true) (p : Nat) (f : Bytes) :
    tallyOf (sentWhole d p f) (ethBase p + 0x150) 0 = min (tallyOf d (ethBase p + 0x150) 0 + 1) tallyMax ∧
    tallyOf (sentWhole d p f) (ethBase p + 0x158) 0 = min (tallyOf d (ethBase p + 0x158) 0 + (f.length + 4)) tallyMax := by
  have hoff : mapSorted (modEth d p (fun e => { e with wire := none })).tally = true := hs
  have hframe := bumpBy_sorted hoff (ethBase p + 0x150) 0 1
  have hkeys : regKey (ethBase p + 0x158) 0 ≠ regKey (ethBase p + 0x150) 0 := by simp [regKey]
  constructor
  · rw [sentWhole, bumpE, bump, tallyOf_bumpBy_ne hframe hkeys, tallyOf_bumpBy hoff, tallyOf_modEth]
  · rw [sentWhole, bumpE, bump, tallyOf_bumpBy hframe, tallyOf_bumpBy_ne hoff hkeys.symm, tallyOf_modEth]

/-- Settles O29: the staging instant by what it stages, with the bytes that it fixes; the start by what it leaves of its port; the
last bit by the counters and the output. A port that is paused, or whose output is frozen, does neither. -/
theorem ethernetTransmissionStagesAndStarts : Obligations.EthernetTransmissionStagesAndStarts := by
  unfold Obligations.EthernetTransmissionStagesAndStarts
  refine ⟨ethStagingInstant_stages, fun s p _ _ _ h => ⟨?_, ?_⟩,
    fun s p hp hl hst hpa hfr hcut hw hms hprot hready hpart hsh hg => ?_, fun d p f hf hloop hs ht => ?_,
    fun d p f hf ht => txDone_waits hf ht⟩
  case refine_1 => exact exec_of_act (f := fun d => ethStage d p) rfl (ethStage_held h)
  case refine_2 => exact exec_of_act (f := fun d => txStart d p) rfl (txStart_held h)
  case refine_3 =>
    have hstart := txStart_starts hp hl hst hpa hfr hcut hw hms hready hsh hg
    refine yields_after (exec_of_act (f := fun d => txStart d p) rfl hstart) ?_
    rw [ethOf_settle, ethOf_startFrame (List.any_eq_false.mpr fun it hit => by simp [hpart it hit]), hprot]
    exact ⟨rfl, rfl, rfl, rfl, rfl⟩
  case refine_4 =>
    obtain ⟨hframes, hbytes⟩ := sentWhole_counts hs p f
    rw [txDone_sent hf hloop ht, tallyOf_emit, tallyOf_emit]
    refine ⟨List.mem_cons_self .., ?_, hframes, hbytes⟩
    rw [ethOf_congr (emit_eth ..), sentWhole, ethOf_congr (bumpBy_eth ..), bumpE, ethOf_congr (bump_eth ..), ethOf_modEth_same]

end Sys2Proof.Machine
end

section
/-! SUPPORT. Network timers outside the clusters (chapter 15): what a change of local need leaves of the device, the offender log,
INH_OUT, WAKEHOLD and the PHY_INT_N balls. -/

namespace Sys2Proof.Machine

/-! ## A change of local need (R421, R422, R429) -/

/-- What `g` reads is nothing that a change of local need moves: the clusters, INH_OUT and the offender log, the ports, the frames that
go to the Landing, the counters, the events and the outputs. -/
structure NeedBlind {α : Type} (g : Dev → α) : Prop where
  clusters : ∀ d m, g { d with nmc := { d.nmc with clusters := m } } = g d
  inh : ∀ d i h, g { d with nmc := { d.nmc with inh := i, inhHold := h } } = g d
  log : ∀ d l, g { d with nmc := { d.nmc with log := l } } = g d
  eth : ∀ d m, g { d with eth := m } = g d
  lnd : ∀ d l, g { d with lnd := l } = g d
  rte : ∀ d r, g { d with rte := r } = g d
  bumpBy : ∀ d off inst n, g (bumpBy d off inst n) = g d
  raise : ∀ d code cls data, g (raise d code cls data) = g d
  emit : ∀ d o, g (emit d o) = g d

section NeedBlind
variable {α : Type} {g : Dev → α} (hg : NeedBlind g)
include hg

theorem NeedBlind.modNm (d : Dev) (c : Nat) (f : Cluster → Cluster) : g (modNm d c f) = g d := hg.clusters ..

theorem NeedBlind.setInh (d : Dev) (j : Nat) (on : Bool) : g (setInh d j on) = g d := by
  refine (keeps_ite ?_).trans (hg.inh d _ _)
  unfold drive
  split
  · rfl
  · exact hg.emit ..

theorem NeedBlind.inhStep (d : Dev) (j : Nat) : g (inhStep d j) = g d := by
  unfold Machine.inhStep
  repeat' split
  · rfl
  · exact hg.setInh ..
  · exact hg.setInh ..
  · exact hg.inh ..
  · rfl

theorem NeedBlind.inhUpdate (d : Dev) : g (inhUpdate d) = g d := foldl_keeps hg.inhStep d _

theorem NeedBlind.nmState (d : Dev) (c st ms : Nat) : g (nmState d c st ms) = g d := (hg.inhUpdate _).trans (hg.modNm ..)

theorem NeedBlind.tc10Local (d : Dev) (p : Nat) : g (tc10Local d p) = g d := keeps_ite ((hg.emit ..).trans (hg.eth ..))

theorem NeedBlind.keepAliveCan (d : Dev) (c : Nat) (pdu : Bytes) (ch : Nat) : g (keepAliveCan d c pdu ch) = g d :=
  (hg.lnd ..).trans (hg.bumpBy ..)

theorem NeedBlind.keepAliveEth (d : Dev) (c : Nat) (pdu : Bytes) : g (keepAliveEth d c pdu) = g d :=
  (hg.rte ..).trans (hg.bumpBy ..)

theorem NeedBlind.keepAlive (d : Dev) (c : Nat) : g (keepAlive d c) = g d := by
  unfold Machine.keepAlive
  dsimp only
  split
  · exact hg.modNm ..
  · have hcan : ∀ (pdu : Bytes) (l : List Nat) (d : Dev), g (l.foldl (fun d ch => Machine.keepAliveCan d c pdu ch) d) = g d :=
      fun pdu l d => foldl_keeps (fun d ch => hg.keepAliveCan d c pdu ch) d l
    refine (hg.bumpBy ..).trans ?_
    split
    · exact (hcan ..).trans (hg.modNm ..)
    · exact (hg.keepAliveEth ..).trans ((hcan ..).trans (hg.modNm ..))

theorem NeedBlind.enterRepeat (d : Dev) (c : Nat) (aw rmr : Bool) : g (enterRepeat d c aw rmr) = g d :=
  (hg.keepAlive _ c).trans ((foldl_keeps hg.tc10Local _ _).trans ((hg.modNm ..).trans (hg.nmState ..)))

theorem NeedBlind.enterAwake (d : Dev) (c : Nat) : g (enterAwake d c) = g d := (hg.log ..).trans (hg.nmState ..)

theorem NeedBlind.nmWakeEvent (d : Dev) (c src : Nat) : g (nmWakeEvent d c src) = g d := hg.raise ..

theorem NeedBlind.needEval (d : Dev) (c : Nat) : g (needEval d c) = g d := by
  unfold Machine.needEval
  dsimp only
  split
  · rfl
  · split
    · split
      · exact (hg.enterRepeat ..).trans (hg.nmWakeEvent ..)
      · exact hg.enterRepeat ..
      · exact (hg.keepAlive ..).trans (hg.enterAwake ..)
      · exact (hg.enterRepeat ..).trans (hg.nmWakeEvent ..)
      · split
        · rfl
        · exact hg.modNm ..
      · rfl
    · split
      · exact hg.nmState ..
      · rfl

theorem NeedBlind.needAll (d : Dev) : g (needAll d) = g d := foldl_keeps hg.needEval d _

end NeedBlind

theorem needBlind_seen : NeedBlind (fun d => d.nmc.seen) :=
  { clusters := fun _ _ => rfl, inh := fun _ _ _ => rfl, log := fun _ _ => rfl, eth := fun _ _ => rfl, lnd := fun _ _ => rfl,
    rte := fun _ _ => rfl, bumpBy := fun _ _ _ _ => rfl, raise := fun _ _ _ _ => congrArg Nmc.seen (raise_nmc ..),
    emit := fun _ _ => rfl }

theorem needBlind_regs : NeedBlind Dev.regs :=
  { clusters := fun _ _ => rfl, inh := fun _ _ _ => rfl, log := fun _ _ => rfl, eth := fun _ _ => rfl, lnd := fun _ _ => rfl,
    rte := fun _ _ => rfl, bumpBy := fun _ _ _ _ => rfl, raise := fun _ _ _ _ => raise_regs .., emit := fun _ _ => rfl }

/-! ## PNC sightings (R429) -/

/-- R429: the sightings that stand once those of PNC `p` older than PNCTMO have lapsed. -/
def standing (d : Dev) (p : Nat) : NMap Nat :=
  d.nmc.seen.filter (fun e => !(e.1 / 32 == p && decide (e.2 + msCycles (fld d 0x7E0008 16 16) ≤ d.clk.tclk)))

/-- R429: the sightings of a PNC lapse, and every cluster's need is evaluated. -/
theorem pncExpire_lapses {d : Dev} {p : Nat} (hr : running d = true) (hh : holdMode d = false) :
    pncExpire d p = needAll { d with nmc := { d.nmc with seen := standing d p } } := by
  simp only [pncExpire, hr, hh, Bool.not_true, Bool.or_self, Bool.false_eq_true, if_false]
  rfl

theorem pncExpire_drops_sightings (s : State) (p : Nat) (hr : running s.dev = true) (hh : holdMode s.dev = false) :
    Yields (.pncExpire p) s (fun d => d.nmc.seen = standing s.dev p ∧ d.regs = s.dev.regs) := by
  refine yields_after (exec_of_act (f := fun d => pncExpire d p) rfl (pncExpire_lapses hr hh)) ?_
  rw [settle_nmc, settle_regs]
  exact ⟨needBlind_seen.needAll _, needBlind_regs.needAll _⟩

/-! ## The offender log (R434) -/

theorem clusterOf_congr {a b : Dev} (h : a.nmc = b.nmc) (c : Nat) : clusterOf a c = clusterOf b c := by rw [clusterOf, clusterOf, h]

theorem clusterOf_modNm_same (d : Dev) (c : Nat) (f : Cluster → Cluster) : clusterOf (modNm d c f) c = f (clusterOf d c) := by
  simp [clusterOf, modNm, mapMod, mapGet, mapGet?_mapPut]

theorem modNm_log (d : Dev) (c : Nat) (f : Cluster → Cluster) : (modNm d c f).nmc.log = d.nmc.log := rfl
theorem modNm_evs (d : Dev) (c : Nat) (f : Cluster → Cluster) : (modNm d c f).evs = d.evs := rfl

/-- R86: the timers of a cluster run in a running device. -/
theorem mode_of_nmTimes {d : Dev} {c : Nat} (h : nmTimes d c = true) : 2 ≤ d.clk.mode.num := by
  simp only [nmTimes, Bool.and_eq_true] at h
  exact mode_of_running h.1.1.1

/-- R434: the log with one charged node of a cluster, in a first entry. -/
def firstEntry (d : Dev) (c secs : Nat) (x : Charge) : List (Option Offender) :=
  [some (Offender.mk c true x.eth x.port x.node x.cbv d.clk.rtc secs x.pdus)]

/-- R434: the device with another offender log. -/
def withLog (d : Dev) (l : List (Option Offender)) : Dev := { d with nmc := { d.nmc with log := l } }

/-- R434: a node charged in an empty log opens its first entry, reported. -/
theorem logCharge_empty {d : Dev} (h : d.nmc.log = []) (c secs : Nat) (x : Charge) :
    logCharge d c secs x =
      raise (withLog d (firstEntry d c secs x)) 0x0F05 0 (e1 0 ++ e1 c ++ e1 x.node) := by
  simp only [logCharge, h, findIdx]
  rfl

/-- R434: an OFFTIME interval that has run out enters each charged node in the log, and the next starts. -/
theorem offenderInterval_ends {d : Dev} {c t : Nat} (hn : nmTimes d c = true) (hs : 0 < bits (nmReg d c 0x28) 0 16)
    (hu : svcUp d 0 = true) (h0 : (clusterOf d c).offT0 = some t)
    (ht : t + secCycles * bits (nmReg d c 0x28) 0 16 ≤ d.clk.tclk) :
    offenderInterval d c =
      modNm ((clusterOf d c).charges.foldl (fun e x => logCharge e c (bits (nmReg d c 0x28) 0 16) x) d) c
        (fun k => { k with charges := [], offT0 := some (t + secCycles * bits (nmReg d c 0x28) 0 16) }) := by
  simp only [offenderInterval, h0, hn, hs, hu, ht, decide_true, Bool.and_self, if_true]

theorem offenderLogInterval_logs (s : State) (c t : Nat) (x : Charge) (hn : nmTimes s.dev c = true)
    (hs : 0 < bits (nmReg s.dev c 0x28) 0 16) (hu : svcUp s.dev 0 = true) (h0 : (clusterOf s.dev c).offT0 = some t)
    (ht : t + secCycles * bits (nmReg s.dev c 0x28) 0 16 ≤ s.dev.clk.tclk) (hx : (clusterOf s.dev c).charges = [x])
    (hlog : s.dev.nmc.log = []) :
    Yields (.offenderLogInterval c) s (fun d => d.nmc.log = firstEntry s.dev c (bits (nmReg s.dev c 0x28) 0 16) x ∧
      (clusterOf d c).charges = [] ∧ (clusterOf d c).offT0 = some (t + secCycles * bits (nmReg s.dev c 0x28) 0 16) ∧
      (clusterOf d c).st = (clusterOf s.dev c).st ∧
      d.evs = s.dev.evs ++ [evNow s.dev 0x0F05 0 (e1 0 ++ e1 c ++ e1 x.node)]) := by
  have hm : 2 ≤ (withLog s.dev (firstEntry s.dev c (bits (nmReg s.dev c 0x28) 0 16) x)).clk.mode.num := mode_of_nmTimes hn
  refine yields_after (exec_of_act (f := fun d => offenderInterval d c) rfl (offenderInterval_ends hn hs hu h0 ht)) ?_
  rw [hx, List.foldl_cons, List.foldl_nil, logCharge_empty hlog, clusterOf_congr (settle_nmc _), clusterOf_modNm_same,
    clusterOf_congr (raise_nmc ..), settle_nmc, settle_evs, modNm_log, raise_nmc, modNm_evs, raise_evs hm]
  exact ⟨rfl, rfl, rfl, rfl, rfl⟩

/-! ## INH_OUT (R111, R436) -/

/-- The lines that follow the state are those of IRQ_N, HSPI_IRQ_N and FAULT_N. -/
theorem lineOf_settle_other (d : Dev) {n : Nat} (h : 3 ≤ n) : lineOf (settle d).out n = lineOf d.out n := by
  rw [settle, fault_other _ _ (by omega), drain_other _ _ _ _ (by omega), drain_other _ _ _ _ (by omega)]

/-- R436: the device with INH_OUT `j` active or inactive, and held no longer. -/
def withInh (d : Dev) (j : Nat) (on : Bool) : Dev :=
  { d with nmc := { d.nmc with inh := setBit d.nmc.inh j on, inhHold := mapDel d.nmc.inhHold j } }

/-- R436: an INH_OUT that is set drives its ball while the pin section is in force, outside M6 and M7. -/
theorem setInh_eq (d : Dev) (j : Nat) (on : Bool) : setInh d j on =
    if d.clk.pinsOn && !holdMode d then drive (withInh d j on) (16 + j) (inhLevel (withInh d j on) j) else withInh d j on := rfl

/-- A ball that is driven changes the outputs alone. -/
theorem setInh_nmc (d : Dev) (j : Nat) (on : Bool) : (setInh d j on).nmc = (withInh d j on).nmc := by
  rw [setInh_eq, drive_eq]
  exact keeps_ite rfl
theorem setInh_evs (d : Dev) (j : Nat) (on : Bool) : (setInh d j on).evs = d.evs := by
  rw [setInh_eq, drive_eq]
  exact keeps_ite (g := Dev.evs) rfl

/-- R111, R436: the ball of an INH_OUT that is set shows it as POL and INV say. -/
theorem setInh_shows (d : Dev) (j : Nat) (on : Bool) (hp : d.clk.pinsOn = true) (hh : holdMode d = false) :
    Shows d (setInh d j on).out (16 + j) (on == flag d (0x7E0200 + 8 * j) 0) := by
  intro hoff
  have hlevel : inhLevel (withInh d j on) j = (on == flag d (0x7E0200 + 8 * j) 0) := by
    unfold inhLevel withInh
    rw [bit_setBit, if_pos rfl]
    rfl
  have hball : pinOff (withInh d j on) (16 + j) = false := hoff
  rw [setInh_eq, hp, hh, if_pos (by decide), drive_eq, hlevel, hball, if_neg (by decide), lineOf_emit, if_pos rfl]
  rfl

theorem inhExpire_falls {d : Dev} {j t : Nat} (h : mapGet? d.nmc.inhHold j = some t)
    (ht : t + msCycles (fld d (0x7E0200 + 8 * j) 16 16) ≤ d.clk.tclk) : inhExpire d j = setInh d j false := by
  simp only [inhExpire, h, ht, if_true]

theorem inhExpire_unheld {d : Dev} {j : Nat} (h : mapGet? d.nmc.inhHold j = none) : inhExpire d j = d := by
  simp only [inhExpire, h]

theorem inhHoldExpire_falls (s : State) (j t : Nat) (h : mapGet? s.dev.nmc.inhHold j = some t)
    (hs : mapSorted s.dev.nmc.inhHold = true) (ht : t + msCycles (fld s.dev (0x7E0200 + 8 * j) 16 16) ≤ s.dev.clk.tclk) :
    Yields (.inhHoldExpire j) s (fun d => bit d.nmc.inh j = false ∧ mapGet? d.nmc.inhHold j = none ∧
      d.nmc.clusters = s.dev.nmc.clusters ∧
      (s.dev.clk.pinsOn = true → holdMode s.dev = false → Shows s.dev d.out (16 + j) (!flag s.dev (0x7E0200 + 8 * j) 0)) ∧
      d.evs = s.dev.evs) := by
  refine yields_after (exec_of_act (f := fun d => inhExpire d j) rfl (inhExpire_falls h ht)) ?_
  rw [settle_nmc, settle_evs, setInh_nmc, setInh_evs]
  refine ⟨?_, ?_, rfl, fun hp hh hoff => ?_, rfl⟩
  · rw [withInh, bit_setBit, if_pos rfl]
  · rw [withInh, mapGet?_mapDel hs, if_pos rfl]
  · rw [lineOf_settle_other _ (by omega), setInh_shows s.dev j false hp hh hoff, Bool.false_beq]

/-! ## WAKEHOLD (R428) -/

theorem wakeHold_ends {d : Dev} (hr : running d = true) (ho : d.clk.routing = true)
    (ht : d.clk.routingAt + msCycles (fld d 0x7E0008 0 16) ≤ d.clk.tclk) :
    wakeHold d = { d with clk := { d.clk with holdDone := true } } := by
  simp [wakeHold, hr, ho, ht]

theorem wakeHold_runs {d : Dev} (ht : d.clk.tclk < d.clk.routingAt + msCycles (fld d 0x7E0008 0 16)) : wakeHold d = d := by
  simp [wakeHold, Nat.not_le.mpr ht]

/-! ## PHY_INT_N (R112, R238, R435) -/

/-- R112: a ball that no PHY_INT_N record names reports nothing. -/
theorem phyInt_unassigned {d : Dev} {g : Nat} (h : (roleRecs d 7).find? (fun r => pnGpio r == some g) = none) : phyInt d g = d := by
  simp only [phyInt, h]

/-- R238: a PHY_INT_N ball of a TC10 port outside every cluster wakes the port alone. -/
theorem phyInt_unclustered {d : Dev} {g r : Nat} (h : (roleRecs d 7).find? (fun r => pnGpio r == some g) = some r)
    (hr : running d = true) (hp : d.clk.pinsOn = true) (h8 : bits r 23 4 < 8)
    (ht : flag d (ethBase (bits r 23 4) + 0x20) 0 = true) (hc : ethCluster d (bits r 23 4) = none) :
    phyInt d g = tc10Wake d (bits r 23 4) := by
  have hc' : ethCluster (tc10Wake d (bits r 23 4)) (bits r 23 4) = none := hc
  simp [phyInt, h, hr, hp, Nat.not_le.mpr h8, ht, hc']

/-- Settles O51: each timer by what has run out, the sightings through the evaluation of every cluster's need, which moves neither
them nor the registers; PHY_INT_N as a change of its port. -/
theorem networkTimersOutsideTheClusters : Obligations.NetworkTimersOutsideTheClusters := by
  unfold Obligations.NetworkTimersOutsideTheClusters
  refine ⟨pncExpire_drops_sightings, offenderLogInterval_logs, inhHoldExpire_falls, fun s j h => ?_, fun s hr ho ht => ?_,
    fun s ht => ?_, fun s g r h hr hp h8 ht hc => ?_, fun s g h => ?_⟩
  · exact exec_of_act (f := fun d => inhExpire d j) rfl (inhExpire_unheld h)
  · exact exec_of_act (f := wakeHold) rfl (wakeHold_ends hr ho ht)
  · exact exec_of_act (f := wakeHold) rfl (wakeHold_runs ht)
  · exact yields_modEth (exec_of_act (f := fun d => phyInt d g) rfl (phyInt_unclustered h hr hp h8 ht hc))
  · exact exec_of_act (f := fun d => phyInt d g) rfl (phyInt_unassigned h)

end Sys2Proof.Machine
end

section
/-! SUPPORT. Buffer admission (chapter 09): what a loss, an ECN decision and a transmit record leave of the Landing, what the
decision of a frame with one copy leaves, and how an admission, a retry and an expiry come to it. -/

namespace Sys2Proof.Machine

/-! ## What the parts of an admission leave (R253, R255, R394, R449) -/

/-- The frames that wait, the stored frames, the queues, the next egress commit sequence of the Landing and the registers are
those of `d`. -/
structure LandingKept (d e : Dev) : Prop where
  waiting : e.lnd.waiting = d.lnd.waiting
  frames : e.lnd.frames = d.lnd.frames
  queues : e.lnd.queues = d.lnd.queues
  ecs : nextEcs e 0 = nextEcs d 0
  regs : e.regs = d.regs

namespace LandingKept

theorem refl (d : Dev) : LandingKept d d := ⟨rfl, rfl, rfl, rfl, rfl⟩

theorem trans {a b c : Dev} (h : LandingKept a b) (h' : LandingKept b c) : LandingKept a c :=
  ⟨h'.waiting.trans h.waiting, h'.frames.trans h.frames, h'.queues.trans h.queues, h'.ecs.trans h.ecs, h'.regs.trans h.regs⟩

theorem ite {d a b : Dev} {p : Prop} {i : Decidable p} (ha : LandingKept d a) (hb : LandingKept d b) :
    LandingKept d (if p then a else b) := by
  split
  · exact ha
  · exact hb

/-- A change that leaves the Landing, the twins and the registers. -/
theorem of_eq {d e : Dev} (hl : e.lnd = d.lnd) (ht : e.flt.twins = d.flt.twins) (hr : e.regs = d.regs) : LandingKept d e :=
  ⟨by rw [hl], by rw [hl], by rw [hl], by rw [nextEcs, nextEcs, twinOf, twinOf, ht], hr⟩

theorem bump (d : Dev) (off inst : Nat) : LandingKept d (bump d off inst) := of_eq rfl rfl rfl

theorem raise (d : Dev) (code cls : Nat) (data : Bytes) : LandingKept d (raise d code cls data) :=
  of_eq (raise_lnd ..) (congrArg Flt.twins (raise_flt ..)) (raise_regs ..)

theorem settle (d : Dev) : LandingKept d (settle d) :=
  of_eq (settle_lnd d) (congrArg Flt.twins (settle_flt d)) (settle_regs d)

theorem raiseF4 (d : Dev) (code : Nat) (data : Bytes) : LandingKept d (raiseF4 d code data) :=
  (raise d code 4 data).trans (of_eq rfl rfl rfl)

theorem txSet (d : Dev) (tx : TxRef) (f : TxComp → TxComp) : LandingKept d (txSet d tx f) := of_eq rfl rfl rfl

/-- R485: a loss at a recorder queue is counted at the recorder. -/
theorem recLoss (d : Dev) (q : Nat) : LandingKept d (recLoss d q) := ite (of_eq rfl rfl rfl) (refl d)

/-- R253: the losses of the host queues that wait to be reported. -/
theorem losses (d : Dev) (cnt at' : NMap Nat) : LandingKept d { d with lnd := { d.lnd with lossCnt := cnt, lossAt := at' } } :=
  ⟨rfl, rfl, rfl, rfl, rfl⟩

/-- R253: a loss at a host queue is reported or noted, and counted at its receive queue. -/
theorem hostLoss (d : Dev) (q : Nat) : LandingKept d (hostLoss d q) := by
  unfold Machine.hostLoss
  split
  · exact recLoss d q
  · exact (ite ((losses d ..).trans (raise ..)) (losses d _ d.lnd.lossAt)).trans (of_eq rfl rfl rfl)

theorem dropFull (d : Dev) (q n : Nat) (de : Bool) : LandingKept d (dropFull d q n de) :=
  (ite (bump ..) (ite (bump ..) (bump ..))).trans (hostLoss ..)

theorem preMillLost (d : Dev) (entry : Nat) : LandingKept d (preMillLost d entry) := by
  unfold Machine.preMillLost
  split
  · exact refl d
  · exact ite (of_eq rfl rfl rfl) (refl d)

/-- R253: a copy that fails R249 is counted, reported at a host queue, and noted when it was bound for the Mill. -/
theorem dropFate_full (d : Dev) (p : Pkt) (n : Nat) (x : Dest) : LandingKept d (dropFate d p n x .full) :=
  ite ((dropFull ..).trans (preMillLost ..)) (dropFull ..)

/-- R255: an ECN decision moves the LFSR and counts a mark. -/
theorem ecnOne (d : Dev) (p : Pkt) (x : Dest) : LandingKept d (ecnOne d p x).1 := by
  have hlfsr : LandingKept d { d with lnd := { d.lnd with lfsr := lfsrNext d.lnd.lfsr } } := ⟨rfl, rfl, rfl, rfl, rfl⟩
  unfold Machine.ecnOne
  dsimp only
  split
  · exact refl d
  · split
    · exact hlfsr.trans (bump ..)
    · exact hlfsr

/-- R394: a journalled item fills the journal of its twin and may raise the events of its level. -/
theorem journalAdd (d : Dev) (size : Nat) : LandingKept d (journalAdd d 0 size) := by
  have hfill : ∀ fill, LandingKept d (modTwin d 0 (fun w => { w with fill := fill })) := fun fill =>
    ⟨rfl, rfl, rfl, by simp [nextEcs, twinOf, modTwin, mapMod, mapGet, mapGet?_mapPut], rfl⟩
  have hlevel : ∀ (crossed : Bool) fill data, LandingKept d (if crossed then
      Machine.raise (modTwin d 0 (fun w => { w with fill := fill })) 0x0E06 0 data
      else modTwin d 0 (fun w => { w with fill := fill })) :=
    fun _ fill _ => ite ((hfill fill).trans (raise ..)) (hfill fill)
  exact ite ((hlevel ..).trans (raiseF4 ..)) (hlevel ..)

/-- R449: the transmit record of a frame that is no segment notes the outcome at its endpoint. -/
theorem txAdmitted {p : Pkt} (h : p.seg = none) (d : Dev) (id : Nat) (some' lost : Bool) :
    LandingKept d (txAdmitted d p id some' lost) := by
  unfold Machine.txAdmitted
  rw [h]
  split
  · exact refl d
  · exact txSet ..

end LandingKept

/-- R400: the Landing gives out one sequence. -/
theorem nextEcs_stepEcs (d : Dev) : nextEcs (stepEcs d 0) 0 = (nextEcs d 0 + 1) % 2 ^ 32 := by
  simp [nextEcs, stepEcs, twinOf, modTwin, mapMod, mapGet, mapGet?_mapPut]

/-! ## The decision of a frame with one copy (R249, R250, R253) -/

/-- R242, R249, R264, R400: the frame `p` of `n` cells with the one copy `x` has been stored under the next egress commit sequence,
and its copy is the last of its queue. -/
structure StoredWith (d : Dev) (p : Pkt) (n : Nat) (x : Dest) (e : Dev) : Prop where
  waiting : e.lnd.waiting = d.lnd.waiting
  queues : e.lnd.queues = mapPut d.lnd.queues x.q (queueOf d x.q ++ [(nextEcs d 0, x)])
  frames : ∃ f, e.lnd.frames = mapPut d.lnd.frames (nextEcs d 0) f ∧ f.pkt = { p with id := nextEcs d 0 } ∧
    f.n = n ∧ f.owner = x.q ∧ f.placed = [x.q] ∧ f.left = 1 ∧ f.open' = 1
  ecs : nextEcs e 0 = (nextEcs d 0 + 1) % 2 ^ 32
  regs : e.regs = d.regs

namespace StoredWith
variable {d e e' : Dev} {p : Pkt} {n : Nat} {x : Dest}

theorem trans (h : StoredWith d p n x e) (h' : LandingKept e e') : StoredWith d p n x e' :=
  ⟨h'.waiting.trans h.waiting, h'.queues.trans h.queues, h'.frames ▸ h.frames, h'.ecs.trans h.ecs, h'.regs.trans h.regs⟩

theorem queueOf_same (h : StoredWith d p n x e) : queueOf e x.q = queueOf d x.q ++ [(nextEcs d 0, x)] := by
  rw [queueOf, h.queues, mapGet, mapGet?_mapPut, if_pos rfl, Option.getD_some]

theorem queueOf_ne (h : StoredWith d p n x e) {q : Nat} (hq : q ≠ x.q) : queueOf e q = queueOf d q := by
  rw [queueOf, h.queues, mapGet, mapGet?_mapPut, if_neg hq.symm, queueOf, mapGet]

theorem frame (h : StoredWith d p n x e) : ∃ f, mapGet? e.lnd.frames (nextEcs d 0) = some f ∧
    f.pkt = { p with id := nextEcs d 0 } ∧ f.n = n ∧ f.owner = x.q ∧ f.placed = [x.q] ∧ f.left = 1 ∧ f.open' = 1 := by
  obtain ⟨f, hf, hstored⟩ := h.frames
  exact ⟨f, by rw [hf, mapGet?_mapPut, if_pos rfl], hstored⟩

end StoredWith

/-- A queue that takes a copy is listed with it. -/
theorem setQueue_append (d : Dev) (q : Nat) (l : List (Nat × Dest)) (c : Nat × Dest) :
    setQueue d q (l ++ [c]) = { d with lnd := { d.lnd with queues := mapPut d.lnd.queues q (l ++ [c]) } } := by
  simp [setQueue]

/-- R249, R400: what the storing of a frame with one copy leaves. -/
theorem storeFrame_single (d : Dev) (p : Pkt) (n : Nat) (x : Dest) : StoredWith d p n x (storeFrame d p n [x]) := by
  have hecn : LandingKept d (ecnAll d p [x]).1 := .ecnOne d p x
  have hjournal := LandingKept.journalAdd (stepEcs (ecnAll d p [x]).1 0) p.size
  unfold storeFrame
  dsimp only [List.foldl]
  rw [setQueue_append]
  refine StoredWith.trans ⟨?_, ?_, ?_, ?_, ?_⟩ (LandingKept.bump ..)
  · exact hjournal.waiting.trans hecn.waiting
  · have hqueues := hjournal.queues.trans hecn.queues
    simp only [queueOf, hqueues]
  · exact ⟨_, congrArg (mapPut · _ _) (hjournal.frames.trans hecn.frames), rfl, rfl, rfl, rfl, rfl, rfl⟩
  · exact hjournal.ecs.trans ((nextEcs_stepEcs _).trans (by rw [hecn.ecs]))
  · exact hjournal.regs.trans hecn.regs

section OneCopy
variable {d : Dev} {p : Pkt} {x : Dest}

theorem fates_single (d : Dev) (p : Pkt) (n : Nat) (x : Dest) : fates d p n false [x] = [(x, fateOf d p n false x)] := rfl

/-- R249, R250: a frame whose one copy passes is stored. -/
theorem admitNow_stores (hs : p.seg = none) (h : fateOf d p (admCells d p) false x = .queue) :
    StoredWith d p (admCells d p) x (admitNow d p [x]) := by
  have hstore : admitNow d p [x] = txAdmitted (storeFrame d p (admCells d p) [x]) p (nextEcs d 0) (!isRec x.q) false := by
    simp [admitNow, fates_single, h, dropFate]
  rw [hstore]
  exact (storeFrame_single ..).trans (.txAdmitted hs ..)

/-- R250, R253: a frame whose one copy fails is not stored. -/
theorem admitNow_drops (hs : p.seg = none) (h : fateOf d p (admCells d p) false x = .full) : LandingKept d (admitNow d p [x]) := by
  have hqueue : (Fate.full == Fate.queue) = false := rfl
  have hstore : (Fate.full == Fate.store) = false := rfl
  have hdrop : admitNow d p [x] =
      txAdmitted (dropFate d p (admCells d p) x .full) p (nextEcs d 0) false (!isRec x.q) := by
    simp [admitNow, fates_single, h, bne, hqueue, hstore]
  rw [hdrop]
  exact (LandingKept.dropFate_full ..).trans (.txAdmitted hs ..)

end OneCopy

/-! ## The frames that wait at an input (R249, R251) -/

/-- The device with `l` the frames that wait at `input`. -/
def withWaiting (d : Dev) (input : Nat) (l : List Decided) : Dev :=
  { d with lnd := { d.lnd with waiting := mapPut d.lnd.waiting input l } }

theorem waiting_withWaiting (d : Dev) (input : Nat) (l : List Decided) : mapGet [] (withWaiting d input l).lnd.waiting input = l := by
  simp [withWaiting, mapGet, mapGet?_mapPut]

/-- R249: the fate of a copy does not depend on the frames that wait. -/
theorem fateOf_withWaiting (d : Dev) (input : Nat) (l : List Decided) (p : Pkt) (x : Dest) :
    fateOf (withWaiting d input l) p (admCells (withWaiting d input l) p) false x = fateOf d p (admCells d p) false x := rfl

section Admission
variable {d : Dev} {input : Nat} {w : Decided} {x : Dest} {rest : List Decided}

/-- R249, R251: the first frame that waits and was not tried is tried at HA, HB and SVC, and decided at another input. -/
theorem admission_first (hf : frozen d 0 = false) (hw : mapGet [] d.lnd.waiting input = w :: rest) (ht : w.since = none)
    (hp : w.pkt.part = false) : admission d input =
      if waits input then firstTry d input w [] rest else admitNow (withWaiting d input rest) w.pkt w.dests := by
  have hnext : nextAdm d [] (w :: rest) = some ([], w, rest) := by simp [nextAdm, ht, hp]
  simp only [admission, hf, hw, hnext]
  rfl

/-- R251: a first try whose one copy passes decides the frame. -/
theorem firstTry_passes (hx : w.dests = [x]) (h : fateOf d w.pkt (admCells d w.pkt) false x = .queue) :
    firstTry d input w [] rest = admitNow (withWaiting d input rest) w.pkt w.dests := by
  simp [firstTry, hx, fates_single, h, waitsFor, withWaiting]

/-- R251: a first try whose one copy fails leaves the frame waiting from now on, and counts it at its queue. -/
theorem firstTry_waits (hx : w.dests = [x]) (hr : isRec x.q = false) (h : fateOf d w.pkt (admCells d w.pkt) false x = .full) :
    firstTry d input w [] rest = withWaiting (bump d 0x500078 x.q) input (⟨w.pkt, [x], some d.clk.tclk⟩ :: rest) := by
  simp [firstTry, hx, fates_single, h, waitsFor, hr, withWaiting]

/-- R249: whichever the input, the first frame is decided at once when its one copy passes. -/
theorem admission_passes (hf : frozen d 0 = false) (hw : mapGet [] d.lnd.waiting input = w :: rest) (ht : w.since = none)
    (hp : w.pkt.part = false) (hx : w.dests = [x]) (h : fateOf d w.pkt (admCells d w.pkt) false x = .queue) :
    admission d input = admitNow (withWaiting d input rest) w.pkt w.dests := by
  rw [admission_first hf hw ht hp, firstTry_passes hx h, ite_self]

/-- R251: no frame waits to be retried at another input. -/
theorem admissionRetry_inert (hi : waits input = false) : admissionRetry d input = d := by
  simp [admissionRetry, hi]

/-- R251: a retry of the only frame that waits decides it when its one copy passes. -/
theorem admissionRetry_passes {t : Nat} (hf : frozen d 0 = false) (hi : waits input = true) (hw : mapGet [] d.lnd.waiting input = [w])
    (ht : w.since = some t) (hx : w.dests = [x]) (h : fateOf d w.pkt (admCells d w.pkt) false x = .queue) :
    admissionRetry d input = withWaiting (admitNow d w.pkt w.dests) input [] := by
  simp [admissionRetry, hf, hi, hw, retryList, ht, hx, fates_single, h, waitsFor, withWaiting]

/-- R251: the oldest frame is decided when it has waited WAITLIM. -/
theorem waitlimStep_decides {t : Nat} (hf : frozen d 0 = false) (hw : mapGet [] d.lnd.waiting input = w :: rest)
    (ht : w.since = some t) (hlim : t + waitCycles d ≤ d.clk.tclk) :
    waitlimStep d input = admitNow (withWaiting d input rest) w.pkt w.dests := by
  simp [waitlimStep, hf, hw, findIdx, ht, hlim, withWaiting]

end Admission

/-- R250, R253: a frame taken from those that wait and dropped leaves the others waiting, and nothing stored. -/
theorem yields_dropped {c : Instr} {s : State} {input : Nat} {w : Decided} {x : Dest} {rest : List Decided} (hs : w.pkt.seg = none)
    (h : fateOf s.dev w.pkt (admCells s.dev w.pkt) false x = .full)
    (hc : exec c s = .next (after s (admitNow (withWaiting s.dev input rest) w.pkt [x]))) :
    Yields c s (fun d => mapGet [] d.lnd.waiting input = rest ∧ d.lnd.frames = s.dev.lnd.frames ∧
      d.lnd.queues = s.dev.lnd.queues ∧ nextEcs d 0 = nextEcs s.dev 0) := by
  have hkept := (admitNow_drops hs ((fateOf_withWaiting s.dev input rest w.pkt x).trans h)).trans (.settle _)
  exact yields_after hc ⟨by rw [hkept.waiting, waiting_withWaiting], hkept.frames, hkept.queues, hkept.ecs⟩

/-- Settles O33: each command by the decision that it comes to, of the one copy in the state as the command finds it. -/
theorem admissionStoresWaitsOrDrops : Obligations.AdmissionStoresWaitsOrDrops := by
  unfold Obligations.AdmissionStoresWaitsOrDrops
  refine ⟨fun s input w x rest hf hw ht hp hs hx h => ?_, fun s input w x rest hf hi hw ht hp hs hx h => ?_,
    fun s input w x rest hf hi hw ht hp hs hx hr h hsort => ?_, fun s input w x t hf hi hw ht hs hx h => ?_,
    fun s input hi => ?_, fun s input w x rest t hf hw ht hlim hs hx h => ?_⟩
  · have hdecide := admission_passes hf hw ht hp hx h
    rw [hx] at hdecide
    have hstored := (admitNow_stores hs ((fateOf_withWaiting s.dev input rest w.pkt x).trans h)).trans (.settle _)
    exact yields_after (exec_of_act (f := fun d => admission d input) rfl hdecide)
      ⟨by rw [hstored.waiting, waiting_withWaiting], hstored.queueOf_same, hstored.ecs, fun q hq => hstored.queueOf_ne hq,
        hstored.frame, hstored.regs⟩
  · have hdecide := admission_first hf hw ht hp
    rw [hi, if_neg (by decide), hx] at hdecide
    exact yields_dropped hs h (exec_of_act (f := fun d => admission d input) rfl hdecide)
  · have hwait := admission_first hf hw ht hp
    rw [hi, if_pos rfl, firstTry_waits hx hr h] at hwait
    have hkept := LandingKept.settle (withWaiting (bump s.dev 0x500078 x.q) input (⟨w.pkt, [x], some s.dev.clk.tclk⟩ :: rest))
    refine yields_after (exec_of_act (f := fun d => admission d input) rfl hwait)
      ⟨by rw [hkept.waiting, waiting_withWaiting], hkept.frames, hkept.queues, settle_evs _, ?_⟩
    rw [tallyOf, settle_tally]
    exact tallyOf_bumpBy hsort 0x500078 x.q 1
  · have hdecide := admissionRetry_passes hf hi hw ht hx h
    rw [hx] at hdecide
    have hkept := LandingKept.settle (withWaiting (admitNow s.dev w.pkt [x]) input [])
    have hstored := admitNow_stores hs h
    have hqueue : ∀ q, queueOf (settle (withWaiting (admitNow s.dev w.pkt [x]) input [])) q = queueOf (admitNow s.dev w.pkt [x]) q :=
      fun q => congrArg (mapGet [] · q) hkept.queues
    refine yields_after (exec_of_act (f := fun d => admissionRetry d input) rfl hdecide)
      ⟨by rw [hkept.waiting, waiting_withWaiting], ?_, fun q hq => ?_⟩
    · rw [hqueue, hstored.queueOf_same]
    · rw [hqueue, hstored.queueOf_ne hq]
  · exact exec_of_act (f := fun d => admissionRetry d input) rfl (admissionRetry_inert hi)
  · have hdecide := waitlimStep_decides hf hw ht hlim
    rw [hx] at hdecide
    exact yields_dropped hs h (exec_of_act (f := fun d => waitlimStep d input) rfl hdecide)

end Sys2Proof.Machine
end

section
/-! SUPPORT. Table windows (chapters 10 to 12): what a selection and a copy leave of the registers and of the block whose window it
is. -/

namespace Sys2Proof.Machine

/-! ## The items (R299, R332, R362) -/

theorem wordsOf_length (n v : Nat) : (wordsOf n v).length = n := by rw [wordsOf, List.length_map, List.length_range]

/-- R299: RTE_TWDATA holds 24 words, whatever the table. -/
theorem rteItem_length (d : Dev) (table ix : Nat) : (rteItem d table ix).length = 24 := by
  unfold rteItem
  rw [List.length_take, List.length_append, List.length_replicate]
  omega

/-- R332: MIL_WDATA holds 16 words, whatever the selection. -/
theorem milItem_length (d : Dev) (w : Nat) : (milItem d w).length = 16 := by
  unfold milItem
  split <;> exact wordsOf_length ..

/-- R362: CRY_WDATA holds 16 words, whatever the selection. -/
theorem cryItem_length (d : Dev) (w : Nat) : (cryItem d w).length = 16 := by
  unfold cryItem
  split <;> exact wordsOf_length ..

/-! ## The selections -/

/-- R4: a masked word is a word where the mask is one. -/
theorem and_mask_lt {mask : Nat} (h : mask < 2 ^ 32) (w : Word) : w.toNat &&& mask < 2 ^ 32 :=
  Nat.lt_of_le_of_lt Nat.and_le_right h

/-- Only the register of a selection `v` differs, as the lines follow: `e` is the device with its window's READY cleared. -/
theorem reg_settle_select {d e : Dev} (he : e.regs = d.regs) (hs : mapSorted d.regs = true) {v : Nat} (hv : v < 2 ^ 32) (off : Nat) :
    reg (settle (putReg e off v)) off = v ∧ ∀ o, o ≠ off → reg (settle (putReg e off v)) o = reg d o := by
  have hregs : ∀ o, reg (settle (putReg e off v)) o = reg (putReg d off v) o := fun o => by
    simp only [reg, regK, settle_regs, putReg, putK, he]
  refine ⟨?_, fun o ho => ?_⟩
  · rw [hregs, reg, putReg, regK_putK hs, Nat.mod_eq_of_lt hv]
  · rw [hregs, reg, putReg, regK_putK_ne hs ho, reg]

/-! ## The copies -/

theorem milCopy_on {d : Dev} (hr : running d = true) (hi : bit d.clk.islands 6 = true) :
    milCopy d = { d with mil := { d.mil with wReady := true, wData := milItem d (reg d 0x600020) } } := by
  rw [milCopy, hi, hr, Bool.and_self, if_pos rfl]

theorem milCopy_off {d : Dev} (hi : bit d.clk.islands 6 = false) : milCopy d = d := by
  rw [milCopy, hi, Bool.false_and, if_neg Bool.false_ne_true]

theorem cryCopy_on {d : Dev} (h : cryOn d = true) :
    cryCopy d = { d with cry := { d.cry with wReady := true, wData := cryItem d (reg d 0x780040) } } := if_pos h

theorem cryCopy_off {d : Dev} (h : cryOn d = false) : cryCopy d = d := if_neg (ne_true_of_eq_false h)

/-- Settles O39: each selection stores its word beside the cleared READY, and each copy reads the selection as it stands. -/
theorem tableWindowsShowTheirSelection : Obligations.TableWindowsShowTheirSelection := by
  unfold Obligations.TableWindowsShowTheirSelection
  refine ⟨fun s who w hw hs => ?_, fun s => ?_, fun s who w hw hs => ?_, fun s hr hi => ?_, fun s who w hw hs => ?_, fun s hc => ?_,
    fun s hi => ?_, fun s hc => ?_⟩
  · obtain ⟨hsel, hother⟩ := reg_settle_select (e := { s.dev with rte := { s.dev.rte with twReady := false } }) rfl hs
      (and_mask_lt (mask := 0x1FFFF7) (by decide) w) 0x580050
    exact yields_after (d := tableSelect s.dev w.toNat) (exec_of_act (access_regWr hw ..) rfl)
      ⟨hsel, settle_rte _, hother, settle_lnd _, settle_evs _⟩
  · refine yields_after (d := rteCopy s.dev) (exec_of_act (f := rteCopy) rfl rfl) ?_
    rw [settle_rte]
    exact ⟨rfl, rteItem_length .., settle_regs _, settle_lnd _, settle_evs _⟩
  · obtain ⟨hsel, hother⟩ := reg_settle_select (e := { s.dev with mil := { s.dev.mil with wReady := false } }) rfl hs
      (and_mask_lt (mask := 0x3FFFFFFF) (by decide) w) 0x600020
    exact yields_after (d := milSelect s.dev w.toNat) (exec_of_act (access_regWr hw ..) rfl)
      ⟨hsel, settle_mil _, hother, settle_evs _⟩
  · refine yields_after (exec_of_act (f := milCopy) rfl (milCopy_on hr hi)) ?_
    rw [settle_mil]
    exact ⟨rfl, milItem_length .., settle_regs _, settle_evs _⟩
  · obtain ⟨hsel, hother⟩ := reg_settle_select (e := { s.dev with cry := { s.dev.cry with wReady := false } }) rfl hs
      (and_mask_lt (mask := 0x7FFF) (by decide) w) 0x780040
    exact yields_after (d := crySelect s.dev w.toNat) (exec_of_act (access_regWr hw ..) rfl)
      ⟨hsel, settle_cry _, hother, settle_evs _⟩
  · refine yields_after (exec_of_act (f := cryCopy) rfl (cryCopy_on hc)) ?_
    rw [settle_cry]
    exact ⟨rfl, cryItem_length .., settle_regs _, settle_evs _⟩
  · exact exec_of_act (f := milCopy) rfl (milCopy_off hi)
  · exact exec_of_act (f := cryCopy) rfl (cryCopy_off hc)

end Sys2Proof.Machine
end

section
/-! SUPPORT. The diagnostic gateway (chapter 10): a routing activation that wakes a cluster. -/

namespace Sys2Proof.Machine

/-- A device in M4 whose one NM cluster is ASLEEP. Its member, CAN channel 5, is the channel of route entry 7, the request route of
RTE_DIAG entry 0, for logical address 0x10. Its keep-alive has 8 bytes. -/
def gatewayAsleep : Dev :=
  putReg (putReg (putReg
    { clk := { mode := .m4, porstLow := false, routing := true, islands := 0x1FF }
      img := { grove := [(0, 0x3F00)], nml := [(0, 8 * 2 ^ 8)], route := [(7, 5 * 2 ^ 5 + 3 * 2 ^ 13)] } }
    0x580400 0x20010) 0x580404 7) (nmcBase 0 + 8) (2 ^ 5)

theorem diagServes_gatewayAsleep : diagServes gatewayAsleep = true := by decide +kernel

/-- R296, R421, R422: the connection is local need, so the cluster enters REPEAT, and its keep-alive for channel 5 waits for admission
at port SVC. -/
theorem diagActivate_gatewayAsleep_waiting :
    (mapGet [] (diagActivate gatewayAsleep 3 0xE80).lnd.waiting 6).map (fun w => w.dests.map Dest.q) = [[qCan 5 3]] := by
  decide +kernel

/-- Refutes O35: a routing activation does not leave the Landing as it was when the clusters that the open connection holds awake
(R296) are asleep: the keep-alive at the entry of REPEAT (R421, R422) joins the frames that wait at port SVC. -/
theorem not_diagnosticGatewayAnswersTesters : ¬ Obligations.DiagnosticGatewayAnswersTesters := by
  unfold Obligations.DiagnosticGatewayAnswersTesters
  rintro ⟨hactivate, -⟩
  obtain ⟨t, ht, -, -, -, -, hlnd, -⟩ := hactivate { dev := gatewayAsleep, pending := [] } 3 0xE80 diagServes_gatewayAsleep (by decide)
  obtain rfl : after { dev := gatewayAsleep, pending := [] } (diagActivate gatewayAsleep 3 0xE80) = t := Host.Outcome.next.inj ht
  rw [after, settle_lnd] at hlnd
  have hwaits := diagActivate_gatewayAsleep_waiting
  rw [hlnd] at hwaits
  exact absurd hwaits (by decide)

end Sys2Proof.Machine
end

section
/-! SUPPORT. The deadlines and emissions of the Signal Mill (chapter 11): what a sweep changes beside the episodes that it starts, what
a tick makes due, and where a snapshot goes. -/

namespace Sys2Proof.Machine

/-! ## What a loss and an episode leave as they were (R313, R328) -/

/-- What a sweep and a snapshot go by: neither the report of a loss, nor a source record that goes out of service, nor the updates of
an episode move any of it. -/
def millView (d : Dev) : Clk × NMap Word × Img × Commit × Lnd × Rte × Flt × List Nat × NMap Nat × List Nat :=
  (d.clk, d.regs, d.img, d.com, d.lnd, d.rte, d.flt, d.mil.expired, d.mil.deadline, d.mil.due)

theorem millView_eq_iff {a b : Dev} : millView a = millView b ↔ a.clk = b.clk ∧ a.regs = b.regs ∧ a.img = b.img ∧ a.com = b.com ∧
    a.lnd = b.lnd ∧ a.rte = b.rte ∧ a.flt = b.flt ∧ a.mil.expired = b.mil.expired ∧ a.mil.deadline = b.mil.deadline ∧
    a.mil.due = b.mil.due := by
  simp only [millView, Prod.mk.injEq]

theorem millView_bumpBy (d : Dev) (off inst n : Nat) : millView (bumpBy d off inst n) = millView d := by simp [millView]

theorem millView_raise (d : Dev) (code cls : Nat) (data : Bytes) : millView (raise d code cls data) = millView d := by
  simp [millView]

theorem millView_milLoss (d : Dev) (pdu why : Nat) : millView (milLoss d pdu why) = millView d := by
  unfold milLoss
  extract_lets n late
  clear_value late
  split
  · exact millView_raise ..
  · rfl

theorem millView_milDropIf (d : Dev) (host : Bool) (pdu ix : Nat) : millView (milDropIf d host pdu ix) = millView d :=
  (keeps_ite (millView_milLoss ..)).trans (millView_bumpBy ..)

theorem millView_touchLine (d : Dev) (l : Nat) : millView (touchLine d l) = millView d := by
  unfold touchLine
  split <;> rfl

theorem millView_accessLines (d : Dev) (late ls : List Nat) : millView (accessLines d late ls) = millView d :=
  (millView_bumpBy ..).trans (foldl_keeps millView_touchLine d ls)

theorem millView_countHits (d : Dev) (late : List Nat) (e : Nat) : millView (countHits d late e) = millView d :=
  (millView_bumpBy ..).trans (millView_accessLines ..)

theorem millView_sweepMisses (d : Dev) (ls : List Nat) : millView (sweepMisses d ls).1 = millView d := millView_bumpBy ..

theorem millView_setTab (d : Dev) (ch l : Nat) (e : Nat × Nat) : millView (setTab d ch l e) = millView d := by
  unfold setTab
  dsimp only
  split <;> rfl

theorem millView_setEntry (d : Dev) (e v : Nat) : millView (setEntry d e v) = millView d := by
  unfold setEntry
  dsimp only
  split
  · rfl
  · split
    · rfl
    · exact (millView_setTab ..).trans (millView_setTab ..)

theorem millView_trigger (d : Dev) (p mode : Nat) : millView (trigger d p mode) = millView d := keeps_ite rfl

theorem millView_placeOne (d : Dev) (src : Nat) (side : Bool) (n v : Nat) (x : Place) :
    millView (placeOne d src side n v x) = millView d := by
  unfold placeOne
  split
  · rfl
  · dsimp only
    split
    · split
      · exact (keeps_ite (millView_milLoss ..)).trans (millView_bumpBy ..)
      · exact millView_bumpBy ..
    · split
      · rfl
      · split
        · rfl
        · exact millView_trigger ..

theorem millView_placeAll (d : Dev) (late : List Nat) (src : Nat) (side : Bool) (v x : Nat) :
    millView (placeAll d late src side v x) = millView d :=
  (foldl_keeps (fun d p => millView_placeOne d src side (sgLen v) x p) _ _).trans ((millView_accessLines ..).trans (millView_bumpBy ..))

theorem millView_episodeEntry (src : Nat) (side : Bool) (d : Dev) (e : Nat) :
    millView (episodeEntry src side d e) = millView d := by
  have hops : millView (bumpOps d 1) = millView d := millView_bumpBy ..
  unfold episodeEntry
  extract_lets d₁ v m d₂
  have hread : millView d₂ = millView d := (millView_countHits ..).trans ((millView_sweepMisses ..).trans hops)
  split
  · exact (millView_milDropIf ..).trans hops
  · split
    · exact hread
    · refine (keeps_ite ?_).trans ((millView_setEntry ..).trans hread)
      exact (millView_placeAll ..).trans ((millView_sweepMisses ..).trans (keeps_ite (millView_milDropIf ..)))

/-- R313: an episode whose source asks for a report ends with it, and beside EXPIRED moves nothing that the sweep reads. -/
theorem episodeStart_reports {d : Dev} {r : Nat} (hevt : srcToEvt r = true) (hflag : flag d 0x600008 0 = true) (src : Nat) :
    ∃ e, episodeStart d src r = raise e 0x0B02 0 (e2 src) ∧
      millView e = millView { d with mil := { d.mil with expired := d.mil.expired ++ [src] } } := by
  let e := bumpM ((List.range (srcCount r)).foldl (fun d i => episodeEntry src (srcSide r == 1) d (srcFirst r + i))
    { d with mil := { d.mil with expired := d.mil.expired ++ [src] } }) 6
  have hview : millView e = millView { d with mil := { d.mil with expired := d.mil.expired ++ [src] } } :=
    (millView_bumpBy ..).trans (foldl_keeps (fun d i => millView_episodeEntry src _ d (srcFirst r + i)) _ _)
  obtain ⟨-, hregs, -⟩ := millView_eq_iff.mp hview
  have hask : flag e 0x600008 0 = true := (flag_congr hregs ..).trans hflag
  exact ⟨e, if_pos (Bool.and_eq_true_iff.mpr ⟨hevt, hask⟩), hview⟩

/-! ## Errors that stand in source records (R325) -/

theorem millView_srcDamage (d : Dev) (ix : Nat) : millView (srcDamage d ix) = millView d := by
  unfold srcDamage
  split
  · rfl
  · exact millView_raise ..

/-- R325: the sweep has found the errors that stand in the records below SWEEPCNT. -/
def errorsFound (d : Dev) : Dev := (d.mil.srcErr.filter (fun x => decide (x < fld d 0x600014 0 17))).foldl srcDamage d

theorem millView_errorsFound (d : Dev) : millView (errorsFound d) = millView d := foldl_keeps millView_srcDamage d _

/-- R325: an error in one record leaves every other in service. -/
theorem srcDamage_oos_ne (d : Dev) {ix src : Nat} (h : ix ≠ src) :
    (srcDamage d ix).mil.oos.contains src = d.mil.oos.contains src := by
  unfold srcDamage
  split
  · rfl
  · simp [Ne.symm h]

theorem errorsFound_oos {d : Dev} {src : Nat} (h : d.mil.srcErr.contains src = false) :
    (errorsFound d).mil.oos.contains src = d.mil.oos.contains src := by
  refine List.foldlRecOn (motive := fun e => e.mil.oos.contains src = d.mil.oos.contains src) _ srcDamage rfl (fun e he ix hix => ?_)
  have hne : ix ≠ src := by
    rintro rfl
    simp [(List.mem_filter.mp hix).1] at h
  exact (srcDamage_oos_ne e hne).trans he

/-- R325: an error that stands in one record alone takes it out of service, with a report. -/
theorem errorsFound_single {d : Dev} {src r : Nat} (herr : d.mil.srcErr = [src]) (hcnt : src < fld d 0x600014 0 17)
    (hoos : d.mil.oos.contains src = false) (hrec : srcRec d src = some r) :
    errorsFound d = raise { d with mil := { d.mil with oos := d.mil.oos ++ [src] } } 0x0B08 0 (e1 0 ++ e2 src) := by
  have hfound : errorsFound d = srcDamage d src := by simp [errorsFound, herr, hcnt]
  rw [hfound, srcDamage, if_neg (by rw [hoos, hrec]; exact Bool.false_ne_true)]

/-! ## The sweep (R313) -/

theorem millOn_of_millRuns {d : Dev} (h : millRuns d = true) : millOn d = true := by
  simp only [millRuns, Bool.and_eq_true] at h
  exact h.1.1

/-- R321: the Mill does not run in M6 and M7. -/
theorem millRuns_hold {d : Dev} (h : holdMode d = true) : millRuns d = false := by simp [millRuns, h]

theorem deadlinePassed_congr {a b : Dev} (h : a.clk = b.clk) (t : Nat) : deadlinePassed a t = deadlinePassed b t := by
  rw [deadlinePassed, deadlinePassed, milMs, milMs, milTicks, milTicks, h]

theorem srcRec_congr {a b : Dev} (himg : a.img = b.img) (hcom : a.com = b.com) (ix : Nat) : srcRec a ix = srcRec b ix := by
  simp [srcRec, tableRec, graftRec, himg, hcom]

/-- R313: the sweep of one deadline starts its episode where the source is in service, sweeps below SWEEPCNT with its timeout on, has
no episode yet, and the deadline has passed. -/
theorem sweepPass_single {d : Dev} {src t r : Nat} (hdl : d.mil.deadline = [(src, t)]) (hrec : srcRec d src = some r) :
    sweepPass d = if decide (src < fld d 0x600014 0 17) && srcToEn r && !(errorsFound d).mil.oos.contains src &&
      !d.mil.expired.contains src && deadlinePassed d t then episodeStart (errorsFound d) src r else errorsFound d := by
  obtain ⟨hclk, -, himg, hcom, -, -, -, hexp, hdl', -⟩ := millView_eq_iff.mp (millView_errorsFound d)
  have hrec' : srcRec (errorsFound d) src = some r := (srcRec_congr himg hcom src).trans hrec
  have hpass : sweepPass d = (errorsFound d).mil.deadline.foldl (fun e x =>
      match srcRec e x.1 with
      | none => e
      | some r =>
        if decide (x.1 < fld d 0x600014 0 17) && srcToEn r && !e.mil.oos.contains x.1 && !e.mil.expired.contains x.1 &&
          deadlinePassed e x.2 then episodeStart e x.1 r else e) (errorsFound d) := rfl
  rw [hpass, hdl', hdl, List.foldl_cons, List.foldl_nil, hrec', hexp, deadlinePassed_congr hclk]

/-- R313: a sweep that the Mill does not run, or before its period, changes nothing. -/
theorem timeoutSweep_idle {d : Dev} (h : millRuns d = false ∨ d.clk.tclk - d.mil.sweepAt < usCycles (max 1 (fld d 0x600010 0 14))) :
    timeoutSweep d = d := by
  unfold timeoutSweep
  obtain h | h := h <;> simp [h]

/-- R313: a due sweep makes its pass and notes when. -/
theorem timeoutSweep_due {d : Dev} (hr : millRuns d = true)
    (hdue : usCycles (max 1 (fld d 0x600010 0 14)) ≤ d.clk.tclk - d.mil.sweepAt) :
    ∃ late, timeoutSweep d = { sweepPass d with
      mil := { (sweepPass d).mil with sweepAt := (sweepPass d).clk.tclk, late := late } } :=
  ⟨_, if_neg (by simp [hr, hdue])⟩

theorem exec_timeoutSweep (s : State) : exec .timeoutSweep s = .next (after s (timeoutSweep s.dev)) := exec_of_act rfl rfl

theorem timeoutSweep_starts_episode (s : State) (src t r : Nat) (hr : millRuns s.dev = true)
    (hdue : usCycles (max 1 (fld s.dev 0x600010 0 14)) ≤ s.dev.clk.tclk - s.dev.mil.sweepAt) (hdl : s.dev.mil.deadline = [(src, t)])
    (hrec : srcRec s.dev src = some r) (hcnt : src < fld s.dev 0x600014 0 17) (hen : srcToEn r = true) (hevt : srcToEvt r = true)
    (hflag : flag s.dev 0x600008 0 = true) (hexp : s.dev.mil.expired.contains src = false) (hoos : s.dev.mil.oos.contains src = false)
    (herr : s.dev.mil.srcErr.contains src = false) (hpast : deadlinePassed s.dev t = true) :
    Yields .timeoutSweep s (fun d => d.mil.sweepAt = s.dev.clk.tclk ∧ d.mil.expired = s.dev.mil.expired ++ [src] ∧
      (∃ l, d.evs = l ++ [evNow s.dev 0x0B02 0 (e2 src)]) ∧ d.lnd = s.dev.lnd ∧ d.regs = s.dev.regs) := by
  obtain ⟨hclk₁, hregs₁, -, -, hlnd₁, -, -, hexp₁, -⟩ := millView_eq_iff.mp (millView_errorsFound s.dev)
  obtain ⟨e, hstart, hview⟩ := episodeStart_reports hevt ((flag_congr hregs₁ ..).trans hflag) src
  obtain ⟨hclk, hregs, -, -, hlnd, -, -, hexpired, -⟩ := millView_eq_iff.mp hview
  have hpass : sweepPass s.dev = raise e 0x0B02 0 (e2 src) := by
    rw [sweepPass_single hdl hrec, errorsFound_oos herr, hstart, if_pos (by simp only [hcnt, hen, hoos, hexp, hpast]; rfl)]
  obtain ⟨late, hsweep⟩ := timeoutSweep_due hr hdue
  refine yields_after (exec_timeoutSweep s) ?_
  rw [hsweep, hpass]
  simp only [settle_mil, settle_evs, settle_lnd, settle_regs, raise_mil, raise_clk, raise_lnd, raise_regs]
  exact ⟨by rw [hclk, hclk₁], by rw [hexpired, hexp₁],
    ⟨e.evs, raise_evs_congr (hclk.trans hclk₁) (hregs.trans hregs₁) (millOn_of_millRuns hr)⟩,
    hlnd.trans hlnd₁, hregs.trans hregs₁⟩

theorem timeoutSweep_finds_error (s : State) (src t r : Nat) (hr : millRuns s.dev = true)
    (hdue : usCycles (max 1 (fld s.dev 0x600010 0 14)) ≤ s.dev.clk.tclk - s.dev.mil.sweepAt) (hdl : s.dev.mil.deadline = [(src, t)])
    (hrec : srcRec s.dev src = some r) (hcnt : src < fld s.dev 0x600014 0 17) (hoos : s.dev.mil.oos.contains src = false)
    (herr : s.dev.mil.srcErr = [src]) :
    Yields .timeoutSweep s (fun d => d.mil.sweepAt = s.dev.clk.tclk ∧ d.mil.oos = s.dev.mil.oos ++ [src] ∧
      d.mil.expired = s.dev.mil.expired ∧ d.evs = s.dev.evs ++ [evNow s.dev 0x0B08 0 (e1 0 ++ e2 src)] ∧ d.regs = s.dev.regs) := by
  have hfound := errorsFound_single herr hcnt hoos hrec
  have hout : (errorsFound s.dev).mil.oos.contains src = true := by simp [hfound]
  have hpass : sweepPass s.dev = errorsFound s.dev := by
    rw [sweepPass_single hdl hrec, hout]
    simp
  obtain ⟨late, hsweep⟩ := timeoutSweep_due hr hdue
  refine yields_after (exec_timeoutSweep s) ?_
  rw [hsweep, hpass, hfound]
  simp only [settle_mil, settle_evs, settle_regs, raise_mil, raise_clk, raise_regs]
  refine ⟨trivial, trivial, trivial, ?_, trivial⟩
  refine raise_evs_congr ?_ ?_ (millOn_of_millRuns hr) <;> rfl

/-! ## The emission tick (R318, R319) -/

theorem dstOf_modDst_same (d : Dev) (p : Nat) (f : DestSt → DestSt) : dstOf (modDst d p f) p = f (dstOf d p) := by
  simp [dstOf, modDst, mapMod, mapGet, mapGet?_mapPut]

theorem dstOf_modDst_ne (d : Dev) {p q : Nat} (h : q ≠ p) (f : DestSt → DestSt) : dstOf (modDst d p f) q = dstOf d q := by
  simp [dstOf, modDst, mapMod, mapGet, mapGet?_mapPut, Ne.symm h]

theorem dstOf_settle (d : Dev) (p : Nat) : dstOf (settle d) p = dstOf d p := by rw [dstOf, dstOf, settle_mil]

/-- R319: the emission of a destination PDU falls due at tick `n`, and takes the trigger that waits with it. -/
def fallenDue (d : Dev) (n p : Nat) : Dev :=
  let e := bumpBy (modDst d p (fun s => { s with last := some n, trig := none })) 0x600158 0 0
  { e with mil := { e.mil with due := e.mil.due ++ [p] } }

theorem dstOf_fallenDue_same (d : Dev) (n p : Nat) :
    dstOf (fallenDue d n p) p = { dstOf d p with last := some n, trig := none } :=
  dstOf_modDst_same d p (fun s => { s with last := some n, trig := none })

theorem dstOf_fallenDue_ne (d : Dev) (n : Nat) {p q : Nat} (h : q ≠ p) : dstOf (fallenDue d n p) q = dstOf d q :=
  dstOf_modDst_ne d h (fun s => { s with last := some n, trig := none })

/-- R319: a destination PDU in service that has started falls due where a period alone ends. -/
theorem tickOne_periodic {d : Dev} {n p r : Nat} (hstart : (dstOf d p).start.isSome = true) (hoos : (dstOf d p).oos = false)
    (hnot : d.mil.due.contains p = false) (hdue : dueAt r (dstOf d p) n = (true, false, false)) :
    tickOne d n p r = fallenDue d n p := by
  have hstarted : (if (dstOf d p).start.isNone && pduMayStart d n r then { dstOf d p with start := some n } else dstOf d p) =
      dstOf d p := if_neg (by simp [Option.isNone_eq_false_iff.mpr hstart])
  have hnew : ∀ f, (modDst d p f).mil.due.contains p = false := fun _ => hnot
  unfold tickOne
  dsimp only
  rw [hstarted, hdue, hoos, hnew]
  rfl

/-- R319: a tick that the Mill does not run, or that has not come, changes nothing. -/
theorem emissionTick_idle {d : Dev} (h : millRuns d = false ∨ milTicks d < d.mil.ticks + 1) : emissionTick d = d := by
  unfold emissionTick
  obtain h | h := h <;> simp [h]

/-- R319: the tick of one destination PDU. -/
theorem emissionTick_single {d : Dev} {p r : Nat} (hr : millRuns d = true) (hcome : d.mil.ticks + 1 ≤ milTicks d)
    (hdesc : d.mil.desc = [(p, r)]) :
    emissionTick d = tickOne { d with mil := { d.mil with ticks := d.mil.ticks + 1 } } (d.mil.ticks + 1) p r := by
  unfold emissionTick
  dsimp only
  rw [if_neg (by rw [hr, decide_eq_false (Nat.not_lt.mpr hcome)]; exact Bool.false_ne_true), hdesc, List.foldl_cons, List.foldl_nil]

theorem exec_emissionTick (s : State) : exec .emissionTick s = .next (after s (emissionTick s.dev)) := exec_of_act rfl rfl

theorem emissionTick_makes_due (s : State) (p r : Nat) (hr : millRuns s.dev = true) (hcome : s.dev.mil.ticks + 1 ≤ milTicks s.dev)
    (hdesc : s.dev.mil.desc = [(p, r)]) (hstart : (dstOf s.dev p).start.isSome = true) (hoos : (dstOf s.dev p).oos = false)
    (hnot : s.dev.mil.due.contains p = false) (hdue : dueAt r (dstOf s.dev p) (s.dev.mil.ticks + 1) = (true, false, false)) :
    Yields .emissionTick s (fun d => d.mil.ticks = s.dev.mil.ticks + 1 ∧ d.mil.due = s.dev.mil.due ++ [p] ∧
      (dstOf d p).last = some (s.dev.mil.ticks + 1) ∧ (dstOf d p).trig = none ∧
      (∀ q, q ≠ p → dstOf d q = dstOf s.dev q) ∧ d.mil.image = s.dev.mil.image ∧ d.evs = s.dev.evs) := by
  have htick := (emissionTick_single hr hcome hdesc).trans (tickOne_periodic hstart hoos hnot hdue)
  refine yields_after (exec_emissionTick s) ?_
  rw [htick, settle_mil, settle_evs, dstOf_settle, dstOf_fallenDue_same]
  refine ⟨rfl, rfl, rfl, rfl, fun q hq => ?_, rfl, rfl⟩
  rw [dstOf_settle, dstOf_fallenDue_ne _ _ hq]
  rfl

/-! ## The snapshot (R320, R327, R400) -/

/-- R319: the emission that the emitter of a destination PDU takes next: the oldest that is due. -/
def nextEmission (d : Dev) (r : Nat) : Option Nat :=
  d.mil.due.find? (fun q => match mapGet? d.mil.desc q with | some t => emitterOf d t == emitterOf d r | none => false)

/-- R320: an emission is no longer due. -/
def emissionTaken (d : Dev) (p : Nat) : Dev := { d with mil := { d.mil with due := d.mil.due.filter (fun q => q != p) } }

/-- R400: a snapshot is counted, and commits under the Mill's next egress commit sequence. -/
def snapshotCommitted (d : Dev) : Dev := commitOut (stepEcs (bumpM d 10) 10) 10 (nextEcs d 10)

@[simp] theorem snapshotCommitted_mil (d : Dev) : (snapshotCommitted d).mil = d.mil := by
  simp [snapshotCommitted, commitOut, stepEcs, modTwin, bumpM]
@[simp] theorem snapshotCommitted_evs (d : Dev) : (snapshotCommitted d).evs = d.evs := by
  simp [snapshotCommitted, commitOut, stepEcs, modTwin, bumpM]
@[simp] theorem snapshotCommitted_rte (d : Dev) : (snapshotCommitted d).rte = d.rte := by
  simp [snapshotCommitted, commitOut, stepEcs, modTwin, bumpM]
@[simp] theorem snapshotCommitted_lnd (d : Dev) : (snapshotCommitted d).lnd = d.lnd := by
  simp [snapshotCommitted, commitOut, stepEcs, modTwin, bumpM]

theorem nextEcs_snapshotCommitted (d : Dev) : nextEcs (snapshotCommitted d) 10 = (nextEcs d 10 + 1) % 2 ^ 32 := by
  simp [snapshotCommitted, commitOut, nextEcs, stepEcs, bumpM, twinOf, modTwin, mapMod, mapGet, mapGet?_mapPut]

/-- R273, R320: a frame leaves the Mill for its lookup under the commit of a snapshot. -/
def emissionSent (d : Dev) (it : LookItem) : Dev := toLookup (cellsIn (snapshotCommitted d) 9 it.pkt.size) 9 it

@[simp] theorem emissionSent_mil (d : Dev) (it : LookItem) : (emissionSent d it).mil = d.mil := by
  simp [emissionSent, toLookup, cellsIn]
@[simp] theorem emissionSent_evs (d : Dev) (it : LookItem) : (emissionSent d it).evs = d.evs := by
  simp [emissionSent, toLookup, cellsIn]

theorem lookup_emissionSent (d : Dev) (it : LookItem) :
    mapGet [] (emissionSent d it).rte.lookup 9 = mapGet [] d.rte.lookup 9 ++ [it] := by
  simp [emissionSent, toLookup, cellsIn, mapGet, mapGet?_mapPut]

theorem nextEcs_congr {a b : Dev} (h : a.flt.twins = b.flt.twins) (t : Nat) : nextEcs a t = nextEcs b t := by
  rw [nextEcs, nextEcs, twinOf, twinOf, h]

theorem nextEcs_settle (d : Dev) (t : Nat) : nextEcs (settle d) t = nextEcs d t := nextEcs_congr (by rw [settle_flt]) t

theorem nextEcs_noteClass (d : Dev) (cls t : Nat) : nextEcs (noteClass d cls) t = nextEcs d t := nextEcs_congr rfl t

theorem nextEcs_emissionTaken (d : Dev) (p t : Nat) : nextEcs (emissionTaken d p) t = nextEcs d t := nextEcs_congr rfl t

theorem nextEcs_emissionSent (d : Dev) (it : LookItem) (t : Nat) : nextEcs (emissionSent d it) t = nextEcs (snapshotCommitted d) t :=
  nextEcs_congr (by simp [emissionSent, toLookup, cellsIn]) t

/-- R321, R247: no snapshot is taken while the Mill does not run, or while the arrival reserve of MIL is full. -/
theorem emissionSnapshot_waits {d : Dev} (h : millRuns d = false ∨ arrivalFull d 9 = true) (p : Nat) (crc : Bool) :
    emissionSnapshot d p crc = d := by
  unfold emissionSnapshot
  split
  · rfl
  · exact if_pos (by obtain h | h := h <;> simp [h])

/-- R320: the oldest due emission of its emitter is taken. -/
theorem emissionSnapshot_takes {d : Dev} {p r : Nat} (hr : millRuns d = true) (hdesc : mapGet? d.mil.desc p = some r)
    (hnext : nextEmission d r = some p) (hoos : (dstOf d p).oos = false) (hroom : arrivalFull d 9 = false) (crc : Bool) :
    emissionSnapshot d p crc = snapshot (emissionTaken d p) p r crc := by
  have hready : ¬ (!millRuns d || decide (nextEmission d r ≠ some p) || arrivalFull d 9) = true := by simp [hr, hnext, hroom]
  unfold emissionSnapshot
  rw [hdesc]
  exact (if_neg hready).trans (if_neg (ne_true_of_eq_false hoos))

theorem exec_emissionSnapshot (s : State) (p : Nat) (crc : Bool) :
    exec (.emissionSnapshot ⟨p, crc⟩) s = .next (after s (emissionSnapshot s.dev p crc)) :=
  exec_of_act (f := fun d => emissionSnapshot d p crc) rfl rfl

/-- R316, R320: the frame that leaves the Mill, with the image of its PDU as it stands, and the route entry that it names. -/
def emissionFrame (d : Dev) (p r : Nat) : LookItem :=
  let img := mapGet [] d.mil.image p
  { pkt := { kind := 4, can := emitHeader r img, data := img, size := img.length, ingress := 0x90 + dsSlice r, input := 9,
             stamp := nowNs d, unsync := !synced d, form4 := dsForm r == 4 }
    named := some (dsRoute r), eth := false, ptype := 0 }

/-- R320: a snapshot that no CRC-16 stops sends the image of its PDU; Layer 4 checksums are made good in form 4 alone. -/
theorem snapshot_sends (d : Dev) (p : Nat) {r : Nat} (hform : dsForm r = 4 → dsL4 r = false) :
    snapshot d p r false = emissionSent d (emissionFrame d p r) := by
  have hplain : ¬ (dsForm r = 4 && dsL4 r) = true := by
    rw [Bool.and_eq_true, decide_eq_true_eq]
    exact fun ⟨h4, hl4⟩ => Bool.false_ne_true ((hform h4).symm.trans hl4)
  unfold snapshot
  dsimp only
  rw [if_neg hplain, Bool.and_false, if_neg Bool.false_ne_true]
  rfl

/-- R327: while split, a snapshot whose CRC-16 fails has committed, and is dropped. -/
theorem snapshot_drops {d : Dev} (hsplit : d.mil.split = true) (p r : Nat) :
    snapshot d p r true = noteClass (milDropIf (snapshotCommitted d) (toHost (snapshotCommitted d) (dsRoute r)) p 15) 1 :=
  if_pos (by rw [Bool.and_true]; exact hsplit)

theorem emissionSnapshot_sends (s : State) (p r : Nat) (hr : millRuns s.dev = true) (hdesc : mapGet? s.dev.mil.desc p = some r)
    (hnext : nextEmission s.dev r = some p) (hoos : (dstOf s.dev p).oos = false) (hform : dsForm r = 4 → dsL4 r = false)
    (hroom : arrivalFull s.dev 9 = false) :
    Yields (.emissionSnapshot ⟨p, false⟩) s (fun d => d.mil.due = s.dev.mil.due.filter (fun q => q != p) ∧
      nextEcs d 10 = (nextEcs s.dev 10 + 1) % 2 ^ 32 ∧ d.mil.image = s.dev.mil.image ∧ d.evs = s.dev.evs ∧
      (∃ it : LookItem, mapGet [] d.rte.lookup 9 = mapGet [] s.dev.rte.lookup 9 ++ [it] ∧ it.named = some (dsRoute r) ∧
        it.pkt.data = mapGet [] s.dev.mil.image p ∧ it.pkt.ingress = 0x90 + dsSlice r ∧ it.pkt.stamp = nowNs s.dev)) := by
  refine yields_after (exec_emissionSnapshot s p false) ?_
  rw [emissionSnapshot_takes hr hdesc hnext hoos hroom, snapshot_sends (emissionTaken s.dev p) p hform, nextEcs_settle, settle_mil,
    settle_evs, settle_rte, emissionSent_mil, emissionSent_evs, nextEcs_emissionSent, nextEcs_snapshotCommitted, nextEcs_emissionTaken]
  exact ⟨rfl, rfl, rfl, rfl, emissionFrame (emissionTaken s.dev p) p r, lookup_emissionSent .., rfl, rfl, rfl, rfl⟩

theorem emissionSnapshot_drops (s : State) (p r : Nat) (hr : millRuns s.dev = true) (hsplit : s.dev.mil.split = true)
    (hdesc : mapGet? s.dev.mil.desc p = some r) (hnext : nextEmission s.dev r = some p) (hoos : (dstOf s.dev p).oos = false)
    (hroom : arrivalFull s.dev 9 = false) :
    Yields (.emissionSnapshot ⟨p, true⟩) s (fun d => d.mil.due = s.dev.mil.due.filter (fun q => q != p) ∧
      nextEcs d 10 = (nextEcs s.dev 10 + 1) % 2 ^ 32 ∧ d.rte = s.dev.rte ∧ d.lnd = s.dev.lnd) := by
  let d := snapshotCommitted (emissionTaken s.dev p)
  have hdrop := snapshot_drops (d := emissionTaken s.dev p) hsplit p r
  obtain ⟨-, -, -, -, hlnd, hrte, hflt, -, -, hdue⟩ := millView_eq_iff.mp (millView_milDropIf d (toHost d (dsRoute r)) p 15)
  refine yields_after (exec_emissionSnapshot s p true) ?_
  rw [emissionSnapshot_takes hr hdesc hnext hoos hroom, hdrop, nextEcs_settle, settle_mil, settle_rte, settle_lnd, noteClass_mil,
    noteClass_rte, noteClass_lnd, hdue, hrte, hlnd, snapshotCommitted_mil, snapshotCommitted_rte, snapshotCommitted_lnd]
  refine ⟨rfl, ?_, rfl, rfl⟩
  rw [nextEcs_noteClass, nextEcs_congr (congrArg Flt.twins hflt), nextEcs_snapshotCommitted, nextEcs_emissionTaken]

/-- Settles O37: a sweep by the view that its episodes keep, where a DEADLINE has passed in the model's reading modulo 2^32 (log entry
158); a tick by what falls due for the one descriptor; a snapshot by the commit of the emission taken and what follows it. -/
theorem millDeadlinesAndEmissions : Obligations.MillDeadlinesAndEmissions := by
  unfold Obligations.MillDeadlinesAndEmissions
  refine ⟨fun s hearly => ?_, timeoutSweep_starts_episode, timeoutSweep_finds_error, fun s hearly => ?_, emissionTick_makes_due,
    emissionSnapshot_sends, emissionSnapshot_drops, fun s p crc hfull => ?_, fun s p crc hhold => ⟨?_, ?_, ?_⟩⟩
  · rw [exec_timeoutSweep, timeoutSweep_idle (.inr hearly)]
  · rw [exec_emissionTick, emissionTick_idle (.inr hearly)]
  · rw [exec_emissionSnapshot, emissionSnapshot_waits (.inr hfull)]
  · rw [exec_timeoutSweep, timeoutSweep_idle (.inl (millRuns_hold hhold))]
  · rw [exec_emissionTick, emissionTick_idle (.inl (millRuns_hold hhold))]
  · rw [exec_emissionSnapshot, emissionSnapshot_waits (.inl (millRuns_hold hhold))]

end Sys2Proof.Machine
end

section
/-! SUPPORT. What every step keeps (chapters 14, 16 and 95): the lines that follow after every command, the queue, one event and the
read of what was written. -/

namespace Sys2Proof.Machine

/-! ## The lines (R111, R415, R464) -/

theorem pinOff_congr {a b : Dev} (h : a.img = b.img) (n : Nat) : pinOff a n = pinOff b n := by simp [pinOff, pinRecOf, h]
theorem pinInv_congr {a b : Dev} (h : a.img = b.img) (n : Nat) : pinInv a n = pinInv b n := by simp [pinInv, pinRecOf, h]

theorem irqLow_settle (d : Dev) : irqLow (settle d) = irqLow d :=
  irqLow_congr (settle_clk d) (settle_fifos d) (settle_regs d) (settle_img d)

theorem hspiLow_settle (d : Dev) : hspiLow (settle d) = hspiLow d :=
  hspiLow_congr (settle_clk d) (settle_fifos d) (settle_regs d) (settle_img d)

theorem faultHigh_settle (d : Dev) : faultHigh (settle d) = faultHigh d := by simp [faultHigh]

/-- The lines of IRQ_N and HSPI_IRQ_N are the last drains of `settle`. -/
theorem drainFollows_settle_irq (d : Dev) : DrainFollows (settle d) 0 (irqLow d) := by
  rw [DrainFollows, settle, fault_other _ 0 (by decide), drain_other 1 0 _ _ (by decide)]
  exact drain_self ..

theorem drainFollows_settle_hspi (d : Dev) : DrainFollows (settle d) 1 (hspiLow d) := by
  rw [DrainFollows, settle, fault_other _ 1 (by decide)]
  exact drain_self ..

/-- R64, R415: FAULT_N shows its ball's level where the pin section is in force and assigns it. -/
theorem lineOf_faultLine {d : Dev} (hon : d.clk.pinsOn = true) (hoff : pinOff d 2 = false) :
    lineOf (faultLine d).out 2 = some (faultBall d) := by
  by_cases h : lineOf d.out 2 = some (faultBall d)
  · simp [faultLine, hon, hoff, h]
  · simp [faultLine, hon, hoff, h, lineOf_emit]

theorem lineOf_settle_fault {d : Dev} (hon : d.clk.pinsOn = true) (hoff : pinOff d 2 = false) :
    lineOf (settle d).out 2 = some (faultHigh d != pinInv d 2) := by
  have himg : (drainLine 1 (hspiLow d) (drainLine 0 (irqLow d) d)).img = d.img := by rw [drainLine_img, drainLine_img]
  rw [settle, lineOf_faultLine (by rw [drainLine_clk, drainLine_clk]; exact hon) (by rw [pinOff_congr himg]; exact hoff), faultBall,
    pinInv_congr himg, faultHigh, drainLine_flt, drainLine_flt]
  rfl

/-- Whatever the device is, its lines follow once it has settled. -/
theorem linesFollow_settle (d : Dev) : LinesFollow (settle d) := by
  refine ⟨?_, ?_, fun hon hoff => ?_⟩
  · rw [irqLow_settle]; exact drainFollows_settle_irq d
  · rw [hspiLow_settle]; exact drainFollows_settle_hspi d
  · rw [settle_clk] at hon
    rw [pinOff_congr (settle_img d)] at hoff
    rw [faultHigh_settle, pinInv_congr (settle_img d)]
    exact lineOf_settle_fault hon hoff

/-! ## What the lines depend on -/

/-- A device with other outputs. -/
def withOut (d : Dev) (o : List Output) : Dev := { d with out := o }

theorem drainLine_eq (n : Nat) (low : Bool) (d : Dev) : drainLine n low d = withOut d (drainLine n low d).out := by
  unfold drainLine
  split <;> rfl

theorem faultLine_eq (d : Dev) : faultLine d = withOut d (faultLine d).out := by
  unfold faultLine
  split <;> rfl

/-- The lines that follow change the outputs alone. -/
theorem settle_eq (d : Dev) : settle d = withOut d (settle d).out := by
  rw [settle, faultLine_eq, drainLine_eq, drainLine_eq 0]
  rfl

theorem drainLine_out (n : Nat) (low : Bool) (d : Dev) : (drainLine n low d).out =
    if low != (lineOf d.out n == some false) then .line n (!low) :: d.out else d.out := by
  rw [drainLine, apply_ite Dev.out, emit_out]

theorem faultLine_out (d : Dev) : (faultLine d).out =
    if d.clk.pinsOn && !pinOff d 2 && lineOf d.out 2 != some (faultBall d) then .line 2 (faultBall d) :: d.out else d.out := by
  rw [faultLine, apply_ite Dev.out, emit_out]

theorem faultLine_out_congr {a b : Dev} (hclk : a.clk = b.clk) (himg : a.img = b.img) (hflt : a.flt = b.flt) (hout : a.out = b.out) :
    (faultLine a).out = (faultLine b).out := by
  rw [faultLine_out, faultLine_out, faultBall, faultBall, faultHigh, faultHigh, pinOff_congr himg, pinInv_congr himg, hclk, hflt, hout]

/-- What the lines that follow depend on. -/
theorem settle_out_congr {a b : Dev} (hclk : a.clk = b.clk) (hfifos : a.fifos = b.fifos) (hregs : a.regs = b.regs)
    (himg : a.img = b.img) (hflt : a.flt = b.flt) (hout : a.out = b.out) : (settle a).out = (settle b).out := by
  refine faultLine_out_congr (by simp [hclk]) (by simp [himg]) (by simp [hflt]) ?_
  rw [drainLine_out, drainLine_out, drainLine_out, drainLine_out, hout, irqLow_congr hclk hfifos hregs himg,
    hspiLow_congr hclk hfifos hregs himg]

theorem drainLine_idem {d : Dev} {n : Nat} {low : Bool} (h : (lineOf d.out n = some false) ↔ low = true) : drainLine n low d = d := by
  rw [drainLine, if_neg]
  cases low <;> simp_all

/-- Lines that follow stay as they are. -/
theorem settle_settle (d : Dev) : settle (settle d) = settle d := by
  obtain ⟨hirq, hhspi, hfault⟩ := linesFollow_settle d
  rw [settle, drainLine_idem hirq, drainLine_idem hhspi, faultLine, if_neg]
  simp only [Bool.and_eq_true, Bool.not_eq_true', bne_iff_ne, ne_eq, not_and, Decidable.not_not]
  exact fun ⟨hon, hoff⟩ => hfault hon hoff

/-! ## Commands and the queue -/

/-- Every step, with a command or without one, ends with the lines settled. -/
theorem step_settles (s : State) : ∃ d : Dev, step s = .next { dev := settle d, pending := s.pending.tail } := by
  obtain ⟨d, pending⟩ := s
  cases pending with
  | nil => exact ⟨idleTick d, rfl⟩
  | cons c rest =>
    obtain ⟨f, hf⟩ := exec_act c
    exact ⟨f d, hf _⟩

/-- Settles O4: every step ends with `settle`, and a settled device's lines follow. -/
theorem linesFollowAfterEveryStep : Obligations.LinesFollowAfterEveryStep := by
  intro s t hst
  obtain ⟨d, hd⟩ := step_settles s
  obtain rfl : _ = t := Host.Outcome.next.inj (hd.symm.trans hst)
  exact linesFollow_settle d

/-- Settles O2: a command is one effect on the device, in the model's choice that none faults or refuses (log entry 1). -/
theorem everyCommandCompletes : Obligations.EveryCommandCompletes := by
  intro c d
  obtain ⟨f, hf⟩ := exec_act c
  exact ⟨settle (f d), fun q => hf _⟩

/-- A step takes the front command, and what it leaves of the device does not depend on the commands behind it. -/
theorem step_front (c : Instr) (d : Dev) : ∃ e : Dev, ∀ q : List Instr, step { dev := d, pending := c :: q } =
    .next { dev := e, pending := q } := everyCommandCompletes c d

/-- A run of one step more begins with that step, whatever the machine is. -/
theorem run_succ_of_step {M : Host.Core} {s t : M.State} (h : M.step s = .next t) (k : Nat) : M.run (k + 1) s = M.run k t := by
  rw [Host.Core.run, h]

theorem core_run_succ {s t : State} (h : step s = .next t) (k : Nat) : Host.Core.run core (k + 1) s = Host.Core.run core k t :=
  run_succ_of_step (M := core) (s := s) (t := t) h k

/-- Settles O3, by induction on the commands that come first. -/
theorem queueRunsFirstInFirstOut : Obligations.QueueRunsFirstInFirstOut := by
  intro l m
  induction l with
  | nil => exact fun d => ⟨d, rfl, rfl⟩
  | cons c l ih =>
    intro d
    obtain ⟨e, he⟩ := step_front c d
    obtain ⟨d1, hl, hlm⟩ := ih e
    exact ⟨d1, (core_run_succ (he l) l.length).trans hl, (core_run_succ (he (l ++ m)) (l ++ m).length).trans hlm⟩

/-- Settles O1: the front command, or one cycle of the TIME clock (the model's choice, log entry 2). -/
theorem stepRunsFrontCommand : Obligations.StepRunsFrontCommand := ⟨fun _ _ _ => rfl, fun _ => rfl⟩

/-! ## Reset (R63, R65) -/

/-- A device that drives no line, with no FIFO entry and the pin section not in force, follows. -/
theorem linesFollow_of_silent {d : Dev} (hpins : d.clk.pinsOn = false) (hfifos : d.fifos = []) (h0 : lineOf d.out 0 = none)
    (h1 : lineOf d.out 1 = none) : LinesFollow d := by
  have hs : settle d = d := settle_of_reset hpins hfifos h0 h1
  rw [← hs]
  exact linesFollow_settle d

/-- Settles O5: PORST_N holds a device that has driven nothing and holds nothing. -/
theorem linesFollowAtReset : Obligations.LinesFollowAtReset :=
  ⟨linesFollow_of_silent rfl rfl rfl rfl, rfl, fun _ => rfl, rfl, rfl, rfl, rfl, fun _ => rfl⟩

/-! ## Flash and registers (R12, R496) -/

theorem flByte_flProg_in {d : Dev} (hs : mapSorted d.flash = true) (a : Nat) {bs : Bytes} {i : Nat} (hi : i < bs.length) :
    flByte (flProg d a bs) (a + i) = nth 0 bs i := by
  rw [flByte_flProg hs, if_pos (Nat.le_add_right a i), Nat.add_sub_cancel_left, nth, List.getElem?_eq_getElem hi]
  rfl

theorem flByte_flProg_out {d : Dev} (hs : mapSorted d.flash = true) {a k : Nat} {bs : Bytes} (hk : k < a ∨ a + bs.length ≤ k) :
    flByte (flProg d a bs) k = flByte d k := by
  rw [flByte_flProg hs]
  split
  · rw [List.getElem?_eq_none (by omega)]; rfl
  · rfl

/-- Settles O6: by the read-after-write laws of the flash and of the register file. -/
theorem flashAndRegistersReadBack : Obligations.FlashAndRegistersReadBack := by
  refine ⟨fun d a bs hw => ?_, fun d a n hw => ?_, fun _ off v hs => ?_⟩
  · have hs := (mapWf_iff.mp hw).1
    exact ⟨fun i hi => flByte_flProg_in hs a hi, fun k hk => flByte_flProg_out hs hk, flProg_wf hw a bs, rfl⟩
  · exact ⟨flByte_flErase d a n, flErase_wf hw a n, rfl⟩
  · exact ⟨regK_putK hs off v, fun o ho => regK_putK_ne hs ho v, putK_sorted hs off v, rfl⟩

/-! ## Events (R456, R458) -/

theorem raise_early {d : Dev} (h : d.clk.mode.num < 2) (code cls : Nat) (data : Bytes) :
    raise d code cls data = { d with aonEvs := d.aonEvs ++ [evNow d code cls data] } := by
  simp only [raise, raiseAt, Nat.not_le.mpr h, decide_false, Bool.false_eq_true, if_false]
  rfl

theorem raise_aonEvs {d : Dev} (h : 2 ≤ d.clk.mode.num) (code cls : Nat) (data : Bytes) :
    (raise d code cls data).aonEvs = d.aonEvs := by
  simp [raise, raiseAt, h]

/-- Settles O7: by the mode, as R458 has it. -/
theorem raiseStampsAnEvent : Obligations.RaiseStampsAnEvent := fun _ code cls data =>
  ⟨fun h => ⟨raise_evs h code cls data, raise_aonEvs h code cls data⟩, fun h => raise_early h code cls data, raise_out .., raise_flash ..,
    raise_fuses .., raise_regs .., raise_clk ..⟩

end Sys2Proof.Machine
end

section
/-! SUPPORT. The pages of the Crypto Block (chapter 12): what a page reads after a change, what a run of blocks leaves, and the
operations that a job is made of. -/

namespace Sys2Proof.Machine

/-! ## Pages -/

/-- A device with another state of the Crypto Block, on which no line depends. -/
def withCry (d : Dev) (c : Cry) : Dev := { d with cry := c }

theorem settle_withCry (d : Dev) (c : Cry) : settle (withCry d c) = withCry (settle d) c := by
  rw [settle_eq, settle_eq d, settle_out_congr (a := withCry d c) (b := d) rfl rfl rfl rfl rfl rfl]
  rfl

theorem pageOf_congr {a b : Dev} (h : a.cry.pages = b.cry.pages) (p : Nat) : pageOf a p = pageOf b p := by rw [pageOf, pageOf, h]

@[simp] theorem pageOf_settle (d : Dev) (p : Nat) : pageOf (settle d) p = pageOf d p := pageOf_congr (by rw [settle_cry]) p

/-- Page `p` is `g` and its sequencer serves it. -/
def withServed (d : Dev) (p : Nat) (g : Page) : Dev :=
  withCry d { d.cry with cur := mapPut d.cry.cur (sqOf d p) p, pages := mapPut d.cry.pages p g }

theorem pageOf_withServed_same (d : Dev) (p : Nat) (g : Page) : pageOf (withServed d p g) p = g := by
  simp [pageOf, withServed, withCry, mapGet, mapGet?_mapPut]

theorem pageOf_withServed_ne (d : Dev) {p q : Nat} (h : q ≠ p) (g : Page) : pageOf (withServed d p g) q = pageOf d q := by
  simp [pageOf, withServed, withCry, mapGet, mapGet?_mapPut, Ne.symm h]

theorem onlyPage_withServed (d : Dev) (p : Nat) (g : Page) : OnlyPage d p g (settle (withServed d p g)) :=
  ⟨by rw [pageOf_settle, pageOf_withServed_same], fun q hq => by rw [pageOf_settle, pageOf_withServed_ne d hq], settle_kvt _, settle_regs _,
    settle_lnd _, settle_evs _⟩

/-- Serving a page again leaves what serving it once leaves. -/
theorem withServed_withServed (d : Dev) (p : Nat) (g g' : Page) : withServed (settle (withServed d p g)) p g' =
    settle (withServed d p g') := by
  have hcry : (settle (withServed d p g)).cry = (withServed d p g).cry := settle_cry _
  have hsq : sqOf (settle (withServed d p g)) p = sqOf d p := by rw [settle_eq]; rfl
  rw [withServed, hsq, hcry]
  simp only [withServed, settle_withCry]
  simp only [withCry, mapPut_mapPut]

/-! ## The blocks of a job (R344) -/

/-- A page with another job in hand. -/
def withJob (g : Page) (x : Option Job) : Page := { g with job := x }

/-- A job with one block more done. -/
def counted (j : Job) : Job := { j with done := j.done + 1 }

/-- One block of a job: the operation's step, counted. -/
def blockRan (f : Page → Job → Page × Job) (x : Page × Job) : Page × Job := ((f x.1 x.2).1, counted (f x.1 x.2).2)

/-- The page after at most `n` blocks of its job. -/
def pageRan (f : Page → Job → Page × Job) (n : Nat) (g : Page) (j : Job) : Page :=
  withJob ((blockRan f)^[min n (jobSteps j - j.done)] (g, j)).1 (some ((blockRan f)^[min n (jobSteps j - j.done)] (g, j)).2)

/-- The page after the next block of its job. -/
def pageStep (f : Page → Job → Page × Job) (g : Page) (j : Job) : Page := withJob (f g j).1 (some (counted (f g j).2))

theorem pageRan_one (f : Page → Job → Page × Job) (g : Page) {j : Job} (h : j.done < jobSteps j) : pageRan f 1 g j = pageStep f g j := by
  rw [pageRan, Nat.min_eq_left (by omega)]
  rfl

/-- R344 to R346: a job in hand that nothing ends passes its block boundary. -/
theorem boundary_passes {d : Dev} {p : Nat} {j : Job} (hjob : (pageOf d p).job = some j) (hends : j.ends = none)
    (hdone : j.done < jobSteps j) (habort : (pageOf d p).aborts = 0) (hhold : (d.cry.hold && decide (p < 128)) = false)
    (hkey : jobKey d p j = 0) : boundary d p = d := by
  simp only [boundary, hjob, hends, Option.isSome_none, Bool.false_or, decide_eq_true_eq, Nat.not_le.mpr hdone, if_false, habort,
    Nat.lt_irrefl, hhold, hkey, Bool.false_eq_true, if_true]

/-- R344: at the last block of a job nothing is left to run. -/
theorem boundary_ended {d : Dev} {p : Nat} {j : Job} (hjob : (pageOf d p).job = some j) (hdone : jobSteps j ≤ j.done) :
    boundary d p = d := by
  simp only [boundary, hjob, hdone, decide_true, Bool.or_true, if_true]

/-- R30, R344: the sequencer of page `p` serves it. -/
def asked (d : Dev) (p : Nat) : Dev := withCry d { d.cry with cur := mapPut d.cry.cur (sqOf d p) p }

/-- R344: a page waits beside page `p` whatever `p` has become. -/
theorem othersReady_withServed {d : Dev} {p : Nat} (h : othersReady d p = false) (g : Page) : othersReady (withServed d p g) p = false := by
  simp only [othersReady, List.any_eq_false, readyPages, List.mem_filter, List.mem_map, Bool.and_eq_true, bne_iff_ne, ne_eq,
    Decidable.not_not] at h ⊢
  rintro q ⟨⟨e, he, rfl⟩, hsq, hready⟩
  by_contra hne
  have hpage : pageReady d e.1 = true := by rwa [pageReady, pageOf_withServed_ne d hne] at hready
  obtain rfl | he := mem_mapPut he
  · exact hne rfl
  · exact hne (h e.1 ⟨⟨e, he, rfl⟩, hsq, hpage⟩)

/-- R344: the sequencer that served a page serves it again. -/
theorem servesPage_withServed {d : Dev} {p : Nat} (h : servesPage d p = true) (hserved : d.cry.served.contains (sqOf d p) = false) (g : Page) :
    servesPage (withServed d p g) p = true := by
  have hcur : mapGet? (withServed d p g).cry.cur (sqOf (withServed d p g) p) = some p := by
    refine (mapGet?_mapPut d.cry.cur (sqOf d p) (sqOf d p) p).trans (if_pos rfl)
  have hser : (withServed d p g).cry.served.contains (sqOf (withServed d p g) p) = false := hserved
  simp only [servesPage, Bool.and_eq_true] at h ⊢
  refine ⟨h.1, ?_⟩
  rw [hcur]
  dsimp only
  rw [hser]
  simp

theorem JobRuns.served {d : Dev} {p : Nat} {j : Job} (h : JobRuns d p j) : servesPage d p = true := h.2.2.2.1
theorem JobRuns.alone {d : Dev} {p : Nat} {j : Job} (h : JobRuns d p j) : othersReady d p = false := h.2.2.2.2.1
theorem JobRuns.inHand {d : Dev} {p : Nat} {j : Job} (h : JobRuns d p j) : (pageOf d p).job = some j := h.2.2.2.2.2.1
theorem JobRuns.unended {d : Dev} {p : Nat} {j : Job} (h : JobRuns d p j) : j.ends = none := h.2.2.2.2.2.2.1
theorem JobRuns.undone {d : Dev} {p : Nat} {j : Job} (h : JobRuns d p j) : j.done < jobSteps j := h.2.2.2.2.2.2.2.1

/-- R344: a job in hand that runs takes its blocks, and its sequencer serves the page. -/
theorem runJob_runs {d : Dev} {p op : Nat} {j : Job} (h : JobRuns d p j) (hop : j.op = op) (n : Nat) (f : Page → Job → Page × Job) :
    runJob d p op n f = withServed d p (pageRan f n (pageOf d p) j) := by
  obtain ⟨hon, hp, hfz, hsv, hoth, hjob, hends, hdone, habort, hhold, hkey⟩ := h
  have hb : boundary { d with cry := { d.cry with cur := mapPut d.cry.cur (sqOf d p) p } } p = asked d p :=
    boundary_passes hjob hends hdone habort hhold hkey
  have hready : pageReady d p = true := by simp [pageReady, hjob]
  have hstart : ¬ mayStart d p = true := by simp [mayStart, hjob]
  have hjobs : (pageOf (asked d p) p).job = some j := hjob
  have halone : othersReady (asked d p) p = false := hoth
  unfold runJob
  rw [if_neg (by simp [hon, hfz, hsv]; omega), if_neg hstart, hjob, if_neg (by simp [hready, hop])]
  dsimp only
  rw [hb]
  simp only [hjobs]
  rw [if_neg (by simp [hends]; omega), halone]
  simp only [Bool.false_eq_true, if_false, List.foldl_const, List.length_range]
  have hrest := othersReady_withServed hoth (pageRan f n (pageOf d p) j)
  refine if_neg ?_
  rw [Bool.and_eq_true]
  exact fun hr => Bool.false_ne_true (hrest.symm.trans hr.1)

/-- R341: a job of another operation is not the command's. -/
theorem runJob_other {d : Dev} {p : Nat} {j : Job} (hjob : (pageOf d p).job = some j) {op : Nat} (h : j.op ≠ op) (n : Nat)
    (f : Page → Job → Page × Job) : runJob d p op n f = d := by
  unfold runJob
  rw [hjob]
  by_cases hc : (!cryOn d || decide (160 ≤ p) || frozen d (sqTwin (sqOf d p)) || !servesPage d p) = true
  · exact if_pos hc
  · rw [if_neg hc]
    exact if_pos (by simp [h])

/-- R344: after its last block a job takes no other, and its sequencer still serves the page. -/
theorem runJob_ended {d : Dev} {p : Nat} {j : Job} (hon : cryOn d = true) (hp : p < 160) (hfz : frozen d (sqTwin (sqOf d p)) = false)
    (hsv : servesPage d p = true) (hjob : (pageOf d p).job = some j) (hdone : jobSteps j ≤ j.done) (n : Nat)
    (f : Page → Job → Page × Job) : runJob d p j.op n f = asked d p := by
  have hb : boundary { d with cry := { d.cry with cur := mapPut d.cry.cur (sqOf d p) p } } p = asked d p :=
    boundary_ended (d := asked d p) hjob hdone
  have hjobs : (pageOf (asked d p) p).job = some j := hjob
  unfold runJob
  rw [if_neg (by simp [hon, hfz, hsv]; omega), hjob, if_neg (by simp [pageReady, hjob]), if_neg (by simp [mayStart, hjob])]
  dsimp only
  rw [hb]
  simp only [hjobs]
  rw [if_pos (by simp [hdone])]

/-- R344: a page that its sequencer serves already asks in vain. -/
theorem asked_withServed (d : Dev) (p : Nat) (g : Page) : asked (settle (withServed d p g)) p = settle (withServed d p g) := by
  have hcry : (settle (withServed d p g)).cry = (withServed d p g).cry := settle_cry _
  have hsq : sqOf (settle (withServed d p g)) p = sqOf d p := by rw [settle_eq]; rfl
  rw [asked, hsq, hcry]
  simp only [withServed, settle_withCry]
  simp only [withCry, mapPut_mapPut]

/-- R344: the run that finds the last block done changes nothing more. -/
theorem runJob_after_last {d : Dev} {p : Nat} {j k : Job} (h : JobRuns d p j)
    (hserved : d.cry.served.contains (sqOf d p) = false) {g : Page} (hjob : g.job = some k) (hdone : jobSteps k ≤ k.done) (n : Nat)
    (f : Page → Job → Page × Job) : runJob (settle (withServed d p g)) p k.op n f = settle (withServed d p g) := by
  have hsv := servesPage_withServed h.served hserved g
  obtain ⟨hon, hp, hfz, -⟩ := h
  have hjobs : (pageOf (settle (withServed d p g)) p).job = some k := by rw [pageOf_settle, pageOf_withServed_same, hjob]
  have heq := asked_withServed d p g
  rw [settle_eq] at hjobs heq ⊢
  refine Eq.trans (runJob_ended ?_ hp ?_ ?_ hjobs hdone n f) heq
  exacts [hon, hfz, hsv]

/-- A job whose last block is done takes no other. -/
theorem pageRan_done (f : Page → Job → Page × Job) {j : Job} (h : jobSteps j ≤ j.done) (n : Nat) (g : Page) :
    pageRan f n g j = withJob g (some j) := by
  rw [pageRan, Nat.sub_eq_zero_of_le h, Nat.min_zero]
  rfl

/-! ## Blocks one by one (R341, R344) -/

/-- A block operation: of the job it changes the counter block at most, and of the page neither what it keeps of its job nor its
pending aborts. -/
structure BlockStep (f : Page → Job → Page × Job) : Prop where
  blind : ∀ g j x, f (withJob g x) j = (withJob (f g j).1 x, (f g j).2)
  job : ∀ g j, ∃ c, (f g j).2 = { j with ctr := c }
  aborts : ∀ g j, (f g j).1.aborts = g.aborts

theorem inBlock_withJob (g : Page) (x : Option Job) (j : Job) : inBlock (withJob g x) j = inBlock g j := rfl

theorem putOut_withJob (g : Page) (x : Option Job) (off : Nat) (bs : Bytes) (hold : Bool) :
    putOut (withJob g x) off bs hold = withJob (putOut g off bs hold) x := rfl

/-- An operation that writes its block of output is a block operation. -/
theorem blockStep_putOut {f : Page → Job → Page × Job} {b : Bytes → Job → Bytes} {c : Job → Bytes} {hold : Job → Bool}
    (hf : ∀ g j, f g j = (putOut g (outAt j) (b (inBlock g j) j) (hold j), { j with ctr := c j })) : BlockStep f where
  blind g j x := by rw [hf, hf, inBlock_withJob, putOut_withJob]
  job g j := ⟨c j, by rw [hf]⟩
  aborts g j := by rw [hf]; rfl

theorem blockStep_enc : BlockStep encBlock :=
  blockStep_putOut (b := fun x j => aesEnc j.mat x) (c := Job.ctr) (hold := fun _ => false) fun _ _ => rfl
theorem blockStep_dec : BlockStep decBlock :=
  blockStep_putOut (b := fun x j => aesDec j.mat x) (c := Job.ctr) (hold := fun _ => false) fun _ _ => rfl
theorem blockStep_gmul : BlockStep gmulBlock :=
  blockStep_putOut (b := fun x j => gcmMul x j.iv) (c := Job.ctr) (hold := fun _ => false) fun _ _ => rfl
theorem blockStep_ctrx : BlockStep ctrxBlock :=
  blockStep_putOut (b := fun x j => xorBytes x (aesEnc j.mat j.ctr)) (c := fun j => inc32 j.ctr) (hold := Job.hold) fun _ _ => rfl

/-- An operation that folds its block into ACC is a block operation. -/
theorem blockStep_fold {f : Page → Job → Page × Job} {b : Page → Bytes → Job → Bytes} (hb : ∀ g x, b (withJob g x) = b g)
    (hf : ∀ g j, f g j = ({ g with acc := b g (inBlock g j) j }, j)) : BlockStep f where
  blind g j x := by rw [hf, hf, inBlock_withJob, hb]; rfl
  job g j := ⟨j.ctr, by rw [hf]⟩
  aborts g j := by rw [hf]

theorem blockStep_gacc : BlockStep gaccBlock :=
  blockStep_fold (b := fun g x _ => ghashStep g.h g.acc x) (fun _ _ => rfl) fun _ _ => rfl
theorem blockStep_macc : BlockStep maccBlock :=
  blockStep_fold (b := fun g x j => aesEnc j.mat (xorBytes (fit 16 g.acc) x)) (fun _ _ => rfl) fun _ _ => rfl

/-- A block command runs its blocks through one block operation. -/
theorem exec_block {p : Nat} {c : Nat → Instr}
    (h : c = Instr.enc p ∨ c = Instr.dec p ∨ c = Instr.gmul p ∨ c = Instr.ctrx p ∨ c = Instr.gacc p ∨ c = Instr.macc p) :
    ∃ op f, BlockStep f ∧ ∀ n s, exec (c n) s = act (fun d => runJob d p op n f) s := by
  rcases h with rfl | rfl | rfl | rfl | rfl | rfl
  · exact ⟨1, encBlock, blockStep_enc, fun _ _ => rfl⟩
  · exact ⟨2, decBlock, blockStep_dec, fun _ _ => rfl⟩
  · exact ⟨3, gmulBlock, blockStep_gmul, fun _ _ => rfl⟩
  · exact ⟨4, ctrxBlock, blockStep_ctrx, fun _ _ => rfl⟩
  · exact ⟨6, gaccBlock, blockStep_gacc, fun _ _ => rfl⟩
  · exact ⟨9, maccBlock, blockStep_macc, fun _ _ => rfl⟩

section Blocks
variable {f : Page → Job → Page × Job} (hf : BlockStep f) {d : Dev} {p : Nat} {j : Job}
include hf

/-- What a page keeps of its job plays no part in its blocks. -/
theorem iterate_blockRan_blind (n : Nat) (g : Page) (j : Job) (x : Option Job) : (blockRan f)^[n] (withJob g x, j) =
    (withJob ((blockRan f)^[n] (g, j)).1 x, ((blockRan f)^[n] (g, j)).2) := by
  induction n generalizing g j with
  | zero => rfl
  | succ n ih =>
    rw [Function.iterate_succ_apply, Function.iterate_succ_apply, blockRan, hf.blind]
    exact ih _ _

/-- R344: `n + 1` blocks are one block and then `n`. -/
theorem pageRan_succ (h : j.done < jobSteps j) (n : Nat) (g : Page) : pageRan f (n + 1) g j =
    pageRan f n (pageStep f g j) (counted (f g j).2) := by
  have hsteps : jobSteps (counted (f g j).2) - (counted (f g j).2).done = jobSteps j - j.done - 1 := by
    obtain ⟨c, hc⟩ := hf.job g j
    rw [hc, Nat.sub_sub]
    rfl
  have hmin : min (n + 1) (jobSteps j - j.done) = min n (jobSteps j - j.done - 1) + 1 := by omega
  rw [pageRan, pageRan, pageStep, iterate_blockRan_blind hf, hsteps, hmin, Function.iterate_succ_apply]
  rfl

/-- R344, R345: after a block with more to come the job in hand still runs. -/
theorem JobRuns.step (h : JobRuns d p j) (hserved : d.cry.served.contains (sqOf d p) = false) (hmore : j.done + 1 < jobSteps j) :
    JobRuns (settle (withServed d p (pageStep f (pageOf d p) j))) p (counted (f (pageOf d p) j).2) := by
  have hoth := othersReady_withServed h.alone (pageStep f (pageOf d p) j)
  have hsv := servesPage_withServed h.served hserved (pageStep f (pageOf d p) j)
  obtain ⟨hon, hp, hfz, -, -, hjob, hends, -, habort, hhold, hkey⟩ := h
  obtain ⟨c, hc⟩ := hf.job (pageOf d p) j
  have hpage := pageOf_withServed_same d p (pageStep f (pageOf d p) j)
  have hwas : (pageStep f (pageOf d p) j).aborts = 0 := (hf.aborts (pageOf d p) j).trans habort
  have hjobs : (pageStep f (pageOf d p) j).job = some (counted (f (pageOf d p) j).2) := rfl
  rw [← hpage] at hwas hjobs
  rw [hc, settle_eq] at *
  exact ⟨hon, hp, hfz, hsv, hoth, hjobs, hends, hmore, hwas, hhold, hkey⟩

/-- R344, R345: a run of `n + 1` blocks leaves what one block and then `n` leave. -/
theorem settle_runJob_succ (h : JobRuns d p j) (hserved : d.cry.served.contains (sqOf d p) = false) (n : Nat) :
    settle (runJob d p j.op (n + 1) f) = settle (runJob (settle (runJob d p j.op 1 f)) p j.op n f) := by
  obtain ⟨c, hc⟩ := hf.job (pageOf d p) j
  rw [runJob_runs h rfl, runJob_runs h rfl, pageRan_one f _ h.undone]
  by_cases hmore : j.done + 1 < jobSteps j
  · have hstep := JobRuns.step hf h hserved hmore
    have hop : (counted (f (pageOf d p) j).2).op = j.op := by rw [hc]; rfl
    rw [runJob_runs hstep hop, pageOf_settle, pageOf_withServed_same, withServed_withServed, settle_settle,
      pageRan_succ hf h.undone]
  · have hlast : jobSteps (counted (f (pageOf d p) j).2) ≤ (counted (f (pageOf d p) j).2).done := by
      rw [hc]
      exact Nat.le_of_not_lt hmore
    have hop : (counted (f (pageOf d p) j).2).op = j.op := by rw [hc]; rfl
    have hended := runJob_after_last h hserved (g := pageStep f (pageOf d p) j) rfl hlast n f
    rw [← hop, hended, settle_settle, pageRan_succ hf h.undone, pageRan_done f hlast n]
    rfl

end Blocks



/-! ## Settled: O41 -/

/-- R341: a job operation that runs leaves its page alone. -/
theorem yields_runJob {c : Instr} {s : State} {p n : Nat} {j : Job} {f : Page → Job → Page × Job} (h : JobRuns s.dev p j)
    (hc : exec c s = act (fun d => runJob d p j.op n f) s) :
    Yields c s (OnlyPage s.dev p (pageRan f n (pageOf s.dev p) j)) := by
  refine yields_act hc ?_
  rw [runJob_runs h rfl]
  exact onlyPage_withServed _ _ _

/-- R341: one block of a job. -/
theorem yields_block {c : Instr} {s : State} {p op : Nat} {j : Job} {f : Page → Job → Page × Job} (h : JobRuns s.dev p j)
    (hop : j.op = op) (hc : exec c s = act (fun d => runJob d p op 1 f) s) :
    Yields c s (OnlyPage s.dev p (pageStep f (pageOf s.dev p) j)) := by
  subst hop
  rw [← pageRan_one f _ h.undone]
  exact yields_runJob h hc

/-- Settles O41: a run of the command's operation is the page's blocks one by one, and a job of another operation, or one whose
blocks are done, is left as it is. -/
theorem blockOperationsRunOneBlockAtATime : Obligations.BlockOperationsRunOneBlockAtATime := by
  unfold Obligations.BlockOperationsRunOneBlockAtATime
  refine ⟨fun s p j h hop => yields_block (f := encBlock) h hop rfl, fun s p j h hop => yields_block (f := decBlock) h hop rfl,
    fun s p j h hop => yields_block (f := gmulBlock) h hop rfl, fun s p j h hop => yields_block (f := ctrxBlock) h hop rfl,
    fun s p j h hop => yields_block (f := gaccBlock) h hop rfl, fun s p j h hop => yields_block (f := maccBlock) h hop rfl, ?_⟩
  intro s t p n j c hc h hserved ht
  obtain ⟨op, f, hf, hexec⟩ := exec_block hc
  rw [hexec] at ht ⊢
  rw [hexec]
  obtain rfl : after s (runJob s.dev p op 1 f) = t := by injection ht
  have hrun : settle (runJob s.dev p op (n + 1) f) = settle (runJob (settle (runJob s.dev p op 1 f)) p op n f) := by
    by_cases hop : j.op = op
    · subst hop
      exact settle_runJob_succ hf h hserved n
    · have hjob := h.inHand
      have hjobs : (pageOf (settle s.dev) p).job = some j := by rw [pageOf_settle, hjob]
      rw [runJob_other hjob hop, runJob_other hjob hop, runJob_other hjobs hop, settle_settle]
  exact congrArg (fun d => Host.Outcome.next { s with dev := d }) hrun

/-! ## Operations in one step: O42 and O43 -/

/-- R341: a job of an operation without blocks has one step. -/
theorem done_of_oneStep {d : Dev} {p : Nat} {j : Job} (h : JobRuns d p j) (hop : opBlocks j.op = false) : j.done = 0 := by
  have hlt := h.undone
  rw [jobSteps, hop] at hlt
  exact Nat.lt_one_iff.mp hlt

/-- R341: the page of an operation in one step, its job done. -/
theorem yields_oneStep {c : Instr} {s : State} {p op : Nat} {j : Job} {f : Page → Job → Page × Job} (h : JobRuns s.dev p j)
    (hop : j.op = op) (hone : opBlocks op = false) (hc : exec c s = act (fun d => runJob d p op 1 f) s) {g : Page}
    (hg : j.done = 0 → pageStep f (pageOf s.dev p) j = g) : Yields c s (OnlyPage s.dev p g) := by
  rw [← hg (done_of_oneStep h (by rw [hop, hone]))]
  exact yields_block h hop hc

/-- R341, R343: without VERIFY the tag is given out. -/
theorem pageStep_tag_out {f : Page → Job → Page × Job} {g : Page} {j : Job} {t e : Bytes} (hf : f g j = tagStep g j t e)
    (hv : j.verify = false) (h0 : j.done = 0) :
    pageStep f g j = { putOut g j.outoff (t.take j.tlen) false with job := some { j with done := 1 } } := by
  simp [pageStep, hf, tagStep, hv, counted, h0, withJob]

/-- R341, R343: with VERIFY the tag is compared, and a difference ends the job. -/
theorem pageStep_tag_verify {f : Page → Job → Page × Job} {g : Page} {j : Job} {t e : Bytes} (hf : f g j = tagStep g j t e)
    (hv : j.verify = true) (hends : j.ends = none) (h0 : j.done = 0) :
    pageStep f g j = { g with job := some { j with done := 1, ends := if t.take j.tlen = e then none else some 1 } } := by
  rw [pageStep, hf]
  by_cases hte : t.take j.tlen = e <;> simp [tagStep, hv, counted, h0, withJob, hte, hends]

/-- R341: the tag of MFINAL, without VERIFY over the whole last block. -/
theorem mfinalStep_out {g : Page} {j : Job} (hv : j.verify = false) : mfinalStep g j = tagStep g j
    (aesEnc j.mat (xorBytes (fit 16 g.acc) (cmacLast g.k1 g.k2 (inBytes g j.inoff j.len)))) (inBytes g (j.inoff + j.len) j.tlen) := by
  simp [mfinalStep, hv]

/-- R341: with VERIFY the tag in the input area ends the last block. -/
theorem mfinalStep_verify {g : Page} {j : Job} (hv : j.verify = true) : mfinalStep g j = tagStep g j
    (aesEnc j.mat (xorBytes (fit 16 g.acc) (cmacLast g.k1 g.k2 (inBytes g j.inoff (j.len - j.tlen)))))
    (inBytes g (j.inoff + (j.len - j.tlen)) j.tlen) := by
  simp [mfinalStep, hv]

/-- A page without a held set has nothing to zero. -/
theorem zeroHeld_of_empty {g : Page} (h : g.held = []) : zeroHeld g = g := by
  obtain ⟨⟩ := g
  subst h
  simp [zeroHeld, mapDrop, isHeld]

theorem modPage_withServed (d : Dev) (p : Nat) (g : Page) (f : Page → Page) : modPage (withServed d p g) p f = withServed d p (f g) := by
  simp [modPage, withServed, withCry, mapMod, mapGet, mapGet?_mapPut, mapPut_mapPut]

theorem onlyPage_bump {old d : Dev} {p : Nat} {g : Page} (h : OnlyPage old p g (settle d)) (off i : Nat) :
    OnlyPage old p g (settle (bump d off i)) := by
  obtain ⟨hp, hq, hkvt, hregs, hlnd, hevs⟩ := h
  rw [pageOf_settle] at hp
  rw [settle_kvt] at hkvt
  rw [settle_regs] at hregs
  rw [settle_lnd] at hlnd
  rw [settle_evs] at hevs
  exact ⟨by rw [pageOf_settle]; exact hp, fun q h => by rw [pageOf_settle]; exact (pageOf_settle d q).symm.trans (hq q h), by rw [settle_kvt]; exact hkvt,
    by rw [settle_regs]; exact hregs, by rw [settle_lnd]; exact hlnd, by rw [settle_evs]; exact hevs⟩

/-- R347: HINIT and SUBKEY zero what their page holds back. -/
theorem yields_disc {c : Instr} {s : State} {p op : Nat} {j : Job} {f : Page → Job → Page × Job} (h : JobRuns s.dev p j)
    (hop : j.op = op) (hone : opBlocks op = false) (hc : exec c s = act (fun d => runDisc d p op f) s)
    (hheld : ∀ g, ((f g j).1).held = g.held) (hzero : ∀ g, zeroHeld (pageStep f g j) = pageStep f (zeroHeld g) j)
    (hjob : ∀ g, (f g j).2 = j) {g : Page} (hg : j.done = 0 → pageStep f (zeroHeld (pageOf s.dev p)) j = g) :
    Yields c s (OnlyPage s.dev p g) := by
  have h0 : j.done = 0 := done_of_oneStep h (by rw [hop, hone])
  have hrun : runJob s.dev p op 1 f = withServed s.dev p (pageStep f (pageOf s.dev p) j) := by
    rw [runJob_runs h hop, pageRan_one f _ h.undone]
  have hdisc : runDisc s.dev p op f = discHeld (withServed s.dev p (pageStep f (pageOf s.dev p) j)) p := by
    have hran : (pageStep f (pageOf s.dev p) j).job = some (counted j) := congrArg (fun k => some (counted k)) (hjob _)
    unfold runDisc
    dsimp only
    rw [hrun]
    exact if_pos (by simp [pageOf_withServed_same, hran, h.inHand, counted, h0])
  refine yields_act hc ?_
  rw [← hg h0, hdisc, discHeld, pageOf_withServed_same, modPage_withServed, hzero]
  by_cases hempty : (pageOf s.dev p).held = []
  · rw [if_pos (by simpa [pageStep, withJob, hheld] using hempty), zeroHeld_of_empty hempty]
    exact onlyPage_withServed _ _ _
  · rw [if_neg (by simpa [pageStep, withJob, hheld] using hempty)]
    exact onlyPage_bump (onlyPage_withServed _ _ _) _ _

/-- Settles O42: each operation is one step of its page's job, and its tag is given out or compared. -/
theorem subkeyAndTagOperations : Obligations.SubkeyAndTagOperations := by
  unfold Obligations.SubkeyAndTagOperations
  refine ⟨?_, ?_, ?_, ?_, ?_, ?_⟩
  · exact fun s p j h hop => yields_disc (f := hinitStep) h hop rfl rfl (fun _ => rfl) (fun _ => rfl) (fun _ => rfl)
      fun h0 => by simp only [pageStep, hinitStep, withJob, counted, h0]
  · exact fun s p j h hop => yields_disc (f := subkeyStep) h hop rfl rfl (fun _ => rfl) (fun _ => rfl) (fun _ => rfl)
      fun h0 => by simp only [pageStep, subkeyStep, cmacK1, cmacK2, withJob, counted, h0]
  · exact fun s p j h hop hv => yields_oneStep (f := gfinalStep) h hop rfl rfl (pageStep_tag_out rfl hv)
  · exact fun s p j h hop hv => yields_oneStep (f := gfinalStep) h hop rfl rfl (pageStep_tag_verify rfl hv h.unended)
  · exact fun s p j h hop hv => yields_oneStep (f := mfinalStep) h hop rfl rfl (pageStep_tag_out (mfinalStep_out hv) hv)
  · exact fun s p j h hop hv =>
      yields_oneStep (f := mfinalStep) h hop rfl rfl (pageStep_tag_verify (mfinalStep_verify hv) hv h.unended)

/-- R341: a whole mode whose programs are loaded is an operation in one step. -/
theorem yields_mode {c : Instr} {s : State} {p op : Nat} {j : Job} {f : Page → Job → Page × Job} (h : JobRuns s.dev p j)
    (hprogs : s.dev.cry.progs = true) (hop : j.op = op) (hone : opBlocks op = false) (hc : exec c s = act (fun d => runMode d p op f) s)
    {g : Page} (hg : j.done = 0 → pageStep f (pageOf s.dev p) j = g) : Yields c s (OnlyPage s.dev p g) := by
  refine yields_oneStep h hop hone ?_ hg
  rw [hc, act, act, runMode, if_pos hprogs]

/-- A mode that places text and tag. -/
theorem pageStep_modeOut {f : Page → Job → Page × Job} {g : Page} {j : Job} {text tag : Bytes} (hf : f g j = (modeOut g j text tag, j))
    (h0 : j.done = 0) : pageStep f g j = { modeOut g j text tag with job := some { j with done := 1 } } := by
  simp only [pageStep, hf, withJob, counted, h0]

/-- R343: a mode that compares a tag. -/
theorem pageStep_compare {f : Page → Job → Page × Job} {g : Page} {j : Job} {t e : Bytes}
    (hf : f g j = (g, if t == e then j else { j with ends := some 1 })) (hends : j.ends = none) (h0 : j.done = 0) :
    pageStep f g j = { g with job := some { j with done := 1, ends := if t = e then none else some 1 } } := by
  rw [pageStep, hf]
  by_cases hte : t = e <;> simp [counted, h0, withJob, hte, hends]

/-- R347: GCM_OPEN places its plaintext with its verdict only. -/
theorem pageStep_gcmOpen {g : Page} {j : Job} (h0 : j.done = 0) : pageStep gcmOpenStep g j =
    match gcmOpen j.mat (modePar g 22 0) (modePar g 22 1) (modePar g 22 2) (fit j.tlen (modePar g 22 3)) with
    | some t => { modeOut g j t [] with job := some { j with done := 1 } }
    | none => { g with job := some { j with done := 1, ends := some 1 } } := by
  unfold pageStep gcmOpenStep
  cases gcmOpen j.mat (modePar g 22 0) (modePar g 22 1) (modePar g 22 2) (fit j.tlen (modePar g 22 3)) with
  | none => simp only [withJob, counted, h0]
  | some t => simp only [withJob, counted, h0]

/-- R341: without the mode programs a whole mode does nothing. -/
theorem exec_mode_unloaded {s : State} {p : Nat} (h : s.dev.cry.progs = false) {c : Instr} {op : Nat} {f : Page → Job → Page × Job}
    (hc : exec c s = act (fun d => runMode d p op f) s) : exec c s = .next (after s s.dev) :=
  exec_of_act hc (by simp [runMode, h])

/-- Settles O43: each mode is one step of its page's job. -/
theorem wholeModesRunInOneStep : Obligations.WholeModesRunInOneStep := by
  unfold Obligations.WholeModesRunInOneStep
  refine ⟨?_, ?_, ?_, ?_, ?_, ?_, ?_, ?_⟩
  · exact fun s p j h hp hop => yields_mode (f := ctrStep) h hp hop rfl rfl (pageStep_modeOut rfl)
  · exact fun s p j h hp hop => yields_mode (f := cbcEncStep) h hp hop rfl rfl (pageStep_modeOut rfl)
  · exact fun s p j h hp hop => yields_mode (f := cbcDecStep) h hp hop rfl rfl (pageStep_modeOut rfl)
  · exact fun s p j h hp hop => yields_mode (f := cmacGenStep) h hp hop rfl rfl (pageStep_modeOut rfl)
  · exact fun s p j h hp hop => yields_mode (f := cmacVerStep) h hp hop rfl rfl fun h0 =>
      pageStep_compare rfl h.unended h0
  · exact fun s p j h hp hop => yields_mode (f := gcmSealStep) h hp hop rfl rfl (pageStep_modeOut rfl)
  · exact fun s p j h hp hop => yields_mode (f := gcmOpenStep) h hp hop rfl rfl fun h0 => pageStep_gcmOpen h0
  · rintro s p c h (rfl | rfl | rfl | rfl | rfl | rfl | rfl)
    · exact exec_mode_unloaded (op := 16) (f := ctrStep) h rfl
    · exact exec_mode_unloaded (op := 17) (f := cbcEncStep) h rfl
    · exact exec_mode_unloaded (op := 18) (f := cbcDecStep) h rfl
    · exact exec_mode_unloaded (op := 19) (f := cmacGenStep) h rfl
    · exact exec_mode_unloaded (op := 20) (f := cmacVerStep) h rfl
    · exact exec_mode_unloaded (op := 21) (f := gcmSealStep) h rfl
    · exact exec_mode_unloaded (op := 22) (f := gcmOpenStep) h rfl

end Sys2Proof.Machine
end

section
/-! SUPPORT. MSI-X messages and the event FIFOs (chapter 16): what a message leaves of the device, and one rule for each change of a
FIFO. -/

namespace Sys2Proof.Machine

/-! ## MSI-X (R463) -/

/-- A device with other endpoints and messages on its lines. -/
def withEps (d : Dev) (m : NMap Ep) (o : List Output) : Dev := { d with eps := m, out := o }

/-- R440, R463: a vector that is due changes its endpoint and sends a message at most. -/
theorem msixFire_shape (d : Dev) (e v : Nat) : ∃ m o, msixFire d e v = withEps d m o := by
  unfold msixFire
  dsimp only
  split
  · exact ⟨d.eps, d.out, rfl⟩
  · split
    · exact ⟨_, d.out, rfl⟩
    · exact ⟨_, _, rfl⟩

/-- R462: so does a FIFO's level. -/
theorem levelMsg_shape (d : Dev) (f : Nat) : ∃ m o, levelMsg d f = withEps d m o := by
  unfold levelMsg
  split
  · obtain ⟨m, o, h⟩ := msixFire_shape d 0 0
    obtain ⟨m', o', h'⟩ := msixFire_shape (msixFire d 0 0) 1 0
    exact ⟨m', o', by rw [h', h]; rfl⟩
  · split
    · exact msixFire_shape d _ _
    · exact ⟨d.eps, d.out, rfl⟩

/-! ## FIFOs (R458 to R460) -/

theorem fifoOf_congr {a b : Dev} (h : a.fifos = b.fifos) (f : Nat) : fifoOf a f = fifoOf b f := by rw [fifoOf, fifoOf, h]

@[simp] theorem fifoOf_settle (d : Dev) (f : Nat) : fifoOf (settle d) f = fifoOf d f := fifoOf_congr (settle_fifos d) f

theorem fifoOf_setFifo (d : Dev) (f : Nat) (q : Fifo) : fifoOf (setFifo d f q) f = q := by
  simp [fifoOf, setFifo, mapGet, mapGet?_mapPut]

theorem fifoOf_setFifo_ne (d : Dev) {f o : Nat} (h : o ≠ f) (q : Fifo) : fifoOf (setFifo d f q) o = fifoOf d o := by
  simp [fifoOf, setFifo, mapGet, mapGet?_mapPut, Ne.symm h]

/-- R459: nothing is written for a loss where none is pending. -/
theorem lossPut_none {d : Dev} {f : Nat} (h : (fifoOf d f).lossCount = 0) : lossPut d f = d := by
  rw [lossPut]
  exact if_pos (by simp [h])

/-- The stamp that an entry has: the last one, or a later one of its event. -/
theorem clampStamp (a b : Nat) : (if decide (a < b) = true then b else a) = max a b := by
  by_cases h : a < b
  · rw [if_pos (by simpa using h), Nat.max_eq_right (Nat.le_of_lt h)]
  · rw [if_neg (by simpa using h), Nat.max_eq_left (Nat.le_of_not_lt h)]

/-- R456, R458: an entry that is written stands at the end of its FIFO under the next number, and but for the FIFO and the message of
its level the device is as before. -/
theorem fifoPut_shape (d : Dev) (f code cls : Nat) (unsync : Bool) (stamp : Nat) (data : Bytes) (bad : Bool) :
    ∃ q m o, fifoPut d f code cls unsync stamp data bad = withEps (setFifo d f q) m o ∧
      q.entries = (fifoOf d f).entries ++ [EvEntry.mk code cls unsync (decide (stamp < (fifoOf d f).last)) (fifoOf d f).seq
        (max stamp (fifoOf d f).last) data bad] ∧ q.seq = ((fifoOf d f).seq + 1) % 2 ^ 32 ∧ q.rd = (fifoOf d f).rd := by
  rw [fifoPut]
  rw [clampStamp]
  split
  · obtain ⟨m, o, h⟩ := levelMsg_shape (setFifo d f _) f
    exact ⟨_, m, o, h, rfl, rfl, rfl⟩
  · exact ⟨_, d.eps, d.out, rfl, rfl, rfl, rfl⟩

/-- R459: an event that its FIFO has no room for begins a loss. -/
theorem eventTo_full {d : Dev} {f : Nat} (ev : Ev) (bad : Bool) (hloss : (fifoOf d f).lossCount = 0) (hfull : fifoRoom d f = false) :
    eventTo ev bad d f = setFifo (bump d (0x802040 + 0x100 * f) 0) f
      { fifoOf d f with lossCount := 1, lossCode := ev.code, lossStamp := ev.stamp } := by
  rw [eventTo, lossPut_none hloss, hfull]
  simp [hloss]

theorem eventTo_room {d : Dev} {f : Nat} (ev : Ev) (bad : Bool) (hloss : (fifoOf d f).lossCount = 0) (hroom : fifoRoom d f = true) :
    eventTo ev bad d f = fifoPut d f ev.code ev.cls ev.unsync ev.stamp ev.data bad := by
  rw [eventTo, lossPut_none hloss]
  exact if_pos hroom

/-- A device with another list of events that wait. -/
def withEvs (d : Dev) (l : List Ev) : Dev := { d with evs := l }

/-- R455, R458: the next event due goes to the FIFO that its map names. -/
theorem entryWrite_one {d : Dev} {f : Nat} {ev : Ev} (hrun : running d = true) (hev : nextEv d = some ev)
    (hmap : evqMap d ev.code = [f]) (bad : Bool) : entryWrite bad d = eventTo ev bad (withEvs d (d.evs.erase ev)) f := by
  rw [entryWrite, if_neg (by simp [hrun]), hev]
  dsimp only
  rw [hmap]
  rfl

/-- What an access to EVQ_CTL leaves: its own FIFO changed, every other one and the rest of the device as before. -/
theorem yields_fifo {c : Instr} {s : State} {f : Nat} {q : Fifo} {P : Fifo → Prop} (hc : exec c s = .next (after s (setFifo s.dev f q)))
    (hq : P q) : Yields c s (fun d => P (fifoOf d f) ∧ (∀ o, o ≠ f → fifoOf d o = fifoOf s.dev o) ∧
      d = settle { s.dev with fifos := d.fifos }) := by
  refine yields_after hc ⟨?_, fun o ho => ?_, ?_⟩
  · rw [fifoOf_settle, fifoOf_setFifo]
    exact hq
  · rw [fifoOf_settle, fifoOf_setFifo_ne _ ho]
  · rw [settle_fifos]
    rfl

/-- R460: an access to EVQ_CTL that meets no access error acts on its FIFO. -/
theorem exec_evq {s : State} {who : Initiator} {f : Nat} (hf : f < 8) (h : MayWrite s.dev who (0x802000 + 0x100 * f)) (cmd : Instr)
    (g : Dev → Dev) : access who cmd (fun d => evqWr d who f g) s = .next (after s (g s.dev)) := by
  rw [access_of h, act, evqWr, if_neg (Nat.not_le.mpr hf), regWr_of h]
  rfl

/-- R460: NEXT at the end of a FIFO. -/
theorem evqNext_end {d : Dev} {f : Nat} (h : ¬ (fifoOf d f).rd < (fifoOf d f).entries.length) : evqNext f d = d := if_neg h

theorem evqNext_entry {d : Dev} {f : Nat} (h : (fifoOf d f).rd < (fifoOf d f).entries.length) :
    evqNext f d = setFifo d f { fifoOf d f with rd := (fifoOf d f).rd + 1 } := if_pos h

/-! ## Settled: O53 -/

theorem yields_evqNext {s : State} {who : Initiator} {f : Nat} (hf : f < 8) (h : MayWrite s.dev who (0x802000 + 0x100 * f)) :
    Yields (.evqNext who f) s (fun d => fifoOf d f = { fifoOf s.dev f with
        rd := if (fifoOf s.dev f).rd < (fifoOf s.dev f).entries.length then (fifoOf s.dev f).rd + 1 else (fifoOf s.dev f).rd } ∧
      (∀ o, o ≠ f → fifoOf d o = fifoOf s.dev o) ∧ d = settle { s.dev with fifos := d.fifos }) := by
  have hexec : exec (.evqNext who f) s = .next (after s (evqNext f s.dev)) := exec_evq hf h _ _
  by_cases hrd : (fifoOf s.dev f).rd < (fifoOf s.dev f).entries.length
  · rw [evqNext_entry hrd] at hexec
    exact yields_fifo (P := fun q => q = _) hexec (by rw [if_pos hrd])
  · rw [evqNext_end hrd] at hexec
    refine yields_after hexec ⟨by rw [fifoOf_settle, if_neg hrd], fun o _ => fifoOf_settle _ o, ?_⟩
    rw [settle_fifos]

/-- Settles O53: an entry goes to the end of its FIFO, and each access to EVQ_CTL stores one FIFO. -/
theorem eventFifosAreWrittenAndRead : Obligations.EventFifosAreWrittenAndRead := by
  unfold Obligations.EventFifosAreWrittenAndRead
  refine ⟨?_, ?_, ?_, ?_, ?_⟩
  · intro s bad f ev hrun hev hmap hloss hroom
    obtain ⟨q, m, o, hput, hentries, hseq, hrd⟩ := fifoPut_shape (withEvs s.dev (s.dev.evs.erase ev)) f ev.code ev.cls ev.unsync ev.stamp
      ev.data bad
    have hexec : exec (.eventEntryWrite bad) s = .next (after s (withEps (setFifo (withEvs s.dev (s.dev.evs.erase ev)) f q) m o)) := by
      refine exec_of_act rfl ?_
      exact (entryWrite_one hrun hev hmap bad).trans ((eventTo_room (d := withEvs s.dev (s.dev.evs.erase ev)) ev bad hloss (decide_eq_true hroom)).trans hput)
    have hq : fifoOf (withEps (setFifo (withEvs s.dev (s.dev.evs.erase ev)) f q) m o) f = q := fifoOf_setFifo _ f q
    refine yields_after hexec ⟨by rw [settle_evs]; rfl, ?_, ?_, ?_, fun k hk => ?_, by rw [settle_lnd]; rfl, by rw [settle_regs]; rfl⟩
    · rw [fifoOf_settle, hq]
      exact hentries
    · rw [fifoOf_settle, hq]
      exact hseq
    · rw [fifoOf_settle, hq]
      exact hrd
    · rw [fifoOf_settle]
      exact fifoOf_setFifo_ne (withEvs s.dev (s.dev.evs.erase ev)) hk q
  · intro s bad f ev hrun hev hmap hloss hfull
    have hexec := exec_of_act (c := .eventEntryWrite bad) (s := s) rfl
      ((entryWrite_one hrun hev hmap bad).trans (eventTo_full (d := withEvs s.dev (s.dev.evs.erase ev)) ev bad hloss (decide_eq_false (Nat.not_le.mpr hfull))))
    refine yields_after hexec ⟨by rw [settle_evs]; rfl, ?_, fun k hk => ?_⟩
    · rw [fifoOf_settle, fifoOf_setFifo]
      rfl
    · rw [fifoOf_settle, fifoOf_setFifo_ne _ hk]
      rfl
  · exact fun s bad h => exec_of_act rfl (by simp [entryWrite, h])
  · intro s who f hf h
    exact ⟨yields_evqNext hf h, yields_fifo (P := fun q => q = _) (exec_evq hf h _ _) rfl,
      yields_fifo (P := fun q => q = _) (exec_evq hf h _ _) rfl⟩
  · intro s who f hf h hloss
    have hexec : exec (.evqRelease who f) s = _ := exec_evq hf h _ _
    rw [evqRelease, lossPut_none (by rw [fifoOf_setFifo]; exact hloss)] at hexec
    refine (yields_fifo (P := fun q => q.entries = (fifoOf s.dev f).entries.drop (fifoOf s.dev f).rd ∧ q.rd = 0 ∧ q.mark = 0 ∧
      q.seq = (fifoOf s.dev f).seq) hexec ⟨rfl, rfl, rfl, rfl⟩).mono ?_
    rintro d ⟨⟨hentries, hrd, hmark, hseq⟩, hothers, hrest⟩
    exact ⟨hentries, hrd, hmark, hseq, hothers, hrest⟩

end Sys2Proof.Machine
end

section
/-! SUPPORT. Session commands of the update service (chapter 18): who may give one, and how one completes. -/

namespace Sys2Proof.Machine

/-! ## A command completes (R526) -/

/-- The update service with another status. -/
def withStatus (d : Dev) (st : Nat) : Dev := modUpd d (fun u => { u with status := st })

/-- R526, R527: what a completed command leaves: its status, and but for the event it raises the device as it was. -/
theorem updDone_upd (d : Dev) (op st : Nat) : (updDone d op st).upd = { d.upd with status := st } := raise_upd ..
theorem updDone_flash (d : Dev) (op st : Nat) : (updDone d op st).flash = d.flash := raise_flash ..
theorem updDone_com (d : Dev) (op st : Nat) : (updDone d op st).com = d.com := raise_com ..
theorem updDone_regs (d : Dev) (op st : Nat) : (updDone d op st).regs = d.regs := raise_regs ..
theorem updDone_lnd (d : Dev) (op st : Nat) : (updDone d op st).lnd = d.lnd := raise_lnd ..

/-! ## Session commands (R510, R514) -/

/-- The commands of a session. -/
def sessAct (c : Instr) (who : Initiator) (res : FlashRes) : Prop :=
  c = .updOpen who ∨ c = .updOpenDelta who ∨ c = .updWrite who res ∨ c = .updVerify who ∨ c = .updArm who ∨ c = .updAbort who ∨
    c = .updReset who

/-- R444, R510: a session command that meets no access error is taken by the update service. -/
theorem exec_sessAct {s : State} {who : Initiator} {res : FlashRes} {c : Instr} (hc : sessAct c who res) (h : MayWrite s.dev who 0xB00000) :
    ∃ op f, exec c s = .next (after s (sessCmd op who f s.dev)) := by
  rcases hc with rfl | rfl | rfl | rfl | rfl | rfl | rfl
  · exact ⟨1, _, exec_of_act (access_regWr h _ _) rfl⟩
  · exact ⟨1, _, exec_of_act (access_regWr h _ _) rfl⟩
  · exact ⟨2, _, exec_of_act (access_regWr h _ _) rfl⟩
  · exact ⟨3, _, exec_of_act (access_regWr h _ _) rfl⟩
  · exact ⟨4, _, exec_of_act (access_regWr h _ _) rfl⟩
  · exact ⟨5, _, exec_of_act (access_regWr h _ _) rfl⟩
  · exact ⟨7, _, exec_of_act (access_regWr h _ _) rfl⟩

theorem exec_open {s : State} {who : Initiator} (h : MayWrite s.dev who 0xB00000) (delta : Bool) :
    exec (if delta then Instr.updOpenDelta who else Instr.updOpen who) s =
      .next (after s (sessCmd 1 who (fun d => updOpen d who delta) s.dev)) := by
  cases delta
  · exact exec_of_act (access_regWr h _ _) rfl
  · exact exec_of_act (access_regWr h _ _) rfl

/-- R34: nobody takes a command of a stopped service. -/
theorem sessCmd_stopped {d : Dev} (h : svcUp d 7 = false) (op : Nat) (who : Initiator) (f : Dev → Dev) : sessCmd op who f d = d :=
  if_pos (by simp [h])

/-- R510: a command of another initiator completes with STATUS 2. -/
theorem sessCmd_other {d : Dev} {who : Initiator} (hup : svcUp d 7 = true) (hmode : updMode d = false) (hother : updOther d who = true)
    (op : Nat) (f : Dev → Dev) : sessCmd op who f d = updDone d op 2 := by
  rw [sessCmd, hup, hmode, hother]
  rfl

/-- R510: the owner's command is served. -/
theorem sessCmd_own {d : Dev} {who : Initiator} (hup : svcUp d 7 = true) (hmode : updMode d = false) (hown : updOther d who = false)
    (op : Nat) (f : Dev → Dev) : sessCmd op who f d = f d := by
  rw [sessCmd, hup, hmode, hown]
  rfl

/-- R510: the JTAG TAP alone opens no session. -/
theorem ownerNum_ne_jtag {who : Initiator} (h : who ≠ .jtag) : (ownerNum who == 4) = false := by
  cases who with
  | jtag => exact absurd rfl h
  | _ => rfl

theorem updOther_closed {d : Dev} {who : Initiator} (hj : who ≠ .jtag) (h : d.upd.sess = 0) : updOther d who = false := by
  simp [updOther, ownerNum_ne_jtag hj, h]

theorem updOther_owner {d : Dev} {who : Initiator} (hj : who ≠ .jtag) (h : d.upd.owner = ownerNum who) : updOther d who = false := by
  simp [updOther, ownerNum_ne_jtag hj, h]

theorem updOther_stranger {d : Dev} {who : Initiator} (hs : d.upd.sess ≠ 0) (h : d.upd.owner ≠ ownerNum who) : updOther d who = true := by
  simp [updOther, hs, h]

/-! ## OPEN (R512) -/

/-- R512: the update service with a session just opened. -/
def opened (who : Initiator) (delta : Bool) (t : Nat) (u : Upd) : Upd :=
  { u with sess := 1, owner := ownerNum who, target := t, isDelta := delta, prog := [], erased := [], done := 0, staging := [] }

/-- R512, R513: OPEN where nothing turns it away. -/
theorem updOpen_opens {d : Dev} {delta : Bool} (hslot : slotState d.upd.brec d.upd.booted ≠ 3) (harmed : targetArmed d = false)
    (hsess : d.upd.sess = 0) (hstraps : delta = false → strapsFree d = true) (hlen : updLen d ≤ if delta then 262144 else 48 * 1048576)
    (who : Initiator) : updOpen d who delta = updDone (modUpd (if delta then d else
      brecWrite d (fun b => setSlotState b (targetSlot d) 1)) (opened who delta (targetSlot d))) 1 0 := by
  have hs : (!delta && !strapsFree d) = false := by
    cases delta with
    | false => simp [hstraps rfl]
    | true => rfl
  rw [updOpen, if_neg hslot, if_neg (by simp [harmed, hsess]), hs, if_neg Bool.false_ne_true, if_neg (Nat.not_lt.mpr hlen)]
  rfl

/-- R512: OPEN in an open session answers STATUS 3. -/
theorem updOpen_again {d : Dev} (hslot : slotState d.upd.brec d.upd.booted ≠ 3) (hsess : d.upd.sess ≠ 0) (who : Initiator)
    (delta : Bool) : updOpen d who delta = updDone d 1 3 := by
  rw [updOpen, if_neg hslot]
  exact if_pos (by simp [hsess])

/-- The flash is written without a register or a queue. -/
theorem flProg_regs (d : Dev) (a : Nat) (bs : Bytes) : (flProg d a bs).regs = d.regs := rfl
theorem flProg_lnd (d : Dev) (a : Nat) (bs : Bytes) : (flProg d a bs).lnd = d.lnd := rfl
theorem flErase_regs (d : Dev) (a n : Nat) : (flErase d a n).regs = d.regs := rfl
theorem flErase_lnd (d : Dev) (a n : Nat) : (flErase d a n).lnd = d.lnd := rfl

/-- R503: so is a new boot record. -/
theorem brecWrite_regs (d : Dev) (f : BootRec → BootRec) : (brecWrite d f).regs = d.regs := by
  simp only [brecWrite]
  rw [flProg_regs, flErase_regs]

theorem brecWrite_lnd (d : Dev) (f : BootRec → BootRec) : (brecWrite d f).lnd = d.lnd := by
  simp only [brecWrite]
  rw [flProg_lnd, flErase_lnd]

theorem modUpd_regs (d : Dev) (f : Upd → Upd) : (modUpd d f).regs = d.regs := rfl
theorem modUpd_lnd (d : Dev) (f : Upd → Upd) : (modUpd d f).lnd = d.lnd := rfl
theorem modUpd_upd (d : Dev) (f : Upd → Upd) : (modUpd d f).upd = f d.upd := rfl

/-! ## Settled: O59 -/

/-- Settles O59: the update service turns a stranger's command away, and its owner's second OPEN. -/
theorem updateSessionHasOneOwner : Obligations.UpdateSessionHasOneOwner := by
  unfold Obligations.UpdateSessionHasOneOwner
  refine ⟨?_, ?_, ?_, ?_⟩
  · rintro s who delta c rfl h hup hmode hj hsess hslot harmed hstraps hlen
    have hexec := exec_open h delta
    rw [sessCmd_own hup hmode (updOther_closed hj hsess), updOpen_opens hslot harmed hsess hstraps hlen] at hexec
    refine yields_after hexec ?_
    rw [settle_upd, settle_regs, settle_lnd, updDone_upd, updDone_regs, updDone_lnd, modUpd_upd, modUpd_regs, modUpd_lnd]
    refine ⟨rfl, rfl, rfl, rfl, rfl, rfl, ?_⟩
    cases delta
    · rw [if_neg Bool.false_ne_true]
      exact ⟨brecWrite_regs .., brecWrite_lnd ..⟩
    · exact ⟨rfl, rfl⟩
  · rintro s who c hc h hup hmode hsess howner hj hslot
    have hopen : ∃ delta : Bool, c = if delta then Instr.updOpenDelta who else Instr.updOpen who := by
      obtain rfl | rfl := hc
      · exact ⟨false, rfl⟩
      · exact ⟨true, rfl⟩
    obtain ⟨delta, rfl⟩ := hopen
    have hexec := exec_open h delta
    rw [sessCmd_own hup hmode (updOther_owner hj howner), updOpen_again hslot hsess] at hexec
    refine yields_after hexec ?_
    rw [settle_upd, settle_flash, settle_regs]
    exact ⟨updDone_upd .., updDone_flash .., updDone_regs ..⟩
  · intro s who res c hc h hup hmode hsess howner
    obtain ⟨op, f, hexec⟩ := exec_sessAct hc h
    rw [sessCmd_other hup hmode (updOther_stranger hsess howner)] at hexec
    refine yields_after hexec ?_
    rw [settle_upd, settle_flash, settle_com, settle_regs, settle_lnd]
    exact ⟨updDone_upd .., updDone_flash .., updDone_com .., updDone_regs .., updDone_lnd ..⟩
  · intro s who res c hc h hup
    obtain ⟨op, f, hexec⟩ := exec_sessAct hc h
    rwa [sessCmd_stopped hup] at hexec

end Sys2Proof.Machine
end

section
/-! SUPPORT. The indirect read of the I2C bus (R474): when it has a place, what it queues, and what its end leaves. -/

namespace Sys2Proof.Machine

/-! ## Requests -/

@[simp] theorem brgIssue_irdOpen (d : Dev) (b : Nat) : (brgIssue d b).brg.irdOpen = d.brg.irdOpen :=
  brgIssue_keeps (fun d => d.brg.irdOpen) (fun _ _ _ _ => rfl) d b
@[simp] theorem brgIssue_irdRes (d : Dev) (b : Nat) : (brgIssue d b).brg.irdRes = d.brg.irdRes :=
  brgIssue_keeps (fun d => d.brg.irdRes) (fun _ _ _ _ => rfl) d b
@[simp] theorem brgIssue_irdbusy (d : Dev) (b : Nat) : (brgIssue d b).brg.irdbusy = d.brg.irdbusy :=
  brgIssue_keeps (fun d => d.brg.irdbusy) (fun _ _ _ _ => rfl) d b

theorem brgAccept_irdOpen (d : Dev) (b : Nat) (a : BrgAcc) : (brgAccept d b a).brg.irdOpen = d.brg.irdOpen := brgIssue_irdOpen ..
theorem brgAccept_irdbusy (d : Dev) (b : Nat) (a : BrgAcc) : (brgAccept d b a).brg.irdbusy = d.brg.irdbusy := brgIssue_irdbusy ..

/-- R474: the access of the I2C bus that BRG_IRDREQ asks for. -/
def irdAcc (who : Initiator) (w : Nat) : BrgAcc :=
  { seq := 0, who := brgNum who, off := 0x9E0000 + 0x400 * bits w 0 7 + 4 * bits w 8 8, addr := 0, write := false,
    data := BitVec.ofNat 32 w, kind := 1, poll := 0, issued := false, dead := false }

/-- The place of an initiator's indirect read is taken. -/
def irdHeld (d : Dev) (who : Initiator) : Dev := modBrg d (fun g => { g with irdOpen := g.irdOpen ++ [brgNum who] })

theorem irdAsk_free {d : Dev} {who : Initiator} (h : d.brg.irdOpen.contains (brgNum who) = false) (w : Nat) :
    irdAsk d who w = brgAccept (irdHeld d who) 4 (irdAcc who w) :=
  if_neg (by rw [h]; exact Bool.false_ne_true)

theorem irdAsk_busy {d : Dev} {who : Initiator} (h : d.brg.irdOpen.contains (brgNum who) = true) (w : Nat) :
    irdAsk d who w = modBrg d (fun g => { g with irdbusy := true }) := if_pos h

section Request
variable {s : State} {who : Initiator} (hm : MayWrite s.dev who 0x900040)
include hm

/-- R471, R474: a request has its place while the queue of the I2C bus has one, and a refused one needs none. -/
theorem brgFull_ird (w : Word) : brgFull (.i2cIndirectRead who w) who 0x900040 s.dev =
    !(busRoom s.dev 4 || s.dev.brg.irdOpen.contains (brgNum who)) :=
  brgFull_eq hm (cmd := .i2cIndirectRead who w) (op := .ird w.toNat) rfl

theorem exec_ird_takes {w : Word} (h : brgFull (.i2cIndirectRead who w) who 0x900040 s.dev = false) :
    exec (.i2cIndirectRead who w) s = .next (after s (irdAsk s.dev who w.toNat)) := by
  change execI2cIndirectRead who w s = _
  rw [execI2cIndirectRead, accessWhen_takes hm h, regWr_of hm]
  rfl

end Request

/-- R471: a request that finds no place waits, as the posted write it is. -/
theorem exec_ird_held {s : State} {who : Initiator} {w : Word} (hc : canAccess s.dev who = true)
    (h : waitsBehind s.dev who = true ∨ brgFull (.i2cIndirectRead who w) who 0x900040 s.dev = true) :
    exec (.i2cIndirectRead who w) s = .next (after s (holdAccess s.dev who (.i2cIndirectRead who w))) := by
  change execI2cIndirectRead who w s = _
  exact accessWhen_held hc h _ _

/-! ## The end of an indirect read -/

/-- R474: the result of an indirect read is placed, and its initiator's place is free. -/
def irdEnded (d : Dev) (a : BrgAcc) (v : Nat) : Dev :=
  modBrg d (fun g => { g with irdOpen := g.irdOpen.filter (fun x => x != a.who), irdRes := mapPut g.irdRes a.who v })

/-- The data of an indirect read: two bytes or one. -/
def irdData (a : BrgAcc) (w : Nat) : Nat := if bit a.data.toNat 16 then w % 65536 else w % 256

theorem brgIrdDone_eq (d : Dev) (a : BrgAcc) (w status : Nat) : brgIrdDone d a w status =
    raise (irdEnded d a (irdData a w + status % 16 * 65536)) 0x1013 0 (e4 a.seq ++ e2 (irdData a w) ++ e1 status) := rfl

theorem irdData_zero (a : BrgAcc) : irdData a 0 = 0 := by rw [irdData, Nat.zero_mod, ite_self]

/-- R474: the end of an indirect read frees its initiator's place, places data and status and reports them. -/
theorem brgFarDone_ird {s : State} {b : Nat} {a : BrgAcc} {res : FarRes} {w status : Nat} (hr : running s.dev = true)
    (hq : busQueue s.dev b = [a]) (hi : a.issued = true) (hend : brgEnd (setBus s.dev b []) a res = brgIrdDone (setBus s.dev b []) a w status) :
    (brgFarDone s.dev b res).brg.irdOpen = s.dev.brg.irdOpen.filter (fun x => x != a.who) ∧
    mapGet? (brgFarDone s.dev b res).brg.irdRes a.who = some (irdData a w + status % 16 * 65536) ∧
    (brgFarDone s.dev b res).evs = s.dev.evs ++ [evNow s.dev 0x1013 0 (e4 a.seq ++ e2 (irdData a w) ++ e1 status)] ∧
    (brgFarDone s.dev b res).lnd = s.dev.lnd := by
  rw [brgFarDone_issued hr hq hi, hend, brgIrdDone_eq, brgIssue_irdOpen, brgIssue_irdRes, brgIssue_evs, brgIssue_lnd, raise_brg, raise_lnd]
  refine ⟨rfl, (mapGet?_mapPut ..).trans (if_pos rfl), ?_, rfl⟩
  exact raise_evs (d := irdEnded (setBus s.dev b []) a _) (mode_of_running hr) ..

/-- R474: an indirect read ends with its data, or with the status of its failure. -/
theorem brgEnd_ird {a : BrgAcc} (hw : a.write = false) (hd : a.dead = false) (hk : a.kind = 1) (d : Dev) (res : FarRes) :
    brgEnd d a res = match res with
      | .ok w => brgIrdDone d a w.toNat 0
      | .failed r => brgIrdDone d a 0 r := by
  cases res with
  | ok w => simp only [brgEnd, hw, hd, hk, Bool.or_self, Bool.false_eq_true, if_false, if_true]
  | failed r => simp only [brgEnd, hw, hd, hk, Bool.false_eq_true, if_false, if_true]

/-! ## Settled: O56 -/

/-- Settles O56: a request joins the queue of the I2C bus, is refused, or waits, and its end is reported. -/
theorem indirectI2cReadsAnswerByEvent : Obligations.IndirectI2cReadsAnswerByEvent := by
  unfold Obligations.IndirectI2cReadsAnswerByEvent
  refine ⟨?_, ?_, ?_, ?_, ?_⟩
  · intro s who w hm hopen hroom
    have hexec := exec_ird_takes hm (w := w) (by rw [brgFull_ird hm, busRoom, decide_eq_true hroom]; rfl)
    rw [irdAsk_free hopen] at hexec
    obtain ⟨hseq, hqueue, -, hregs, hlnd, hevs⟩ := settle_brgAccept (irdHeld s.dev who) 4 (irdAcc who w.toNat)
    refine yields_after hexec ⟨hseq, ?_, ?_, ⟨_, hqueue, rfl, rfl, rfl, rfl, rfl⟩, hregs, hlnd, hevs⟩
    · rw [settle_brg]
      exact brgAccept_irdOpen ..
    · rw [settle_brg]
      exact brgAccept_irdbusy ..
  · intro s b a res hr hq hi hw hd hk hwait
    have hend := brgEnd_ird hw hd hk (setBus s.dev b []) res
    refine yields_after (exec_bridgeFarDone hwait b res) ?_
    rw [settle_brg, settle_evs, settle_lnd]
    cases res with
    | ok w =>
      obtain ⟨hopen, hres, hevs, hlnd⟩ := brgFarDone_ird hr hq hi hend
      refine ⟨hopen, ?_, fun r h => (by cases h), hlnd⟩
      rintro v ⟨⟩
      exact ⟨hres, hevs⟩
    | failed r =>
      obtain ⟨hopen, hres, hevs, hlnd⟩ := brgFarDone_ird hr hq hi hend
      rw [irdData_zero] at hres hevs
      refine ⟨hopen, fun w h => (by cases h), ?_, hlnd⟩
      rintro v ⟨⟩
      exact ⟨by rw [hres, Nat.zero_add], hevs⟩
  · intro s who w hm hopen
    have hexec := exec_ird_takes hm (w := w) (by rw [brgFull_ird hm, hopen, Bool.or_true]; rfl)
    rwa [irdAsk_busy hopen] at hexec
  · intro s who w hm hopen hfull
    exact exec_ird_held hm.1 (.inr (by rw [brgFull_ird hm, hopen, busRoom, decide_eq_false (Nat.not_lt.mpr hfull)]; rfl))
  · exact fun s who w hc hb => exec_ird_held hc (.inl hb)

end Sys2Proof.Machine
end

section
/-! SUPPORT. The key vault (chapter 13): what its commands and alarms leave of the device, and one rule for each change of a slot. -/

namespace Sys2Proof.Machine

/-! ## Changes of the vault -/

/-- A device with another state of the vault. -/
def withKvt (d : Dev) (k : Kvt) : Dev := { d with kvt := k }

/-- R385: zeroing KVT_BUF keeps what a change of a register keeps. -/
theorem kvtBufClear_keeps {α : Type} {g : Dev → α} (h : ∀ d k v, g (putK d k v) = g d) (d : Dev) (who : Initiator) :
    g (kvtBufClear d who) = g d := foldl_keeps (fun _ _ => h ..) d _

@[simp] theorem kvtBufClear_kvt (d : Dev) (who : Initiator) : (kvtBufClear d who).kvt = d.kvt := kvtBufClear_keeps (g := Dev.kvt) (fun _ _ _ => rfl) d who
@[simp] theorem kvtBufClear_cry (d : Dev) (who : Initiator) : (kvtBufClear d who).cry = d.cry := kvtBufClear_keeps (g := Dev.cry) (fun _ _ _ => rfl) d who
@[simp] theorem kvtBufClear_lnd (d : Dev) (who : Initiator) : (kvtBufClear d who).lnd = d.lnd := kvtBufClear_keeps (g := Dev.lnd) (fun _ _ _ => rfl) d who
@[simp] theorem kvtBufClear_evs (d : Dev) (who : Initiator) : (kvtBufClear d who).evs = d.evs := kvtBufClear_keeps (g := Dev.evs) (fun _ _ _ => rfl) d who
@[simp] theorem kvtBufClear_clk (d : Dev) (who : Initiator) : (kvtBufClear d who).clk = d.clk := kvtBufClear_keeps (g := Dev.clk) (fun _ _ _ => rfl) d who
@[simp] theorem kvtBufClear_flash (d : Dev) (who : Initiator) : (kvtBufClear d who).flash = d.flash :=
  kvtBufClear_keeps (g := Dev.flash) (fun _ _ _ => rfl) d who

section Stop
variable {α : Type} {g : Dev → α} (hput : ∀ d k v, g (putK d k v) = g d) (hkvt : ∀ d k, g (withKvt d k) = g d)
include hput hkvt

theorem kvtLocked_keeps (d : Dev) (who : Initiator) : g (kvtLocked d who) = g d := (kvtBufClear_keeps hput _ who).trans (hkvt d _)

/-- R380: ending the commands that run or wait keeps what changes of the vault, of registers and of counters keep. -/
theorem kvtStop_keeps (hbump : ∀ d o i, g (bump d o i) = g d) (d : Dev) : g (kvtStop d) = g d := by
  have hstep : ∀ (d : Dev) (c : KvtWait), g (bump (kvtLocked d c.who) 0x7C0208 0) = g d := fun d c =>
    (hbump _ _ _).trans (kvtLocked_keeps hput hkvt d c.who)
  unfold kvtStop
  refine (hkvt _ _).trans ((foldl_keeps hstep _ _).trans ?_)
  split
  · exact kvtLocked_keeps hput hkvt d _
  · rfl

end Stop

/-- R380: where no command runs or waits, nothing but the vault is touched. -/
theorem kvtStop_idle {d : Dev} (hs : d.kvt.swap = none) (hw : d.kvt.wait = []) :
    kvtStop d = withKvt d { d.kvt with swap := none, wait := [] } := by
  simp only [kvtStop, hs, hw, List.foldl_nil]
  rfl

/-! ## Erasure (R338, R380) -/

/-- The map of a table's values reads through its keys. -/
theorem mapGet?_mapValues {α : Type} (m : NMap α) (f : α → α) (k : Nat) :
    mapGet? (m.map (fun e => (e.1, f e.2))) k = (mapGet? m k).map f := by
  induction m with
  | nil => rfl
  | cons e r ih =>
    obtain ⟨a, v⟩ := e
    rw [List.map_cons, mapGet?_cons, mapGet?_cons, ih]
    split <;> rfl

/-- R380: an erased slot. -/
def erasedSlot (k : KSlot) : KSlot := { gen := k.gen, retired := k.retired }

/-- R380: the vault after its erasure. -/
def alarmKvt (k : Kvt) (src rtc : Nat) : Kvt :=
  { k with root := none, slots := k.slots.map (fun e => (e.1, erasedSlot e.2)), locked := true, alarmRec := some (src, rtc % 2 ^ 32) }

/-- R338: the Crypto Block after its erasure. -/
def alarmCry (c : Cry) : Cry := { c with locked := true, pages := c.pages.map (fun e => (e.1, alarmPage e.2)) }

/-- The device that an alarm has erased, before its report. -/
def alarmDev (d : Dev) (src : Nat) : Dev :=
  bump (withKvt (withCry (kvtStop d) (alarmCry (kvtStop d).cry)) (alarmKvt (kvtStop d).kvt src (kvtStop d).clk.rtc)) 0x7C0218 0

theorem vaultAlarm_eq (d : Dev) (src : Nat) : vaultAlarm d src = raise (alarmDev d src) 0x0D01 0 (e1 src) := rfl

/-- R380: no slot is filled after an alarm. -/
theorem slotOf_vaultAlarm (d : Dev) (src k : Nat) : (slotOf (vaultAlarm d src) k).full = false ∧ (slotOf (vaultAlarm d src) k).mat = [] := by
  rw [slotOf, vaultAlarm_eq, raise_kvt, mapGet]
  have hget : mapGet? (alarmDev d src).kvt.slots k = (mapGet? (kvtStop d).kvt.slots k).map erasedSlot := mapGet?_mapValues ..
  rw [hget]
  cases mapGet? (kvtStop d).kvt.slots k with
  | none => exact ⟨rfl, rfl⟩
  | some x => exact ⟨rfl, rfl⟩

/-- R338: a page keeps its ring indices alone. -/
theorem pageOf_vaultAlarm (d : Dev) (src p : Nat) : pageOf (vaultAlarm d src) p = alarmPage (pageOf d p) := by
  have hcry : (kvtStop d).cry = d.cry := kvtStop_keeps (g := Dev.cry) (fun _ _ _ => rfl) (fun _ _ => rfl) (fun _ _ _ => rfl) d
  have hget : mapGet? (alarmDev d src).cry.pages p = (mapGet? (kvtStop d).cry.pages p).map alarmPage := mapGet?_mapValues ..
  rw [pageOf, vaultAlarm_eq, raise_cry, mapGet, hget, hcry, pageOf, mapGet]
  cases mapGet? d.cry.pages p with
  | none => rfl
  | some x => rfl

/-- R380: after an alarm the vault has no root, is locked and runs no REPLACE, and so is the Crypto Block. -/
theorem vaultAlarm_locks (d : Dev) (src : Nat) : (vaultAlarm d src).kvt.root = none ∧ (vaultAlarm d src).kvt.locked = true ∧
    (vaultAlarm d src).cry.locked = true ∧ (vaultAlarm d src).kvt.swap = none := by
  rw [vaultAlarm_eq, raise_kvt, raise_cry]
  exact ⟨rfl, rfl, rfl, rfl⟩

/-- No frame is lost by an alarm. -/
theorem vaultAlarm_lnd (d : Dev) (src : Nat) : (vaultAlarm d src).lnd = d.lnd := by
  rw [vaultAlarm_eq, raise_lnd]
  exact kvtStop_keeps (g := Dev.lnd) (fun _ _ _ => rfl) (fun _ _ => rfl) (fun _ _ _ => rfl) d

/-- R385: KVT_BUF is zeroed only for the commands that an alarm ends. -/
theorem vaultAlarm_regs {d : Dev} (hs : d.kvt.swap = none) (hw : d.kvt.wait = []) (src : Nat) : (vaultAlarm d src).regs = d.regs := by
  rw [vaultAlarm_eq, raise_regs, alarmDev, kvtStop_idle hs hw]
  rfl

/-- R379: an alarm of a running device is reported with its source. -/
theorem vaultAlarm_reports {d : Dev} (h : 2 ≤ d.clk.mode.num) (src : Nat) :
    ∃ e ∈ (vaultAlarm d src).evs, e.code = 0x0D01 ∧ e.data = (e1 src).take 16 := by
  have hclk : (kvtStop d).clk = d.clk := kvtStop_keeps (g := Dev.clk) (fun _ _ _ => rfl) (fun _ _ => rfl) (fun _ _ _ => rfl) d
  have hmode : 2 ≤ (alarmDev d src).clk.mode.num := by
    change 2 ≤ (kvtStop d).clk.mode.num
    rw [hclk]
    exact h
  rw [vaultAlarm_eq, raise_evs hmode]
  exact ⟨_, List.mem_append_right _ (List.mem_singleton_self _), rfl, rfl⟩

/-- R380, R405: a mismatch of the vault's twin is an alarm. -/
theorem mismatch_vault {d : Dev} (h : twinLocked d 31 = true) (m : Mismatch) : mismatch d 31 m = vaultAlarm (bump d 0x20040 31) 5 := by
  rw [mismatch, h, if_neg (by simp), if_pos rfl]

/-! ## Settled: O47 -/

theorem slotOf_settle (d : Dev) (k : Nat) : slotOf (settle d) k = slotOf d k := by rw [slotOf, slotOf, settle_kvt]

/-- Settles O47: an alarm empties every slot and page at once, whatever its source. -/
theorem alarmErasesEveryKey : Obligations.AlarmErasesEveryKey := by
  unfold Obligations.AlarmErasesEveryKey
  refine ⟨?_, ?_, ?_⟩
  · intro s src hout htrips
    obtain ⟨hroot, hlocked, hcry, hswap⟩ := vaultAlarm_locks s.dev src
    have hexec : exec (.kvtAlarm src) s = .next (after s (vaultAlarm s.dev src)) :=
      exec_of_act rfl (if_pos (by rw [hout, htrips]; rfl))
    refine yields_after hexec ?_
    simp only [settle_kvt, settle_cry, settle_lnd, settle_regs, slotOf_settle, pageOf_settle, pageOf_vaultAlarm]
    exact ⟨slotOf_vaultAlarm s.dev src, hroot, hlocked, hcry, hswap, fun p => ⟨rfl, rfl, rfl, rfl, rfl, rfl, rfl⟩,
      vaultAlarm_lnd s.dev src, fun hs hw => vaultAlarm_regs hs hw src⟩
  · intro s src h
    refine exec_of_act rfl (if_neg ?_)
    obtain h | h := h <;> simp [h]
  · intro s m h
    have hrun : running s.dev = true := by
      simp only [twinLocked, Bool.and_eq_true] at h
      exact h.1.1.1
    have hexec : exec (.twinMismatch 31 m) s = .next (after s (vaultAlarm (bump s.dev 0x20040 31) 5)) :=
      exec_of_act (f := fun d => mismatch d 31 m) rfl (mismatch_vault h m)
    obtain ⟨-, hlocked, hcry, -⟩ := vaultAlarm_locks (bump s.dev 0x20040 31) 5
    refine yields_after hexec ?_
    simp only [settle_kvt, settle_cry, settle_evs, slotOf_settle]
    exact ⟨fun k => (slotOf_vaultAlarm _ 5 k).1, hlocked, hcry,
      vaultAlarm_reports (d := bump s.dev 0x20040 31) (mode_of_running hrun) 5⟩

end Sys2Proof.Machine
end

section
/-! SUPPORT. The commands of the key vault (R374): what every command leaves, the slots after DERIVE, UNWRAP, INVALIDATE and the swap of
a REPLACE, and the background erase of the store. -/

namespace Sys2Proof.Machine

/-! ## Slots -/

theorem slotOf_modSlot (d : Dev) (s : Nat) (f : KSlot → KSlot) : slotOf (modSlot d s f) s = f (slotOf d s) := by
  simp [slotOf, modSlot, mapMod, mapGet, mapGet?_mapPut]

theorem slotOf_modSlot_ne (d : Dev) {s o : Nat} (h : o ≠ s) (f : KSlot → KSlot) : slotOf (modSlot d s f) o = slotOf d o := by
  simp [slotOf, modSlot, mapMod, mapGet, mapGet?_mapPut, Ne.symm h]

theorem slotOf_congr {a b : Dev} (h : a.kvt.slots = b.kvt.slots) (k : Nat) : slotOf a k = slotOf b k := by rw [slotOf, slotOf, h]

@[simp] theorem slotOf_raise (d : Dev) (code cls : Nat) (data : Bytes) (k : Nat) : slotOf (raise d code cls data) k = slotOf d k :=
  slotOf_congr (by rw [raise_kvt]) k

/-- R369, R373: an emptied slot: no handle names it any more. -/
theorem dropSlot_shape (d : Dev) (s : Nat) : (slotOf (dropSlot d s) s).full = false ∧ (∀ o, o ≠ s → slotOf (dropSlot d s) o = slotOf d o) ∧
    (dropSlot d s).cry = d.cry := by
  unfold dropSlot
  dsimp only
  split
  · exact ⟨by rw [slotOf_modSlot], fun o h => slotOf_modSlot_ne d h _, rfl⟩
  · refine ⟨?_, fun o h => ?_, by rw [raise_cry]; rfl⟩
    · rw [slotOf_raise, slotOf_modSlot]
    · rw [slotOf_raise, slotOf_modSlot_ne d h]

/-- R370: no handle names an empty slot. -/
theorem handleLive_empty {d : Dev} {h : Nat} (he : (slotOf d (hSlot h)).full = false) : handleLive d h = false := by
  simp [handleLive, he]

/-! ## Commands (R374, R385) -/

/-- R374, R385: the end of a command: its status and result, a refusal counted, and KVT_BUF zeroed unless it goes on. -/
def kvtEnd (who : Initiator) (r : Dev × Nat × Nat) : Dev :=
  if r.2.1 = 12 then kvtDone r.1 who r.2.1 r.2.2
  else kvtBufClear (if r.2.1 = 0 then kvtDone r.1 who r.2.1 r.2.2 else bump (kvtDone r.1 who r.2.1 r.2.2) 0x7C0208 0) who

/-- R374: a command that the vault takes runs at once. -/
theorem kvtCmd_takes {d : Dev} {c : KvtWait} (h : KvtTakes d c.who) : kvtCmd d c = kvtEnd c.who (kvtRun d c) := by
  obtain ⟨hm, hlocked, hroot, hwatch, hswap, hwait⟩ := h
  have hbusy : kvtBusy d c.who = false := by simp [kvtBusy, hswap, hwait]
  have hgate : kvtGate d = 0 := by
    have hnone : d.kvt.root.isNone = false := by rw [Option.isNone_eq_false_iff]; exact hroot
    simp [kvtGate, hlocked, hnone, hwatch]
  rw [kvtCmd, regWr_of hm, hbusy, hswap]
  simp only [kvtAct, hgate]
  rfl

section Issue
variable {s : State} {i : Instr} {c : KvtWait} (hi : exec i s = access c.who i (fun d => kvtCmd d c) s)
include hi

theorem exec_kvtCmd (hm : MayWrite s.dev c.who 0x7C0004) : exec i s = .next (after s (kvtCmd s.dev c)) := by
  rw [hi, access_of hm, act]
  rfl

theorem exec_kvt (h : KvtTakes s.dev c.who) : exec i s = .next (after s (kvtEnd c.who (kvtRun s.dev c))) := by
  rw [exec_kvtCmd hi h.1, kvtCmd_takes h]

end Issue

/-- The end of a command touches the vault's status and result, and registers and a counter. -/
theorem kvtEnd_keeps {α : Type} {g : Dev → α} (hput : ∀ d k v, g (putK d k v) = g d) (hbump : ∀ d o i, g (bump d o i) = g d)
    (who : Initiator) (r : Dev × Nat × Nat) : g (kvtEnd who r) = g (kvtDone r.1 who r.2.1 r.2.2) := by
  unfold kvtEnd
  split
  · rfl
  · refine (kvtBufClear_keeps hput _ who).trans ?_
    split
    · rfl
    · exact hbump _ _ _

theorem kvtEnd_kvt (who : Initiator) (r : Dev × Nat × Nat) : (kvtEnd who r).kvt = (kvtDone r.1 who r.2.1 r.2.2).kvt :=
  kvtEnd_keeps (g := Dev.kvt) (fun _ _ _ => rfl) (fun _ _ _ => rfl) who r
theorem kvtEnd_cry (who : Initiator) (r : Dev × Nat × Nat) : (kvtEnd who r).cry = r.1.cry :=
  kvtEnd_keeps (g := Dev.cry) (fun _ _ _ => rfl) (fun _ _ _ => rfl) who r
theorem kvtEnd_lnd (who : Initiator) (r : Dev × Nat × Nat) : (kvtEnd who r).lnd = r.1.lnd :=
  kvtEnd_keeps (g := Dev.lnd) (fun _ _ _ => rfl) (fun _ _ _ => rfl) who r
theorem kvtEnd_evs (who : Initiator) (r : Dev × Nat × Nat) : (kvtEnd who r).evs = r.1.evs :=
  kvtEnd_keeps (g := Dev.evs) (fun _ _ _ => rfl) (fun _ _ _ => rfl) who r
theorem kvtEnd_flash (who : Initiator) (r : Dev × Nat × Nat) : (kvtEnd who r).flash = r.1.flash :=
  kvtEnd_keeps (g := Dev.flash) (fun _ _ _ => rfl) (fun _ _ _ => rfl) who r

/-- The status of a command that has ended. -/
theorem kvtStatus_kvtEnd (who : Initiator) (r : Dev × Nat × Nat) : kvtStatus (settle (kvtEnd who r)) who = r.2.1 := by
  rw [kvtStatus, settle_kvt, kvtEnd_kvt]
  simp [kvtDone, mapGet, mapGet?_mapPut]

theorem kvtResult_kvtEnd (who : Initiator) (r : Dev × Nat × Nat) :
    mapGet? (settle (kvtEnd who r)).kvt.result (initIx who) = some r.2.2 := by
  rw [settle_kvt, kvtEnd_kvt]
  simp [kvtDone, mapGet?_mapPut]

theorem slots_kvtEnd (who : Initiator) (r : Dev × Nat × Nat) : (settle (kvtEnd who r)).kvt.slots = r.1.kvt.slots := by
  rw [settle_kvt, kvtEnd_kvt]
  rfl

theorem slotOf_kvtEnd (who : Initiator) (r : Dev × Nat × Nat) (k : Nat) : slotOf (settle (kvtEnd who r)) k = slotOf r.1 k :=
  slotOf_congr (slots_kvtEnd who r) k

theorem cry_kvtEnd (who : Initiator) (r : Dev × Nat × Nat) : (settle (kvtEnd who r)).cry = r.1.cry := by rw [settle_cry, kvtEnd_cry]
theorem evs_kvtEnd (who : Initiator) (r : Dev × Nat × Nat) : (settle (kvtEnd who r)).evs = r.1.evs := by rw [settle_evs, kvtEnd_evs]
theorem lnd_kvtEnd (who : Initiator) (r : Dev × Nat × Nat) : (settle (kvtEnd who r)).lnd = r.1.lnd := by rw [settle_lnd, kvtEnd_lnd]
theorem flash_kvtEnd (who : Initiator) (r : Dev × Nat × Nat) : (settle (kvtEnd who r)).flash = r.1.flash := by
  rw [settle_flash, kvtEnd_flash]
theorem swap_kvtEnd (who : Initiator) (r : Dev × Nat × Nat) : (settle (kvtEnd who r)).kvt.swap = r.1.kvt.swap := by
  rw [settle_kvt, kvtEnd_kvt]
  rfl
theorem chal_kvtEnd (who : Initiator) (r : Dev × Nat × Nat) : (settle (kvtEnd who r)).kvt.chal = r.1.kvt.chal := by
  rw [settle_kvt, kvtEnd_kvt]
  rfl
theorem armed_kvtEnd (who : Initiator) (r : Dev × Nat × Nat) : (settle (kvtEnd who r)).kvt.armed = r.1.kvt.armed := by
  rw [settle_kvt, kvtEnd_kvt]
  rfl

/-! ## DERIVE, UNWRAP and INVALIDATE (R371, R372, R374) -/

/-- R371: the slot that a command names filled with a child of the parent that it names. -/
def childFilled (d : Dev) (who : Initiator) (mat : Bytes) : Dev :=
  fillSlot d (aSlot (kvtArg d who 1)) mat (aType (kvtArg d who 1)) (aUse (kvtArg d who 1)) (aDom (kvtArg d who 1)) (kvtArg d who 0)
    ((slotOf d (hSlot (kvtArg d who 0))).level + 1) none

/-- R371: the material of the child that DERIVE makes. -/
def derivedMat (d : Dev) (who : Initiator) : Bytes :=
  childMat (slotOf d (hSlot (kvtArg d who 0))).mat ((List.range 4).map (fun i => leBytes 4 (kvtArg d who (2 + i)))).flatten
    (aSlot (kvtArg d who 1)) (aType (kvtArg d who 1)) (aUse (kvtArg d who 1)) (aDom (kvtArg d who 1))

section Child
variable (d : Dev) (who : Initiator) (mat : Bytes)

theorem slotOf_childFilled : slotOf (childFilled d who mat) (aSlot (kvtArg d who 1)) = { slotOf d (aSlot (kvtArg d who 1)) with
    full := true, ktype := aType (kvtArg d who 1), usage := aUse (kvtArg d who 1), domain := aDom (kvtArg d who 1),
    parent := kvtArg d who 0, level := (slotOf d (hSlot (kvtArg d who 0))).level + 1, pers := none, retired := false, mat := mat } :=
  slotOf_modSlot ..

theorem slotOf_childFilled_ne {o : Nat} (h : o ≠ aSlot (kvtArg d who 1)) : slotOf (childFilled d who mat) o = slotOf d o :=
  slotOf_modSlot_ne d h _

theorem handleOf_childFilled : handleOf (childFilled d who mat) (aSlot (kvtArg d who 1)) =
    aSlot (kvtArg d who 1) + (slotOf d (aSlot (kvtArg d who 1))).gen * 4096 := by
  rw [handleOf, slotOf_childFilled]
  rfl

end Child

theorem kvtDerive_fills {d : Dev} {who : Initiator} (h : childStatus d who (kvtArg d who 0) (kvtArg d who 1) 4 = 0) :
    kvtDerive d who = (childFilled d who (derivedMat d who), 0,
      aSlot (kvtArg d who 1) + (slotOf d (aSlot (kvtArg d who 1))).gen * 4096) := by
  rw [← handleOf_childFilled d who (derivedMat d who), kvtDerive]
  dsimp only
  rw [h]
  rfl

theorem kvtDerive_refuses {d : Dev} {who : Initiator} (h : childStatus d who (kvtArg d who 0) (kvtArg d who 1) 4 ≠ 0) :
    kvtDerive d who = (d, childStatus d who (kvtArg d who 0) (kvtArg d who 1) 4, 0) := if_pos h

/-- R374: UNWRAP of a blob that unwraps, or not. -/
theorem kvtUnwrap_cases {d : Dev} {who : Initiator} (h : childStatus d who (kvtArg d who 0) (kvtArg d who 1) 5 = 0) :
    kvtUnwrap d who = match keyUnwrap (slotOf d (hSlot (kvtArg d who 0))).mat (kvtBuf d who 0 40) with
      | none => (d, 7, 0)
      | some m => (childFilled d who (m.take (ktypeLen (aType (kvtArg d who 1)))), 0,
          handleOf (childFilled d who (m.take (ktypeLen (aType (kvtArg d who 1))))) (aSlot (kvtArg d who 1))) :=
  if_neg (not_not.mpr h)

theorem kvtInvalidate_drops {d : Dev} {who : Initiator} (hlive : handleLive d (kvtArg d who 0) = true)
    (hmay : kvtMay d who (slotOf d (hSlot (kvtArg d who 0))).domain = true) :
    kvtInvalidate d who = (dropSlot d (hSlot (kvtArg d who 0)), 0, 0) := by
  rw [kvtInvalidate, hlive, if_neg (by simp), hmay, if_neg (by simp)]

/-! ## TOKEN (R382, R383) -/

/-- The vault with another challenge and armed scope. -/
def withToken (d : Dev) (chal : Option Bytes) (armed : Option Nat) : Dev := withKvt d { d.kvt with chal := chal, armed := armed }

/-- R383: a debug token that verifies is armed and reported; one that does not voids the challenge alone. -/
theorem kvtToken_debug {d : Dev} {who : Initiator} (h : leAt (kvtBuf d who 0 256) 33 1 = 0) :
    kvtToken d who = if tokenOk d (kvtBuf d who 0 256) then
      (raise (withToken d none (some (leAt (kvtBuf d who 0 256) 32 1 % 4))) 0x0D06 0 (e1 (leAt (kvtBuf d who 0 256) 32 1 % 4)), 0, 0)
      else (withToken d none d.kvt.armed, 14, 0) := by
  rw [kvtToken]
  dsimp only
  rw [h, if_neg (by simp)]
  cases tokenOk d (kvtBuf d who 0 256) with
  | false => rfl
  | true => rfl

/-! ## REPLACE (R376, R377) -/

/-- R524: a program that succeeds at once writes its sector, or nothing in a read-only region. -/
theorem secProg_nil_keeps {α : Type} {g : Dev → α} (h : ∀ d a bs, g (flProg d a bs) = g d) (d : Dev) (l off : Nat) (bs : Bytes) :
    g (secProg d l off bs []) = g d := by
  unfold secProg
  split
  · rfl
  · exact h _ _ _

/-- R376: the swap that REPLACE of an ID leaves due, under the latest record of the ID. -/
def swapDue (d : Dev) (who : Initiator) (id sl n : Nat) (m : Bytes) (old : Option KeyRec) : Swap :=
  { who := who, id := id, slot := sl, seq := n, mat := m.take (ktypeLen (slotOf d sl).ktype), ktype := (slotOf d sl).ktype,
    pos := match old with | some r => 1 - r.pos | none => 0 }

/-- R376: REPLACE whose checks pass writes its record and leaves its swap due; a blob that does not unwrap is refused. -/
theorem kvtReplace_cases {d : Dev} {who : Initiator} {sl q n : Nat} (hpers : persSlot d (bits (kvtArg d who 1) 0 8) = some (sl, q))
    (hn : n = (match latestRec d (bits (kvtArg d who 1) 0 8) with | some r => r.seq | none => q) + 1) (hlt : n < 2 ^ 32)
    (hlive : kvtLive d (kvtArg d who 0) = true) (hmay : kvtMay d who (slotOf d (hSlot (kvtArg d who 0))).domain = true)
    (hmay' : kvtMay d who (slotOf d sl).domain = true) (huse : bit (slotOf d (hSlot (kvtArg d who 0))).usage 5 = true)
    (htype : (slotOf d (hSlot (kvtArg d who 0))).ktype = 2) (hchild : hasChild d sl = false) (hro : d.store.keyRo = false) :
    match keyUnwrap (slotOf d (hSlot (kvtArg d who 0))).mat (kvtBuf d who 0 40) with
    | none => kvtReplace d who [] = (d, 7, 0)
    | some m => ∃ d2, d2.kvt = d.kvt ∧ d2.evs = d.evs ∧ kvtReplace d who [] = (withKvt d2 { d2.kvt with
        swap := some (swapDue d who (bits (kvtArg d who 1) 0 8) sl n m (latestRec d (bits (kvtArg d who 1) 0 8))) }, 12, n) := by
  have hseq : ¬ 2 ^ 32 ≤ n := Nat.not_le.mpr hlt
  have hmays : ¬ (!kvtMay d who (slotOf d (hSlot (kvtArg d who 0))).domain || !kvtMay d who (slotOf d sl).domain) = true := by
    simp [hmay, hmay']
  have hkey : ¬ (!bit (slotOf d (hSlot (kvtArg d who 0))).usage 5 || decide ((slotOf d (hSlot (kvtArg d who 0))).ktype ≠ 2)) = true := by
    simp [huse, htype]
  unfold kvtReplace
  simp only [hpers]
  generalize hold : latestRec d (bits (kvtArg d who 1) 0 8) = old at hn ⊢
  subst hn
  rw [if_neg, if_neg (by simp [hlive]), if_neg hmays, if_neg hkey, if_neg (by simp [hchild])]
  case hnc => exact hseq
  cases keyUnwrap (slotOf d (hSlot (kvtArg d who 0))).mat (kvtBuf d who 0 40) with
  | none => rfl
  | some m =>
    dsimp only
    rw [hro, if_neg Bool.false_ne_true, if_neg]
    · refine ⟨_, ?_, ?_, rfl⟩
      · exact secProg_nil_keeps (g := Dev.kvt) (fun _ _ _ => rfl) ..
      · exact secProg_nil_keeps (g := Dev.evs) (fun _ _ _ => rfl) ..
    · rw [secProg_nil_keeps (g := fun d => d.store.keyRo) (fun _ _ _ => rfl)]
      exact (by rw [hro]; exact Bool.false_ne_true : ¬ d.store.keyRo = true)

/-! ## The swap (R376) -/

/-- R376, R523: the new material in force, and the sector of the older position due to be erased. -/
def swapDone (d : Dev) (x : Swap) : Dev :=
  let d := modSlot d x.slot (fun k => { k with mat := x.mat, pers := some (x.id, x.seq) })
  { d with kvt := { d.kvt with swap := none }, store := { d.store with erase := d.store.erase ++ [2 * x.id + (1 - x.pos)] } }

/-- R374: no command waits. -/
def noWait (d : Dev) : Dev := withKvt d { d.kvt with wait := [] }

/-- R376: the swap of a REPLACE whose slot still holds its key, where no command waits. -/
theorem kvtSwap_eq {d : Dev} {x : Swap} {q : Nat} (hs : d.kvt.swap = some x) (hw : d.kvt.wait = [])
    (hfull : (slotOf d x.slot).full = true) (hpers : (slotOf d x.slot).pers = some (x.id, q)) : kvtSwap d =
      noWait (raise (kvtBufClear (kvtDone (swapDone d x) x.who 0 x.seq) x.who) 0x0D03 0 (e1 x.id ++ e4 x.seq)) := by
  have hwait : (raise (kvtBufClear (kvtDone (swapDone d x) x.who 0 x.seq) x.who) 0x0D03 0 (e1 x.id ++ e4 x.seq)).kvt.wait = [] := by
    rw [raise_kvt, kvtBufClear_kvt]
    exact hw
  have hdrain : ∀ d : Dev, d.kvt.wait = [] → kvtDrain d.kvt.wait d = noWait d := fun d h => by rw [h]; rfl
  rw [← hdrain _ hwait, kvtSwap, hs]
  dsimp only
  rw [hfull, hpers]
  simp only [beq_self_eq_true, Bool.and_self, if_true]
  rfl

/-- A key that leaves a table takes no other with it. -/
theorem mapGet?_mapDel_ne {α : Type} (m : NMap α) {k j : Nat} (h : j ≠ k) : mapGet? (mapDel m k) j = mapGet? m j := by
  induction m with
  | nil => rfl
  | cons e r ih =>
    obtain ⟨a, v⟩ := e
    rw [mapDel]
    split
    · rename_i ha
      rw [mapGet?_cons, if_neg (by rw [beq_iff_eq] at ha; omega)]
    · rw [mapGet?_cons, mapGet?_cons, ih]

/-- A register that is written leaves every other one as it reads, in whatever order the file stands. -/
theorem regK_putK_other (d : Dev) {k j : Nat} (h : j ≠ k) (v : Nat) : regK (putK d k v) j = regK d j := by
  have hg : mapGet? (putK d k v).regs j = mapGet? d.regs j := by
    unfold putK mapStore
    dsimp only
    split
    · exact mapGet?_mapDel_ne _ h
    · rw [mapGet?_mapPut, if_neg (Ne.symm h)]
  unfold regK
  rw [hg]

/-- R385: zeroing KVT_BUF leaves the registers outside it. -/
theorem regK_kvtBufClear (d : Dev) (who : Initiator) {k : Nat} (h : ∀ w, w < 64 → k ≠ regKey (0x7C0800 + 4 * w) (initIx who)) :
    regK (kvtBufClear d who) k = regK d k :=
  List.foldlRecOn (motive := fun e => regK e k = regK d k) (List.range 64)
    (fun d w => putK d (regKey (0x7C0800 + 4 * w) (initIx who)) 0) rfl
    (fun _ he w hw => (regK_putK_other _ (h w (List.mem_range.mp hw)) 0).trans he)

/-- R456: zeroing KVT_BUF leaves the stamp of an event and its mark as they would be. -/
theorem evNow_kvtBufClear (d : Dev) (who : Initiator) (code cls : Nat) (data : Bytes) :
    evNow (kvtBufClear d who) code cls data = evNow d code cls data := by
  have hsync : regK (kvtBufClear d who) 0xC80020 = regK d 0xC80020 := by
    refine regK_kvtBufClear d who fun w hw => ?_
    cases who <;> simp only [regKey, initIx] <;> omega
  rw [evNow, evNow, synced, synced, flag, flag, reg, reg, hsync, nowNs_congr (kvtBufClear_clk d who), kvtBufClear_clk]

/-! ## Waiting commands and the background erase (R374, R523) -/

/-- R374: a command of another initiator waits for a running REPLACE. -/
theorem kvtCmd_waits {d : Dev} {c : KvtWait} {x : Swap} (hm : MayWrite d c.who 0x7C0004) (hs : d.kvt.swap = some x) (hne : x.who ≠ c.who)
    (hw : d.kvt.wait = []) : kvtCmd d c = kvtDone (withKvt d { d.kvt with wait := [c] }) c.who 12 0 := by
  have hbusy : kvtBusy d c.who = false := by simp [kvtBusy, hs, hw, hne]
  rw [kvtCmd, regWr_of hm, hbusy, hs, hw]
  rfl

/-- An erased range of the flash holds nothing that has been programmed. -/
theorem flUsed_flErase (d : Dev) (a n : Nat) : flUsed (flErase d a n) a n = false := by
  simp only [flUsed, flErase, mapDrop, List.any_eq_false, List.mem_filter]
  rintro e ⟨-, he⟩ h
  rw [h] at he
  exact Bool.false_ne_true he

theorem bgErase_eq {d : Dev} {l : Nat} {rest : List Nat} (hr : running d = true) (he : d.store.erase = l :: rest) (hro : secRo d l = false) :
    bgErase d = flErase { d with store := { d.store with erase := rest } } (secAddr d l) 4096 := by
  rw [bgErase, he]
  exact if_neg (by simp [hr, hro])

/-! ## Settled: O46 -/

section Commands
variable {s : State} {who : Initiator} (h : KvtTakes s.dev who)
include h

theorem yields_unwrap (hst : childStatus s.dev who (kvtArg s.dev who 0) (kvtArg s.dev who 1) 5 = 0) :
    Yields (.unwrap who) s (fun d => d.evs = s.dev.evs ∧
      (match keyUnwrap (slotOf s.dev (hSlot (kvtArg s.dev who 0))).mat (kvtBuf s.dev who 0 40) with
       | some m => (slotOf d (aSlot (kvtArg s.dev who 1))).full = true ∧
          (slotOf d (aSlot (kvtArg s.dev who 1))).mat = m.take (ktypeLen (aType (kvtArg s.dev who 1))) ∧
          (slotOf d (aSlot (kvtArg s.dev who 1))).parent = kvtArg s.dev who 0 ∧
          (∀ o, o ≠ aSlot (kvtArg s.dev who 1) → slotOf d o = slotOf s.dev o) ∧ kvtStatus d who = 0
       | none => d.kvt.slots = s.dev.kvt.slots ∧ kvtStatus d who = 7)) := by
  have hrun : kvtRun s.dev ⟨who, 3, [], []⟩ = _ := kvtUnwrap_cases hst
  refine yields_after (exec_kvt (c := ⟨who, 3, [], []⟩) rfl h) ?_
  rw [hrun, evs_kvtEnd]
  cases keyUnwrap (slotOf s.dev (hSlot (kvtArg s.dev who 0))).mat (kvtBuf s.dev who 0 40) with
  | none => exact ⟨rfl, slots_kvtEnd .., kvtStatus_kvtEnd ..⟩
  | some m =>
    simp only [slotOf_kvtEnd, slotOf_childFilled]
    exact ⟨rfl, trivial, trivial, trivial, fun o ho => slotOf_childFilled_ne _ _ _ ho, kvtStatus_kvtEnd ..⟩

theorem yields_token (hty : leAt (kvtBuf s.dev who 0 256) 33 1 = 0) :
    Yields (.token who) s (fun d => d.kvt.chal = none ∧ d.kvt.slots = s.dev.kvt.slots ∧
      kvtStatus d who = (if tokenOk s.dev (kvtBuf s.dev who 0 256) then 0 else 14) ∧
      d.kvt.armed = (if tokenOk s.dev (kvtBuf s.dev who 0 256) then some (leAt (kvtBuf s.dev who 0 256) 32 1 % 4) else s.dev.kvt.armed) ∧
      d.evs = (if tokenOk s.dev (kvtBuf s.dev who 0 256) then
        s.dev.evs ++ [evNow s.dev 0x0D06 0 (e1 (leAt (kvtBuf s.dev who 0 256) 32 1 % 4))] else s.dev.evs)) := by
  have hmode := mode_of_running (running_of_mayWrite h.1)
  have hrun : kvtRun s.dev ⟨who, 6, [], []⟩ = _ := kvtToken_debug hty
  refine yields_after (exec_kvt (c := ⟨who, 6, [], []⟩) rfl h) ?_
  rw [hrun]
  cases htok : tokenOk s.dev (kvtBuf s.dev who 0 256) with
  | false =>
    rw [if_neg Bool.false_ne_true, chal_kvtEnd, slots_kvtEnd, kvtStatus_kvtEnd, armed_kvtEnd, evs_kvtEnd]
    exact ⟨rfl, rfl, rfl, rfl, rfl⟩
  | true =>
    rw [if_pos rfl, chal_kvtEnd, slots_kvtEnd, kvtStatus_kvtEnd, armed_kvtEnd, evs_kvtEnd, raise_kvt]
    exact ⟨rfl, rfl, rfl, rfl, raise_evs (d := withToken s.dev none _) hmode ..⟩

end Commands

theorem yields_swap {s : State} {x : Swap} {q : Nat} (hr : running s.dev = true) (hs : s.dev.kvt.swap = some x)
    (hw : s.dev.kvt.wait = []) (hfull : (slotOf s.dev x.slot).full = true) (hpers : (slotOf s.dev x.slot).pers = some (x.id, q)) :
    Yields .kvtStoreDone s (fun d => slotOf d x.slot = { slotOf s.dev x.slot with mat := x.mat, pers := some (x.id, x.seq) } ∧
      (∀ o, o ≠ x.slot → slotOf d o = slotOf s.dev o) ∧ d.kvt.swap = none ∧ kvtStatus d x.who = 0 ∧
      d.evs = s.dev.evs ++ [evNow s.dev 0x0D03 0 (e1 x.id ++ e4 x.seq)]) := by
  have hexec : exec .kvtStoreDone s = .next (after s (kvtSwap s.dev)) := exec_of_act rfl (if_pos hr)
  rw [kvtSwap_eq hs hw hfull hpers] at hexec
  have hkvt : (kvtBufClear (kvtDone (swapDone s.dev x) x.who 0 x.seq) x.who).kvt = (kvtDone (swapDone s.dev x) x.who 0 x.seq).kvt :=
    kvtBufClear_kvt ..
  have hslot : ∀ k, slotOf (settle (noWait (raise (kvtBufClear (kvtDone (swapDone s.dev x) x.who 0 x.seq) x.who) 0x0D03 0
      (e1 x.id ++ e4 x.seq)))) k = slotOf (modSlot s.dev x.slot (fun k => { k with mat := x.mat, pers := some (x.id, x.seq) })) k := by
    intro k
    rw [slotOf_settle]
    refine (slotOf_raise (kvtBufClear (kvtDone (swapDone s.dev x) x.who 0 x.seq) x.who) 0x0D03 0 (e1 x.id ++ e4 x.seq) k).trans ?_
    exact slotOf_congr (by rw [hkvt]; rfl) k
  refine yields_after hexec ⟨by rw [hslot, slotOf_modSlot], fun o ho => by rw [hslot, slotOf_modSlot_ne _ ho], ?_, ?_, ?_⟩
  · rw [settle_kvt, noWait, raise_kvt, hkvt]
    rfl
  · rw [kvtStatus, settle_kvt, noWait, raise_kvt, hkvt]
    exact congrArg (fun o => o.getD 0) ((mapGet?_mapPut ..).trans (if_pos rfl))
  · rw [settle_evs]
    refine (raise_evs (d := kvtBufClear (kvtDone (swapDone s.dev x) x.who 0 x.seq) x.who) ?_ ..).trans ?_
    · rw [kvtBufClear_clk]
      exact mode_of_running hr
    · rw [kvtBufClear_evs, evNow_kvtBufClear]
      rfl

/-- Settles O46: each command ends with its status, and only the slot that it names changes. -/
theorem vaultCommandsKeepTheKeyTree : Obligations.VaultCommandsKeepTheKeyTree := by
  unfold Obligations.VaultCommandsKeepTheKeyTree
  refine ⟨?_, ?_, fun s who h hst => yields_unwrap h hst, ?_, ?_, fun s who h hty => yields_token h hty, ?_,
    fun s x q hr hs hw hfull hpers => yields_swap hr hs hw hfull hpers, ?_, ?_, ?_⟩
  · intro s who h hst
    have hrun : kvtRun s.dev ⟨who, 1, [], []⟩ = _ := kvtDerive_fills hst
    refine yields_after (exec_kvt (c := ⟨who, 1, [], []⟩) rfl h) ?_
    rw [hrun, slotOf_kvtEnd, slotOf_childFilled, kvtStatus_kvtEnd, kvtResult_kvtEnd, cry_kvtEnd, lnd_kvtEnd, evs_kvtEnd]
    refine ⟨rfl, fun o ho => ?_, rfl, rfl, rfl, rfl, rfl⟩
    rw [slotOf_kvtEnd, slotOf_childFilled_ne _ _ _ ho]
  · intro s who h hst
    have hrun : kvtRun s.dev ⟨who, 1, [], []⟩ = _ := kvtDerive_refuses hst
    refine yields_after (exec_kvt (c := ⟨who, 1, [], []⟩) rfl h) ?_
    rw [hrun, slots_kvtEnd, kvtStatus_kvtEnd, evs_kvtEnd]
    exact ⟨rfl, rfl, rfl⟩
  · intro s who h hlive hmay
    obtain ⟨hempty, hothers, hcry⟩ := dropSlot_shape s.dev (hSlot (kvtArg s.dev who 0))
    have hrun : kvtRun s.dev ⟨who, 2, [], []⟩ = _ := kvtInvalidate_drops hlive hmay
    refine yields_after (exec_kvt (c := ⟨who, 2, [], []⟩) rfl h) ?_
    rw [hrun, kvtStatus_kvtEnd, cry_kvtEnd]
    refine ⟨handleLive_empty (by rw [slotOf_kvtEnd, hempty]), fun o ho => ?_, rfl, hcry⟩
    rw [slotOf_kvtEnd, hothers o ho]
  · intro s who b h
    refine yields_after (exec_kvt (c := ⟨who, 5, [], b⟩) rfl h) ?_
    rw [chal_kvtEnd, kvtStatus_kvtEnd, slots_kvtEnd, evs_kvtEnd]
    exact ⟨rfl, rfl, rfl, rfl⟩
  · intro s who sl q n h hpers hn hlt hlive hmay hmay' huse htype hchild hro
    have hcases := kvtReplace_cases hpers hn hlt hlive hmay hmay' huse htype hchild hro
    refine yields_after (exec_kvt (c := ⟨who, 4, [], []⟩) rfl h) ?_
    have hrun : kvtRun s.dev ⟨who, 4, [], []⟩ = kvtReplace s.dev who [] := rfl
    rw [slots_kvtEnd, evs_kvtEnd, kvtStatus_kvtEnd, swap_kvtEnd, flash_kvtEnd, hrun]
    cases hkey : keyUnwrap (slotOf s.dev (hSlot (kvtArg s.dev who 0))).mat (kvtBuf s.dev who 0 40) with
    | none =>
      rw [hkey] at hcases
      dsimp only at hcases
      rw [hcases]
      exact ⟨rfl, rfl, rfl, h.2.2.2.2.1, rfl⟩
    | some m =>
      rw [hkey] at hcases
      obtain ⟨d2, hkvt, hevs, heq⟩ := hcases
      have hslots : d2.kvt.slots = s.dev.kvt.slots := by rw [hkvt]
      rw [heq]
      exact ⟨hslots, hevs, rfl, rfl⟩
  · exact fun s h => exec_of_act rfl (by rw [kvtSwap, h, ite_self])
  · intro s who x hm hs hne hw
    refine yields_after (exec_kvtCmd (c := ⟨who, 1, [], []⟩) rfl hm) ?_
    rw [kvtCmd_waits (c := ⟨who, 1, [], []⟩) hm hs hne hw]
    rw [kvtStatus, settle_kvt, settle_regs]
    exact ⟨rfl, congrArg (fun o => o.getD 0) ((mapGet?_mapPut ..).trans (if_pos rfl)), rfl, hs, rfl⟩
  · intro s l rest hr he hro
    have hexec : exec .storeBackgroundErase s = _ := exec_of_act rfl (bgErase_eq hr he hro)
    refine yields_after hexec ?_
    rw [settle_store, settle_kvt]
    refine ⟨rfl, ?_, fun a ha => ?_, rfl⟩
    · rw [flUsed, settle_flash]
      exact flUsed_flErase _ _ _
    · rw [flByte, settle_flash]
      refine (flByte_flErase { s.dev with store := { s.dev.store with erase := rest } } (secAddr s.dev l) 4096 a).trans ?_
      rw [if_neg (by omega)]
      rfl

end Sys2Proof.Machine
end

section
/-! SUPPORT. The states of a cluster (chapter 15): what an operation on one cluster leaves of the device, of the other clusters and of
local need, and the cluster after each transition. -/

namespace Sys2Proof.Machine

/-! ## Local need (R296, R422, R429) -/

/-- R422: local need is read from the registers, the image, the open tester connections and the PNC sightings. -/
theorem localNeed_congr {a b : Dev} (hregs : a.regs = b.regs) (himg : a.img = b.img) (hcom : a.com = b.com)
    (htesters : a.rte.testers = b.rte.testers) (hdiag : a.rte.diagTab = b.rte.diagTab) (hseen : a.nmc.seen = b.nmc.seen) (c : Nat) :
    localNeed a c = localNeed b c := by
  have hreg : ∀ o, reg a o = reg b o := fun o => by rw [reg, reg, regK, regK, hregs]
  have hflag : ∀ o i, flag a o i = flag b o i := fun o i => by rw [flag, flag, hreg]
  have hfld : ∀ o i w, fld a o i w = fld b o i w := fun o i w => by rw [fld, fld, hreg]
  have htakes : nmTakesPart a c = nmTakesPart b c := by simp only [nmTakesPart, himg, hfld]
  have hentry : ∀ i, routeEntry a i = routeEntry b i := fun i => by simp only [routeEntry, graftRec, hcom, himg]
  have hdests : ∀ i e, entryDests a i e = entryDests b i e := fun i e => by simp only [entryDests, himg]
  have hword : ∀ i k, diagWord a i k = diagWord b i k := fun i k => by rw [diagWord, diagWord, hdiag]
  have hhold : diagHold a c = diagHold b c := by
    simp only [diagHold, htesters, diagValid, diagChans, diagRoute, hword, hentry, hdests, nmCans, nmReg, hreg]
  have hpnc : pncNeed a c = pncNeed b c := by
    funext p
    simp only [pncNeed, pncAsked, hflag, hreg, hseen]
  rw [localNeed, localNeed, htakes, hhold, hpnc, nmReg, nmReg, hreg]

/-! ## What an operation on one cluster leaves (R421, R422, R436) -/

/-- What `g` reads is neither INH_OUT nor an output. -/
structure InhBlind {α : Type} (g : Dev → α) : Prop where
  inh : ∀ d i h, g { d with nmc := { d.nmc with inh := i, inhHold := h } } = g d
  emit : ∀ d o, g (emit d o) = g d

/-- What `g` reads is nothing that sending a frame from a service moves: the Landing, the lookups and the counters. -/
structure SendBlind {α : Type} (g : Dev → α) : Prop where
  lnd : ∀ d l, g { d with lnd := l } = g d
  lookup : ∀ d src it, g (toLookup d src it) = g d
  bumpBy : ∀ d off inst n, g (bumpBy d off inst n) = g d

/-- What `g` reads is nothing that an operation on cluster `c` moves: the cluster, INH_OUT and the offender log, the TC10 state of the
ports and the frames that it sends. -/
structure NmBlind {α : Type} (c : Nat) (g : Dev → α) : Prop extends InhBlind g, SendBlind g where
  cluster : ∀ d f, g (modNm d c f) = g d
  log : ∀ d l, g (withLog d l) = g d
  port : ∀ d p, g (tc10Wake d p) = g d

section Inh
variable {α : Type} {g : Dev → α} (hg : InhBlind g)
include hg

theorem InhBlind.setInh (d : Dev) (j : Nat) (on : Bool) : g (setInh d j on) = g d := by
  refine (keeps_ite ?_).trans (hg.inh d _ _)
  unfold drive
  split
  · rfl
  · exact hg.emit ..

theorem InhBlind.inhStep (d : Dev) (j : Nat) : g (inhStep d j) = g d := by
  unfold Machine.inhStep
  split
  · split
    · rfl
    · exact hg.setInh ..
  · split
    · split
      · exact hg.setInh ..
      · exact hg.inh ..
    · rfl

theorem InhBlind.inhUpdate (d : Dev) : g (inhUpdate d) = g d := foldl_keeps hg.inhStep d _

end Inh

/-- R422: a cluster that enters a state. -/
def entered (d : Dev) (st ms : Nat) (k : Cluster) : Cluster :=
  { k with st := st, t0 := d.clk.tclk, len := ms, waited := false, kaT0 := if st = 2 || st = 3 then k.kaT0 else none,
           offT0 := if st = 4 then some d.clk.tclk else if st = 5 then k.offT0 else none, charges := if st = 5 then k.charges else [] }

theorem nmState_eq (d : Dev) (c st ms : Nat) : nmState d c st ms = inhUpdate (modNm d c (entered d st ms)) := rfl

/-- R421: a keep-alive on every member, once its period has started again. -/
def kaSend (d : Dev) (c : Nat) : Dev :=
  if !svcUp d 0 || (holdMode d && !nmHolds d c) then d
  else
    let pdu := keepAlivePdu d c
    let d := ((nmCans d c).filter (canInImage d)).foldl (fun d ch => keepAliveCan d c pdu ch) d
    let d := if (nmEths d c).isEmpty then d else keepAliveEth d c pdu
    bumpN d c 0x98

/-- R421: the period of a cluster's keep-alive starts again. -/
def kaStart (d : Dev) (c : Nat) : Dev :=
  modNm d c (fun k => { k with kaT0 := some d.clk.tclk, kaLen := bits (nmReg d c 0x10) 0 16 })

theorem keepAlive_eq (d : Dev) (c : Nat) : keepAlive d c = kaSend (kaStart d c) c := rfl

section Send
variable {α : Type} {g : Dev → α} (hg : SendBlind g)
include hg

theorem SendBlind.keepAliveCan (d : Dev) (c : Nat) (pdu : Bytes) (ch : Nat) : g (keepAliveCan d c pdu ch) = g d :=
  (hg.lnd ..).trans (hg.bumpBy ..)

theorem SendBlind.keepAliveEth (d : Dev) (c : Nat) (pdu : Bytes) : g (keepAliveEth d c pdu) = g d :=
  (hg.lookup ..).trans (hg.bumpBy ..)

theorem SendBlind.kaSend (d : Dev) (c : Nat) : g (kaSend d c) = g d := by
  unfold Machine.kaSend
  split
  · rfl
  · have hcan : ∀ (pdu : Bytes) (d : Dev) (ch : Nat), g (Machine.keepAliveCan d c pdu ch) = g d := fun pdu d ch => hg.keepAliveCan d c pdu ch
    dsimp only
    refine (hg.bumpBy ..).trans ?_
    split
    · exact foldl_keeps (hcan _) d _
    · exact (hg.keepAliveEth ..).trans (foldl_keeps (hcan _) d _)

end Send

section NmBlind
variable {α : Type} {c : Nat} {g : Dev → α} (hg : NmBlind c g)
include hg

theorem NmBlind.nmState (d : Dev) (st ms : Nat) : g (nmState d c st ms) = g d := (hg.inhUpdate _).trans (hg.cluster ..)

theorem NmBlind.keepAlive (d : Dev) : g (keepAlive d c) = g d := (hg.kaSend _ c).trans (hg.cluster ..)

theorem NmBlind.tc10Local (d : Dev) (p : Nat) : g (tc10Local d p) = g d := keeps_ite ((hg.emit ..).trans (hg.port ..))

theorem NmBlind.enterRepeat (d : Dev) (aw rmr : Bool) : g (enterRepeat d c aw rmr) = g d :=
  (hg.keepAlive _).trans ((foldl_keeps hg.tc10Local _ _).trans ((hg.cluster ..).trans (hg.nmState ..)))

theorem NmBlind.enterAwake (d : Dev) : g (enterAwake d c) = g d := (hg.log ..).trans (hg.nmState ..)

/-- R422, R426: an evaluation of local need changes its cluster and may report a wake. -/
theorem NmBlind.needEval (hraise : ∀ d code cls data, g (raise d code cls data) = g d) (d : Dev) : g (needEval d c) = g d := by
  unfold Machine.needEval
  dsimp only
  split
  · rfl
  · split
    · split
      · exact (hg.enterRepeat ..).trans (hraise ..)
      · exact hg.enterRepeat ..
      · exact (hg.keepAlive _).trans (hg.enterAwake _)
      · exact (hg.enterRepeat ..).trans (hraise ..)
      · split
        · rfl
        · exact hg.cluster ..
      · rfl
    · split
      · exact hg.nmState ..
      · rfl

end NmBlind

/-! ## Other clusters, local need, events and registers -/

theorem clusterOf_modNm_ne (d : Dev) {c o : Nat} (h : o ≠ c) (f : Cluster → Cluster) : clusterOf (modNm d c f) o = clusterOf d o := by
  simp [clusterOf, modNm, mapMod, mapGet, mapGet?_mapPut, Ne.symm h]

@[simp] theorem clusterOf_raise (d : Dev) (code cls : Nat) (data : Bytes) (c : Nat) : clusterOf (raise d code cls data) c = clusterOf d c :=
  clusterOf_congr (raise_nmc ..) c

@[simp] theorem clusterOf_settle (d : Dev) (c : Nat) : clusterOf (settle d) c = clusterOf d c := clusterOf_congr (settle_nmc d) c

theorem inhBlind_cluster (c : Nat) : InhBlind (fun d => clusterOf d c) := ⟨fun _ _ _ => rfl, fun _ _ => rfl⟩
theorem sendBlind_cluster (c : Nat) : SendBlind (fun d => clusterOf d c) := ⟨fun _ _ => rfl, fun _ _ _ => rfl, fun _ _ _ _ => rfl⟩

/-- Another cluster is left as it was. -/
theorem nmBlind_cluster {c o : Nat} (h : o ≠ c) : NmBlind c (fun d => clusterOf d o) :=
  { inhBlind_cluster o, sendBlind_cluster o with
    cluster := fun d f => clusterOf_modNm_ne d h f, log := fun _ _ => rfl, port := fun _ _ => rfl }

/-- The local need of every cluster is left as it was. -/
theorem nmBlind_need (c o : Nat) : NmBlind c (fun d => localNeed d o) where
  inh _ _ _ := localNeed_congr rfl rfl rfl rfl rfl rfl o
  emit _ _ := localNeed_congr rfl rfl rfl rfl rfl rfl o
  lnd _ _ := localNeed_congr rfl rfl rfl rfl rfl rfl o
  lookup _ _ _ := localNeed_congr rfl rfl rfl rfl rfl rfl o
  bumpBy _ _ _ _ := localNeed_congr rfl rfl rfl rfl rfl rfl o
  cluster _ _ := localNeed_congr rfl rfl rfl rfl rfl rfl o
  log _ _ := localNeed_congr rfl rfl rfl rfl rfl rfl o
  port _ _ := localNeed_congr rfl rfl rfl rfl rfl rfl o

theorem localNeed_raise (d : Dev) (code cls : Nat) (data : Bytes) (o : Nat) : localNeed (raise d code cls data) o = localNeed d o :=
  localNeed_congr (raise_regs ..) (raise_img ..) (raise_com ..) (by rw [raise_rte]) (by rw [raise_rte]) (by rw [raise_nmc]) o

theorem nmBlind_evs (c : Nat) : NmBlind c Dev.evs where
  inh _ _ _ := rfl
  emit _ _ := rfl
  lnd _ _ := rfl
  lookup _ _ _ := rfl
  bumpBy _ _ _ _ := rfl
  cluster _ _ := rfl
  log _ _ := rfl
  port _ _ := rfl

theorem nmBlind_regs (c : Nat) : NmBlind c Dev.regs where
  inh _ _ _ := rfl
  emit _ _ := rfl
  lnd _ _ := rfl
  lookup _ _ _ := rfl
  bumpBy _ _ _ _ := rfl
  cluster _ _ := rfl
  log _ _ := rfl
  port _ _ := rfl

theorem inhBlind_lnd : InhBlind Dev.lnd := ⟨fun _ _ _ => rfl, fun _ _ => rfl⟩

theorem nmState_lnd (d : Dev) (c st ms : Nat) : (nmState d c st ms).lnd = d.lnd := inhBlind_lnd.inhUpdate _

/-! ## The cluster after a transition (R422) -/

theorem clusterOf_nmState (d : Dev) (c st ms : Nat) : clusterOf (nmState d c st ms) c = entered d st ms (clusterOf d c) := by
  rw [nmState_eq, (inhBlind_cluster c).inhUpdate, clusterOf_modNm_same]

theorem clusterOf_nmState_ne (d : Dev) {c o : Nat} (h : o ≠ c) (st ms : Nat) : clusterOf (nmState d c st ms) o = clusterOf d o :=
  (nmBlind_cluster h).nmState d st ms

theorem clusterOf_keepAlive (d : Dev) (c : Nat) : clusterOf (keepAlive d c) c =
    { clusterOf d c with kaT0 := some d.clk.tclk, kaLen := bits (nmReg d c 0x10) 0 16 } := by
  rw [keepAlive_eq, (sendBlind_cluster c).kaSend, kaStart, clusterOf_modNm_same]

/-- R421, R422: a cluster that enters REPEAT, with TREPEAT running. -/
theorem clusterOf_enterRepeat (d : Dev) (c : Nat) (aw rmr : Bool) : (clusterOf (enterRepeat d c aw rmr) c).st = 2 ∧
    (clusterOf (enterRepeat d c aw rmr) c).t0 = d.clk.tclk ∧ (clusterOf (enterRepeat d c aw rmr) c).len = bits (nmReg d c 0x1C) 0 16 := by
  have hport : ∀ (d : Dev) (p : Nat), clusterOf (tc10Local d p) c = clusterOf d c := by
    intro d p
    unfold tc10Local
    dsimp only
    split <;> rfl
  have hports : ∀ (d : Dev) (l : List Nat), clusterOf (l.foldl tc10Local d) c = clusterOf d c := fun d l =>
    foldl_keeps (g := fun d => clusterOf d c) hport d l
  rw [enterRepeat, clusterOf_keepAlive, hports, clusterOf_modNm_same, clusterOf_nmState]
  exact ⟨rfl, rfl, rfl⟩

/-! ## Evaluations of local need (R422, R429) -/

/-- R422: REPEAT runs its time whatever the need. -/
theorem needEval_repeat {d : Dev} {c : Nat} (h : (clusterOf d c).st = 2) : needEval d c = d := by
  unfold needEval
  dsimp only
  rw [h]
  split
  · rfl
  · split <;> rfl

/-- R422: without need only AWAKE moves. -/
theorem needEval_unneeded {d : Dev} {c : Nat} (hn : localNeed d c = false) (h : (clusterOf d c).st ≠ 3) : needEval d c = d := by
  simp only [needEval, hn, Bool.false_eq_true, if_false, h, ite_self]

/-- R422: a need wakes a cluster that is ASLEEP. -/
theorem needEval_wakes {d : Dev} {c : Nat} (hh : holdMode d = false) (hr : d.clk.routing = true) (ht : nmTakesPart d c = true)
    (hn : localNeed d c = true) (h : (clusterOf d c).st = 0) :
    needEval d c = enterRepeat (nmWakeEvent d c 0) c true (repeatRmr d c) := by
  unfold needEval
  dsimp only
  rw [if_neg (by simp [hh, hr, ht]), hn, if_pos rfl, h]
  rfl

/-- A cluster that its own evaluation leaves as it is stands as it was once every cluster's need has been evaluated. -/
theorem clusterOf_needAll {d : Dev} {c : Nat} {k : Cluster} {b : Bool} (hk : clusterOf d c = k) (hb : localNeed d c = b)
    (hstill : ∀ e, clusterOf e c = k → localNeed e c = b → needEval e c = e) : clusterOf (needAll d) c = k := by
  refine (List.foldlRecOn (motive := fun e => clusterOf e c = k ∧ localNeed e c = b) (List.range 32) needEval ⟨hk, hb⟩ ?_).1
  rintro e ⟨hek, heb⟩ o -
  by_cases ho : c = o
  · subst ho
    rw [hstill e hek heb]
    exact ⟨hek, heb⟩
  · have hcluster := (nmBlind_cluster ho).needEval (fun d code cls data => clusterOf_raise d code cls data c) e
    have hneed := (nmBlind_need o c).needEval (fun d code cls data => localNeed_raise d code cls data c) e
    exact ⟨hcluster.trans hek, hneed.trans heb⟩

/-! ## PNC sightings (R429) -/

/-- A device with other PNC sightings. -/
def withSeen (d : Dev) (m : NMap Nat) : Dev := { d with nmc := { d.nmc with seen := m } }

/-- R429: noting the PNCs of a PDU keeps what a change of the sightings keeps. -/
theorem pncSeen_keeps {α : Type} {g : Dev → α} (h : ∀ d m, g (withSeen d m) = g d) (d : Dev) (c : Nat) (pdu : Bytes) :
    g (pncSeen d c pdu) = g d := by
  unfold pncSeen
  dsimp only
  split
  · rfl
  · exact foldl_keeps (fun d _ => h d _) d _

/-- Some key of a table of a kind to which the new key does not belong. -/
theorem any_mapPut {α : Type} {P : Nat → Bool} (m : NMap α) {k : Nat} (h : P k = false) (v : α) :
    (mapPut m k v).any (fun e => P e.1) = m.any (fun e => P e.1) := by
  induction m with
  | nil => simp [mapPut, h]
  | cons e r ih =>
    obtain ⟨a, w⟩ := e
    unfold mapPut
    split
    · simp [h]
    · split
      · rename_i hk
        rw [beq_iff_eq] at hk
        subst hk
        simp [h]
      · rw [List.any_cons, List.any_cons, ih]

/-- R429: the sightings that a cluster's own PDUs make are no local need of it. -/
theorem localNeed_pncSeen (d : Dev) {c : Nat} (hc : c < 32) (pdu : Bytes) : localNeed (pncSeen d c pdu) c = localNeed d c := by
  have hstep : ∀ (d : Dev) (q : Nat), localNeed (withSeen d (mapPut d.nmc.seen (32 * q + c) d.clk.tclk)) c = localNeed d c := by
    intro d q
    have hpnc : pncNeed (withSeen d (mapPut d.nmc.seen (32 * q + c) d.clk.tclk)) c = pncNeed d c := by
      funext p
      have hown : (fun k : Nat => k / 32 == p && k % 32 != c) (32 * q + c) = false := by
        have hmod : (32 * q + c) % 32 = c := by omega
        simp [hmod]
      have hany := any_mapPut (P := fun k => k / 32 == p && k % 32 != c) d.nmc.seen hown d.clk.tclk
      exact congrArg (fun b => flag d (0x7E0400 + 0x10 * p) c && (pncAsked d p || b)) hany
    exact congrArg (fun f : Nat → Bool => nmTakesPart d c && (bit (nmReg d c 4) 0 || diagHold d c || (List.range 64).any f)) hpnc
  unfold pncSeen
  dsimp only
  split
  · rfl
  · exact foldl_keeps (g := fun d => localNeed d c) hstep d _

theorem clusterOf_pncSeen (d : Dev) (c o : Nat) (pdu : Bytes) : clusterOf (pncSeen d c pdu) o = clusterOf d o :=
  pncSeen_keeps (g := fun d => clusterOf d o) (fun _ _ => rfl) d c pdu
theorem pncSeen_regs (d : Dev) (c : Nat) (pdu : Bytes) : (pncSeen d c pdu).regs = d.regs :=
  pncSeen_keeps (g := Dev.regs) (fun _ _ => rfl) d c pdu

/-! ## NM PDUs (R419, R420, R422) -/

section Pdu
variable {d : Dev} {c : Nat} {n : NmPort} {b : Bytes} (ha : nmArrives d c n = true)
include ha

theorem nmPdu_short (hl : b.length < lyLen (nmLay d c)) : nmPdu d c n b = bump d 0x7E0090 c := by
  rw [nmPdu, ha, if_neg (by simp), if_pos hl]
  rfl

theorem nmPdu_irrelevant (hl : lyLen (nmLay d c) ≤ b.length) (hr : nmRelevant d c b = false) : nmPdu d c n b = bump d 0x7E0088 c := by
  rw [nmPdu, ha, if_neg (by simp), if_neg (Nat.not_lt.mpr hl), hr]
  rfl

/-- R420: a relevant PDU steps its cluster, and its PNCs are noted. -/
theorem nmPdu_relevant (hl : lyLen (nmLay d c) ≤ b.length) (hr : nmRelevant d c b = true) (hh : holdMode d = false) :
    nmPdu d c n b = needAll (pncSeen (nmStep (bumpN d c 0x80) c n b) c b) := by
  have hold : holdMode (bumpN d c 0x80) = false := hh
  rw [nmPdu, ha, if_neg (by simp), if_neg (Nat.not_lt.mpr hl), hr, if_neg (by simp)]
  simp only [hold, Bool.false_eq_true, if_false]

end Pdu

/-- R422: a relevant PDU takes a cluster that is ASLEEP, in LISTEN or in DRAIN to REPEAT. -/
theorem nmStep_repeats {d : Dev} {c : Nat} (h : (clusterOf d c).st = 0 ∨ (clusterOf d c).st = 1 ∨ (clusterOf d c).st = 5) (n : NmPort)
    (b : Bytes) : ∃ e, e.clk = d.clk ∧ e.regs = d.regs ∧ nmStep d c n b = enterRepeat e c false false := by
  unfold nmStep
  dsimp only
  obtain h | h | h := h <;> rw [h]
  · exact ⟨nmWakeEvent d c 1, raise_clk .., raise_regs .., rfl⟩
  · exact ⟨d, rfl, rfl, rfl⟩
  · exact ⟨nmWakeEvent d c 1, raise_clk .., raise_regs .., rfl⟩

/-- R422: TTIMEOUT of a cluster starts again. -/
def retimed (d : Dev) (c : Nat) : Dev := modNm d c (fun k => { k with t0 := d.clk.tclk, len := bits (nmReg d c 0x14) 0 16 })

theorem nmStep_ready {d : Dev} {c : Nat} {b : Bytes} (h : (clusterOf d c).st = 4)
    (hrmr : cbvBit (nmLay d c) (lyRmr (nmLay d c)) b = false) (n : NmPort) : nmStep d c n b = chargeNode (retimed d c) c n b := by
  unfold nmStep
  dsimp only
  rw [h, hrmr]
  rfl

/-- R434: a charge leaves the state and the timer of its cluster. -/
theorem clusterOf_chargeNode (d : Dev) (c : Nat) (n : NmPort) (b : Bytes) :
    ∃ l, clusterOf (chargeNode d c n b) c = { clusterOf d c with charges := l } := ⟨_, clusterOf_modNm_same ..⟩

theorem yields_pdu_repeats {s : State} {c : Nat} {n : NmPort} {b : Bytes} (ha : nmArrives s.dev c n = true)
    (hl : lyLen (nmLay s.dev c) ≤ b.length) (hr : nmRelevant s.dev c b = true) (hh : holdMode s.dev = false)
    (hst : (clusterOf s.dev c).st = 0 ∨ (clusterOf s.dev c).st = 1 ∨ (clusterOf s.dev c).st = 5) :
    Yields (.nmPduReceived c n b) s (fun d => (clusterOf d c).st = 2 ∧ (clusterOf d c).t0 = s.dev.clk.tclk ∧ d.regs = s.dev.regs) := by
  obtain ⟨e, hclk, hregs, hstep⟩ := nmStep_repeats (d := bumpN s.dev c 0x80) hst n b
  obtain ⟨hst', ht0, -⟩ := clusterOf_enterRepeat e c false false
  have hcluster : clusterOf (needAll (pncSeen (enterRepeat e c false false) c b)) c = clusterOf (enterRepeat e c false false) c :=
    clusterOf_needAll (clusterOf_pncSeen ..) rfl fun e he _ => needEval_repeat (by rw [he, hst'])
  refine yields_after (exec_of_act (f := fun d => nmPdu d c n b) rfl (nmPdu_relevant ha hl hr hh)) ?_
  rw [clusterOf_settle, settle_regs, hstep, hcluster, hst', ht0, hclk, needBlind_regs.needAll, pncSeen_regs,
    (nmBlind_regs c).enterRepeat, hregs]
  exact ⟨rfl, rfl, rfl⟩

theorem yields_pdu_restarts {s : State} {c : Nat} {n : NmPort} {b : Bytes} (hc : c < 32) (ha : nmArrives s.dev c n = true)
    (hl : lyLen (nmLay s.dev c) ≤ b.length) (hr : nmRelevant s.dev c b = true) (hh : holdMode s.dev = false)
    (hst : (clusterOf s.dev c).st = 4) (hrmr : cbvBit (nmLay s.dev c) (lyRmr (nmLay s.dev c)) b = false)
    (hneed : localNeed s.dev c = false) :
    Yields (.nmPduReceived c n b) s (fun d => (clusterOf d c).st = 4 ∧ (clusterOf d c).t0 = s.dev.clk.tclk ∧
      (clusterOf d c).len = bits (nmReg s.dev c 0x14) 0 16 ∧ d.regs = s.dev.regs) := by
  have hstep := nmStep_ready (d := bumpN s.dev c 0x80) hst hrmr n
  obtain ⟨l, hcharged⟩ := clusterOf_chargeNode (retimed (bumpN s.dev c 0x80) c) c n b
  rw [retimed, clusterOf_modNm_same] at hcharged
  have hneed' : localNeed (pncSeen (chargeNode (retimed (bumpN s.dev c 0x80) c) c n b) c b) c = false := by
    rw [localNeed_pncSeen _ hc]
    exact ((nmBlind_need c c).cluster ..).trans (((nmBlind_need c c).cluster ..).trans (((nmBlind_need c c).bumpBy ..).trans hneed))
  have hstill : ∀ e, clusterOf e c = clusterOf (chargeNode (retimed (bumpN s.dev c 0x80) c) c n b) c → localNeed e c = false →
      needEval e c = e := by
    intro e he hn
    refine needEval_unneeded hn ?_
    rw [he, retimed, hcharged]
    change (clusterOf s.dev c).st ≠ 3
    rw [hst]
    decide
  refine yields_after (exec_of_act (f := fun d => nmPdu d c n b) rfl (nmPdu_relevant ha hl hr hh)) ?_
  rw [clusterOf_settle, settle_regs, hstep, clusterOf_needAll (clusterOf_pncSeen ..) hneed' hstill, retimed, hcharged,
    needBlind_regs.needAll, pncSeen_regs]
  exact ⟨hst, rfl, rfl, rfl⟩

/-! ## NMC_CREQ (R422) -/

section Request
variable {d : Dev} (hs : mapSorted d.regs = true) (c w : Nat)
include hs

/-- A write of NMC_CREQ reads back. -/
theorem reg_creq : reg (putReg d (nmcBase c + 4) (w % 4)) (nmcBase c + 4) = w % 4 := by
  rw [reg, putReg, regK_putK hs]
  omega

theorem reg_creq_ne {o : Nat} (h : o ≠ nmcBase c + 4) : reg (putReg d (nmcBase c + 4) (w % 4)) o = reg d o := regK_putK_ne hs h _

theorem nmTakesPart_creq : nmTakesPart (putReg d (nmcBase c + 4) (w % 4)) c = nmTakesPart d c := by
  rw [nmTakesPart, nmTakesPart, fld, fld, fld, fld, reg_creq_ne hs c w (by omega), reg_creq_ne hs c w (by omega), putReg_img]

/-- R422: NMC_CREQ with its request bit set is local need. -/
theorem localNeed_creq (ht : nmTakesPart d c = true) (hw : bit w 0 = true) : localNeed (putReg d (nmcBase c + 4) (w % 4)) c = true := by
  have hbit : bit (w % 4) 0 = true := by
    rw [bit, Nat.testBit_zero] at hw ⊢
    rw [decide_eq_true_eq] at hw ⊢
    omega
  rw [localNeed, nmTakesPart_creq hs, ht, nmReg, reg_creq hs, hbit]
  rfl

/-- R456: NMC_CREQ has no part in an event's stamp. -/
theorem evNow_creq (code cls : Nat) (data : Bytes) (hc : c < 32) :
    evNow (putReg d (nmcBase c + 4) (w % 4)) code cls data = evNow d code cls data := by
  have hsync : reg (putReg d (nmcBase c + 4) (w % 4)) 0xC80020 = reg d 0xC80020 :=
    reg_creq_ne hs c w (by rw [nmcBase]; omega)
  rw [evNow, evNow, synced, synced, flag, flag, hsync]
  rfl

end Request

theorem reg_of_regs {a b : Dev} (h : a.regs = b.regs) (o : Nat) : reg a o = reg b o := by rw [reg, reg, regK, regK, h]

theorem exec_nmRequest {s : State} {who : Initiator} {c : Nat} {w : Word} (hc : c < 32) (hm : MayWrite s.dev who (nmcBase c + 4)) :
    exec (.nmRequest who c w) s = .next (after s (nmRequest s.dev c w.toNat)) := by
  change execNmRequest who c w s = _
  rw [execNmRequest, access_of hm, act, if_pos hc, regWr_of hm]
  rfl

/-- R437: a wake is reported. -/
theorem nmWakeEvent_evs {d : Dev} (h : 2 ≤ d.clk.mode.num) (c src : Nat) :
    (nmWakeEvent d c src).evs = d.evs ++ [evNow d 0x0F01 0 (e1 c ++ e1 src)] := raise_evs h ..

theorem yields_nmRequest {s : State} {who : Initiator} {c : Nat} {w : Word} (hc : c < 32) (hm : MayWrite s.dev who (nmcBase c + 4))
    (hs : mapSorted s.dev.regs = true) (hw : bit w.toNat 0 = true) (hh : holdMode s.dev = false) (hr : s.dev.clk.routing = true)
    (ht : nmTakesPart s.dev c = true) (hst : (clusterOf s.dev c).st = 0) :
    Yields (.nmRequest who c w) s (fun d => reg d (nmcBase c + 4) = w.toNat % 4 ∧ (clusterOf d c).st = 2 ∧
      (clusterOf d c).len = bits (nmReg s.dev c 0x1C) 0 16 ∧ d.evs = s.dev.evs ++ [evNow s.dev 0x0F01 0 (e1 c ++ e1 0)] ∧
      (∀ o, o ≠ c → clusterOf d o = clusterOf s.dev o)) := by
  have hrun : nmRequest s.dev c w.toNat = _ :=
    needEval_wakes (d := putReg s.dev (nmcBase c + 4) (w.toNat % 4)) hh hr ((nmTakesPart_creq hs c _).trans ht)
      (localNeed_creq hs c _ ht hw) hst
  have hexec := exec_nmRequest (w := w) hc hm
  rw [hrun] at hexec
  obtain ⟨hst', -, hlen⟩ := clusterOf_enterRepeat (nmWakeEvent (putReg s.dev (nmcBase c + 4) (w.toNat % 4)) c 0) c true
    (repeatRmr (putReg s.dev (nmcBase c + 4) (w.toNat % 4)) c)
  have hregs : (nmWakeEvent (putReg s.dev (nmcBase c + 4) (w.toNat % 4)) c 0).regs = (putReg s.dev (nmcBase c + 4) (w.toNat % 4)).regs :=
    raise_regs ..
  refine yields_after hexec ⟨?_, ?_, ?_, ?_, fun o ho => ?_⟩
  · rw [reg_of_regs (settle_regs _), reg_of_regs ((nmBlind_regs c).enterRepeat ..), reg_of_regs hregs, reg_creq hs]
  · rw [clusterOf_settle, hst']
  · rw [clusterOf_settle, hlen, nmReg, nmReg, reg_of_regs hregs, reg_creq_ne hs c _ (by omega)]
  · rw [settle_evs, (nmBlind_evs c).enterRepeat]
    have hmode : 2 ≤ (putReg s.dev (nmcBase c + 4) (w.toNat % 4)).clk.mode.num := by
      rw [putReg_clk]
      exact mode_of_running (running_of_mayWrite hm)
    rw [nmWakeEvent_evs hmode, evNow_creq hs c _ _ _ _ hc, putReg_evs]
  · rw [clusterOf_settle, (nmBlind_cluster ho).enterRepeat]
    exact clusterOf_raise ..

/-! ## Keep-alives and timers (R421, R422) -/

/-- The frames that wait for admission at port SVC. -/
def svcWaiting (d : Dev) : Nat := (mapGet [] d.lnd.waiting 6).length

theorem svcWaiting_keepAliveCan (d : Dev) (c : Nat) (pdu : Bytes) (ch : Nat) : svcWaiting (keepAliveCan d c pdu ch) = svcWaiting d + 1 := by
  simp only [svcWaiting, keepAliveCan, toAdmission, List.isEmpty_cons, Bool.false_eq_true, if_false, mapGet, mapGet?_mapPut, if_true,
    Option.getD_some, List.length_append, List.length_singleton]
  rfl

/-- R421: a keep-alive waits for admission once per member channel. -/
theorem svcWaiting_foldl (c : Nat) (pdu : Bytes) (l : List Nat) (d : Dev) :
    svcWaiting (l.foldl (fun d ch => keepAliveCan d c pdu ch) d) = svcWaiting d + l.length := by
  induction l generalizing d with
  | nil => rfl
  | cons ch l ih =>
    rw [List.foldl_cons, ih, svcWaiting_keepAliveCan, List.length_cons]
    omega

theorem svcWaiting_keepAlive {d : Dev} (c : Nat) (hs : svcUp d 0 = true) (hh : holdMode d = false) :
    svcWaiting (keepAlive d c) = svcWaiting d + ((nmCans d c).filter (canInImage d)).length := by
  have hs' : svcUp (kaStart d c) 0 = true := hs
  have hh' : holdMode (kaStart d c) = false := hh
  rw [keepAlive_eq, kaSend, if_neg (by simp [hs', hh'])]
  dsimp only
  split
  · exact svcWaiting_foldl c _ _ _
  · exact svcWaiting_foldl c _ _ _

theorem nmTmsg_due {d : Dev} {c t : Nat} (hr : running d = true) (ho : d.clk.routing = true) (hp : nmTakesPart d c = true)
    (hh : holdMode d = false) (hst : (clusterOf d c).st = 3) (hk : (clusterOf d c).kaT0 = some t)
    (ht : t + msCycles (clusterOf d c).kaLen ≤ d.clk.tclk) : nmTmsg d c = keepAlive d c := by
  simp only [nmTmsg, hk, hr, ho, hp, hh, hst, ht, Bool.not_false, Bool.true_or, Bool.or_true, beq_self_eq_true, decide_true, Bool.and_self,
    if_true]

theorem nmTrepeat_due {d : Dev} {c : Nat} (hn : nmTimes d c = true) (hst : (clusterOf d c).st = 2) (he : nmElapsed d c = true) :
    nmTrepeat d c = if localNeed d c then enterAwake d c else enterReady d c := by
  rw [nmTrepeat, hn, hst, he]
  exact if_pos rfl

/-- R422: REPEAT is over: AWAKE with need, READY without. -/
theorem yields_nmTrepeat {s : State} {c : Nat} (hn : nmTimes s.dev c = true) (hst : (clusterOf s.dev c).st = 2)
    (he : nmElapsed s.dev c = true) :
    Yields (.nmTrepeatExpire c) s (fun d => (clusterOf d c).st = (if localNeed s.dev c then 3 else 4) ∧
      (∀ o, o ≠ c → clusterOf d o = clusterOf s.dev o) ∧ d.evs = s.dev.evs ∧ d.regs = s.dev.regs) := by
  refine yields_after (exec_of_act (f := fun d => nmTrepeat d c) rfl (nmTrepeat_due hn hst he)) ?_
  rw [clusterOf_settle, settle_evs, settle_regs]
  cases localNeed s.dev c with
  | true =>
    rw [if_pos rfl, if_pos rfl]
    refine ⟨?_, fun o ho => ?_, (nmBlind_evs c).enterAwake _, (nmBlind_regs c).enterAwake _⟩
    · exact congrArg Cluster.st (clusterOf_nmState s.dev c 3 0)
    · rw [clusterOf_settle]
      exact (nmBlind_cluster ho).enterAwake _
  | false =>
    rw [if_neg Bool.false_ne_true, if_neg Bool.false_ne_true]
    refine ⟨?_, fun o ho => ?_, (nmBlind_evs c).nmState _ _ _, (nmBlind_regs c).nmState _ _ _⟩
    · exact congrArg Cluster.st (clusterOf_nmState s.dev c 4 _)
    · rw [clusterOf_settle]
      exact clusterOf_nmState_ne _ ho _ _

/-! ## Settled: O49 -/

/-- Settles O49: each PDU, request and timer steps its own cluster, and the evaluation of every cluster's need leaves that step. -/
theorem clustersWakeAndRepeat : Obligations.ClustersWakeAndRepeat := by
  unfold Obligations.ClustersWakeAndRepeat
  refine ⟨?_, ?_, ?_, fun s c n b ha hl hr hh hst => yields_pdu_repeats ha hl hr hh hst,
    fun s c n b hc ha hl hr hh hst hrmr hneed => yields_pdu_restarts hc ha hl hr hh hst hrmr hneed,
    fun s who c w hc hm hs hw hh hr ht hst => yields_nmRequest hc hm hs hw hh hr ht hst, ?_,
    fun s c hn hst he => yields_nmTrepeat hn hst he, ?_⟩
  · exact fun s c n b ha hl => exec_of_act (f := fun d => nmPdu d c n b) rfl (nmPdu_short ha hl)
  · exact fun s c n b ha hl hr => exec_of_act (f := fun d => nmPdu d c n b) rfl (nmPdu_irrelevant ha hl hr)
  · exact fun s c n b ha => exec_of_act (f := fun d => nmPdu d c n b) rfl (if_pos (by simp [ha]))
  · intro s c t hr ho hp hh hst hk ht hs
    refine yields_after (exec_of_act (f := fun d => nmTmsg d c) rfl (nmTmsg_due hr ho hp hh hst hk ht)) ?_
    rw [clusterOf_settle, settle_lnd, settle_evs, clusterOf_keepAlive]
    refine ⟨rfl, hst, svcWaiting_keepAlive c hs hh, fun o ho => ?_, (nmBlind_evs c).keepAlive _⟩
    rw [clusterOf_settle]
    exact (nmBlind_cluster ho).keepAlive _
  · intro s c hn he
    exact ⟨exec_of_act (f := fun d => nmTrepeat d c) rfl (if_neg (by simp [he])),
      exec_of_act (f := fun d => nmTtimeout d c) rfl (if_neg (by simp [he])),
      exec_of_act (f := fun d => nmTwait d c) rfl (if_neg (by simp [he]))⟩

end Sys2Proof.Machine
end

section
/-! SUPPORT. How a cluster falls asleep (chapter 15): the commit point, the end of sleep, and what its report and the evaluation that
follows leave of the ports and the events. -/

namespace Sys2Proof.Machine

/-! ## Timers and the commit point (R422, R424) -/

theorem nmTtimeout_due {d : Dev} {c : Nat} (hn : nmTimes d c = true) (hst : (clusterOf d c).st = 4) (he : nmElapsed d c = true) :
    nmTtimeout d c = nmState d c 5 (bits (nmReg d c 0x18) 0 16) := by
  rw [nmTtimeout, hn, hst, he]
  exact if_pos rfl

theorem nmTwait_due {d : Dev} {c : Nat} (hn : nmTimes d c = true) (hst : (clusterOf d c).st = 5) (he : nmElapsed d c = true) :
    nmTwait d c = modNm d c (fun k => { k with waited := true }) := by
  rw [nmTwait, hn, hst, he]
  exact if_pos rfl

/-- R424: the commit point before its members are flushed. -/
def sleepClosed (d : Dev) (c : Nat) : Dev := modNm (closeLog (nmState d c 6 100) c) c (fun k => { k with closed := true, rewake := none })

theorem sleepCommit_due {d : Dev} {c : Nat} (hn : nmTimes d c = true) (hst : (clusterOf d c).st = 5) (hw : (clusterOf d c).waited = true)
    (hs : svcUp d 0 = true) : sleepCommit d c = (nmCans (sleepClosed d c) c).foldl flushToSleep (sleepClosed d c) := by
  rw [sleepCommit, hn, hst, hw, hs]
  exact if_pos rfl

theorem flushBlind_nmc : FlushBlind Dev.nmc :=
  { lnd := fun _ _ => rfl, flt := fun _ _ => rfl, eps := fun _ _ => rfl, can := fun _ _ => rfl, rcd := fun _ _ => rfl,
    whl := fun _ _ => rfl, bump := fun _ _ _ => rfl, raise := fun _ _ _ _ => raise_nmc .. }

/-- R424: the flush of a member keeps what every flush keeps. -/
theorem FlushBlind.flushToSleep {α : Type} {g : Dev → α} (hg : FlushBlind g) (d : Dev) (ch : Nat) : g (flushToSleep d ch) = g d := by
  rw [Machine.flushToSleep, hg.modCan, hg.flushQueues]
  refine foldl_keeps (fun d b => ?_) d _
  split
  · rfl
  · split
    · exact hg.modCan ..
    · exact hg.flushXb ..

theorem clusterOf_closeLog (d : Dev) (c o : Nat) : clusterOf (closeLog d c) o = clusterOf d o := rfl

theorem clusterOf_sleepClosed (d : Dev) (c : Nat) : clusterOf (sleepClosed d c) c =
    { entered d 6 100 (clusterOf d c) with closed := true, rewake := none } := by
  rw [sleepClosed, clusterOf_modNm_same, clusterOf_closeLog, clusterOf_nmState]

theorem clusterOf_sleepClosed_ne (d : Dev) {c o : Nat} (h : o ≠ c) : clusterOf (sleepClosed d c) o = clusterOf d o := by
  rw [sleepClosed, clusterOf_modNm_ne _ h, clusterOf_closeLog, clusterOf_nmState_ne _ h]

theorem sleepClosed_regs (d : Dev) (c : Nat) : (sleepClosed d c).regs = d.regs := by
  rw [sleepClosed, (nmBlind_regs c).cluster, closeLog]
  exact (nmBlind_regs c).nmState d 6 100

theorem yields_sleepCommit {s : State} {c : Nat} (hn : nmTimes s.dev c = true) (hst : (clusterOf s.dev c).st = 5)
    (hw : (clusterOf s.dev c).waited = true) (hs : svcUp s.dev 0 = true) :
    Yields (.sleepCommitPoint c) s (fun d => (clusterOf d c).st = 6 ∧ (clusterOf d c).closed = true ∧ (clusterOf d c).rewake = none ∧
      (clusterOf d c).t0 = s.dev.clk.tclk ∧ (clusterOf d c).len = 100 ∧ (∀ o, o ≠ c → clusterOf d o = clusterOf s.dev o) ∧
      d.regs = s.dev.regs) := by
  have hnmc : ∀ (d : Dev) (l : List Nat), (l.foldl flushToSleep d).nmc = d.nmc := fun d l => foldl_keeps flushBlind_nmc.flushToSleep d l
  have hregs : ∀ (d : Dev) (l : List Nat), (l.foldl flushToSleep d).regs = d.regs := fun d l => foldl_keeps flushBlind_regs.flushToSleep d l
  refine yields_after (exec_of_act (f := fun d => sleepCommit d c) rfl (sleepCommit_due hn hst hw hs)) ?_
  rw [clusterOf_settle, settle_regs, clusterOf_congr (hnmc ..), clusterOf_sleepClosed, hregs]
  refine ⟨rfl, rfl, rfl, rfl, rfl, fun o ho => ?_, ?_⟩
  · rw [clusterOf_settle, clusterOf_congr (hnmc ..), clusterOf_sleepClosed_ne _ ho]
  · exact sleepClosed_regs s.dev c

/-! ## The end of sleep (R424, R426) -/

/-- R424, R437: a cluster that is reported asleep. -/
def asleep (d : Dev) (c declared : Nat) : Dev := nmState (raise (bumpN d c 0xA0) 0x0F02 0 (e1 c ++ e1 declared)) c 0 0

theorem clusterOf_asleep (d : Dev) (c declared : Nat) : (clusterOf (asleep d c declared) c).st = 0 := by
  rw [asleep, clusterOf_nmState]
  rfl

theorem clusterOf_asleep_ne (d : Dev) {c o : Nat} (h : o ≠ c) (declared : Nat) : clusterOf (asleep d c declared) o = clusterOf d o := by
  rw [asleep, clusterOf_nmState_ne _ h]
  exact clusterOf_raise ..

theorem asleep_evs {d : Dev} (h : 2 ≤ d.clk.mode.num) (c declared : Nat) :
    (asleep d c declared).evs = d.evs ++ [evNow d 0x0F02 0 (e1 c ++ e1 declared)] :=
  ((nmBlind_evs c).nmState ..).trans (raise_evs (d := bumpN d c 0xA0) h ..)

theorem asleep_lnd (d : Dev) (c declared : Nat) : (asleep d c declared).lnd = d.lnd := by
  rw [asleep, nmState_lnd, raise_lnd]
  rfl

/-- R424: without a request that waited and without need the cluster stays asleep. -/
theorem sleepDone_quiet {d : Dev} {c : Nat} (hr : (clusterOf d c).rewake = none) (hn : localNeed d c = false) (declared : Nat) :
    sleepDone d c declared = asleep d c declared := by
  have hneed : localNeed (asleep d c declared) c = false :=
    ((nmBlind_need c c).nmState ..).trans ((localNeed_raise ..).trans (((nmBlind_need c c).bumpBy ..).trans hn))
  have hstill := needEval_unneeded hneed (by rw [clusterOf_asleep]; decide)
  unfold sleepDone
  dsimp only
  rw [hr]
  exact hstill

/-- R424, R437: what the end of sleep yields. -/
theorem yields_asleep {i : Instr} {s : State} {c declared : Nat} (hn : nmTimes s.dev c = true)
    (hi : exec i s = .next (after s (asleep s.dev c declared))) :
    Yields i s (fun d => (clusterOf d c).st = 0 ∧ d.evs = s.dev.evs ++ [evNow s.dev 0x0F02 0 (e1 c ++ e1 declared)] ∧
      (∀ o, o ≠ c → clusterOf d o = clusterOf s.dev o) ∧ d.lnd = s.dev.lnd) := by
  refine yields_after hi ?_
  rw [clusterOf_settle, settle_evs, settle_lnd, clusterOf_asleep, asleep_evs (mode_of_nmTimes hn), asleep_lnd]
  exact ⟨rfl, rfl, fun o ho => by rw [clusterOf_settle, clusterOf_asleep_ne _ ho], rfl⟩

theorem sleepComplete_due {d : Dev} {c : Nat} (hn : nmTimes d c = true) (hst : (clusterOf d c).st = 6)
    (hbus : ∀ ch ∈ nmCans d c, onBus (canOf d ch) = none) (hp : ∀ p ∈ tc10Ports d c, (ethOf d p).st = 4) :
    sleepComplete d c = sleepDone d c 0 := by
  have hquiet : (nmCans d c).all (fun ch => (onBus (canOf d ch)).isNone) = true :=
    List.all_eq_true.mpr fun ch h => by rw [hbus ch h]; rfl
  have hports : (tc10Ports d c).all (fun p => (ethOf d p).st == 4) = true := List.all_eq_true.mpr fun p h => by rw [hp p h]; rfl
  rw [sleepComplete, hn, hst, hquiet, hports]
  exact if_pos rfl

theorem sleepTimeout_due {d : Dev} {c : Nat} (hn : nmTimes d c = true) (hst : (clusterOf d c).st = 6) (he : nmElapsed d c = true) :
    sleepTimeout d c = sleepDone (((tc10Ports d c).filter (fun p => (ethOf d p).st != 4)).foldl phySleepFail d) c 1 := by
  rw [sleepTimeout, hn, hst, he]
  exact if_pos rfl

/-! ## A port that does not sleep (R424) -/

/-- Port `p` is down, and the events of `d` stand first. -/
structure DownAfter (d : Dev) (p : Nat) (e : Dev) : Prop where
  down : (ethOf e p).st = 1
  first : ∃ l, e.evs = d.evs ++ l

namespace DownAfter
variable {d e f : Dev} {p : Nat}

theorem keep (h : DownAfter d p e) (heth : f.eth = e.eth) (hevs : f.evs = e.evs) : DownAfter d p f :=
  ⟨by rw [ethOf, heth]; exact h.down, by rw [hevs]; exact h.first⟩

theorem raised (h : DownAfter d p e) (code cls : Nat) (data : Bytes) : DownAfter d p (raise e code cls data) := by
  refine ⟨by rw [ethOf_raise]; exact h.down, ?_⟩
  obtain ⟨l, hl⟩ := h.first
  by_cases hm : 2 ≤ e.clk.mode.num
  · exact ⟨l ++ [evNow e code cls data], by rw [raise_evs hm, hl, List.append_assoc]⟩
  · exact ⟨l, by rw [raise_early (Nat.not_le.mp hm), ← hl]⟩

/-- R238: a local wake request leaves a port that is down as it is. -/
theorem tc10Local (h : DownAfter d p e) (q : Nat) : DownAfter d p (tc10Local e q) := by
  unfold Machine.tc10Local
  dsimp only
  split
  · refine ⟨?_, h.first⟩
    change (ethOf (tc10Wake e q) p).st = 1
    rw [tc10Wake]
    by_cases hq : p = q
    · subst hq
      rw [ethOf_modEth_same, h.down]
      rfl
    · rw [ethOf_modEth_ne _ hq, h.down]
  · exact h

theorem nmState (h : DownAfter d p e) (c st ms : Nat) : DownAfter d p (nmState e c st ms) :=
  h.keep (InhBlind.inhUpdate (g := Dev.eth) ⟨fun _ _ _ => rfl, fun _ _ => rfl⟩ _) ((nmBlind_evs c).nmState ..)

theorem keepAlive (h : DownAfter d p e) (c : Nat) : DownAfter d p (keepAlive e c) :=
  h.keep (SendBlind.kaSend (g := Dev.eth) ⟨fun _ _ => rfl, fun _ _ _ => rfl, fun _ _ _ _ => rfl⟩ _ c) ((nmBlind_evs c).keepAlive e)

theorem enterRepeat (h : DownAfter d p e) (c : Nat) (aw rmr : Bool) : DownAfter d p (enterRepeat e c aw rmr) := by
  refine keepAlive ?_ c
  refine List.foldlRecOn (motive := DownAfter d p) _ Machine.tc10Local ?_ (fun _ he q _ => he.tc10Local q)
  exact (h.nmState c 2 _).keep rfl rfl

/-- R422: so does every evaluation of local need. -/
theorem needEval (h : DownAfter d p e) (c : Nat) : DownAfter d p (needEval e c) := by
  unfold Machine.needEval
  dsimp only
  split
  · exact h
  · split
    · split
      · exact (h.raised ..).enterRepeat ..
      · exact h.enterRepeat ..
      · exact ((h.nmState c 3 0).keep (f := enterAwake e c) rfl rfl).keepAlive c
      · exact (h.raised ..).enterRepeat ..
      · split
        · exact h
        · exact h.keep rfl rfl
      · exact h
    · split
      · exact h.nmState ..
      · exact h

theorem sleepDone (h : DownAfter d p e) (c declared : Nat) : DownAfter d p (sleepDone e c declared) := by
  have hasleep : DownAfter d p (asleep e c declared) :=
    ((h.keep (f := bumpN e c 0xA0) rfl rfl).raised ..).nmState c 0 0
  unfold Machine.sleepDone
  dsimp only
  split
  · exact hasleep.needEval c
  · exact ((hasleep.keep (f := bumpN (asleep e c declared) c 0xA8) rfl rfl).enterRepeat ..).raised ..

end DownAfter

/-- R424: a port in LINK_DOWN's training state that does not sleep goes down, reported. -/
theorem phySleepFail_training {d : Dev} {p : Nat} (h : (ethOf d p).st = 2) :
    phySleepFail d p = raise (modEth d p (fun e => { e with st := 1 })) 0x0F06 0 (e1 p) := by
  rw [phySleepFail, h]
  rfl

/-! ## Settled: O50 -/

theorem yields_falseWake {s : State} {c : Nat} (hn : nmTimes s.dev c = true) (hst : (clusterOf s.dev c).st = 1)
    (he : nmElapsed s.dev c = true) :
    Yields (.nmFalseWake c) s (fun d => (clusterOf d c).st = 0 ∧
      d.evs = s.dev.evs ++ [evNow s.dev 0x0F04 0 (e1 c ++ e1 (clusterOf s.dev c).src)] ∧
      (∀ o, o ≠ c → clusterOf d o = clusterOf s.dev o) ∧ d.lnd = s.dev.lnd) := by
  have hrun : falseWake s.dev c = nmState (raise (bumpN s.dev c 0xB0) 0x0F04 0 (e1 c ++ e1 (clusterOf s.dev c).src)) c 0 0 := by
    rw [falseWake, hn, hst, he]
    exact if_pos rfl
  refine yields_after (exec_of_act (f := fun d => falseWake d c) rfl hrun) ?_
  rw [clusterOf_settle, settle_evs, settle_lnd, clusterOf_nmState, nmState_lnd, raise_lnd, (nmBlind_evs c).nmState]
  refine ⟨rfl, raise_evs (d := bumpN s.dev c 0xB0) (mode_of_nmTimes hn) .., fun o ho => ?_, rfl⟩
  rw [clusterOf_settle, clusterOf_nmState_ne _ ho]
  exact clusterOf_raise ..

/-- Settles O50: each timer steps its own cluster, and the end of sleep reports it. -/
theorem clustersFallAsleep : Obligations.ClustersFallAsleep := by
  unfold Obligations.ClustersFallAsleep
  refine ⟨?_, ?_, fun s c hn hst hw hs => yields_sleepCommit hn hst hw hs, ?_, ?_, ?_, ?_,
    fun s c hn hst he => yields_falseWake hn hst he⟩
  · intro s c hn hst he
    refine yields_after (exec_of_act (f := fun d => nmTtimeout d c) rfl (nmTtimeout_due hn hst he)) ?_
    rw [clusterOf_settle, settle_evs, settle_lnd, clusterOf_nmState, nmState_lnd, (nmBlind_evs c).nmState]
    refine ⟨rfl, rfl, rfl, rfl, fun o ho => ?_, rfl, rfl⟩
    rw [clusterOf_settle, clusterOf_nmState_ne _ ho]
  · intro s c hn hst he
    refine yields_after (exec_of_act (f := fun d => nmTwait d c) rfl (nmTwait_due hn hst he)) ?_
    rw [clusterOf_settle, settle_evs, settle_lnd, clusterOf_modNm_same]
    refine ⟨rfl, fun o ho => ?_, rfl, rfl⟩
    rw [clusterOf_settle, clusterOf_modNm_ne _ ho]
  · exact fun s c hw => exec_of_act (f := fun d => sleepCommit d c) rfl (if_neg (by simp [hw]))
  · intro s c hn hst hre hneed hbus hp
    have hrun := (sleepComplete_due hn hst hbus hp).trans (sleepDone_quiet hre hneed 0)
    exact yields_asleep hn (exec_of_act (f := fun d => sleepComplete d c) rfl hrun)
  · intro s c hn hst hre hneed he hp
    have hnone : (tc10Ports s.dev c).filter (fun p => (ethOf s.dev p).st != 4) = [] :=
      List.filter_eq_nil_iff.mpr fun p h => by rw [hp p h]; decide
    have hrun : sleepTimeout s.dev c = asleep s.dev c 1 := by
      rw [sleepTimeout_due hn hst he, hnone]
      exact sleepDone_quiet hre hneed 1
    refine (yields_asleep hn (exec_of_act (f := fun d => sleepTimeout d c) rfl hrun)).mono ?_
    rintro d ⟨hz, hevs, hothers, -⟩
    exact ⟨hz, hevs, hothers⟩
  · intro s c p hn hst he hports hp
    have hone : (tc10Ports s.dev c).filter (fun p => (ethOf s.dev p).st != 4) = [p] := by
      rw [hports]
      simp [hp]
    have hrun := sleepTimeout_due hn hst he
    rw [hone, List.foldl_cons, List.foldl_nil, phySleepFail_training hp] at hrun
    have hdown : (ethOf (raise (modEth s.dev p (fun e => { e with st := 1 })) 0x0F06 0 (e1 p)) p).st = 1 := by
      rw [ethOf_raise, ethOf_modEth_same]
    have hafter := DownAfter.sleepDone (d := raise (modEth s.dev p (fun e => { e with st := 1 })) 0x0F06 0 (e1 p))
      ⟨hdown, [], (List.append_nil _).symm⟩ c 1
    obtain ⟨l, hl⟩ := hafter.first
    refine yields_after (exec_of_act (f := fun d => sleepTimeout d c) rfl hrun) ⟨?_, l, ?_⟩
    · rw [ethOf_settle]
      exact hafter.down
    · rw [settle_evs, hl, raise_evs (d := modEth s.dev p (fun e => { e with st := 1 })) (mode_of_nmTimes hn), List.append_assoc]
      rfl

end Sys2Proof.Machine
end

section
/-! SUPPORT. Twins (chapter 14): what a freeze of the Landing or of an egress scheduler leaves of the device, the CAN buffers after it, and
the twin after a mismatch, a replay, a resume and a commit notice. -/

namespace Sys2Proof.Machine

/-! ## Twins -/

theorem twinOf_congr {a b : Dev} (h : a.flt.twins = b.flt.twins) (t : Nat) : twinOf a t = twinOf b t := by rw [twinOf, twinOf, h]

theorem twinOf_modTwin (d : Dev) (t : Nat) (f : Twin → Twin) : twinOf (modTwin d t f) t = f (twinOf d t) := by
  simp [twinOf, modTwin, mapMod, mapGet, mapGet?_mapPut]

theorem twinOf_modTwin_ne (d : Dev) {t o : Nat} (h : o ≠ t) (f : Twin → Twin) : twinOf (modTwin d t f) o = twinOf d o := by
  simp [twinOf, modTwin, mapMod, mapGet, mapGet?_mapPut, Ne.symm h]

@[simp] theorem twinOf_settle (d : Dev) (t : Nat) : twinOf (settle d) t = twinOf d t := twinOf_congr (by rw [settle_flt]) t
@[simp] theorem twinOf_raise (d : Dev) (code cls : Nat) (data : Bytes) (t : Nat) : twinOf (raise d code cls data) t = twinOf d t :=
  twinOf_congr (by rw [raise_flt]) t
@[simp] theorem twinOf_raiseF3 (d : Dev) (code : Nat) (data : Bytes) (t : Nat) : twinOf (raiseF3 d code data) t = twinOf d t :=
  twinOf_raise d code 3 data t
@[simp] theorem twinOf_raiseF4 (d : Dev) (code : Nat) (data : Bytes) (t : Nat) : twinOf (raiseF4 d code data) t = twinOf d t :=
  twinOf_raise d code 4 data t

/-! ## What a freeze leaves (R183, R403) -/

/-- What `g` reads is nothing that the freeze of a port moves: the Landing, the ports, the outputs, the counters and what the Landing's
twin has in flight or in its log. -/
structure PortBlind {α : Type} (g : Dev → α) : Prop where
  lnd : ∀ d l, g { d with lnd := l } = g d
  eth : ∀ d m, g { d with eth := m } = g d
  emit : ∀ d o, g (emit d o) = g d
  bumpBy : ∀ d off inst n, g (bumpBy d off inst n) = g d
  twin : ∀ d f, (∀ w, ∃ a b, f w = { w with flight := a, log := b }) → g (modTwin d 0 f) = g d

/-- What `g` reads is neither that nor a CAN channel. -/
structure FreezeBlind {α : Type} (g : Dev → α) : Prop extends PortBlind g where
  can : ∀ d m, g { d with can := m } = g d

section PortBlind
variable {α : Type} {g : Dev → α} (hg : PortBlind g)
include hg

theorem PortBlind.stomp (d : Dev) (o n : Nat) : g (stomp d o n) = g d :=
  (hg.bumpBy ..).trans ((hg.bumpBy ..).trans ((hg.bumpBy ..).trans ((hg.emit ..).trans ((hg.eth ..).trans (hg.lnd ..)))))

theorem PortBlind.stompAgain (d : Dev) (o : Nat) : g (stompAgain d o) = g d := by
  unfold Machine.stompAgain
  dsimp only
  split
  · split
    · exact hg.stomp ..
    · refine (hg.lnd ..).trans ((hg.stomp ..).trans ((hg.lnd ..).trans ((hg.lnd ..).trans (hg.twin _ _ fun w => ?_))))
      split
      · exact ⟨_, w.log, rfl⟩
      · exact ⟨w.flight, _, rfl⟩
  · rfl

theorem PortBlind.freezePort (d : Dev) (p : Nat) : g (freezePort d p) = g d := by
  refine (hg.stompAgain ..).trans ((hg.eth ..).trans ?_)
  exact foldl_keeps (fun d it => hg.lnd d _) d _

end PortBlind

section FreezeBlind
variable {α : Type} {g : Dev → α} (hg : FreezeBlind g)
include hg

theorem FreezeBlind.modCan (d : Dev) (ch : Nat) (f : CanCh → CanCh) : g (modCan d ch f) = g d := hg.can ..

theorem FreezeBlind.clearXb (d : Dev) (ch b : Nat) : g (clearXb d ch b) = g d := by
  obtain ⟨m, h⟩ := clearXb_eq d ch b
  rw [h, hg.modCan]

theorem FreezeBlind.putBack (d : Dev) (ch : Nat) (x : XbFrame) : g (putBack d ch x) = g d := by
  unfold Machine.putBack
  split
  · rfl
  · exact (hg.lnd ..).trans (hg.lnd ..)

theorem FreezeBlind.freezeXb (d : Dev) (ch b : Nat) (x : XbFrame) : g (freezeXb d ch b x) = g d := by
  have hback : g (Machine.putBack (Machine.clearXb d ch b) ch x) = g d := (hg.putBack ..).trans (hg.clearXb ..)
  unfold Machine.freezeXb
  dsimp only
  split
  · exact (hg.modCan ..).trans hback
  · exact hback

theorem FreezeBlind.freezeCan (d : Dev) (chs : List Nat) : g (freezeCan d chs) = g d := by
  have hch : ∀ (d : Dev) (ch : Nat), g ((unsentBufs d ch).foldl (fun d p => Machine.freezeXb d ch p.1 p.2) d) = g d := fun d ch =>
    foldl_keeps (fun d (p : Nat × XbFrame) => hg.freezeXb d ch p.1 p.2) d _
  exact foldl_keeps hch d chs

theorem FreezeBlind.freezeLanding (d : Dev) (t : Nat) : g (freezeLanding d t) = g d := by
  unfold Machine.freezeLanding
  split
  · exact (foldl_keeps hg.freezePort _ _).trans (hg.freezeCan ..)
  · split
    · exact (foldl_keeps hg.freezePort _ _).trans (hg.freezeCan ..)
    · rfl

end FreezeBlind

theorem freezeBlind_evs : FreezeBlind Dev.evs :=
  { lnd := fun _ _ => rfl, eth := fun _ _ => rfl, emit := fun _ _ => rfl, bumpBy := fun _ _ _ _ => rfl, twin := fun _ _ _ => rfl,
    can := fun _ _ => rfl }
theorem freezeBlind_regs : FreezeBlind Dev.regs :=
  { lnd := fun _ _ => rfl, eth := fun _ _ => rfl, emit := fun _ _ => rfl, bumpBy := fun _ _ _ _ => rfl, twin := fun _ _ _ => rfl,
    can := fun _ _ => rfl }
theorem freezeBlind_clk : FreezeBlind Dev.clk :=
  { lnd := fun _ _ => rfl, eth := fun _ _ => rfl, emit := fun _ _ => rfl, bumpBy := fun _ _ _ _ => rfl, twin := fun _ _ _ => rfl,
    can := fun _ _ => rfl }
theorem freezeBlind_degraded : FreezeBlind (fun d => d.flt.degraded) :=
  { lnd := fun _ _ => rfl, eth := fun _ _ => rfl, emit := fun _ _ => rfl, bumpBy := fun _ _ _ _ => rfl, twin := fun _ _ _ => rfl,
    can := fun _ _ => rfl }
theorem freezeBlind_twin {o : Nat} (h : o ≠ 0) : FreezeBlind (fun d => twinOf d o) :=
  { lnd := fun _ _ => rfl, eth := fun _ _ => rfl, emit := fun _ _ => rfl, bumpBy := fun _ _ _ _ => rfl,
    twin := fun d f _ => twinOf_modTwin_ne d h f, can := fun _ _ => rfl }

/-- The phase of every twin stands through a freeze's preparation. -/
theorem freezeBlind_phase (t : Nat) : FreezeBlind (fun d => (twinOf d t).phase) :=
  { lnd := fun _ _ => rfl, eth := fun _ _ => rfl, emit := fun _ _ => rfl, bumpBy := fun _ _ _ _ => rfl, can := fun _ _ => rfl,
    twin := fun d f hf => by
      by_cases h : t = 0
      · subst h
        obtain ⟨a, b, hw⟩ := hf (twinOf d 0)
        rw [twinOf_modTwin, hw]
      · rw [twinOf_modTwin_ne d h] }

theorem portBlind_can : PortBlind Dev.can :=
  { lnd := fun _ _ => rfl, eth := fun _ _ => rfl, emit := fun _ _ => rfl, bumpBy := fun _ _ _ _ => rfl, twin := fun _ _ _ => rfl }

/-! ## The CAN buffers after a freeze (R183) -/

/-- The three buffers of a channel; every other number reads as the third. -/
theorem xbOf_min (c : CanCh) (b : Nat) : xbOf c b = xbOf c (min b 2) := by
  by_cases h : b ≤ 2
  · rw [Nat.min_eq_left h]
  · rw [Nat.min_eq_right (by omega), xbOf, if_neg (by omega), if_neg (by omega)]
    rfl

/-- A buffer that is emptied, among the three. -/
theorem xbOf_setXb_none (c : CanCh) {b o : Nat} (hb : b ≤ 2) (ho : o ≤ 2) : xbOf (setXb c b none) o = if b = o then none else xbOf c o := by
  have hb' : b = 0 ∨ b = 1 ∨ b = 2 := by omega
  have ho' : o = 0 ∨ o = 1 ∨ o = 2 := by omega
  obtain rfl | rfl | rfl := hb' <;> obtain rfl | rfl | rfl := ho' <;> rfl

theorem putBack_can (d : Dev) (ch : Nat) (x : XbFrame) : (putBack d ch x).can = d.can := by
  unfold putBack
  split <;> rfl

/-- R183: what the freeze of one buffer leaves of its channel's buffers, and of the other channels. -/
theorem xbOf_freezeXb (d : Dev) (ch : Nat) {b o : Nat} (hb : b ≤ 2) (ho : o ≤ 2) (x : XbFrame) :
    xbOf (canOf (freezeXb d ch b x) ch) o = if b = o then none else xbOf (canOf d ch) o := by
  obtain ⟨m, hclear⟩ := clearXb_eq d ch b
  have hback : xbOf (canOf (putBack (clearXb d ch b) ch x) ch) o = if b = o then none else xbOf (canOf d ch) o := by
    rw [canOf_congr (putBack_can ..), hclear, canOf_modCan_same]
    exact (xbOf_unpick ..).trans (xbOf_setXb_none _ hb ho)
  unfold freezeXb
  dsimp only
  split
  · rw [canOf_modCan_same]
    exact hback
  · exact hback

theorem canOf_freezeXb_ne (d : Dev) {ch o : Nat} (h : o ≠ ch) (b : Nat) (x : XbFrame) : canOf (freezeXb d ch b x) o = canOf d o := by
  have hback : canOf (putBack (clearXb d ch b) ch x) o = canOf d o :=
    (canOf_congr (putBack_can ..) o).trans ((canKeeps_clearXb d ch b).others o h)
  unfold freezeXb
  dsimp only
  split
  · rw [canOf_modCan_ne _ h]
    exact hback
  · exact hback

/-- R183: the buffers of one channel before their first SOF are emptied, in whatever order. -/
def freezeBufs (d : Dev) (ch : Nat) (l : List (Nat × XbFrame)) : Dev := l.foldl (fun d p => freezeXb d ch p.1 p.2) d

theorem xbOf_freezeBufs {l : List (Nat × XbFrame)} (hl : ∀ p ∈ l, p.1 ≤ 2) (d : Dev) (ch : Nat) {o : Nat} (ho : o ≤ 2) :
    xbOf (canOf (freezeBufs d ch l) ch) o = if ∃ p ∈ l, p.1 = o then none else xbOf (canOf d ch) o := by
  induction l generalizing d with
  | nil => simp [freezeBufs]
  | cons p l ih =>
    have hstep : freezeBufs d ch (p :: l) = freezeBufs (freezeXb d ch p.1 p.2) ch l := rfl
    rw [hstep, ih (fun q hq => hl q (List.mem_cons_of_mem _ hq)), xbOf_freezeXb d ch (hl p List.mem_cons_self) ho]
    by_cases hp : p.1 = o
    · simp [hp]
    · simp only [List.mem_cons, exists_eq_or_imp, hp, false_or, if_false]

theorem canOf_freezeBufs_ne (d : Dev) {ch o : Nat} (h : o ≠ ch) (l : List (Nat × XbFrame)) : canOf (freezeBufs d ch l) o = canOf d o :=
  foldl_keeps (g := fun d => canOf d o) (fun d (p : Nat × XbFrame) => canOf_freezeXb_ne d h p.1 p.2) d l

theorem mem_insByFill (x y : Nat × XbFrame) (l : List (Nat × XbFrame)) : y ∈ insByFill x l ↔ y = x ∨ y ∈ l := by
  induction l with
  | nil => simp [insByFill]
  | cons z l ih =>
    unfold insByFill
    split
    · simp
    · rw [List.mem_cons, ih, List.mem_cons]
      tauto

theorem mem_foldr_insByFill (y : Nat × XbFrame) (l : List (Nat × XbFrame)) : y ∈ l.foldr insByFill [] ↔ y ∈ l := by
  induction l with
  | nil => rfl
  | cons z l ih => rw [List.foldr_cons, mem_insByFill, ih, List.mem_cons]

/-- R183: the buffers that a freeze empties: those with a frame that is no mailbox's and of which no SOF has been sent. -/
theorem mem_unsentBufs (d : Dev) (ch b : Nat) (x : XbFrame) :
    (b, x) ∈ unsentBufs d ch ↔ b ≤ 2 ∧ xbOf (canOf d ch) b = some x ∧ x.sof = false ∧ x.mbox = false := by
  have hb : b ∈ [0, 1, 2] ↔ b ≤ 2 := by
    simp only [List.mem_cons, List.not_mem_nil, or_false]
    omega
  rw [unsentBufs, mem_foldr_insByFill, List.mem_filterMap]
  constructor
  · rintro ⟨a, ha, h⟩
    cases hx : xbOf (canOf d ch) a with
    | none => simp [hx] at h
    | some y =>
      simp only [hx, Option.bind_some, Option.ite_none_left_eq_some, Bool.or_eq_true, not_or, Bool.not_eq_true, Option.some.injEq,
        Prod.mk.injEq] at h
      obtain ⟨⟨hsof, hmbox⟩, rfl, rfl⟩ := h
      exact ⟨by simp only [List.mem_cons, List.not_mem_nil, or_false] at ha; omega, hx, hsof, hmbox⟩
  · rintro ⟨h, hx, hsof, hmbox⟩
    exact ⟨b, hb.mpr h, by simp [hx, hsof, hmbox]⟩

/-- R183: no frame of the Landing stands in a buffer of the channel before its first SOF. -/
def Committed (d : Dev) (ch : Nat) : Prop := ∀ b x, xbOf (canOf d ch) b = some x → x.sof = true ∨ x.mbox = true

theorem committed_freezeBufs (d : Dev) (ch : Nat) : Committed (freezeBufs d ch (unsentBufs d ch)) ch := by
  intro b x hx
  have hsmall : ∀ p ∈ unsentBufs d ch, p.1 ≤ 2 := fun p hp => ((mem_unsentBufs d ch p.1 p.2).mp hp).1
  rw [xbOf_min, xbOf_freezeBufs hsmall d ch (Nat.min_le_right b 2)] at hx
  by_cases hin : ∃ p ∈ unsentBufs d ch, p.1 = min b 2
  · rw [if_pos hin] at hx
    cases hx
  · rw [if_neg hin] at hx
    by_contra hno
    rw [not_or, Bool.not_eq_true, Bool.not_eq_true] at hno
    exact hin ⟨(min b 2, x), (mem_unsentBufs ..).mpr ⟨Nat.min_le_right b 2, hx, hno.1, hno.2⟩, rfl⟩

theorem committed_congr {a b : Dev} {ch : Nat} (h : canOf a ch = canOf b ch) (hb : Committed b ch) : Committed a ch := by
  intro i x hx
  rw [h] at hx
  exact hb i x hx

/-- R183: every channel that a freeze names, and every one that it finds so, is committed. -/
theorem committed_freezeCan {chs : List Nat} {ch : Nat} (d : Dev) (h : ch ∈ chs ∨ Committed d ch) : Committed (freezeCan d chs) ch := by
  induction chs generalizing d with
  | nil => exact h.resolve_left List.not_mem_nil
  | cons c chs ih =>
    have hstep : freezeCan d (c :: chs) = freezeCan (freezeBufs d c (unsentBufs d c)) chs := rfl
    rw [hstep]
    by_cases hc : ch = c
    · subst hc
      exact ih _ (.inr (committed_freezeBufs d ch))
    · refine ih _ (h.imp (fun hm => (List.mem_cons.mp hm).resolve_left hc) fun hk => ?_)
      exact committed_congr (canOf_freezeBufs_ne d hc _) hk

/-- R183: the channels of the twin that freezes. -/
theorem committed_freezeLanding (d : Dev) {t ch : Nat} (h : (t = 0 ∧ ch < 24) ∨ (6 ≤ t ∧ t ≤ 9 ∧ ch / 6 = t - 6)) :
    Committed (freezeLanding d t) ch := by
  have hports : ∀ (d : Dev) (l : List Nat), canOf (l.foldl freezePort d) ch = canOf d ch := fun d l =>
    canOf_congr (foldl_keeps portBlind_can.freezePort d l) ch
  obtain ⟨rfl, hch⟩ | ⟨hlo, hhi, hch⟩ := h
  · rw [freezeLanding, if_pos rfl]
    exact committed_congr (hports ..) (committed_freezeCan d (.inl (List.mem_range.mpr hch)))
  · rw [freezeLanding, if_neg (by omega), if_pos (by simp; omega)]
    refine committed_congr (hports ..) (committed_freezeCan d (.inl (List.mem_map.mpr ⟨ch % 6, List.mem_range.mpr (by omega), by omega⟩)))

/-! ## A mismatch (R402, R405, R407) -/

/-- R407: the mismatches of the last second with a new one. -/
def missList (d : Dev) (t : Nat) (m : Mismatch) : List Miss :=
  window d (twinOf d t) ++ [{ at' := d.clk.tclk, rail := m.rail, main := m.evMain, check := m.evChecker }]

/-- The mismatch comes again: in a replay, or before a mark since the resume. -/
def missAgain (d : Dev) (t : Nat) : Bool := (twinOf d t).phase == 2 || (twinOf d t).unmarked

/-- The counters of a mismatch. -/
def missCounted (d : Dev) (t : Nat) (m : Mismatch) : Dev :=
  let d1 := bump d 0x20040 t
  let d1 := if m.rail then bump d1 0x20048 t else d1
  let d1 := if missAgain d t then bump d1 0x20050 t else d1
  if recopyOf m ≠ 0 then bump d1 0x20058 t else d1

theorem missCounted_keeps {α : Type} {g : Dev → α} (h : ∀ d o i, g (bump d o i) = g d) (d : Dev) (t : Nat) (m : Mismatch) :
    g (missCounted d t m) = g d :=
  (keeps_ite (h ..)).trans ((keeps_ite (h ..)).trans ((keeps_ite (h ..)).trans (h ..)))

/-- R402: a twin that freezes in the device `d`. -/
def frozenTwin (d : Dev) (l : List Miss) (rail again : Bool) (rc : Nat) (w : Twin) : Twin :=
  { w with phase := 1, misses := l, rail := rail, again := again, recopy := rc, freezeNs := if w.phase = 0 then nowNs d else w.freezeNs,
           freezeT := if w.phase = 0 then d.clk.tclk else w.freezeT }

/-- R402: the device with the twin frozen. -/
def frozeAt (d : Dev) (t : Nat) (m : Mismatch) : Dev :=
  let e := freezeLanding (missCounted d t m) t
  modTwin e t (frozenTwin e (missList d t m) m.rail (missAgain d t) (recopyOf m))

theorem mismatch_freezes {d : Dev} {t : Nat} (hl : twinLocked d t = true) (ht : t ≠ 31) (hp : (twinOf d t).phase = 0) (m : Mismatch) :
    mismatch d t m = if 3 ≤ (missList d t m).length then permanent (frozeAt d t m) t (missList d t m) else frozeAt d t m := by
  rw [mismatch, if_neg (by simp [hl]), if_neg ht]
  dsimp only
  rw [if_neg (by rw [hp]; decide)]
  rfl

/-- R402: the twin that has frozen. -/
theorem twinOf_frozeAt {d : Dev} {t : Nat} (hp : (twinOf d t).phase = 0) (m : Mismatch) :
    (twinOf (frozeAt d t m) t).phase = 1 ∧ (twinOf (frozeAt d t m) t).misses = missList d t m ∧
      (twinOf (frozeAt d t m) t).freezeNs = nowNs d ∧ (twinOf (frozeAt d t m) t).freezeT = d.clk.tclk := by
  have hclk : (freezeLanding (missCounted d t m) t).clk = d.clk :=
    (freezeBlind_clk.freezeLanding ..).trans (missCounted_keeps (g := Dev.clk) (fun _ _ _ => rfl) d t m)
  have hphase : (twinOf (freezeLanding (missCounted d t m) t) t).phase = 0 :=
    ((freezeBlind_phase t).freezeLanding ..).trans
      ((missCounted_keeps (g := fun d => (twinOf d t).phase) (fun _ _ _ => rfl) d t m).trans hp)
  rw [frozeAt, twinOf_modTwin, frozenTwin, hphase, if_pos rfl, if_pos rfl, nowNs_congr hclk, hclk]
  exact ⟨rfl, rfl, rfl, rfl⟩

/-- R407: the classification of a third mismatch leaves the twin but for its mismatches, and the CAN channels. -/
theorem permanent_shape (d : Dev) (t : Nat) (l : List Miss) :
    twinOf (permanent d t l) t = { twinOf d t with misses := [] } ∧ (permanent d t l).can = d.can := by
  have htwin : twinOf (modTwin d t (fun w => { w with misses := [] })) t = { twinOf d t with misses := [] } := twinOf_modTwin ..
  unfold permanent
  dsimp only
  split
  · exact ⟨by rw [twinOf_raiseF4, htwin], raise_can ..⟩
  · split
    · exact ⟨by rw [twinOf_raiseF4, htwin], raise_can ..⟩
    · exact ⟨by rw [twinOf_raiseF3]; exact htwin, (raise_can ..).trans rfl⟩

/-- R402: whatever its number, a mismatch leaves its twin frozen since now. -/
theorem twinOf_mismatch {d : Dev} {t : Nat} (hl : twinLocked d t = true) (ht : t ≠ 31) (hp : (twinOf d t).phase = 0) (m : Mismatch) :
    (twinOf (mismatch d t m) t).phase = 1 ∧ (twinOf (mismatch d t m) t).freezeNs = nowNs d ∧
      (twinOf (mismatch d t m) t).freezeT = d.clk.tclk := by
  obtain ⟨hphase, -, hns, ht'⟩ := twinOf_frozeAt hp m
  rw [mismatch_freezes hl ht hp]
  split
  · rw [(permanent_shape ..).1]
    exact ⟨hphase, hns, ht'⟩
  · exact ⟨hphase, hns, ht'⟩

theorem committed_mismatch {d : Dev} {t ch : Nat} (hl : twinLocked d t = true) (hp : (twinOf d t).phase = 0)
    (h : (t = 0 ∧ ch < 24) ∨ (6 ≤ t ∧ t ≤ 9 ∧ ch / 6 = t - 6)) (m : Mismatch) : Committed (mismatch d t m) ch := by
  have hfroze : Committed (frozeAt d t m) ch := committed_congr rfl (committed_freezeLanding (missCounted d t m) h)
  rw [mismatch_freezes hl (by omega) hp]
  split
  · exact committed_congr (canOf_congr (permanent_shape ..).2 ch) hfroze
  · exact hfroze

/-- R407: the first two mismatches of a second freeze alone. -/
theorem mismatch_early {d : Dev} {t : Nat} (hl : twinLocked d t = true) (ht : t ≠ 31) (hp : (twinOf d t).phase = 0)
    (hw : (window d (twinOf d t)).length < 2) (m : Mismatch) : mismatch d t m = frozeAt d t m := by
  rw [mismatch_freezes hl ht hp]
  exact if_neg (by rw [missList, List.length_append, List.length_singleton]; omega)

/-- What a freeze leaves that reads neither a twin nor a counter. -/
theorem frozeAt_keeps {α : Type} {g : Dev → α} (hg : FreezeBlind g) {t : Nat} (htwin : ∀ d f, g (modTwin d t f) = g d) (d : Dev)
    (m : Mismatch) : g (frozeAt d t m) = g d :=
  (htwin ..).trans ((hg.freezeLanding ..).trans (missCounted_keeps (fun d o i => hg.bumpBy d o i 1) d t m))

/-- R402: a twin that is neither the Landing's nor an egress scheduler's freezes alone. -/
theorem frozeAt_plain {d : Dev} {t : Nat} (h0 : t ≠ 0) (h : t < 6 ∨ 9 < t) (m : Mismatch) : frozeAt d t m =
    modTwin (missCounted d t m) t (frozenTwin (missCounted d t m) (missList d t m) m.rail (missAgain d t) (recopyOf m)) := by
  have hnone : freezeLanding (missCounted d t m) t = missCounted d t m := by
    rw [freezeLanding, if_neg h0, if_neg (by simp; omega)]
  rw [frozeAt, hnone]

/-! ## Replay and resume (R398, R401, R402) -/

/-- A device with other parse stages. -/
def withParse (d : Dev) (m : NMap (List LookItem)) : Dev := { d with rte := { d.rte with parse := m } }

theorem dropAt_nil {α : Type} (l : List α) : dropAt l [] = l := by
  have hall : l.zipIdx.filter (fun x => !([] : List Nat).contains x.2) = l.zipIdx := List.filter_eq_self.mpr fun _ _ => rfl
  rw [dropAt, hall]
  exact List.zipIdx_map_fst 0 l

theorem filter_poisoned_nil {α : Type} (l : List α) (f : α → Nat) : l.filter (fun x => ([] : List Nat).contains (f x)) = [] :=
  List.filter_eq_nil_iff.mpr fun _ _ h => by cases h

theorem poisonLookups_nil (d : Dev) : ∃ n, poisonLookups d [] = (d, 0, n) := by
  have hit : (d.rte.lookup.map (fun e => (e.2.zipIdx.filter (fun x => ([] : List Nat).contains x.2)).map (fun x => x.1))).flatten = [] := by
    rw [List.flatten_eq_nil_iff]
    intro l hl
    obtain ⟨e, -, rfl⟩ := List.mem_map.mp hl
    rw [filter_poisoned_nil e.2.zipIdx (fun x => x.2), List.map_nil]
  have hkeep : d.rte.lookup.map (fun e => (e.1, dropAt e.2 [])) = d.rte.lookup := by
    simp only [dropAt_nil, Prod.mk.eta, List.map_id']
  rw [poisonLookups, hit]
  simp only [List.foldl_nil, List.filter_nil, List.length_nil, hkeep]
  exact ⟨0, rfl⟩

theorem poisonLanes_nil (d : Dev) (lanes : List Nat) (host : LaneItem → Bool) : poisonLanes d lanes [] host = (d, 0, 0) := by
  have hit : (lanes.map (fun k => (laneOf d k).items.filter (fun it => ([] : List Nat).contains it.pkt.id))).flatten = [] := by
    rw [List.flatten_eq_nil_iff]
    intro l hl
    obtain ⟨k, -, rfl⟩ := List.mem_map.mp hl
    exact filter_poisoned_nil _ (fun it => it.pkt.id)
  rw [poisonLanes, hit]
  rfl

/-- R398: without poisoned items nothing is dropped. -/
theorem poisonItems_nil (d : Dev) (t : Nat) : ∃ m n, poisonItems d t [] = (withParse d m, 0, n) ∧
    ∀ g, mapGet [] m g = mapGet [] d.rte.parse g := by
  unfold poisonItems
  split
  · exact ⟨d.rte.parse, _, rfl, fun _ => rfl⟩
  · split
    · obtain ⟨n, h⟩ := poisonLookups_nil d
      exact ⟨d.rte.parse, n, h, fun _ => rfl⟩
    · split
      · refine ⟨mapPut d.rte.parse (t - 2) (mapGet [] d.rte.parse (t - 2)), 0, ?_, fun g => ?_⟩
        · dsimp only
          rw [dropAt_nil, Nat.sub_self]
          rfl
        · rw [mapGet, mapGet?_mapPut]
          split
          · rename_i h
            rw [h]
            rfl
          · rfl
      · split
        · exact ⟨d.rte.parse, 0, poisonLanes_nil .., fun _ => rfl⟩
        · split
          · have hkeep : d.mil.slices.filter (fun s => !([] : List Nat).contains s.2.pkt.id) = d.mil.slices :=
              List.filter_eq_self.mpr fun _ _ => rfl
            dsimp only
            rw [filter_poisoned_nil d.mil.slices (fun s => s.2.pkt.id), List.foldl_nil, hkeep]
            exact ⟨d.rte.parse, 0, rfl, fun _ => rfl⟩
          · split
            · exact ⟨d.rte.parse, 0, poisonLanes_nil .., fun _ => rfl⟩
            · split
              · have hpages : poisonPages d (t - 15) [] = [] := List.filter_eq_nil_iff.mpr fun p _ h => by simp at h
                dsimp only
                rw [hpages, filter_poisoned_nil _ (fun it : LaneItem => it.pkt.id)]
                exact ⟨d.rte.parse, 0, rfl, fun _ => rfl⟩
              · exact ⟨d.rte.parse, 0, rfl, fun _ => rfl⟩

/-- R398, R402: replay starts without poisoned items. -/
theorem replayStart_clean {d : Dev} {t : Nat} (hr : running d = true) (hp : (twinOf d t).phase = 1) :
    ∃ m, replayStart d t [] = withParse (modTwin d t (fun w => { w with phase := 2 })) m ∧
      ∀ g, mapGet [] m g = mapGet [] d.rte.parse g := by
  obtain ⟨m, n, hitems, hm⟩ := poisonItems_nil (modTwin d t (fun w => { w with phase := 2 })) t
  refine ⟨m, ?_, hm⟩
  rw [replayStart, hr, hp, if_neg (by simp)]
  dsimp only
  rw [hitems]
  exact if_pos rfl

theorem yields_replayStart {s : State} {t : Nat} (hr : running s.dev = true) (hp : (twinOf s.dev t).phase = 1) :
    Yields (.replayStart t []) s (fun d => twinOf d t = { twinOf s.dev t with phase := 2 } ∧
      (∀ o, o ≠ t → twinOf d o = twinOf s.dev o) ∧ d.lnd = s.dev.lnd ∧ d.rte.lookup = s.dev.rte.lookup ∧
      (∀ g, mapGet [] d.rte.parse g = mapGet [] s.dev.rte.parse g) ∧ d.mil = s.dev.mil ∧ d.evs = s.dev.evs) := by
  obtain ⟨m, hrun, hm⟩ := replayStart_clean hr hp
  refine yields_after (exec_of_act (f := fun d => replayStart d t []) rfl hrun) ?_
  rw [twinOf_settle, settle_lnd, settle_rte, settle_mil, settle_evs]
  refine ⟨twinOf_modTwin .., fun o ho => ?_, rfl, rfl, hm, rfl, rfl⟩
  rw [twinOf_settle]
  exact twinOf_modTwin_ne _ ho _

/-- R401, R402: the suppressed outputs counted, and the twin running again. -/
def restarted (d : Dev) (t : Nat) : Dev :=
  modTwin (bumpBy d 0x20068 0 (suppressed d t)) t (fun w => { w with phase := 0, unmarked := true })

/-- R402: the device whose twin has resumed after `len` periods of 10 ns, before its report. -/
def resumed (d : Dev) (t len : Nat) : Dev :=
  { restarted d t with flt := { (restarted d t).flt with recMax := max (restarted d t).flt.recMax len } }

theorem twinOf_resumed (d : Dev) (t len : Nat) : twinOf (resumed d t len) t = { twinOf d t with phase := 0, unmarked := true } := by
  have hsame : twinOf (resumed d t len) t = twinOf (restarted d t) t := rfl
  rw [hsame, restarted, twinOf_modTwin]
  rfl

theorem twinOf_resumed_ne (d : Dev) {t o : Nat} (h : o ≠ t) (len : Nat) : twinOf (resumed d t len) o = twinOf d o := by
  have hsame : twinOf (resumed d t len) o = twinOf (restarted d t) o := rfl
  rw [hsame, restarted, twinOf_modTwin_ne _ h]
  rfl

/-- R417: the data of a recovery's report. -/
def resumeData (w : Twin) (t len : Nat) : Bytes :=
  e1 t ++ e1 w.misses.length ++ eFlag w.rail ++ eFlag w.again ++ e1 w.recopy ++ e2 len

/-- R402, R417: the resume of a twin that runs on both copies is reported. -/
theorem twinResume_reports {d : Dev} {t : Nat} (hr : running d = true) (hp : (twinOf d t).phase = 2) (hd : twinDegraded d t = false) :
    ∃ len, twinResume d t = raiseF (resumed d t len) 0x0E01 2 (resumeData (twinOf d t) t len) := by
  refine ⟨min ((d.clk.tclk - (twinOf d t).freezeT) / 5) 0xFFFF, ?_⟩
  rw [twinResume]
  dsimp only
  rw [hr, hp, if_neg (by simp)]
  refine if_neg ?_
  change ¬ twinDegraded d t = true
  rw [hd]
  exact Bool.false_ne_true

theorem yields_twinResume {s : State} {t : Nat} (hr : running s.dev = true) (hp : (twinOf s.dev t).phase = 2)
    (hd : twinDegraded s.dev t = false) :
    Yields (.twinResume t) s (fun d => twinOf d t = { twinOf s.dev t with phase := 0, unmarked := true } ∧
      (∀ o, o ≠ t → twinOf d o = twinOf s.dev o) ∧ d.lnd = s.dev.lnd ∧
      ∃ e, d.evs = s.dev.evs ++ [e] ∧ e.code = 0x0E01 ∧ e.cls = 2) := by
  obtain ⟨len, hrun⟩ := twinResume_reports hr hp hd
  have hmode : 2 ≤ (resumed s.dev t len).clk.mode.num := mode_of_running hr
  have htwin : ∀ o, twinOf (raiseF (resumed s.dev t len) 0x0E01 2 (resumeData (twinOf s.dev t) t len)) o =
      twinOf (resumed s.dev t len) o := fun o => twinOf_raise _ _ _ _ o
  refine yields_after (exec_of_act (f := fun d => twinResume d t) rfl hrun) ?_
  rw [twinOf_settle, settle_lnd, settle_evs, htwin, twinOf_resumed]
  refine ⟨rfl, fun o ho => ?_, raise_lnd .., _, raise_evs hmode .., rfl, rfl⟩
  rw [twinOf_settle, htwin, twinOf_resumed_ne _ ho]

/-! ## Commit notices and other faults (R400, R409, R414) -/

theorem commitNotice_logs {d : Dev} {t n : Nat} (hr : running d = true) (ht : t ≠ 0) (hf : (twinOf d t).flight.contains n = true) :
    commitNotice d t n = modTwin d t (fun w => { w with flight := w.flight.erase n, log := w.log ++ [n] }) := by
  rw [commitNotice, hr, hf, if_neg (by simp)]
  exact if_pos ht

/-- R91, R415: an F4 fault is latched, reported and asks for M6. -/
theorem raiseF4_latches {d : Dev} (h : 2 ≤ d.clk.mode.num) (code : Nat) (data : Bytes) : (raiseF4 d code data).flt.f4 = true ∧
    (raiseF4 d code data).clk.f4Pend = true ∧ (raiseF4 d code data).evs = d.evs ++ [evNow d code 4 data] ∧
    (raiseF4 d code data).lnd = d.lnd ∧ (raiseF4 d code data).flt.rail = d.flt.rail := by
  refine ⟨rfl, rfl, raise_evs h .., raise_lnd .., ?_⟩
  change (raise d code 4 data).flt.rail = d.flt.rail
  rw [raise_flt]

theorem degradedFail_latches {d : Dev} {x : Nat × Nat × Nat} {o p : Bool} (hr : running d = true) (hd : d.flt.degraded = some x)
    (h : (o || p) = true) : degradedFail d o p = raiseF4 d 0x0E04 (e1 x.1 ++ eFlag p) := by
  rw [degradedFail, hd]
  exact if_pos (by rw [hr, h]; rfl)

/-- R414: the device with the pair `p` held in reset. -/
def withStopped (d : Dev) (p : Nat) : Dev := { d with flt := { d.flt with scDown := d.flt.scDown ++ [p] } }

theorem scStopped_reports {d : Dev} {p : Nat} (hr : running d = true) (hp : p < 4) (hd : d.flt.scDown.contains p = false) :
    scStopped d p = raise (withStopped d p) 0x0E0A 0 (e1 p) :=
  if_neg (by rw [hr, hd]; simp [hp])

/-- R414: the device with the Fault Manager's rails in disagreement. -/
def withRail (d : Dev) : Dev := { d with flt := { d.flt with rail := true } }

theorem fmRail_latches {d : Dev} (hr : running d = true) (h : d.flt.rail = false) : fmRail d = raiseF4 (withRail d) 0x0E0B [] := by
  rw [running, Bool.and_eq_true] at hr
  exact if_pos (by rw [hr.1, h]; rfl)

/-! ## Settled: O48 -/

theorem yields_mismatch_scheduler {s : State} {t : Nat} {m : Mismatch} (hlo : 6 ≤ t) (hhi : t ≤ 9) (hl : twinLocked s.dev t = true)
    (hp : (twinOf s.dev t).phase = 0) (hw : (window s.dev (twinOf s.dev t)).length < 2) :
    Yields (.twinMismatch t m) s (fun d => d.evs = s.dev.evs ∧ (∀ o, o ≠ t → o ≠ 0 → twinOf d o = twinOf s.dev o) ∧
      (twinOf d t).misses.length = (window s.dev (twinOf s.dev t)).length + 1 ∧ d.flt.degraded = s.dev.flt.degraded ∧
      d.regs = s.dev.regs) := by
  refine yields_after (exec_of_act (f := fun d => mismatch d t m) rfl (mismatch_early hl (by omega) hp hw m)) ?_
  rw [twinOf_settle, settle_evs, settle_flt, settle_regs, (twinOf_frozeAt hp m).2.1, missList, List.length_append]
  refine ⟨frozeAt_keeps freezeBlind_evs (fun _ _ => rfl) s.dev m, fun o ho h0 => ?_, rfl,
    frozeAt_keeps freezeBlind_degraded (fun _ _ => rfl) s.dev m, frozeAt_keeps freezeBlind_regs (fun _ _ => rfl) s.dev m⟩
  rw [twinOf_settle]
  exact frozeAt_keeps (freezeBlind_twin h0) (fun d f => twinOf_modTwin_ne d ho f) s.dev m

theorem yields_mismatch_plain {s : State} {t : Nat} {m : Mismatch} (h31 : t ≠ 31) (h0 : t ≠ 0) (ht : t < 6 ∨ 9 < t)
    (hl : twinLocked s.dev t = true) (hp : (twinOf s.dev t).phase = 0) (hw : (window s.dev (twinOf s.dev t)).length < 2) :
    Yields (.twinMismatch t m) s (fun d => d.evs = s.dev.evs ∧ (∀ o, o ≠ t → twinOf d o = twinOf s.dev o) ∧ d.lnd = s.dev.lnd ∧
      (twinOf d t).misses.length = (window s.dev (twinOf s.dev t)).length + 1 ∧ d.flt.degraded = s.dev.flt.degraded) := by
  refine yields_after (exec_of_act (f := fun d => mismatch d t m) rfl (mismatch_early hl h31 hp hw m)) ?_
  rw [twinOf_settle, settle_evs, settle_flt, settle_lnd, (twinOf_frozeAt hp m).2.1, missList, List.length_append]
  refine ⟨frozeAt_keeps freezeBlind_evs (fun _ _ => rfl) s.dev m, fun o ho => ?_, ?_, rfl,
    frozeAt_keeps freezeBlind_degraded (fun _ _ => rfl) s.dev m⟩
  · rw [twinOf_settle, frozeAt_plain h0 ht, twinOf_modTwin_ne _ ho]
    exact missCounted_keeps (g := fun d => twinOf d o) (fun _ _ _ => rfl) s.dev t m
  · rw [frozeAt_plain h0 ht]
    exact missCounted_keeps (g := Dev.lnd) (fun _ _ _ => rfl) s.dev t m

/-- Settles O48: a mismatch freezes its twin whatever is then classified, and the freeze empties the buffers of the twin's channels. -/
theorem twinsFreezeReplayAndResume : Obligations.TwinsFreezeReplayAndResume := by
  unfold Obligations.TwinsFreezeReplayAndResume
  refine ⟨?_, ?_, fun s t m hlo hhi hl hp hw => yields_mismatch_scheduler hlo hhi hl hp hw,
    fun s t m h31 h0 ht hl hp hw => yields_mismatch_plain h31 h0 ht hl hp hw, ?_, fun s t hr hp => yields_replayStart hr hp,
    fun s t hr hp hd => yields_twinResume hr hp hd, ?_, ?_, ?_, ?_, ?_, ?_⟩
  · intro s t m h31 hl hp
    obtain ⟨hphase, hns, ht⟩ := twinOf_mismatch hl h31 hp m
    refine yields_act (f := fun d => mismatch d t m) rfl ?_
    rw [frozen, twinOf_settle, hphase, hns, ht]
    exact ⟨rfl, rfl, rfl, rfl⟩
  · intro s t ch b m x hl hp h
    refine yields_act (f := fun d => mismatch d t m) rfl ?_
    rw [canOf_settle]
    exact committed_mismatch hl hp h m b x
  · exact fun s t m hl => exec_of_act (f := fun d => mismatch d t m) rfl (if_pos (by simp [hl]))
  · intro s t n hr ht hf
    refine yields_after (exec_of_act (f := fun d => commitNotice d t n) rfl (commitNotice_logs hr ht hf)) ?_
    rw [twinOf_settle, settle_lnd, settle_evs]
    refine ⟨twinOf_modTwin .., fun o ho => ?_, rfl, rfl⟩
    rw [twinOf_settle, twinOf_modTwin_ne _ ho]
  · exact fun s t n hf => exec_of_act (f := fun d => commitNotice d t n) rfl (if_pos (by rw [hf]; simp))
  · intro s x o p hr hd h
    obtain ⟨hf4, hpend, hevs, hlnd, -⟩ := raiseF4_latches (mode_of_running hr) 0x0E04 (e1 x.1 ++ eFlag p)
    refine yields_after (exec_of_act (f := fun d => degradedFail d o p) rfl (degradedFail_latches hr hd h)) ?_
    rw [settle_flt, settle_clk, settle_evs, settle_lnd]
    exact ⟨hf4, hpend, hevs, hlnd⟩
  · intro s p hr hp hd
    refine yields_after (exec_of_act (f := fun d => scStopped d p) rfl (scStopped_reports hr hp hd)) ?_
    rw [settle_flt, settle_evs, settle_lnd, raise_flt, raise_lnd]
    exact ⟨rfl, raise_evs (d := withStopped s.dev p) (mode_of_running hr) .., rfl⟩
  · exact fun s p hd => exec_of_act (f := fun d => scStopped d p) rfl (if_pos (by rw [hd]; simp))
  · intro s hr h
    obtain ⟨hf4, hpend, hevs, -, hrail⟩ := raiseF4_latches (d := withRail s.dev) (mode_of_running hr) 0x0E0B []
    refine yields_after (exec_of_act (f := fmRail) rfl (fmRail_latches hr h)) ?_
    rw [settle_flt, settle_clk, settle_evs]
    exact ⟨hrail, hf4, hpend, hevs⟩

end Sys2Proof.Machine
end

section
/-! SUPPORT. The host queues (chapter 16): endpoints and their queues under a change, MSI-X and moderation, the completion rings. -/

namespace Sys2Proof.Machine

/-! ## Endpoints and their queues -/

theorem epOf_congr {a b : Dev} (h : a.eps = b.eps) (e : Nat) : epOf a e = epOf b e := by rw [epOf, epOf, h]
theorem txOf_congr {a b : Dev} (h : a.eps = b.eps) (e t : Nat) : txOf a e t = txOf b e t := by rw [txOf, txOf, epOf_congr h]
theorem rxOf_congr {a b : Dev} (h : a.eps = b.eps) (e r : Nat) : rxOf a e r = rxOf b e r := by rw [rxOf, rxOf, epOf_congr h]

@[simp] theorem epOf_settle (d : Dev) (e : Nat) : epOf (settle d) e = epOf d e := epOf_congr (settle_eps d) e
@[simp] theorem txOf_settle (d : Dev) (e t : Nat) : txOf (settle d) e t = txOf d e t := txOf_congr (settle_eps d) e t
@[simp] theorem rxOf_settle (d : Dev) (e r : Nat) : rxOf (settle d) e r = rxOf d e r := rxOf_congr (settle_eps d) e r
@[simp] theorem epOf_raise (d : Dev) (code cls : Nat) (data : Bytes) (e : Nat) : epOf (raise d code cls data) e = epOf d e :=
  epOf_congr (raise_eps ..) e

theorem epOf_modEp (d : Dev) (e : Nat) (f : Ep → Ep) (o : Nat) : epOf (modEp d e f) o = if e = o then f (epOf d e) else epOf d o := by
  simp only [epOf, modEp, mapMod, mapGet, mapGet?_mapPut]
  split <;> rfl

@[simp] theorem epOf_modEp_same (d : Dev) (e : Nat) (f : Ep → Ep) : epOf (modEp d e f) e = f (epOf d e) := by
  rw [epOf_modEp, if_pos rfl]

theorem epOf_modEp_ne (d : Dev) {e o : Nat} (h : o ≠ e) (f : Ep → Ep) : epOf (modEp d e f) o = epOf d o := by
  rw [epOf_modEp, if_neg h.symm]

/-- A part of the endpoints that a change leaves of the one that it changes, it leaves of all. -/
theorem epPart_modEp {α : Type} {π : Ep → α} (d : Dev) (e : Nat) {f : Ep → Ep} (h : ∀ ep, π (f ep) = π ep) (o : Nat) :
    π (epOf (modEp d e f) o) = π (epOf d o) := by
  rw [epOf_modEp]
  split
  · next heq => rw [h, heq]
  · rfl

@[simp] theorem txOf_modTx_same (d : Dev) (e t : Nat) (f : TxQ → TxQ) : txOf (modTx d e t f) e t = f (txOf d e t) := by
  simp [txOf, modTx, mapMod, mapGet, mapGet?_mapPut]

@[simp] theorem rxOf_modRx_same (d : Dev) (e r : Nat) (f : RxQ → RxQ) : rxOf (modRx d e r f) e r = f (rxOf d e r) := by
  simp [rxOf, modRx, mapMod, mapGet, mapGet?_mapPut]

/-- An endpoint whose transmit queue `t`, or receive queue `r`, has been changed. -/
def inTx (t : Nat) (f : TxQ → TxQ) (ep : Ep) : Ep := { ep with tx := mapMod {} ep.tx t f }
def inRx (r : Nat) (f : RxQ → RxQ) (ep : Ep) : Ep := { ep with rx := mapMod {} ep.rx r f }

theorem modTx_eq (d : Dev) (e t : Nat) (f : TxQ → TxQ) : modTx d e t f = modEp d e (inTx t f) := rfl
theorem modRx_eq (d : Dev) (e r : Nat) (f : RxQ → RxQ) : modRx d e r f = modEp d e (inRx r f) := rfl

@[simp] theorem rxOf_modTx (d : Dev) (e t : Nat) (f : TxQ → TxQ) (o r : Nat) : rxOf (modTx d e t f) o r = rxOf d o r :=
  congrArg (mapGet ({} : RxQ) · r) (epPart_modEp (π := Ep.rx) (f := inTx t f) d e (fun _ => rfl) o)

/-- What of an endpoint is no queue of it, and its messages not sent: link state, MSI-X table. -/
structure SameLink (a b : Ep) : Prop where
  up : a.up = b.up
  bme : a.bme = b.bme
  msix : a.msix = b.msix

theorem sameLink_modTx (d : Dev) (e t : Nat) (f : TxQ → TxQ) (o : Nat) : SameLink (epOf (modTx d e t f) o) (epOf d o) :=
  ⟨epPart_modEp (π := Ep.up) (f := inTx t f) d e (fun _ => rfl) o, epPart_modEp (π := Ep.bme) (f := inTx t f) d e (fun _ => rfl) o,
    epPart_modEp (π := Ep.msix) (f := inTx t f) d e (fun _ => rfl) o⟩

theorem sameLink_modRx (d : Dev) (e r : Nat) (f : RxQ → RxQ) (o : Nat) : SameLink (epOf (modRx d e r f) o) (epOf d o) :=
  ⟨epPart_modEp (π := Ep.up) (f := inRx r f) d e (fun _ => rfl) o, epPart_modEp (π := Ep.bme) (f := inRx r f) d e (fun _ => rfl) o,
    epPart_modEp (π := Ep.msix) (f := inRx r f) d e (fun _ => rfl) o⟩

/-! ## MSI-X (R440, R463) -/

/-- R463: the message of a vector. -/
def msixMessage (ep : Ep) (e v : Nat) : Output :=
  .msix e (msixWord ep (4 * v) + msixWord ep (4 * v + 1) * 2 ^ 32) (msixWord ep (4 * v + 2))

/-- R463: a vector that has been sent pends no more. -/
def sentVector (v : Nat) (ep : Ep) : Ep := { ep with pba := ep.pba.filter (fun x => x != v) }

theorem msixWord_congr {a b : Ep} (h : a.msix = b.msix) (i : Nat) : msixWord a i = msixWord b i := by rw [msixWord, msixWord, h]

theorem msixMessage_congr {a b : Ep} (h : a.msix = b.msix) (e v : Nat) : msixMessage a e v = msixMessage b e v := by
  simp only [msixMessage, msixWord_congr h]

/-- R463: an unmasked vector of an endpoint with its link up and Bus Master Enable is sent. -/
theorem msixFire_sends {d : Dev} {e v : Nat} (hup : (epOf d e).up = true) (hbme : (epOf d e).bme = true)
    (hmask : bit (msixWord (epOf d e) (4 * v + 3)) 0 = false) :
    msixFire d e v = emit (modEp d e (sentVector v)) (msixMessage (epOf d e) e v) := by
  rw [msixFire, hup, hmask, hbme]
  rfl

/-- R463: the pending vectors of an endpoint. -/
def withPba (l : List Nat) (ep : Ep) : Ep := { ep with pba := l }

/-- R463: whatever a vector does, of an endpoint only the pending vectors change. -/
theorem msixFire_keeps {α : Type} {π : Ep → α} (hπ : ∀ ep l, π (withPba l ep) = π ep) (d : Dev) (e v o : Nat) :
    π (epOf (msixFire d e v) o) = π (epOf d o) := by
  unfold msixFire
  dsimp only
  split
  · rfl
  · split
    · exact epPart_modEp (π := π) (f := fun ep => withPba (if ep.pba.contains v then ep.pba else ep.pba ++ [v]) ep) d e (fun _ => hπ ..) o
    · exact epPart_modEp (π := π) (f := fun ep => withPba (ep.pba.filter (fun x => x != v)) ep) d e (fun _ => hπ ..) o

@[simp] theorem txOf_msixFire (d : Dev) (e v o t : Nat) : txOf (msixFire d e v) o t = txOf d o t :=
  congrArg (mapGet ({} : TxQ) · t) (msixFire_keeps (α := NMap TxQ) (π := Ep.tx) (fun _ _ => rfl) d e v o)
@[simp] theorem rxOf_msixFire (d : Dev) (e v o r : Nat) : rxOf (msixFire d e v) o r = rxOf d o r :=
  congrArg (mapGet ({} : RxQ) · r) (msixFire_keeps (α := NMap RxQ) (π := Ep.rx) (fun _ _ => rfl) d e v o)

theorem mem_out_msixFire {d : Dev} {x : Output} (h : x ∈ d.out) (e v : Nat) : x ∈ (msixFire d e v).out := by
  unfold msixFire
  dsimp only
  split
  · exact h
  · split
    · exact h
    · exact List.mem_cons_of_mem _ h

/-! ## Moderation (R454) -/

/-- The Landing, the registers and the events of `d'` are those of `d`, and no output is taken back: what the host queues do to
themselves. -/
structure OnlyHost (d d' : Dev) : Prop where
  lnd : d'.lnd = d.lnd
  regs : d'.regs = d.regs
  evs : d'.evs = d.evs
  out : ∀ x ∈ d.out, x ∈ d'.out

namespace OnlyHost

theorem trans {a b c : Dev} (h : OnlyHost a b) (h' : OnlyHost b c) : OnlyHost a c :=
  ⟨h'.lnd.trans h.lnd, h'.regs.trans h.regs, h'.evs.trans h.evs, fun x hx => h'.out x (h.out x hx)⟩

theorem modEp (d : Dev) (e : Nat) (f : Ep → Ep) : OnlyHost d (modEp d e f) := ⟨rfl, rfl, rfl, fun _ h => h⟩
theorem modTx (d : Dev) (e t : Nat) (f : TxQ → TxQ) : OnlyHost d (modTx d e t f) := modEp ..
theorem modRx (d : Dev) (e r : Nat) (f : RxQ → RxQ) : OnlyHost d (modRx d e r f) := modEp ..
theorem emit (d : Dev) (o : Output) : OnlyHost d (emit d o) := ⟨rfl, rfl, rfl, fun _ h => List.mem_cons_of_mem _ h⟩

theorem msixFire (d : Dev) (e v : Nat) : OnlyHost d (msixFire d e v) := by
  obtain ⟨m, o, h⟩ := msixFire_shape d e v
  exact ⟨by rw [h]; rfl, by rw [h]; rfl, by rw [h]; rfl, fun x hx => mem_out_msixFire hx e v⟩

theorem ite {d a b : Dev} {p : Prop} {i : Decidable p} (ha : OnlyHost d a) (hb : OnlyHost d b) : OnlyHost d (if p then a else b) := by
  split
  · exact ha
  · exact hb

theorem txSignal (d : Dev) (e t : Nat) : OnlyHost d (txSignal d e t) := (modTx ..).trans (msixFire ..)
theorem rxSignal (d : Dev) (e r : Nat) : OnlyHost d (rxSignal d e r) := (modRx ..).trans (msixFire ..)
theorem txModerate (d : Dev) (e t : Nat) : OnlyHost d (txModerate d e t) := ite ((modTx ..).trans (txSignal ..)) (modTx ..)
theorem rxModerate (d : Dev) (e r : Nat) : OnlyHost d (rxModerate d e r) := ite ((modRx ..).trans (rxSignal ..)) (modRx ..)

end OnlyHost

theorem txOf_txSignal (d : Dev) (e t : Nat) : txOf (txSignal d e t) e t = { txOf d e t with unsig := 0 } := by
  rw [txSignal, txOf_msixFire, txOf_modTx_same]

theorem rxOf_rxSignal (d : Dev) (e r : Nat) : rxOf (rxSignal d e r) e r = { rxOf d e r with unsig := 0 } := by
  rw [rxSignal, rxOf_msixFire, rxOf_modRx_same]

/-- R454: moderation counts what is not signalled, and leaves the rest of its queue. -/
theorem txOf_txModerate (d : Dev) (e t : Nat) :
    ∃ n a, txOf (txModerate d e t) e t = { txOf d e t with unsig := n, unsigAt := a } := by
  unfold txModerate
  dsimp only
  split
  · exact ⟨0, _, by rw [txOf_txSignal, txOf_modTx_same]⟩
  · exact ⟨_, _, by rw [txOf_modTx_same]⟩

theorem rxOf_rxModerate (d : Dev) (e r : Nat) :
    ∃ n a, rxOf (rxModerate d e r) e r = { rxOf d e r with unsig := n, unsigAt := a } := by
  unfold rxModerate
  dsimp only
  split
  · exact ⟨0, _, by rw [rxOf_rxSignal, rxOf_modRx_same]⟩
  · exact ⟨_, _, by rw [rxOf_modRx_same]⟩

section Signal
variable {d : Dev} {e q : Nat} (hup : (epOf d e).up = true) (hbme : (epOf d e).bme = true)
include hup hbme

/-- R454, R463: a queue's vector that is not masked is sent. -/
theorem mem_txSignal (hmask : bit (msixWord (epOf d e) (4 * bits (tqReg d e q 0) 16 6 + 3)) 0 = false) :
    msixMessage (epOf d e) e (bits (tqReg d e q 0) 16 6) ∈ (txSignal d e q).out := by
  have hs := sameLink_modTx d e q (fun x => { x with unsig := 0 }) e
  rw [txSignal, msixFire_sends (hs.up.trans hup) (hs.bme.trans hbme) (by rw [msixWord_congr hs.msix]; exact hmask), msixMessage_congr hs.msix]
  exact List.mem_cons_self

theorem mem_rxSignal (hmask : bit (msixWord (epOf d e) (4 * bits (rqReg d e q 0) 16 6 + 3)) 0 = false) :
    msixMessage (epOf d e) e (bits (rqReg d e q 0) 16 6) ∈ (rxSignal d e q).out := by
  have hs := sameLink_modRx d e q (fun x => { x with unsig := 0 }) e
  rw [rxSignal, msixFire_sends (hs.up.trans hup) (hs.bme.trans hbme) (by rw [msixWord_congr hs.msix]; exact hmask), msixMessage_congr hs.msix]
  exact List.mem_cons_self

end Signal

/-- R454: the vector of a transmit queue goes out ITR µs after its first completion not signalled. -/
theorem itrExpire_tx {d : Dev} {e q : Nat} (hr : running d = true) (he : e < 2) (hu : 0 < (txOf d e q).unsig)
    (hd : (txOf d e q).unsigAt + usCycles (modItr (tqReg d e q 0x20)) ≤ d.clk.tclk) : itrExpire d e true q = txSignal d e q := by
  rw [itrExpire, if_neg (by simp [hr, he]), if_pos rfl, if_pos (by simp [hu, hd])]

theorem itrExpire_rx {d : Dev} {e q : Nat} (hr : running d = true) (he : e < 2) (hu : 0 < (rxOf d e q).unsig)
    (hd : (rxOf d e q).unsigAt + usCycles (modItr (rqReg d e q 0x20)) ≤ d.clk.tclk) : itrExpire d e false q = rxSignal d e q := by
  rw [itrExpire, if_neg (by simp [hr, he]), if_neg (by simp), if_pos (by simp [hu, hd])]

/-- R454: with every completion signalled nothing is due. -/
theorem itrExpire_tx_none {d : Dev} {e q : Nat} (hu : (txOf d e q).unsig = 0) : itrExpire d e true q = d := by
  simp [itrExpire, hu]

theorem itrExpire_rx_none {d : Dev} {e q : Nat} (hu : (rxOf d e q).unsig = 0) : itrExpire d e false q = d := by
  simp [itrExpire, hu]

/-! ## Masks and Bus Master Enable (R440, R463) -/

/-- R463: the mask bit of a vector is 0. -/
def unmasked (v : Nat) (ep : Ep) : Ep := { ep with msix := mapPut ep.msix (4 * v + 3) 0 }

theorem msixWord_unmasked (v : Nat) (ep : Ep) (i : Nat) : msixWord (unmasked v ep) i = if 4 * v + 3 = i then 0 else msixWord ep i := by
  simp only [msixWord, unmasked, mapGet?_mapPut]
  by_cases h : 4 * v + 3 = i
  · rw [if_pos h, if_pos h]
    rfl
  · rw [if_neg h, if_neg h]

/-- R463: a vector that pends and is unmasked is sent. -/
theorem msixPending_sends {d : Dev} {e v : Nat} (hup : (epOf d e).up = true) (hbme : (epOf d e).bme = true)
    (hp : (epOf d e).pba.contains v = true) (hmask : bit (msixWord (epOf d e) (4 * v + 3)) 0 = false) :
    msixPending d e v = emit (modEp d e (sentVector v)) (msixMessage (epOf d e) e v) := by
  rw [msixPending, if_pos (by rw [hp, hmask]; rfl), msixFire_sends hup hbme hmask]

/-- R463: so is one whose mask is cleared. -/
theorem msixUnmask_sends {d : Dev} {e v : Nat} (hv : v < 64) (hup : (epOf d e).up = true) (hbme : (epOf d e).bme = true)
    (hp : (epOf d e).pba.contains v = true) :
    msixUnmask d e v = emit (modEp (modEp d e (unmasked v)) e (sentVector v)) (msixMessage (unmasked v (epOf d e)) e v) := by
  have hep : epOf (modEp d e (unmasked v)) e = unmasked v (epOf d e) := epOf_modEp_same ..
  rw [msixUnmask, if_neg (by omega)]
  change msixPending (modEp d e (unmasked v)) e v = _
  rw [msixPending_sends (by rw [hep]; exact hup) (by rw [hep]; exact hbme) (by rw [hep]; exact hp)
    (by rw [hep, msixWord_unmasked, if_pos rfl]; rfl), hep]

theorem msixMessage_unmasked (ep : Ep) (e v : Nat) : msixMessage (unmasked v ep) e v = msixMessage ep e v := by
  rw [msixMessage, msixMessage, msixWord_unmasked, msixWord_unmasked, msixWord_unmasked, if_neg (by omega), if_neg (by omega), if_neg (by omega)]

/-- R440: Bus Master Enable of an endpoint. -/
def busMastering (on : Bool) (ep : Ep) : Ep := { ep with bme := on }

theorem busMaster_off {d : Dev} {e : Nat} (hr : running d = true) (he : e < 2) (hup : (epOf d e).up = true) :
    busMaster d e false = modEp d e (busMastering false) := by
  rw [busMaster, if_neg (by simp [hr, he, hup])]
  rfl

/-- R440: the one vector that waited for Bus Master Enable is sent, where it is not masked. -/
theorem busMaster_on {d : Dev} {e v : Nat} (hr : running d = true) (he : e < 2) (hup : (epOf d e).up = true) (hp : (epOf d e).pba = [v])
    (hmask : bit (msixWord (epOf d e) (4 * v + 3)) 0 = false) :
    busMaster d e true = emit (modEp (modEp d e (busMastering true)) e (sentVector v)) (msixMessage (busMastering true (epOf d e)) e v) := by
  have hep : epOf (modEp d e (busMastering true)) e = busMastering true (epOf d e) := epOf_modEp_same ..
  have hpba : (epOf (modEp d e (busMastering true)) e).pba = [v] := by rw [hep]; exact hp
  rw [busMaster, if_neg (by simp [hr, he, hup])]
  change (epOf (modEp d e (busMastering true)) e).pba.foldl (fun d v => msixPending d e v) (modEp d e (busMastering true)) = _
  rw [hpba, List.foldl_cons, List.foldl_nil, msixPending_sends (by rw [hep]; exact hup) (by rw [hep]; rfl) (by rw [hpba]; simp)
    (by rw [hep]; exact hmask), hep]

/-! ## Transmit completions (R450) -/

/-- R450: the oldest record's completion has been written. -/
def txCompleted (rest : List TxComp) (cs : Nat) (q : TxQ) : TxQ :=
  { q with comps := rest, widx := (q.widx + 1) % 65536, phase := nextPhase q.widx cs q.phase }

theorem txCompletion_writes {d : Dev} {e t : Nat} {c : TxComp} {rest : List TxComp} (hr : running d = true) (he : e < 2)
    (hup : (epOf d e).up = true) (hbme : (epOf d e).bme = true) (hf : txRingFree d e t = true) (hc : (txOf d e t).comps = c :: rest)
    (hw : c.wait = false) (hn : c.frame = none) :
    txCompletion d e t = txModerate (modTx (emit d (.hostWrite e
      (tqBase d e t + 16 * ((txOf d e t).widx % max 1 (bits (tqReg d e t 0x18) 0 13))) (txCompBytes c (txOf d e t).phase))) e t
      (txCompleted rest (bits (tqReg d e t 0x18) 0 13))) e t := by
  rw [txCompletion, if_neg (by simp [hr, he, hup, hbme, hf]), hc]
  dsimp only
  rw [hw, hn, if_neg (by simp)]
  rfl

end Sys2Proof.Machine
end

section
/-! SUPPORT. Registers, rings and pages of the endpoints (chapter 16): fields under a write, a page's domain, the transmit engine, a
write of a transmit window, deliveries. -/

namespace Sys2Proof.Machine

/-! ## Fields of a word under a write (R12) -/

theorem testBit_setBits (v lo w x j : Nat) :
    (setBits v lo w x).testBit j = if lo ≤ j ∧ j < lo + w then x.testBit (j - lo) else v.testBit j := by
  have hform : setBits v lo w x = 2 ^ lo * (2 ^ w * (v >>> (lo + w)) + x % 2 ^ w) + v % 2 ^ lo := by
    rw [setBits, Nat.pow_add]
    ring
  rw [hform, Nat.testBit_two_pow_mul_add _ (Nat.mod_lt _ (Nat.two_pow_pos lo)),
    Nat.testBit_two_pow_mul_add _ (Nat.mod_lt _ (Nat.two_pow_pos w)), Nat.testBit_mod_two_pow, Nat.testBit_mod_two_pow, Nat.testBit_shiftRight]
  by_cases hlo : j < lo
  · simp [hlo, Nat.not_le.mpr hlo]
  · by_cases hw : j - lo < w
    · simp [hlo, hw, Nat.not_lt.mp hlo, show j < lo + w by omega]
    · simp [hlo, hw, show ¬ j < lo + w by omega, show lo + w + (j - lo - w) = j by omega]

theorem testBit_bits (v lo w i : Nat) : (bits v lo w).testBit i = (decide (i < w) && v.testBit (lo + i)) := by
  rw [bits, Nat.testBit_mod_two_pow, Nat.testBit_shiftRight]

/-- A field reads as it was set. -/
theorem bits_setBits (v lo w x : Nat) : bits (setBits v lo w x) lo w = x % 2 ^ w := by
  apply Nat.eq_of_testBit_eq
  intro i
  rw [testBit_bits, testBit_setBits, Nat.testBit_mod_two_pow, Nat.add_sub_cancel_left]
  by_cases h : i < w <;> simp [h]

/-- A field that another lies apart from keeps its value. -/
theorem bits_setBits_apart (v : Nat) {lo w a n : Nat} (h : a + n ≤ lo ∨ lo + w ≤ a) (x : Nat) : bits (setBits v lo w x) a n = bits v a n := by
  apply Nat.eq_of_testBit_eq
  intro i
  rw [testBit_bits, testBit_bits, testBit_setBits]
  by_cases hi : i < n
  · rw [if_neg (by omega)]
  · simp [hi]

/-- R4: a field of a word. -/
theorem bits_word {a n : Nat} (h : a + n ≤ 32) (v : Nat) : bits (v % 2 ^ 32) a n = bits v a n := by
  apply Nat.eq_of_testBit_eq
  intro i
  rw [testBit_bits, testBit_bits, Nat.testBit_mod_two_pow]
  by_cases hi : i < n
  · rw [decide_eq_true (show a + i < 32 by omega), Bool.true_and]
  · simp [hi]

section Fields
variable {d : Dev} (hs : mapSorted d.regs = true)
include hs

theorem fld_putFld {lo w : Nat} (h : lo + w ≤ 32) (off v : Nat) : fld (putFld d off lo w v) off lo w = v % 2 ^ w := by
  rw [fld, reg, putFld, putReg, regK_putK hs, bits_word h, bits_setBits]

theorem fld_putFld_apart {lo w a n : Nat} (h : a + n ≤ lo ∨ lo + w ≤ a) (hn : a + n ≤ 32) (off v : Nat) :
    fld (putFld d off lo w v) off a n = fld d off a n := by
  rw [fld, reg, putFld, putReg, regK_putK hs, bits_word hn, bits_setBits_apart _ h, fld]

end Fields

theorem fld_putFld_ne (d : Dev) {off o : Nat} (h : o ≠ off) (lo w v a n : Nat) : fld (putFld d off lo w v) o a n = fld d o a n := by
  rw [fld, reg, putFld, putReg, regK_putK_other d h, fld, reg]

/-! ## A page's domain (R446) -/

/-- R446: a 1 written to DOMERR clears it. -/
def domErrCleared (d : Dev) (p w : Nat) : Dev := if bit w 8 then putFld d (0x800400 + 4 * p) 8 1 0 else d

/-- Only the registers differ. -/
def withRegs (d : Dev) (r : NMap Word) : Dev := { d with regs := r }

theorem domErrCleared_shape (d : Dev) (p w : Nat) : ∃ r, domErrCleared d p w = withRegs d r := by
  unfold domErrCleared
  split
  · exact ⟨_, rfl⟩
  · exact ⟨d.regs, rfl⟩

@[simp] theorem domErrCleared_cry (d : Dev) (p w : Nat) : (domErrCleared d p w).cry = d.cry := by
  obtain ⟨r, h⟩ := domErrCleared_shape d p w
  rw [h]
  rfl

@[simp] theorem domErrCleared_lnd (d : Dev) (p w : Nat) : (domErrCleared d p w).lnd = d.lnd := by
  obtain ⟨r, h⟩ := domErrCleared_shape d p w
  rw [h]
  rfl

@[simp] theorem domErrCleared_evs (d : Dev) (p w : Nat) : (domErrCleared d p w).evs = d.evs := by
  obtain ⟨r, h⟩ := domErrCleared_shape d p w
  rw [h]
  rfl

theorem domErrCleared_sorted {d : Dev} (hs : mapSorted d.regs = true) (p w : Nat) : mapSorted (domErrCleared d p w).regs = true := by
  unfold domErrCleared
  split
  · exact putK_sorted hs ..
  · exact hs

theorem fld_domErrCleared {d : Dev} (hs : mapSorted d.regs = true) (p w : Nat) {a n : Nat} (h : a + n ≤ 8) :
    fld (domErrCleared d p w) (0x800400 + 4 * p) a n = fld d (0x800400 + 4 * p) a n := by
  unfold domErrCleared
  split
  · exact fld_putFld_apart hs (.inl h) (by omega) ..
  · rfl

theorem fld_domErrCleared_ne (d : Dev) (p w : Nat) {o : Nat} (h : o ≠ 0x800400 + 4 * p) (a n : Nat) :
    fld (domErrCleared d p w) o a n = fld d o a n := by
  unfold domErrCleared
  split
  · exact fld_putFld_ne d h ..
  · rfl

theorem pageBusy_domErrCleared (d : Dev) (p w q : Nat) : pageBusy (domErrCleared d p w) q = pageBusy d q := by
  rw [pageBusy, pageReady, pageOf_congr (b := d) (by rw [domErrCleared_cry]), pageBusy, pageReady]

theorem endpointOf_lt {who : Initiator} {e : Nat} (h : endpointOf who = some e) : e < 2 := by
  cases who <;> simp_all [endpointOf]; omega

section Domain
variable {d : Dev} {who : Initiator} {e p w : Nat} (he : endpointOf who = some e) (hs : mapSorted d.regs = true) (hp : pageEp d p = e + 1)
include he hs hp

/-- R446: the domain of an idle page of its endpoint, with a domain of its mask, changes, and the page is zeroed. -/
theorem pageDomain_applies (hb : pageBusy d p = false) (hw : bits w 4 4 ≠ 0)
    (hm : bit (fld d (0x800010 + 4 * e) 0 16) (bits w 4 4) = true) :
    pageDomain d who p w = zeroPage (putFld (domErrCleared d p w) (0x800400 + 4 * p) 4 4 (bits w 4 4)) p := by
  have hlt := endpointOf_lt he
  have hep : pageEp (domErrCleared d p w) p = e + 1 := (fld_domErrCleared hs p w (by decide)).trans hp
  have hmask := (congrArg (bit · (bits w 4 4)) (fld_domErrCleared_ne d p w (show 0x800010 + 4 * e ≠ 0x800400 + 4 * p by omega) 0 16)).trans hm
  have hbusy := (pageBusy_domErrCleared d p w p).trans hb
  unfold pageDomain
  rw [he]
  change (if pageEp (domErrCleared d p w) p ≠ e + 1 then domErrCleared d p w
    else if pageBusy (domErrCleared d p w) p || !bit (fld (domErrCleared d p w) (0x800010 + 4 * e) 0 16) (bits w 4 4) || bits w 4 4 = 0 then _
    else _) = _
  rw [if_neg (by rw [hep]; simp), if_neg (by simp [hbusy, hmask, hw])]
  rfl

/-- R446: a busy page keeps its domain: DOMERR. -/
theorem pageDomain_refused (hb : pageBusy d p = true) :
    pageDomain d who p w = putFld (domErrCleared d p w) (0x800400 + 4 * p) 8 1 1 := by
  have hep : pageEp (domErrCleared d p w) p = e + 1 := (fld_domErrCleared hs p w (by decide)).trans hp
  have hbusy := (pageBusy_domErrCleared d p w p).trans hb
  unfold pageDomain
  rw [he]
  change (if pageEp (domErrCleared d p w) p ≠ e + 1 then domErrCleared d p w
    else if pageBusy (domErrCleared d p w) p || !bit (fld (domErrCleared d p w) (0x800010 + 4 * e) 0 16) (bits w 4 4) || bits w 4 4 = 0 then _
    else _) = _
  rw [if_neg (by rw [hep]; simp), if_pos (by simp [hbusy])]
  rfl

end Domain

theorem exec_pageDomainWrite {s : State} {who : Initiator} {p : Nat} (hp : p < 128) (hm : MayWrite s.dev who (0x800400 + 4 * p)) (w : Word) :
    exec (.pageDomainWrite who p w) s = .next (after s (pageDomain s.dev who p w.toNat)) := by
  change execPageDomainWrite who p w s = _
  rw [execPageDomainWrite, access_of hm, act, if_pos hp, regWr_of hm]
  rfl

@[simp] theorem pageOf_zeroPage (d : Dev) (p : Nat) : pageOf (zeroPage d p) p = {} := by
  simp [pageOf, zeroPage, mapGet, mapGet?_mapPut]

theorem pageOf_zeroPage_ne (d : Dev) {p o : Nat} (h : o ≠ p) : pageOf (zeroPage d p) o = pageOf d o := by
  simp [pageOf, zeroPage, mapGet, mapGet?_mapPut, Ne.symm h]

/-! ## Tails that software writes (R447, R452) -/

theorem exec_txTailWrite {s : State} {who : Initiator} {e t : Nat} (he : endpointOf who = some e) (ht : t < 16)
    (hm : MayWrite s.dev who (0x840004 + 0x40 * t)) (w : Word) :
    exec (.txTailWrite who t w) s = .next (after s (txTailWrite s.dev who e t w.toNat)) := by
  change execTxTailWrite who t w s = _
  rw [execTxTailWrite, access_of hm, act, he]
  dsimp only
  rw [if_pos ht, regWr_of hm]
  rfl

/-- R452: TAIL of a receive queue's buffers. -/
theorem exec_rxBufferPost {s : State} {who : Initiator} {e r : Nat} (he : endpointOf who = some e) (hr : r < 64)
    (hm : MayWrite s.dev who (0x810004 + 0x40 * r)) (w : Word) :
    exec (.rxBufferPost who r w) s = .next (after s (putK s.dev (rqKey e r 4) (bits w.toNat 0 8))) := by
  change execRxBufferPost who r w s = _
  rw [execRxBufferPost, access_of hm, act, he]
  dsimp only
  rw [if_pos hr, regWr_of hm]
  rfl

theorem exec_msixUnmask {s : State} {who : Initiator} {e v : Nat} (he : endpointOf who = some e) (hv : v < 64)
    (hm : MayWrite s.dev who (0x80100C + 16 * v)) : exec (.msixUnmask who v) s = .next (after s (msixUnmask s.dev e v)) := by
  change execMsixUnmask who v s = _
  rw [execMsixUnmask, access_of hm, act, he]
  dsimp only
  rw [Nat.mod_eq_of_lt hv, regWr_of hm]
  rfl

theorem tqReg_settle (d : Dev) (e t rel : Nat) : tqReg (settle d) e t rel = tqReg d e t rel := by rw [tqReg, tqReg, regK, regK, settle_regs]
theorem rqReg_settle (d : Dev) (e r rel : Nat) : rqReg (settle d) e r rel = rqReg d e r rel := by rw [rqReg, rqReg, regK, regK, settle_regs]

theorem bits_mod_word {n : Nat} (h : n ≤ 32) (v lo : Nat) : bits v lo n % 2 ^ 32 = bits v lo n :=
  Nat.mod_eq_of_lt ((Nat.mod_lt _ (Nat.two_pow_pos n)).trans_le (Nat.pow_le_pow_right (by decide) h))

theorem tqReg_putK {d : Dev} (hs : mapSorted d.regs = true) (e t rel v : Nat) : tqReg (putK d (tqKey e t rel) v) e t rel = v % 2 ^ 32 :=
  regK_putK hs ..
theorem rqReg_putK {d : Dev} (hs : mapSorted d.regs = true) (e r rel v : Nat) : rqReg (putK d (rqKey e r rel) v) e r rel = v % 2 ^ 32 :=
  regK_putK hs ..

/-- R441: only an initiator whose link is up writes. -/
theorem up_of_mayWrite {d : Dev} {who : Initiator} {off e : Nat} (h : MayWrite d who off) (he : endpointOf who = some e) :
    (epOf d e).up = true := by
  have hc := h.1
  simp only [canAccess, he, Bool.and_eq_true] at hc
  exact hc.2

/-! ## A write of a transmit window (R447, R451) -/

section Window
variable {s : State} {who : Initiator} {e off : Nat} {l : Loc} (he : endpointOf who = some e) (hm : MayWrite s.dev who off)
  (hl : locate off = some l) (hb : l.blk = .txWin) (ho : txOverrun s.dev e l.inst l.rel = true)
include he hm hl hb ho

omit he hm ho in
/-- A transmit window is no bridge window, and BRG_IRDREQ does not lie in one. -/
theorem bridgeOp_window (w : Word) : bridgeOp (.registerWrite who off 4 w) = none := by
  refine bridgeOp_registerWrite hl (by rw [hb]; decide) (fun hoff => ?_)
  subst hoff
  obtain rfl : (⟨.brg, 0, 0x40⟩ : Loc) = l := by simpa [locate] using hl
  cases hb

/-- R451: an overrun waits exactly where the arrival reserve is full. -/
theorem windowFull_overrun (w : Word) : (brgFull (.registerWrite who off 4 w) who off s.dev ||
    accKind s.dev who off 4 == 0 && windowFull who off s.dev) = arrivalFull s.dev (4 + e) := by
  simp [brgFull, bridgeOp_window hl hb, hm.2.2, windowFull, windowOver, he, hl, hb, ho]

theorem exec_window_waits (hfull : arrivalFull s.dev (4 + e) = true) (w : Word) :
    exec (.registerWrite who off 4 w) s = .next (after s (holdAccess s.dev who (.registerWrite who off 4 w))) := by
  change execRegisterWrite who off 4 w s = _
  rw [execRegisterWrite, accessWhen_held hm.1 (.inr ((windowFull_overrun he hm hl hb ho w).trans hfull))]

/-- R444, R447: otherwise it is an access error of kind 5. -/
theorem regWrite_overrun (ha : absent s.dev l = false) (w : Word) : regWrite s.dev who off 4 w = accErr s.dev who off 5 := by
  rw [regWrite, if_neg (by simp [hm.1]), if_neg (by simp [hm.2.2]), writeWord, hl]
  dsimp only
  rw [if_neg (by simp [ha]), actsAt, hb]
  dsimp only
  rw [portWrite, he]
  dsimp only
  rw [hb]
  dsimp only
  rw [if_pos ho]

theorem exec_window_error (ha : absent s.dev l = false) (hfull : arrivalFull s.dev (4 + e) = false) (w : Word) :
    exec (.registerWrite who off 4 w) s = .next (after s (accErr s.dev who off 5)) := by
  change execRegisterWrite who off 4 w s = _
  rw [execRegisterWrite, accessWhen_takes hm ((windowFull_overrun he hm hl hb ho w).trans hfull), regWrite_overrun he hm hl hb ho ha w]

end Window

/-! ## The transmit engine (R448 to R451) -/

/-- R448: the frame of a record. -/
def recordPacket (d : Dev) (e t : Nat) (x : TxDesc) : Pkt :=
  let q := txOf d e t
  let data := ringBytes q (q.head + 32) x.len
  let tx : TxRef := ⟨e, t, q.nextNum, x.tsreq⟩
  if isCanRecord d x then
    { hostFrame d e data tx with kind := fmtKind (recordCan x).fmt, can := { recordCan x with data := data }, size := x.len }
  else { hostFrame d e data tx with can := recordCan x }

theorem recordPacket_data (d : Dev) (e t : Nat) (x : TxDesc) :
    (recordPacket d e t x).data = ringBytes (txOf d e t) ((txOf d e t).head + 32) x.len := by
  unfold recordPacket
  dsimp only
  split <;> rfl

theorem recordPacket_ingress (d : Dev) (e t : Nat) (x : TxDesc) : (recordPacket d e t x).ingress = 0x80 + e := by
  unfold recordPacket
  dsimp only
  split <;> rfl

/-- R449: a whole record has been taken: its completion waits for its admission. -/
def recordTaken (x : TxDesc) (q : TxQ) : TxQ :=
  { txTake q (32 + x.padded) with nextNum := q.nextNum + 1, comps := q.comps ++ [newComp q.nextNum x.cookie 0 true] }

/-- R280: the lookup of a record that names its entry. -/
def namedItem (ix : Nat) (p : Pkt) : LookItem := { pkt := p, named := some ix, eth := false, ptype := 0 }

/-- R449, R451: a whole record goes to the lookup of its entry. -/
theorem txWhole_takes {d : Dev} {e t : Nat} {x : TxDesc} (hp : x.path = false) (ha : 32 + x.padded ≤ txAvail d e t)
    (hf : arrivalFull d (4 + e) = false) :
    txWhole d e t x = toLookup (cellsIn (modTx d e t (recordTaken x)) (4 + e) (recordPacket d e t x).size) (4 + e)
      (namedItem x.route (recordPacket d e t x)) := by
  rw [txWhole, if_neg (by simp [hf, ha])]
  dsimp only
  rw [if_neg (by simp [hp])]
  rfl

/-- R451: with the arrival reserve full nothing is taken. -/
theorem txWhole_full {d : Dev} {e : Nat} (hf : arrivalFull d (4 + e) = true) (t : Nat) (x : TxDesc) : txWhole d e t x = d :=
  if_pos (by simp [hf])

section Engine
variable {d : Dev} {e t : Nat} {x : TxDesc} (hskip : (txOf d e t).skip = 0) (htso : (txOf d e t).tso = none)
  (hx : x = txDesc (ringBytes (txOf d e t) (txOf d e t).head 32)) (hbad : badRecord d x = false) (hts : x.tso = false)
include hskip htso hx hbad hts

theorem txRecord_full (hf : arrivalFull d (4 + e) = true) : txRecord d e t = d := by
  unfold txRecord
  split
  · rfl
  · dsimp only
    rw [if_neg (by omega), htso]
    dsimp only
    split
    · rfl
    · rw [← hx, if_neg (by simp [hbad]), if_neg (by simp [hts]), txWhole_full hf]

theorem txRecord_whole (hr : running d = true) (he : e < 2) (ht : t < 16) (hup : (epOf d e).up = true) (hi : d.clk.ingress = true)
    (hen : bit (tqReg d e t 0) 0 = true) (hfree : txRingFree d e t = true) (hbusy : txBusy d e t = false)
    (hw : txWaits (txOf d e t) = false) (ha : 32 ≤ txAvail d e t) : txRecord d e t = txWhole d e t x := by
  rw [txRecord, if_neg (by simp [hr, he, ht, hup, hi, hen, hfree, hbusy])]
  dsimp only
  rw [if_neg (by omega), htso]
  dsimp only
  rw [if_neg (by simp [hw, ha]), ← hx, if_neg (by simp [hbad]), if_neg (by simp [hts])]

end Engine

theorem lookup_toLookup (d : Dev) (src : Nat) (it : LookItem) :
    mapGet [] (toLookup d src it).rte.lookup src = mapGet [] d.rte.lookup src ++ [it] := by
  simp [toLookup, mapGet, mapGet?_mapPut]

end Sys2Proof.Machine
end

section
/-! SUPPORT. Deliveries and links (chapter 16): what the end of a copy, a flush and a link that goes down leave of the endpoints and of
the frames that wait. -/

namespace Sys2Proof.Machine

/-! ## The end of a copy, as the endpoints see it (R252, R449) -/

/-- What `g` reads is none of the Landing but the frames that wait, none of the twins and none of the transmit queues. -/
structure CommitBlind {α : Type} (g : Dev → α) : Prop where
  lnd : ∀ d l, l.waiting = d.lnd.waiting → g { d with lnd := l } = g d
  flt : ∀ d f, g { d with flt := f } = g d
  tx : ∀ d e t f, g (modTx d e t f) = g d

section CommitBlind
variable {α : Type} {g : Dev → α} (hg : CommitBlind g)
include hg

theorem CommitBlind.freeCells (d : Dev) : g (freeCells d) = g d := by
  unfold Machine.freeCells
  dsimp only
  rw [hg.lnd]
  · exact foldl_keeps (fun d _ => hg.flt d _) d _
  · rfl

theorem CommitBlind.copyGone (d : Dev) (id : Nat) (committed : Bool) (stamp : Nat) : g (copyGone d id committed stamp) = g d := by
  have hcommit : ∀ d, g (if committed then commitOut d 0 id else d) = g d := by
    intro d
    split
    · exact hg.flt d _
    · rfl
  unfold Machine.copyGone
  split
  · rfl
  · dsimp only
    rw [hg.freeCells]
    split
    · split
      · exact (hg.tx ..).trans ((hcommit _).trans (hg.lnd d _ rfl))
      · exact (hcommit _).trans (hg.lnd d _ rfl)
    · exact (hcommit _).trans (hg.lnd d _ rfl)

theorem CommitBlind.unqueue (d : Dev) (q id : Nat) : g (unqueue d q id) = g d := hg.lnd _ _ rfl
theorem CommitBlind.unstage (d : Dev) (q id : Nat) : g (unstage d q id) = g d := hg.lnd _ _ rfl
theorem CommitBlind.modLane (d : Dev) (k : Nat) (f : Lane → Lane) : g (modLane d k f) = g d := hg.lnd _ _ rfl

end CommitBlind

theorem commitBlind_rxOf (e r : Nat) : CommitBlind (rxOf · e r) :=
  ⟨fun _ _ _ => rfl, fun _ _ => rfl, fun d a t f => rxOf_modTx d a t f e r⟩

theorem copyBlind_out : CopyBlind Dev.out := ⟨fun _ _ => rfl, fun _ _ => rfl, fun _ _ => rfl⟩
theorem copyBlind_evs : CopyBlind Dev.evs := ⟨fun _ _ => rfl, fun _ _ => rfl, fun _ _ => rfl⟩
theorem copyBlind_regs : CopyBlind Dev.regs := ⟨fun _ _ => rfl, fun _ _ => rfl, fun _ _ => rfl⟩

/-! ## Deliveries (R452 to R454) -/

/-- R452: frame data into buffers leaves the device as output alone. -/
theorem fillBufs_shape (e r size : Nat) : ∀ (n i : Nat) (bs : Bytes) (d : Dev), ∃ o, fillBufs e r size n i bs d = withOut d o
  | 0, _, _, d => ⟨d.out, rfl⟩
  | n + 1, i, bs, d => fillBufs_shape e r size n (i + 1) (bs.drop size) (emit d (.hostWrite e (bufAddr d e r i) (bs.take size)))

/-- R453: a receive queue after a completion whose frame fills `n` buffers. -/
def rxDelivered (n cs : Nat) (q : RxQ) : RxQ :=
  { q with bhead := (q.bhead + n) % 256, widx := (q.widx + 1) % 65536, phase := nextPhase q.widx cs q.phase, drops := 0 }

/-- R453: a lane after its staged copy has been delivered. -/
def withoutItem (it : LaneItem) (l : Lane) : Lane :=
  { l with items := l.items.filter (fun o => !(o.pkt.id == it.pkt.id && o.dest.q == it.dest.q)) }

/-- R453, R454: the frame, its completion and its interrupt. -/
def deliveredTo (d : Dev) (e r : Nat) (it : LaneItem) : Dev :=
  let bs := hostBytes it.pkt it.ecn
  let q := rxOf d e r
  let n := bufsFor d e r bs.length
  let cs := bits (rqReg d e r 0x18) 0 13
  let d := fillBufs e r (bufBytes d e r) n q.bhead bs d
  rxModerate (modRx (emit d (.hostWrite e (rqBase d e r + 32 * (q.widx % max 1 cs))
    (rxCompBytes it.pkt it.dest it.ecn bs.length n q.bhead q.drops q.phase))) e r (rxDelivered n cs)) e r

/-- R453: the copy leaves its lane and its queue, and commits. -/
def deliveredFrom (d : Dev) (k : Nat) (it : LaneItem) : Dev :=
  copyCommit (unqueue (modLane d k (withoutItem it)) it.dest.q it.pkt.id) it.pkt.id

theorem rxDeliver_delivers {d : Dev} {e r : Nat} {it : LaneItem} (hr : running d = true) (he : e < 2) (hq : r < 64)
    (hf : outFrozen d 0 = false)
    (hit : (laneOf d (16 * (4 + e) + r % 4)).items.find? (fun i => i.dest.q == qHost e r && i.got == i.n) = some it)
    (hrdy : rxReady d e r (hostBytes it.pkt it.ecn).length = true) :
    rxDeliver d e r = deliveredFrom (deliveredTo d e r it) (16 * (4 + e) + r % 4) it := by
  unfold rxDeliver
  dsimp only
  rw [if_neg (by simp [hr, he, hq, hf]), hit]
  dsimp only
  rw [if_neg (by simp [hrdy])]
  rfl

/-- R450, R454: an output, a change of a receive queue and its moderation. -/
theorem rxModerate_emit_keeps (d : Dev) (e r : Nat) (x : Output) (f : RxQ → RxQ) :
    (∃ n a, rxOf (rxModerate (modRx (emit d x) e r f) e r) e r = { f (rxOf d e r) with unsig := n, unsigAt := a }) ∧
    x ∈ (rxModerate (modRx (emit d x) e r f) e r).out ∧ (rxModerate (modRx (emit d x) e r f) e r).regs = d.regs ∧
    (rxModerate (modRx (emit d x) e r f) e r).evs = d.evs := by
  have hmod := OnlyHost.rxModerate (modRx (emit d x) e r f) e r
  obtain ⟨n, a, hn⟩ := rxOf_rxModerate (modRx (emit d x) e r f) e r
  refine ⟨⟨n, a, ?_⟩, hmod.out _ List.mem_cons_self, hmod.regs, hmod.evs⟩
  rw [hn, rxOf_modRx_same]
  rfl

/-- R453: the completion of a delivery. -/
def rxCompletion (d : Dev) (e r : Nat) (it : LaneItem) : Output :=
  .hostWrite e (rqBase d e r + 32 * ((rxOf d e r).widx % max 1 (bits (rqReg d e r 0x18) 0 13)))
    (rxCompBytes it.pkt it.dest it.ecn (hostBytes it.pkt it.ecn).length (bufsFor d e r (hostBytes it.pkt it.ecn).length)
      (rxOf d e r).bhead (rxOf d e r).drops (rxOf d e r).phase)

/-- R453: what a delivery leaves its receive queue. -/
theorem deliveredTo_keeps (d : Dev) (e r : Nat) (it : LaneItem) :
    (∃ n a, rxOf (deliveredTo d e r it) e r =
      { rxDelivered (bufsFor d e r (hostBytes it.pkt it.ecn).length) (bits (rqReg d e r 0x18) 0 13) (rxOf d e r) with
        unsig := n, unsigAt := a }) ∧
    rxCompletion d e r it ∈ (deliveredTo d e r it).out ∧ (deliveredTo d e r it).regs = d.regs ∧ (deliveredTo d e r it).evs = d.evs := by
  obtain ⟨o, hfill⟩ := fillBufs_shape e r (bufBytes d e r) (bufsFor d e r (hostBytes it.pkt it.ecn).length) (rxOf d e r).bhead
    (hostBytes it.pkt it.ecn) d
  unfold deliveredTo
  dsimp only
  rw [hfill]
  exact rxModerate_emit_keeps (withOut d o) e r (rxCompletion d e r it) _

theorem rxOf_deliveredFrom (d : Dev) (k : Nat) (it : LaneItem) (e r : Nat) : rxOf (deliveredFrom d k it) e r = rxOf d e r := by
  have hg := commitBlind_rxOf e r
  exact (hg.copyGone ..).trans ((hg.unqueue ..).trans (hg.modLane ..))

theorem CopyBlind.deliveredFrom {α : Type} {g : Dev → α} (hg : CopyBlind g) (d : Dev) (k : Nat) (it : LaneItem) :
    g (deliveredFrom d k it) = g d :=
  (hg.copyGone ..).trans ((hg.unqueue ..).trans (hg.lnd ..))

/-! ## Flushes, as the links see them (R265) -/

/-- What `g` reads is none of what a flush of queues changes of the endpoints and the Landing, nor a counter or an event. -/
structure LinkBlind {α : Type} (g : Dev → α) : Prop extends CommitBlind g where
  rx : ∀ d e r f, g (modRx d e r f) = g d
  rcd : ∀ d r, g { d with rcd := r } = g d
  bump : ∀ d off inst, g (bump d off inst) = g d
  raise : ∀ d code cls data, g (raise d code cls data) = g d

section LinkBlind
variable {α : Type} {g : Dev → α} (hg : LinkBlind g)
include hg

theorem LinkBlind.recLoss (d : Dev) (q : Nat) : g (recLoss d q) = g d := by
  unfold Machine.recLoss
  split
  · exact hg.rcd ..
  · rfl

theorem LinkBlind.hostLoss (d : Dev) (q : Nat) : g (hostLoss d q) = g d := by
  have hreport : ∀ (late : Bool) (a b : Lnd) (data : Bytes), a.waiting = d.lnd.waiting → b.waiting = d.lnd.waiting →
      g (if late then Machine.raise { d with lnd := a } 0x0902 0 data else { d with lnd := b }) = g d := by
    intro late a b data ha hb
    cases late
    · exact hg.lnd d b hb
    · exact (hg.raise ..).trans (hg.lnd d a ha)
  unfold Machine.hostLoss
  split
  · exact hg.recLoss ..
  · exact (hg.rx ..).trans (hreport _ _ _ _ rfl rfl)

theorem LinkBlind.portFlushCount (d : Dev) (q : Nat) : g (portFlushCount d q) = g d := by
  unfold Machine.portFlushCount
  split
  · exact hg.bump ..
  · split
    · exact hg.bump ..
    · rfl

theorem LinkBlind.flushCopy (d : Dev) (q id : Nat) : g (flushCopy d q id) = g d := by
  rw [Machine.flushCopy, Machine.copyDrop, hg.copyGone, hg.hostLoss, hg.portFlushCount, bumpQ, hg.bump, hg.unstage, hg.unqueue]

theorem LinkBlind.flushQueue (d : Dev) (q : Nat) (p : Nat × Dest → Bool) : g (flushQueue d q p) = g d := by
  unfold Machine.flushQueue
  dsimp only
  split
  · rfl
  · exact (hg.raise ..).trans (foldl_keeps (f := fun d (c : Nat × Dest) => Machine.flushCopy d q c.1)
      (fun d c => hg.flushCopy d q c.1) d _)

theorem LinkBlind.flushQueues (d : Dev) (qs : List Nat) : g (flushQueues d qs) = g d :=
  foldl_keeps (fun d q => hg.flushQueue d q _) d qs

end LinkBlind

/-- R265: a flush leaves the link state of every endpoint. -/
theorem linkBlind_up (o : Nat) : LinkBlind (fun d => (epOf d o).up) where
  lnd := fun _ _ _ => rfl
  flt := fun _ _ => rfl
  tx := fun d e t f => (sameLink_modTx d e t f o).up
  rx := fun d e r f => (sameLink_modRx d e r f o).up
  rcd := fun _ _ => rfl
  bump := fun _ _ _ => rfl
  raise := fun d code cls data => by rw [epOf_raise]

/-- R265: a flush leaves the frames that wait for their admission. -/
theorem linkBlind_waiting : LinkBlind (fun d => d.lnd.waiting) where
  lnd := fun _ _ h => h
  flt := fun _ _ => rfl
  tx := fun _ _ _ _ => rfl
  rx := fun _ _ _ _ => rfl
  rcd := fun _ _ => rfl
  bump := fun _ _ _ => rfl
  raise := fun d code cls data => by rw [raise_lnd]

/-! ## What is outside the queues of an endpoint (R441) -/

/-- What `g` reads is nothing of the pages, the twins, the crossings, the channels, the bridge and the recorder, nor a counter or an
event. -/
structure RestBlind {α : Type} (g : Dev → α) : Prop where
  cry : ∀ d c, g { d with cry := c } = g d
  flt : ∀ d f, g { d with flt := f } = g d
  whl : ∀ d w, g { d with whl := w } = g d
  can : ∀ d m, g { d with can := m } = g d
  brg : ∀ d b, g { d with brg := b } = g d
  rcd : ∀ d r, g { d with rcd := r } = g d
  bump : ∀ d off inst, g (bump d off inst) = g d
  raise : ∀ d code cls data, g (raise d code cls data) = g d

/-- R441: what goes down with a link besides its queues: its pages, its mailbox locks, its crossing, its reads and its readout. -/
def linkRest (d : Dev) (e : Nat) : Dev :=
  let d := (epPages d e).foldl pageGone d
  let d := deadReads (crossOutside (freeMailboxes d e) (33 + e) 0) e
  if d.rcd.readout.busy && d.rcd.readout.e == e then readoutEnd d 3 0 0 else d

section RestBlind
variable {α : Type} {g : Dev → α} (hg : RestBlind g)
include hg

theorem RestBlind.complete (d : Dev) (p st : Nat) : g (complete d p st) = g d := by
  have hfree : ∀ (b : Bool) (s : Nat), g (if b then journalFree d s 32 else d) = g d := by
    intro b s
    cases b
    · rfl
    · exact hg.flt ..
  have hcount : ∀ (x : Dev) (q : Prop) (i : Decidable q), g (if q then Machine.bump x 0x780808 0 else x) = g x := by
    intro x q i
    split
    · exact hg.bump ..
    · rfl
  have hreport : ∀ (x : Dev) (b : Bool) (data : Bytes), g (if b then Machine.raise x 0x0C01 0 data else x) = g x := by
    intro x b data
    cases b
    · rfl
    · exact hg.raise ..
  unfold Machine.complete
  dsimp only
  rw [hreport, Machine.commitOut, modTwin, hg.flt, stepEcs, modTwin, hg.flt, hcount, hg.bump, modPage, hg.cry]
  exact hfree _ _

theorem RestBlind.pageGone (d : Dev) (p : Nat) : g (pageGone d p) = g d :=
  (hg.cry ..).trans (foldl_keeps (f := fun d (_ : Nat) => Machine.complete d p 7) (fun d _ => hg.complete d p 7) d _)

theorem RestBlind.crossReset (d : Dev) (x : Nat) (out reader : Bool) (n : Nat) : g (crossReset d x out reader n) = g d := by
  unfold Machine.crossReset
  split
  · exact hg.whl ..
  · rfl

theorem RestBlind.linkRest (d : Dev) (e : Nat) : g (linkRest d e) = g d := by
  have hreadout : ∀ (x : Dev) (b : Bool), g (if b then readoutEnd x 3 0 0 else x) = g x := by
    intro x b
    cases b
    · rfl
    · exact (hg.raise ..).trans (hg.rcd ..)
  unfold Machine.linkRest
  dsimp only
  rw [hreadout, deadReads, hg.brg, crossOutside, hg.crossReset, hg.crossReset, freeMailboxes, hg.can]
  exact foldl_keeps (fun d p => hg.pageGone d p) d _

end RestBlind

theorem restBlind_eps : RestBlind Dev.eps where
  cry := fun _ _ => rfl
  flt := fun _ _ => rfl
  whl := fun _ _ => rfl
  can := fun _ _ => rfl
  brg := fun _ _ => rfl
  rcd := fun _ _ => rfl
  bump := fun _ _ _ => rfl
  raise := fun _ _ _ _ => raise_eps ..

theorem restBlind_lnd : RestBlind Dev.lnd where
  cry := fun _ _ => rfl
  flt := fun _ _ => rfl
  whl := fun _ _ => rfl
  can := fun _ _ => rfl
  brg := fun _ _ => rfl
  rcd := fun _ _ => rfl
  bump := fun _ _ _ => rfl
  raise := fun _ _ _ _ => raise_lnd ..

theorem restBlind_clk : RestBlind Dev.clk where
  cry := fun _ _ => rfl
  flt := fun _ _ => rfl
  whl := fun _ _ => rfl
  can := fun _ _ => rfl
  brg := fun _ _ => rfl
  rcd := fun _ _ => rfl
  bump := fun _ _ _ => rfl
  raise := fun _ _ _ _ => raise_clk ..

/-! ## Links (R82, R441) -/

/-- R441: the link of an endpoint is up. -/
def epLinked (ep : Ep) : Ep := { ep with up := true }
/-- R441: it is down, and Bus Master Enable is 0. -/
def epUnlinked (ep : Ep) : Ep := { ep with up := false, bme := false }

theorem modEp_clk (d : Dev) (e : Nat) (f : Ep → Ep) : (modEp d e f).clk = d.clk := rfl
theorem modEp_lnd (d : Dev) (e : Nat) (f : Ep → Ep) : (modEp d e f).lnd = d.lnd := rfl

@[simp] theorem pllSync_eps (d : Dev) : (pllSync d).eps = d.eps := rfl
@[simp] theorem pllSync_lnd (d : Dev) : (pllSync d).lnd = d.lnd := rfl
@[simp] theorem pllSync_evs (d : Dev) : (pllSync d).evs = d.evs := rfl

/-- R441: a link that was down comes up, and is reported. -/
theorem hostUp_reports {d : Dev} {e : Nat} (hr : running d = true) (he : e < 2) (h : (epOf d e).up = false) :
    hostUp d e = raise (pllSync (modEp d e epLinked)) 0x1003 0 (e1 e ++ e1 1 ++ eCount 0) := by
  rw [hostUp, if_neg (by simp [hr, he, h])]
  rfl

/-- R441: the registers of every queue of an endpoint after its link has gone down. -/
def clearedRegs (d : Dev) (e : Nat) : Dev :=
  let d := (List.range 16).foldl (fun d t =>
    putK (putK (putK d (tqKey e t 0) (setBit (tqReg d e t 0) 0 false)) (tqKey e t 4) 0) (tqKey e t 0x1C) 0) d
  (List.range 64).foldl (fun d r =>
    putK (putK (putK d (rqKey e r 0) (setBit (rqReg d e r 0) 0 false)) (rqKey e r 4) 0) (rqKey e r 0x1C) 0) d

/-- R441: its queues and its MSI-X table. -/
def emptiedEp (ep : Ep) : Ep :=
  { ep with tx := ep.tx.map (fun q => (q.1, { ({} : TxQ) with nextNum := q.2.nextNum })),
            rx := ep.rx.map (fun q => (q.1, { ({} : RxQ) with drops := q.2.drops })), msix := [], pba := [] }

theorem clearQueues_eq (d : Dev) (e : Nat) : clearQueues d e = modEp (clearedRegs d e) e emptiedEp := rfl

/-- What is no register outlasts the clearing of the queues' registers. -/
theorem clearedRegs_keeps {α : Type} {g : Dev → α} (hg : ∀ d k v, g (putK d k v) = g d) (d : Dev) (e : Nat) : g (clearedRegs d e) = g d := by
  have hthree : ∀ d a u b v c w, g (putK (putK (putK d a u) b v) c w) = g d := fun d a u b v c w => by rw [hg, hg, hg]
  exact (foldl_keeps (fun d _ => hthree d ..) _ _).trans (foldl_keeps (fun d _ => hthree d ..) _ _)

/-- R441: the records of an endpoint that are lost with its link, by queue. -/
def lostRecords (d : Dev) (e : Nat) : List Nat := (List.range 16).map (fun t => txUnadmitted d e t)

/-- R441: they are counted by queue. -/
def countLost (d : Dev) (e : Nat) (lost : List Nat) : Dev :=
  (lost.zipIdx).foldl (fun d n => bumpBy d (0x840028 + 0x40 * n.2) e n.1) d

theorem countLost_keeps {α : Type} {g : Dev → α} (hg : ∀ d off inst n, g (bumpBy d off inst n) = g d) (d : Dev) (e : Nat) (lost : List Nat) :
    g (countLost d e lost) = g d :=
  foldl_keeps (fun d _ => hg d ..) _ _

/-- R265, R441: the host queues of an endpoint are flushed. -/
def hostFlushed (d : Dev) (e : Nat) : Dev := flushQueues d ((List.range 64).map (qHost e))

/-- R441: the device with them flushed, what was lost counted and what waits of the endpoint dropped. -/
def inputGone (d : Dev) (e : Nat) : Dev := dropHostInput (countLost (hostFlushed d e) e (lostRecords (hostFlushed d e) e)) e

/-- R441: the device at a link-down instant, but for the link. -/
def linkCleared (d : Dev) (e : Nat) : Dev := linkRest (clearQueues (inputGone d e) e) e

theorem hostDown_reports {d : Dev} {e : Nat} (hr : running d = true) (he : e < 2) (h : (epOf d e).up = true) :
    ∃ n, hostDown d e = raise (pllSync (modEp (linkCleared d e) e epUnlinked)) 0x1003 0 (e1 e ++ e1 0 ++ eCount n) := by
  refine ⟨(lostRecords (hostFlushed d e) e).foldl (· + ·) 0, ?_⟩
  rw [hostDown, if_neg (by simp [hr, he, h])]
  rfl

theorem hostDown_none {d : Dev} {e : Nat} (h : (epOf d e).up = false) : hostDown d e = d := if_pos (by simp [h])

theorem dropHostInput_waiting (d : Dev) (e : Nat) : (dropHostInput d e).lnd.waiting = mapDel d.lnd.waiting (4 + e) := rfl
theorem dropHostInput_clk (d : Dev) (e : Nat) : (dropHostInput d e).clk = d.clk := rfl
theorem dropHostInput_eps (d : Dev) (e : Nat) : (dropHostInput d e).eps = d.eps := rfl

section Down
variable (d : Dev) (e : Nat)

theorem hostFlushed_waiting : (hostFlushed d e).lnd.waiting = d.lnd.waiting := by
  generalize hq : (List.range 64).map (qHost e) = qs
  rw [hostFlushed, hq]
  exact linkBlind_waiting.flushQueues d qs

theorem inputGone_up (o : Nat) : (epOf (inputGone d e) o).up = (epOf d o).up := by
  rw [inputGone, epOf_congr (dropHostInput_eps ..), epOf_congr (countLost_keeps bumpBy_eps ..)]
  exact (linkBlind_up o).flushQueues d _

theorem inputGone_clk : (inputGone d e).clk = d.clk := by
  rw [inputGone, dropHostInput_clk, countLost_keeps (g := Dev.clk) (fun _ _ _ _ => rfl)]
  exact flushBlind_clk.flushQueues d _

theorem inputGone_waiting : (inputGone d e).lnd.waiting = mapDel d.lnd.waiting (4 + e) := by
  rw [inputGone, dropHostInput_waiting, countLost_keeps bumpBy_lnd, hostFlushed_waiting]

theorem linkCleared_eps : (linkCleared d e).eps = (modEp (clearedRegs (inputGone d e) e) e emptiedEp).eps := by
  rw [linkCleared, restBlind_eps.linkRest, clearQueues_eq]

theorem epOf_linkCleared_same : ∃ ep, epOf (linkCleared d e) e = emptiedEp ep :=
  ⟨epOf (clearedRegs (inputGone d e) e) e, by rw [epOf_congr (linkCleared_eps d e), epOf_modEp_same]⟩

theorem linkCleared_up {o : Nat} (h : o ≠ e) : (epOf (linkCleared d e) o).up = (epOf d o).up := by
  rw [epOf_congr (linkCleared_eps d e), epOf_modEp_ne _ h, epOf_congr (clearedRegs_keeps (g := Dev.eps) (fun _ _ _ => rfl) ..),
    inputGone_up]

theorem linkCleared_clk : (linkCleared d e).clk = d.clk := by
  rw [linkCleared, restBlind_clk.linkRest, clearQueues_eq, modEp_clk, clearedRegs_keeps (g := Dev.clk) (fun _ _ _ => rfl), inputGone_clk]

theorem linkCleared_waiting : (linkCleared d e).lnd.waiting = mapDel d.lnd.waiting (4 + e) := by
  rw [linkCleared, restBlind_lnd.linkRest, clearQueues_eq, modEp_lnd, clearedRegs_keeps (g := Dev.lnd) (fun _ _ _ => rfl), inputGone_waiting]

end Down

end Sys2Proof.Machine
end

section
/-! SUPPORT. Links, rings, completions and domains: the clauses of the host queues' statement. -/

namespace Sys2Proof.Machine

/-! ## What an output, a lookup and a sent vector leave of an endpoint -/

@[simp] theorem epOf_emit (d : Dev) (o : Output) (e : Nat) : epOf (emit d o) e = epOf d e := rfl

theorem txOf_toLookup_cellsIn (d : Dev) (input size src : Nat) (it : LookItem) (e t : Nat) :
    txOf (toLookup (cellsIn d input size) src it) e t = txOf d e t := rfl

theorem msixWord_sentVector (v : Nat) (ep : Ep) (i : Nat) : msixWord (sentVector v ep) i = msixWord ep i := rfl

theorem msixMessage_busMastering (on : Bool) (ep : Ep) (e v : Nat) : msixMessage (busMastering on ep) e v = msixMessage ep e v := rfl

/-! ## What the commands leave -/

/-- R441: a link that comes up is reported, and changes its endpoint alone. -/
theorem yields_hostLinkUp {s : State} {e : Nat} (hr : running s.dev = true) (he : e < 2) (h : (epOf s.dev e).up = false) :
    Yields (.hostLinkUp e) s (fun d => epOf d e = epLinked (epOf s.dev e) ∧ (∀ o, o ≠ e → epOf d o = epOf s.dev o) ∧
      d.evs = s.dev.evs ++ [evNow s.dev 0x1003 0 (e1 e ++ e1 1 ++ eCount 0)] ∧ d.lnd = s.dev.lnd) := by
  refine yields_after (exec_of_act (f := fun d => hostUp d e) rfl (hostUp_reports hr he h)) ?_
  rw [settle_evs, settle_lnd, raise_lnd, raise_evs (d := pllSync (modEp s.dev e epLinked)) (mode_of_running hr)]
  refine ⟨?_, fun o ho => ?_, rfl, rfl⟩
  · rw [epOf_settle, epOf_raise, epOf_congr (pllSync_eps _), epOf_modEp_same]
  · rw [epOf_settle, epOf_raise, epOf_congr (pllSync_eps _), epOf_modEp_ne _ ho]

theorem linkData_take (e n : Nat) : (e1 e ++ e1 0 ++ eCount n).take 16 = e1 e ++ e1 0 ++ eCount n := rfl

/-- R441: a link that goes down leaves its endpoint without a table, a pending vector and a frame that waits, and is reported last. -/
theorem yields_hostLinkDown {s : State} {e : Nat} (hr : running s.dev = true) (he : e < 2) (h : (epOf s.dev e).up = true)
    (hs : mapSorted s.dev.lnd.waiting = true) :
    Yields (.hostLinkDown e) s (fun d => (epOf d e).up = false ∧ (epOf d e).bme = false ∧ (epOf d e).msix = [] ∧ (epOf d e).pba = [] ∧
      mapGet [] d.lnd.waiting (4 + e) = [] ∧ (∀ o, o ≠ e → (epOf d o).up = (epOf s.dev o).up) ∧
      ∃ l x, d.evs = l ++ [x] ∧ x.code = 0x1003 ∧ ∃ n, x.data = e1 e ++ e1 0 ++ eCount n) := by
  obtain ⟨n, hdown⟩ := hostDown_reports hr he h
  obtain ⟨ep, hep⟩ := epOf_linkCleared_same s.dev e
  have hmode : 2 ≤ (pllSync (modEp (linkCleared s.dev e) e epUnlinked)).clk.mode.num := by
    change 2 ≤ (linkCleared s.dev e).clk.mode.num
    rw [linkCleared_clk]
    exact mode_of_running hr
  have hsame : epOf (pllSync (modEp (linkCleared s.dev e) e epUnlinked)) e = epUnlinked (emptiedEp ep) := by
    rw [epOf_congr (pllSync_eps _), epOf_modEp_same, hep]
  refine yields_after (exec_of_act (f := fun d => hostDown d e) rfl hdown) ?_
  rw [settle_evs, settle_lnd, raise_lnd, raise_evs hmode, pllSync_lnd, modEp_lnd, linkCleared_waiting, epOf_settle, epOf_raise, hsame]
  refine ⟨rfl, rfl, rfl, rfl, ?_, fun o ho => ?_, _, _, rfl, rfl, n, linkData_take e n⟩
  · rw [mapGet, mapGet?_mapDel hs, if_pos rfl]
    rfl
  · rw [epOf_settle, epOf_raise, epOf_congr (pllSync_eps _), epOf_modEp_ne _ ho, linkCleared_up _ _ ho]

/-- R447: a TAIL that fits is stored. -/
theorem yields_txTailWrite {s : State} {who : Initiator} {e t : Nat} {w : Word} (he : endpointOf who = some e) (ht : t < 16)
    (hm : MayWrite s.dev who (0x840004 + 0x40 * t)) (hs : mapSorted s.dev.regs = true)
    (hfit : txUsed s.dev e t + (bits w.toNat 0 15 + 32768 - txTail s.dev e t) % 32768 < 32768) :
    Yields (.txTailWrite who t w) s (fun d => tqReg d e t 4 = bits w.toNat 0 15 ∧ d.eps = s.dev.eps ∧ d.lnd = s.dev.lnd ∧
      d.evs = s.dev.evs) := by
  refine yields_after (exec_txTailWrite he ht hm w) ?_
  rw [txTailWrite, if_neg (by omega), settle_eps, settle_lnd, settle_evs, tqReg_settle, tqReg_putK hs, bits_mod_word (by decide)]
  exact ⟨rfl, rfl, rfl, rfl⟩

theorem yields_rxBufferPost {s : State} {who : Initiator} {e r : Nat} {w : Word} (he : endpointOf who = some e) (hr : r < 64)
    (hm : MayWrite s.dev who (0x810004 + 0x40 * r)) (hs : mapSorted s.dev.regs = true) :
    Yields (.rxBufferPost who r w) s (fun d => rqReg d e r 4 = bits w.toNat 0 8 ∧ d.eps = s.dev.eps ∧ d.lnd = s.dev.lnd ∧
      d.evs = s.dev.evs) := by
  refine yields_after (exec_rxBufferPost he hr hm w) ?_
  rw [settle_eps, settle_lnd, settle_evs, rqReg_settle, rqReg_putK hs, bits_mod_word (by decide)]
  exact ⟨rfl, rfl, rfl, rfl⟩

/-- R449: what a record taken whole leaves of its queue, of the lookups of its endpoint, and of the rest. -/
theorem recordTaken_leaves (d : Dev) (e t : Nat) (x : TxDesc) :
    let r := toLookup (cellsIn (modTx d e t (recordTaken x)) (4 + e) (recordPacket d e t x).size) (4 + e)
      (namedItem x.route (recordPacket d e t x))
    txOf r e t = recordTaken x (txOf d e t) ∧
    mapGet [] r.rte.lookup (4 + e) = mapGet [] d.rte.lookup (4 + e) ++ [namedItem x.route (recordPacket d e t x)] ∧
    r.regs = d.regs ∧ r.lnd = d.lnd ∧ r.evs = d.evs ∧ r.brg = d.brg := by
  refine ⟨?_, lookup_toLookup .., rfl, rfl, rfl, rfl⟩
  rw [txOf_toLookup_cellsIn, txOf_modTx_same]

/-- R449: the transmit engine takes a whole record for its entry. -/
theorem yields_txRecord {s : State} {e t : Nat} {x : TxDesc} (hw : txRecord s.dev e t = txWhole s.dev e t x) (hp : x.path = false)
    (ha : 32 + x.padded ≤ txAvail s.dev e t) (hf : arrivalFull s.dev (4 + e) = false) (hwait : s.dev.brg.wait = []) :
    Yields (.txRecord e t) s (fun d => (txOf d e t).head = ((txOf s.dev e t).head + 32 + x.padded) % 32768 ∧
      (txOf d e t).comps = (txOf s.dev e t).comps ++ [newComp (txOf s.dev e t).nextNum x.cookie 0 true] ∧
      (∃ it, mapGet [] d.rte.lookup (4 + e) = mapGet [] s.dev.rte.lookup (4 + e) ++ [it] ∧ it.named = some x.route ∧
        it.pkt.data = ringBytes (txOf s.dev e t) ((txOf s.dev e t).head + 32) x.len ∧ it.pkt.ingress = 0x80 + e) ∧
      d.regs = s.dev.regs ∧ d.lnd = s.dev.lnd ∧ d.evs = s.dev.evs) := by
  obtain ⟨htx, hlook, hregs, hlnd, hevs, hbrg⟩ := recordTaken_leaves s.dev e t x
  refine yields_after (exec_of_act (f := fun d => admitHeld (txRecord d e t)) rfl (d := toLookup (cellsIn (modTx s.dev e t (recordTaken x))
    (4 + e) (recordPacket s.dev e t x).size) (4 + e) (namedItem x.route (recordPacket s.dev e t x))) ?_) ?_
  · rw [hw, txWhole_takes hp ha hf]
    exact admitHeld_none ((congrArg Brg.wait hbrg).trans hwait)
  · rw [txOf_settle, htx, settle_rte, hlook, settle_regs, hregs, settle_lnd, hlnd, settle_evs, hevs]
    refine ⟨?_, rfl, ⟨_, rfl, rfl, recordPacket_data .., recordPacket_ingress ..⟩, rfl, rfl, rfl⟩
    rw [Nat.add_assoc]
    rfl

/-- R450: the oldest complete record is written to the completion ring. -/
theorem yields_txCompletion {s : State} {e t : Nat} {x : Output} {rest : List TxComp} {cs : Nat}
    (h : txCompletion s.dev e t = txModerate (modTx (emit s.dev x) e t (txCompleted rest cs)) e t) :
    Yields (.txCompletion e t) s (fun d => (txOf d e t).comps = rest ∧ (txOf d e t).widx = ((txOf s.dev e t).widx + 1) % 65536 ∧
      x ∈ d.out ∧ d.lnd = s.dev.lnd ∧ d.regs = s.dev.regs ∧ d.evs = s.dev.evs) := by
  have hmod := OnlyHost.txModerate (modTx (emit s.dev x) e t (txCompleted rest cs)) e t
  obtain ⟨n, a, hn⟩ := txOf_txModerate (modTx (emit s.dev x) e t (txCompleted rest cs)) e t
  refine yields_after (exec_of_act (f := fun d => txCompletion d e t) rfl h) ?_
  rw [txOf_settle, hn, txOf_modTx_same, settle_lnd, hmod.lnd, settle_regs, hmod.regs, settle_evs, hmod.evs]
  exact ⟨rfl, rfl, mem_out_settle (hmod.out _ List.mem_cons_self), rfl, rfl, rfl⟩

/-- R453: a staged frame is delivered. -/
theorem yields_rxDelivery {s : State} {e r k : Nat} {it : LaneItem} (h : rxDeliver s.dev e r = deliveredFrom (deliveredTo s.dev e r it) k it) :
    Yields (.rxDelivery e r) s (fun d => (rxOf d e r).widx = ((rxOf s.dev e r).widx + 1) % 65536 ∧ (rxOf d e r).drops = 0 ∧
      (rxOf d e r).bhead = ((rxOf s.dev e r).bhead + bufsFor s.dev e r (hostBytes it.pkt it.ecn).length) % 256 ∧
      rxCompletion s.dev e r it ∈ d.out ∧ d.regs = s.dev.regs ∧ d.evs = s.dev.evs) := by
  obtain ⟨⟨n, a, hq⟩, hout, hregs, hevs⟩ := deliveredTo_keeps s.dev e r it
  refine yields_after (exec_of_act (f := fun d => rxDeliver d e r) rfl h) ?_
  rw [rxOf_settle, rxOf_deliveredFrom, hq, settle_regs, copyBlind_regs.deliveredFrom, hregs, settle_evs, copyBlind_evs.deliveredFrom, hevs]
  refine ⟨rfl, rfl, rfl, mem_out_settle ?_, rfl, rfl⟩
  rw [copyBlind_out.deliveredFrom]
  exact hout

section Vectors
variable {s : State} {e v : Nat}

/-- R454: a queue's moderation has run out. -/
theorem yields_itrTx {q : Nat} (h : itrExpire s.dev e true q = txSignal s.dev e q) {x : Output} (hx : x ∈ (txSignal s.dev e q).out) :
    Yields (.irqItrExpire e true q) s (fun d => (txOf d e q).unsig = 0 ∧ x ∈ d.out ∧ d.lnd = s.dev.lnd ∧ d.regs = s.dev.regs) := by
  have hsig := OnlyHost.txSignal s.dev e q
  refine yields_after (exec_of_act (f := fun d => itrExpire d e true q) rfl h) ?_
  rw [txOf_settle, txOf_txSignal, settle_lnd, hsig.lnd, settle_regs, hsig.regs]
  exact ⟨rfl, mem_out_settle hx, rfl, rfl⟩

theorem yields_itrRx {q : Nat} (h : itrExpire s.dev e false q = rxSignal s.dev e q) {x : Output} (hx : x ∈ (rxSignal s.dev e q).out) :
    Yields (.irqItrExpire e false q) s (fun d => (rxOf d e q).unsig = 0 ∧ x ∈ d.out ∧ d.lnd = s.dev.lnd ∧ d.regs = s.dev.regs) := by
  have hsig := OnlyHost.rxSignal s.dev e q
  refine yields_after (exec_of_act (f := fun d => itrExpire d e false q) rfl h) ?_
  rw [rxOf_settle, rxOf_rxSignal, settle_lnd, hsig.lnd, settle_regs, hsig.regs]
  exact ⟨rfl, mem_out_settle hx, rfl, rfl⟩

theorem yields_msixUnmask {who : Initiator} (he : endpointOf who = some e) (hv : v < 64) (hm : MayWrite s.dev who (0x80100C + 16 * v))
    (hbme : (epOf s.dev e).bme = true) (hp : (epOf s.dev e).pba.contains v = true) :
    Yields (.msixUnmask who v) s (fun d => msixWord (epOf d e) (4 * v + 3) = 0 ∧
      (epOf d e).pba = (epOf s.dev e).pba.filter (fun x => x != v) ∧
      msixMessage (epOf s.dev e) e v ∈ d.out ∧ d.lnd = s.dev.lnd ∧ d.regs = s.dev.regs) := by
  have hsends := msixUnmask_sends hv (up_of_mayWrite hm he) hbme hp
  rw [msixMessage_unmasked] at hsends
  refine yields_after (d := emit (modEp (modEp s.dev e (unmasked v)) e (sentVector v)) (msixMessage (epOf s.dev e) e v))
    ((exec_msixUnmask he hv hm).trans (by rw [hsends])) ?_
  have hep : epOf (emit (modEp (modEp s.dev e (unmasked v)) e (sentVector v)) (msixMessage (epOf s.dev e) e v)) e =
      sentVector v (unmasked v (epOf s.dev e)) := by
    rw [epOf_emit, epOf_modEp_same, epOf_modEp_same]
  rw [epOf_settle, hep, settle_lnd, settle_regs]
  refine ⟨?_, rfl, mem_out_settle List.mem_cons_self, rfl, rfl⟩
  rw [msixWord_sentVector, msixWord_unmasked, if_pos rfl]

/-- R440: the vector that waited for Bus Master Enable is sent. -/
theorem yields_busMasterOn (hr : running s.dev = true) (he : e < 2) (hup : (epOf s.dev e).up = true) (hp : (epOf s.dev e).pba = [v])
    (hmask : bit (msixWord (epOf s.dev e) (4 * v + 3)) 0 = false) :
    Yields (.busMasterEnable e true) s (fun d => (epOf d e).bme = true ∧ (epOf d e).pba = [] ∧ msixMessage (epOf s.dev e) e v ∈ d.out ∧
      d.lnd = s.dev.lnd ∧ d.regs = s.dev.regs) := by
  have hon := busMaster_on hr he hup hp hmask
  rw [msixMessage_busMastering] at hon
  refine yields_after (exec_of_act (f := fun d => busMaster d e true) rfl hon) ?_
  have hep : epOf (emit (modEp (modEp s.dev e (busMastering true)) e (sentVector v)) (msixMessage (epOf s.dev e) e v)) e =
      sentVector v (busMastering true (epOf s.dev e)) := by
    rw [epOf_emit, epOf_modEp_same, epOf_modEp_same]
  rw [epOf_settle, hep, settle_lnd, settle_regs]
  refine ⟨rfl, ?_, mem_out_settle List.mem_cons_self, rfl, rfl⟩
  change (epOf s.dev e).pba.filter (fun x => x != v) = []
  rw [hp]
  simp

theorem yields_busMasterOff (hr : running s.dev = true) (he : e < 2) (hup : (epOf s.dev e).up = true) :
    Yields (.busMasterEnable e false) s (fun d => epOf d e = busMastering false (epOf s.dev e) ∧
      (∀ o, o ≠ e → epOf d o = epOf s.dev o) ∧ d.lnd = s.dev.lnd) := by
  refine yields_after (exec_of_act (f := fun d => busMaster d e false) rfl (busMaster_off hr he hup)) ?_
  rw [epOf_settle, epOf_modEp_same, settle_lnd]
  exact ⟨rfl, fun o ho => by rw [epOf_settle, epOf_modEp_ne _ ho], rfl⟩

end Vectors

section Domain
variable {s : State} {who : Initiator} {e p : Nat} {w : Word} (he : endpointOf who = some e) (hp : p < 128)
  (hm : MayWrite s.dev who (0x800400 + 4 * p)) (hs : mapSorted s.dev.regs = true) (hep : pageEp s.dev p = e + 1)
include he hp hm hs hep

/-- R446: an idle page takes its domain, and is zeroed. -/
theorem yields_pageDomain_idle (hb : pageBusy s.dev p = false) (hw : bits w.toNat 4 4 ≠ 0)
    (hmask : bit (fld s.dev (0x800010 + 4 * e) 0 16) (bits w.toNat 4 4) = true) :
    Yields (.pageDomainWrite who p w) s (fun d => fld d (0x800400 + 4 * p) 4 4 = bits w.toNat 4 4 ∧ pageOf d p = {} ∧
      (∀ o, o ≠ p → pageOf d o = pageOf s.dev o) ∧ d.lnd = s.dev.lnd ∧ d.evs = s.dev.evs) := by
  refine yields_after ((exec_pageDomainWrite hp hm w).trans (by rw [pageDomain_applies he hs hep hb hw hmask])) ?_
  rw [pageOf_settle, pageOf_zeroPage, settle_lnd, settle_evs]
  refine ⟨?_, rfl, fun o ho => ?_, domErrCleared_lnd .., domErrCleared_evs ..⟩
  · rw [fld, reg_of_regs (settle_regs _)]
    exact (fld_putFld (domErrCleared_sorted hs p w.toNat) (lo := 4) (w := 4) (by decide) ..).trans (Nat.mod_mod _ _)
  · rw [pageOf_settle, pageOf_zeroPage_ne _ ho]
    exact pageOf_congr (congrArg Cry.pages (domErrCleared_cry s.dev p w.toNat)) o

/-- R446: a busy page keeps its domain, with DOMERR. -/
theorem yields_pageDomain_busy (hb : pageBusy s.dev p = true) :
    Yields (.pageDomainWrite who p w) s (fun d => fld d (0x800400 + 4 * p) 8 1 = 1 ∧
      fld d (0x800400 + 4 * p) 4 4 = fld s.dev (0x800400 + 4 * p) 4 4 ∧ d.cry = s.dev.cry ∧ d.evs = s.dev.evs) := by
  have hsort := domErrCleared_sorted hs p w.toNat
  refine yields_after ((exec_pageDomainWrite hp hm w).trans (by rw [pageDomain_refused he hs hep hb])) ?_
  rw [settle_cry, settle_evs, fld, reg_of_regs (settle_regs _), fld, reg_of_regs (settle_regs _)]
  exact ⟨fld_putFld hsort (by decide) .., (fld_putFld_apart hsort (.inl (by decide)) (by decide) ..).trans (fld_domErrCleared hs p w.toNat (by decide)),
    domErrCleared_cry .., domErrCleared_evs ..⟩

end Domain

/-- Settles O52: clause by clause, each command at what it leaves of its endpoint, its queues and the registers. -/
theorem hostQueuesMoveFramesBothWays : Obligations.HostQueuesMoveFramesBothWays := by
  unfold Obligations.HostQueuesMoveFramesBothWays
  refine ⟨?_, ?_, ?_, ?_, ?_, ?_, ?_, ?_, ?_, ?_, ?_, ?_, ?_, ?_, ?_, ?_, ?_, ?_, ?_⟩
  · exact fun s e hr he h => yields_hostLinkUp hr he h
  · exact fun s e hr he h hs => yields_hostLinkDown hr he h hs
  · exact fun s e h => exec_of_act (f := fun d => hostDown d e) rfl (hostDown_none h)
  · exact fun s who e t w he ht hm hs hfit => yields_txTailWrite he ht hm hs hfit
  · intro s e t x hr he ht hup hi hen hfree hbusy hskip htso hw hx hbad hts hp ha hf hwait
    exact yields_txRecord (txRecord_whole hskip htso hx hbad hts hr he ht hup hi hen hfree hbusy hw (by omega)) hp ha hf hwait
  · intro s e t x hf hwait hskip htso hx hbad hts
    refine exec_of_act (f := fun d => admitHeld (txRecord d e t)) rfl ?_
    rw [txRecord_full hskip htso hx hbad hts hf, admitHeld_none hwait]
  · intro s who e off w l he hm hl hb ha ho
    cases hf : arrivalFull s.dev (4 + e) with
    | true => exact exec_window_waits he hm hl hb ho hf w
    | false => exact exec_window_error he hm hl hb ho ha hf w
  · exact fun s e t c rest hr he hup hbme hfree hc hw hn => yields_txCompletion (txCompletion_writes hr he hup hbme hfree hc hw hn)
  · exact fun s who e r w he hr hm hs => yields_rxBufferPost he hr hm hs
  · exact fun s e r it hr he hq hit hrdy hf => yields_rxDelivery (rxDeliver_delivers hr he hq hf hit hrdy)
  · exact fun s e q hr he hup hbme hmask hu hd => yields_itrTx (itrExpire_tx hr he hu hd) (mem_txSignal hup hbme hmask)
  · exact fun s e q hr he hup hbme hmask hu hd => yields_itrRx (itrExpire_rx hr he hu hd) (mem_rxSignal hup hbme hmask)
  · exact fun s e q hu => exec_of_act (f := fun d => itrExpire d e true q) rfl (itrExpire_tx_none hu)
  · exact fun s e q hu => exec_of_act (f := fun d => itrExpire d e false q) rfl (itrExpire_rx_none hu)
  · exact fun s who e v he hv hm hbme hp => yields_msixUnmask he hv hm hbme hp
  · exact fun s e v hr he hup hp hmask => yields_busMasterOn hr he hup hp hmask
  · exact fun s e hr he hup => yields_busMasterOff hr he hup
  · exact fun s who e p w he hp hm hs hep hb hw hmask => yields_pageDomain_idle he hp hm hs hep hb hw hmask
  · exact fun s who e p w he hp hm hs hep hb => yields_pageDomain_busy he hp hm hs hep hb

end Sys2Proof.Machine
end

section
/-! SUPPORT. Mode requests (chapter 04): what the pending of a request leaves of the device, and the pending request at the end of a
transition. -/

namespace Sys2Proof.Machine

/-! ## Events -/

/-- R456: the stamp of an event depends on the time and on SYNC of TBS_STAT alone. -/
theorem evNow_congr_synced {a b : Dev} (hclk : nowNs a = nowNs b) (ht : a.clk.tclk = b.clk.tclk) (hs : synced a = synced b)
    (code cls : Nat) (data : Bytes) : evNow a code cls data = evNow b code cls data := by
  simp only [evNow, hclk, ht, hs]

/-- A field of a register is read past a write of another register. -/
theorem flag_putFld_ne (d : Dev) {off o : Nat} (h : o ≠ off) (lo w v i : Nat) : flag (putFld d off lo w v) o i = flag d o i :=
  congrArg (fun x => bit x i) (regK_putK_other d h _)

/-- R456: a field of a register other than TBS_STAT does not show in an event. -/
theorem evNow_putFld (d : Dev) {off : Nat} (h : 0xC80020 ≠ off) (lo w v code cls : Nat) (data : Bytes) :
    evNow (putFld d off lo w v) code cls data = evNow d code cls data :=
  evNow_congr_synced (a := putFld d off lo w v) (b := d) rfl rfl (flag_putFld_ne d h lo w v 0) code cls data

/-! ## The pending request (R90) -/

/-- R89, R444: a write of GLB_MODE that waits behind nothing and meets no access error is the request alone. -/
theorem exec_modeRequest {s : State} {who : Initiator} (h : MayWrite s.dev who 0x10) (w : Word) (auth : Bool) :
    exec (.modeRequest who w auth) s = act (fun d => modeRequest d w.toNat auth) s :=
  access_regWr h (.modeRequest who w auth) _

/-- R90: a request while a transition runs becomes the pending request. -/
theorem modeRequest_busy {d : Dev} {w : Nat} {auth : Bool} (hgo : bit w 11 = true) (hbusy : modeBusy d = true)
    (hauth : Mode.ofNum (bits w 8 3) ≠ .m7 ∨ auth = true) :
    modeRequest d w auth = modePend (putFld d 0x10 8 3 (bits w 8 3)) (Mode.ofNum (bits w 8 3)) := by
  have hok : (Mode.ofNum (bits w 8 3) == .m7 && !auth) = false := by
    rcases hauth with h | h
    · simp [h]
    · simp [h]
  have hstill : modeBusy (putFld d 0x10 8 3 (bits w 8 3)) = true := hbusy
  simp [modeRequest, hgo, hok, hstill]

/-- R90: with no other request pending the request is taken down. -/
theorem modePend_none {d : Dev} (h : d.clk.pendReq = none) (t : Mode) :
    modePend d t = { d with clk := { d.clk with pendReq := some t } } := by
  simp only [modePend, h, modClk]

theorem modeReject_clk (d : Dev) (t : Mode) (reason : Nat) : (modeReject d t reason).clk = { d.clk with lastRej := reason } :=
  raise_clk ..

/-- R89: in M2 to M7 a rejection is reported by MODE_REQ_REJECT. -/
theorem modeReject_evs {d : Dev} (h : 2 ≤ d.clk.mode.num) (t : Mode) (reason : Nat) :
    (modeReject d t reason).evs = d.evs ++ [evNow d 0x0402 0 (e1 t.num ++ e1 reason)] :=
  raise_evs (d := modClk d (fun c => { c with lastRej := reason })) h ..

/-- R90: another pending request is replaced, and rejected with reason 4. -/
theorem modePend_some {d : Dev} {o : Mode} (h : d.clk.pendReq = some o) (hm : 2 ≤ d.clk.mode.num) (t : Mode) :
    (modePend d t).clk = { d.clk with lastRej := 4, pendReq := some t } ∧
      (modePend d t).evs = d.evs ++ [evNow d 0x0402 0 (e1 o.num ++ e1 4)] := by
  have heq : modePend d t = modClk (modeReject d o 4) (fun c => { c with pendReq := some t }) := by simp only [modePend, h]
  rw [heq, modClk_clk, modClk_evs, modeReject_clk, modeReject_evs hm]
  exact ⟨rfl, rfl⟩

/-- R90: at the end of a transition with nothing left of its chain and no fault waiting, the pending request is decided. -/
theorem modeSettle_pending {d : Dev} {t : Mode} (hreq : d.clk.pendReq = some t) (h4 : d.clk.f4Pend = false)
    (h3 : d.clk.f3Pend = false) (hchain : d.clk.chain.drop 1 = []) :
    modeSettle d = modeDecide { d with clk := { d.clk with trans := .idle, chain := [], pendReq := none } } t := by
  simp [modeSettle, modClk, pendSettle, reqSettle, h4, h3, hchain, hreq]

/-- Settles O12: a request pends beside or in place of another, and is decided at the end of the transition. -/
theorem requestsArePendedAndReplaced : Obligations.RequestsArePendedAndReplaced := by
  unfold Obligations.RequestsArePendedAndReplaced
  refine ⟨fun s who w auth hw hgo hbusy hauth hnone => ?_, fun s who w auth o hw hgo hbusy hauth hsome hmode => ?_,
    fun d t hreq h4 h3 hchain => modeSettle_pending hreq h4 h3 hchain⟩
  · exact exec_of_act (exec_modeRequest hw w auth) ((modeRequest_busy hgo hbusy hauth).trans
      (modePend_none (d := putFld s.dev 0x10 8 3 (bits w.toNat 8 3)) hnone _))
  · obtain ⟨hclk, hevs⟩ := modePend_some (d := putFld s.dev 0x10 8 3 (bits w.toNat 8 3)) hsome hmode (Mode.ofNum (bits w.toNat 8 3))
    rw [evNow_putFld s.dev (by decide)] at hevs
    refine yields_act (exec_modeRequest hw w auth) ?_
    rw [modeRequest_busy hgo hbusy hauth, settle_clk, settle_evs, hclk, hevs]
    exact ⟨rfl, rfl, rfl, rfl, rfl⟩

end Sys2Proof.Machine
end

section
/-! SUPPORT. Wakes (chapter 04): how a wake in M1 and M0 starts its sequence, from each of its sources. -/

namespace Sys2Proof.Machine

/-! ## Driven balls (R61, R111) -/

/-- R111: a ball shows the level that a function has just driven, and settling drives none but the first three lines. -/
theorem shows_driven {d e : Dev} {o : List Output} {n : Nat} (h : 3 ≤ n) (high : Bool)
    (he : e.out = if pinOff d n then o else .line n (high != pinInv d n) :: o) : Shows d (settle e).out n high := by
  intro hoff
  rw [lineOf_settle_other e h, he, if_neg (ne_true_of_eq_false hoff), lineOf_emit, if_pos rfl]

/-! ## The device wake event (R95 to R97) -/

/-- R95, R96: in M1 Watch a wake is recorded, and its sequence starts with SUPPLY_EN_SW driven high. -/
theorem wakeEvent_watch {d : Dev} (h : watching d = true) (src chan : Nat) :
    wakeEvent d src chan = { d with
      clk := { d.clk with wakeFirst := src, wakeChan := chan, wakeTime := d.clk.rtc, trans := .wake false, enSw := true }
      regs := (wakeSrcSet d src true).regs
      out := if pinOff d 4 then d.out else .line 4 (true != pinInv d 4) :: d.out } := by
  simp only [watching, Bool.and_eq_true, beq_iff_eq] at h
  obtain ⟨⟨hout, hmode⟩, htrans⟩ := h
  have hstart : wakeEvent d src chan =
      drive (modClk (wakeRecord d src chan) (fun c => { c with trans := .wake false, enSw := true })) 4 true := by
    simp [wakeEvent, hout, hmode, htrans]
  rw [hstart, drive_eq]
  rfl

/-- R97: in M0 Dormant a wake is recorded, and its sequence starts with SUPPLY_EN_RET driven high. -/
theorem wakeEvent_dormant {d : Dev} (hout : outOfReset d = true) (hmode : d.clk.mode = .m0) (htrans : d.clk.trans = .idle)
    (src chan : Nat) : wakeEvent d src chan = { d with
      clk := { d.clk with wakeFirst := src, wakeChan := chan, wakeTime := d.clk.rtc, trans := .wake true, enRet := true }
      regs := (wakeSrcSet d src true).regs
      out := if pinOff d 5 then d.out else .line 5 (true != pinInv d 5) :: d.out } := by
  have hstart : wakeEvent d src chan =
      drive (modClk (wakeRecord d src chan) (fun c => { c with trans := .wake true, enRet := true })) 5 true := by
    simp [wakeEvent, hout, hmode, htrans]
  rw [hstart, drive_eq]
  rfl

/-- R93: in M2 to M7 with no transition a wake changes nothing. -/
theorem wakeEvent_awake {d : Dev} (hmode : 2 ≤ d.clk.mode.num) (htrans : d.clk.trans = .idle) (src chan : Nat) :
    wakeEvent d src chan = d := by
  have h1 : d.clk.mode ≠ .m1 := by intro h; simp [h, Mode.num] at hmode
  have h0 : d.clk.mode ≠ .m0 := by intro h; simp [h, Mode.num] at hmode
  simp [wakeEvent, htrans, h1, h0]

/-! ## Sources (R105, R203 to R206, R435) -/

/-- R238: an input that maps no cluster wakes no port. -/
theorem portsWake_zero (d : Dev) : portsWake d 0 = d := by
  refine foldl_keeps (g := id) (fun d p => ?_) d _
  split
  · simp [bit]
  · rfl

/-- R435: an edge of an input that maps no cluster is the wake event alone. -/
theorem wakeIn_unmapped {d : Dev} {i : Nat} {rising : Bool} (hout : outOfReset d = true) (hi : i < 8)
    (hen : flag d (0x7E0100 + 8 * i) 0 = true) (hedge : edgeTaken d i rising = true) (hmap : reg d (0x7E0104 + 8 * i) = 0) :
    wakeIn d i rising = wakeEvent d i 0 := by
  have hnone : bitList 32 0 = [] := by decide
  simp [wakeIn, hout, Nat.not_le.mpr hi, hen, hedge, hmap, portsWake_zero, hnone]

/-- R105: the alarm is a wake event when CKP_RTC has come to it. -/
theorem rtcAlarm_due {d : Dev} (hset : regPair d 0x10038 ≠ 0) (hnow : d.clk.rtc = regPair d 0x10038) :
    rtcAlarm d = wakeEvent d 9 0 := by
  simp [rtcAlarm, hset, hnow]

/-- R202: a channel is watched in M1 Watch. -/
theorem watching_of_swkWatched {d : Dev} {ch : Nat} (h : swkWatched d ch = true) : watching d = true := by
  simp only [swkWatched, Bool.and_eq_true] at h
  obtain ⟨⟨⟨⟨⟨hmode, htrans⟩, hout⟩, _⟩, _⟩, _⟩ := h
  simp only [watching, hmode, htrans, hout, Bool.and_self]

/-- R206: a channel of no cluster wakes the device alone. -/
theorem swkWake_unclustered {d : Dev} {ch : Nat} (h : canCluster d ch = none) : swkWake d ch = wakeEvent d 8 ch := by
  simp only [swkWake, h]

/-- R203, R206: FD and XL frames count as nothing. -/
theorem swkFrame_not_classical (d : Dev) (ch dlc : Nat) {f : CanFrame} (h : f.fmt ≠ .classical) : swkFrame d ch dlc f = d := by
  simp [swkFrame, h]

/-- The channel as a matched frame leaves it (R203, R204). -/
def swkMatched (k : Nat) (c : CanCh) : CanCh := { c with swkFec := c.swkFec - 1, swkPat := k, swkMatch := true }

/-- R203, R206: a frame that matches a pattern lowers the error counter, is counted in CKP_WAKEDROP and wakes. -/
theorem swkFrame_matches {d : Dev} {ch k dlc : Nat} {f : CanFrame} (hw : swkWatched d ch = true) (hf : f.fmt = .classical)
    (hk : (List.range 4).find? (fun k => swkHit d ch k dlc f) = some k) :
    swkFrame d ch dlc f = swkWake (modCan (bump d 0x10028 0) ch (swkMatched k)) ch := by
  have hk' : (List.range 4).find? (fun k => swkHit (modCan d ch (fun c => { c with swkFec := c.swkFec - 1 })) ch k dlc f) = some k := hk
  have htwice : modCan (bump (modCan d ch (fun c => { c with swkFec := c.swkFec - 1 })) 0x10028 0) ch
      (fun c => { c with swkPat := k, swkMatch := true }) = modCan (bump d 0x10028 0) ch (swkMatched k) :=
    modCan_modCan (bump d 0x10028 0) ch (fun c => { c with swkFec := c.swkFec - 1 })
      (fun c => { c with swkPat := k, swkMatch := true })
  simp only [swkFrame, hw, hf, hk', htwice, Bool.not_true, bne_self_eq_false, Bool.or_self, Bool.false_eq_true, if_false]

/-- The channel as a frame error count above FECTHR leaves it (R204). -/
def swkOver (c : CanCh) : CanCh := { c with swkFecW := true }

/-- R204: a frame error count above FECTHR wakes. -/
theorem swkFecWake_over {d : Dev} {ch : Nat} (hw : swkWatched d ch = true) (hen : flag d (canBase ch + 0x70) 5 = true)
    (hover : fld d (canBase ch + 0x70) 6 6 < (canOf d ch).swkFec) :
    swkFecWake d ch = swkWake (modCan d ch swkOver) ch :=
  if_pos (by simp [hw, hen, hover])

/-! ## The retained rails (R97) -/

/-- R97: SUPPLY_EN_SW is driven high once the retained rails are in tolerance. -/
theorem retainedGood_dormant {d : Dev} (ht : d.clk.trans = .wake true) (hsw : d.clk.enSw = false) :
    retainedGood d = { d with clk := { d.clk with enSw := true, retained := true }
                              out := if pinOff d 4 then d.out else .line 4 (true != pinInv d 4) :: d.out } := by
  have hdriven : retainedGood d = drive (modClk d (fun c => { c with enSw := true, retained := true })) 4 true := by
    simp [retainedGood, ht, hsw]
  rw [hdriven, drive_eq]
  rfl

/-- Settles O11: in M1 and M0 each source is the wake event, which starts the sequence of its mode. -/
theorem wakesStartTheWakeSequence : Obligations.WakesStartTheWakeSequence := by
  unfold Obligations.WakesStartTheWakeSequence
  refine ⟨?_, ?_, ?_, ?_, ?_, ?_, ?_, ?_⟩
  · intro s i rising hwatch hi hen hedge hmap
    have hout : outOfReset s.dev = true := by
      simp only [watching, Bool.and_eq_true] at hwatch
      exact hwatch.1.1
    have hmode : s.dev.clk.mode = .m1 := by
      simp only [watching, Bool.and_eq_true, beq_iff_eq] at hwatch
      exact hwatch.1.2
    refine yields_after (exec_of_act (f := fun d => wakeIn d i rising) rfl
      ((wakeIn_unmapped hout hi hen hedge hmap).trans (wakeEvent_watch hwatch i 0))) ?_
    rw [settle_clk, settle_evs, settle_flash, settle_nmc]
    exact ⟨rfl, rfl, rfl, rfl, hmode, shows_driven (by decide) true rfl, rfl, rfl, rfl⟩
  · intro s hwatch hset hnow
    refine yields_after (exec_of_act (f := rtcAlarm) rfl ((rtcAlarm_due hset hnow).trans (wakeEvent_watch hwatch 9 0))) ?_
    rw [settle_clk, settle_flash, settle_nmc]
    exact ⟨rfl, rfl, rfl, rfl, shows_driven (by decide) true rfl, rfl, rfl⟩
  · intro s hout hmode htrans hset hnow
    refine yields_after (exec_of_act (f := rtcAlarm) rfl ((rtcAlarm_due hset hnow).trans (wakeEvent_dormant hout hmode htrans 9 0))) ?_
    rw [settle_clk, settle_nmc]
    exact ⟨rfl, rfl, rfl, shows_driven (by decide) true rfl, rfl⟩
  · intro s hmode htrans
    refine exec_of_act (f := rtcAlarm) rfl ?_
    by_cases h : regPair s.dev 0x10038 ≠ 0 ∧ s.dev.clk.rtc = regPair s.dev 0x10038
    · rw [rtcAlarm_due h.1 h.2, wakeEvent_awake hmode htrans]
    · simp only [rtcAlarm, Bool.and_eq_true, bne_iff_ne, beq_iff_eq, if_neg h]
  · exact fun s ht hsw => exec_of_act (f := retainedGood) rfl (retainedGood_dormant ht hsw)
  · exact fun s ch dlc f _ hf => exec_of_act (f := fun d => swkFrame d ch dlc f) rfl (swkFrame_not_classical s.dev ch dlc hf)
  · intro s ch k dlc f hw hf hc hk
    refine yields_after (exec_of_act (f := fun d => swkFrame d ch dlc f) rfl ((swkFrame_matches hw hf hk).trans
      ((swkWake_unclustered (d := modCan (bump s.dev 0x10028 0) ch (swkMatched k)) hc).trans
        (wakeEvent_watch (d := modCan (bump s.dev 0x10028 0) ch (swkMatched k)) (watching_of_swkWatched hw) 8 ch)))) ?_
    have hchan : canOf (modCan (bump s.dev 0x10028 0) ch (swkMatched k)) ch = swkMatched k (canOf s.dev ch) :=
      canOf_modCan_same (bump s.dev 0x10028 0) ch _
    rw [settle_clk, settle_nmc, settle_tally, canOf_settle]
    exact ⟨rfl, rfl, rfl, congrArg CanCh.swkPat hchan, congrArg CanCh.swkMatch hchan, congrArg CanCh.swkFec hchan, rfl,
      shows_driven (by decide) true rfl, rfl⟩
  · intro s ch hw hen hc hover
    refine yields_after (exec_of_act (f := fun d => swkFecWake d ch) rfl ((swkFecWake_over hw hen hover).trans
      ((swkWake_unclustered (d := modCan s.dev ch swkOver) hc).trans
        (wakeEvent_watch (d := modCan s.dev ch swkOver) (watching_of_swkWatched hw) 8 ch)))) ?_
    have hchan : canOf (modCan s.dev ch swkOver) ch = swkOver (canOf s.dev ch) := canOf_modCan_same s.dev ch _
    rw [settle_clk, settle_nmc, canOf_settle]
    exact ⟨rfl, rfl, rfl, congrArg CanCh.swkFecW hchan, shows_driven (by decide) true rfl, rfl⟩

end Sys2Proof.Machine
end

section
/-! SUPPORT. The timers of M1 Watch (chapter 04): WATCH_LIMIT brings M0 Dormant in force, TRACE_HOLD discards a frozen trace. -/

namespace Sys2Proof.Machine

/-- R458: in M0 and M1 an event is stored in AON, and nothing else changes. -/
theorem raise_stored {d : Dev} (h : d.clk.mode.num < 2) (code cls : Nat) (data : Bytes) :
    raise d code cls data = { d with aonEvs := d.aonEvs ++ [evNow d code cls data] } := by
  simp only [raise, raiseAt, Nat.not_le.mpr h, decide_false, Bool.false_eq_true, if_false]
  rfl

/-- R86, R87: M0 Dormant is in force, and its MODE_CHANGE is still to be stored. -/
def dormantQuiet (d : Dev) : Dev := modClk (dormantDev d) (fun c => { c with mode := .m0, retained := false })

theorem dormantQuiet_mode (d : Dev) : (dormantQuiet d).clk.mode.num < 2 := (by decide : Mode.m0.num < 2)

/-- R87, R104: MODE_CHANGE is stored in AON, and SUPPLY_EN_RET is driven low. -/
theorem dormantEnter_eq (d : Dev) (trig : Nat) : dormantEnter d trig = { dormantQuiet d with
    aonEvs := d.aonEvs ++ [evNow (dormantQuiet d) 0x0401 0 (e1 1 ++ e1 0 ++ e1 trig)]
    out := if pinOff d 5 then (dormantQuiet d).out else .line 5 (false != pinInv d 5) :: (dormantQuiet d).out } := by
  have hstored : dormantEnter d trig = drive { dormantQuiet d with
      aonEvs := d.aonEvs ++ [evNow (dormantQuiet d) 0x0401 0 (e1 1 ++ e1 0 ++ e1 trig)] } 5 false :=
    congrArg (fun e => drive e 5 false) (raise_stored (dormantQuiet_mode d) ..)
  rw [hstored, drive_eq]
  rfl

/-- R87: M0 is entered once WATCH_LIMIT has elapsed and no frozen trace defers it. -/
theorem execWatchLimitExpire_over {s : State} (hw : watching s.dev = true) (hl : limitOver s.dev = true)
    (hh : holdOver s.dev = true) : exec .watchLimitExpire s = .next (after s (dormantEnter s.dev 1)) :=
  exec_of_act (f := fun d => if watching d && limitOver d && holdOver d then dormantEnter d 1 else d) rfl
    (if_pos (by simp only [hw, hl, hh, Bool.and_self]))

/-- R491: the device with its frozen trace discarded and the event of it stored. -/
def traceDiscarded (d : Dev) : Dev :=
  raise (modClk { d with rcd := recDiscard d.rcd } (fun c => { c with islands := 1 })) 0x0404 0 []

/-- R65, R491: the trace is gone, its event is stored, and the DDR resets are released where the pin section applies. -/
def traceGone (d : Dev) : Dev := { d with
  rcd := recDiscard d.rcd, clk := { d.clk with islands := 1 }
  out := if d.clk.pinsOn then .lineZ 9 :: .lineZ 8 :: d.out else d.out
  aonEvs := d.aonEvs ++ [evNow d 0x0404 0 []] }

/-- R66, R491: the discarded trace releases the resets. -/
theorem traceDiscarded_released {d : Dev} (h : d.clk.mode.num < 2) : (if (traceDiscarded d).clk.pinsOn then
    { traceDiscarded d with out := ddrHold (traceDiscarded d).rcd (traceDiscarded d).out } else traceDiscarded d) = traceGone d := by
  have hdisc : traceDiscarded d = { d with rcd := recDiscard d.rcd, clk := { d.clk with islands := 1 }
                                           aonEvs := d.aonEvs ++ [evNow d 0x0404 0 []] } :=
    raise_stored (d := modClk { d with rcd := recDiscard d.rcd } (fun c => { c with islands := 1 })) h ..
  rw [hdisc]
  cases hp : d.clk.pinsOn <;> simp [traceGone, hp, ddrHold, recDiscard]

/-- R105, R491: TRACE_HOLD over before WATCH_LIMIT discards the trace and leaves M1 in force. -/
theorem traceHold_discards {d : Dev} (hw : watching d = true) (hsr : d.rcd.sr = true) (hfld : fld d 0x10050 16 16 ≠ 0)
    (hh : holdOver d = true) (hl : limitOver d = false) : traceHold d = traceGone d := by
  have hmode : d.clk.mode.num < 2 := by
    simp only [watching, Bool.and_eq_true, beq_iff_eq] at hw
    rw [hw.1.2]
    decide
  have hdue : (watching d && d.rcd.sr && fld d 0x10050 16 16 != 0 && holdOver d) = true := by simp [hw, hsr, hfld, hh]
  have hlim : limitOver (traceGone d) = false := hl
  have hhold : traceHold d = (fun d => if limitOver d then dormantEnter d 1 else d) (if (traceDiscarded d).clk.pinsOn then
      { traceDiscarded d with out := ddrHold (traceDiscarded d).rcd (traceDiscarded d).out } else traceDiscarded d) := if_pos hdue
  rw [hhold, traceDiscarded_released hmode]
  exact if_neg (ne_true_of_eq_false hlim)

/-- Settles O16: WATCH_LIMIT by the device that M0 leaves, TRACE_HOLD by the device without its trace. -/
theorem watchTimersReachDormant : Obligations.WatchTimersReachDormant := by
  unfold Obligations.WatchTimersReachDormant
  refine ⟨fun s hw hl hh => ?_, fun s hw hsr hfld hh hl => exec_of_act (f := traceHold) rfl (traceHold_discards hw hsr hfld hh hl)⟩
  refine yields_after (execWatchLimitExpire_over hw hl hh) ?_
  rw [settle_clk, settle_flash, settle_lnd, settle_rcd, settle_img, settle_flt, settle_aonEvs, dormantEnter_eq]
  exact ⟨rfl, rfl, rfl, rfl, rfl, rfl, rfl, rfl, shows_driven (by decide) false rfl, rfl, rfl, rfl, _, rfl, rfl, rfl⟩

end Sys2Proof.Machine
end

section
/-! SUPPORT. What a change of modes goes on with (chapters 04, 07, 08 and 11): the channels, the ports and the Mill take their part in
it, and leave the clocks, the flash and the fuses, and of the events those that stand. -/

namespace Sys2Proof.Machine

/-- From `a` to `b` the clocks, the flash and the fuses stay as they are, and events only join those that stand; in M2 to M7 none is
stored in AON. -/
structure GoesOn (a b : Dev) : Prop where
  clk : b.clk = a.clk
  flash : b.flash = a.flash
  fuses : b.fuses = a.fuses
  evs : ∃ l, b.evs = a.evs ++ l
  aon : 2 ≤ a.clk.mode.num → b.aonEvs = a.aonEvs

theorem GoesOn.of_eq {a b : Dev} (hclk : b.clk = a.clk) (hflash : b.flash = a.flash) (hfuses : b.fuses = a.fuses) (hevs : b.evs = a.evs)
    (haon : b.aonEvs = a.aonEvs) : GoesOn a b :=
  ⟨hclk, hflash, hfuses, ⟨[], hevs.trans (List.append_nil _).symm⟩, fun _ => haon⟩

theorem GoesOn.refl (d : Dev) : GoesOn d d := .of_eq rfl rfl rfl rfl rfl

theorem GoesOn.trans {a b c : Dev} (h : GoesOn a b) (k : GoesOn b c) : GoesOn a c := by
  obtain ⟨l, hl⟩ := h.evs
  obtain ⟨m, hm⟩ := k.evs
  exact ⟨k.clk.trans h.clk, k.flash.trans h.flash, k.fuses.trans h.fuses, ⟨l ++ m, by rw [hm, hl, List.append_assoc]⟩,
    fun hmode => (k.aon (by rw [h.clk]; exact hmode)).trans (h.aon hmode)⟩

/-- A stage that may be left out. -/
theorem GoesOn.ite {a b c : Dev} {p : Prop} {i : Decidable p} (h : GoesOn a b) (k : GoesOn a c) : GoesOn a (if p then b else c) := by
  split
  · exact h
  · exact k

theorem goesOn_foldl {α : Type} {f : Dev → α → Dev} (h : ∀ d x, GoesOn d (f d x)) (d : Dev) (l : List α) : GoesOn d (l.foldl f d) :=
  List.foldlRecOn (motive := fun e => GoesOn d e) l f (.refl d) (fun e he x _ => he.trans (h e x))

theorem goesOn_raise (d : Dev) (code cls : Nat) (data : Bytes) : GoesOn d (raise d code cls data) := by
  refine ⟨raise_clk .., raise_flash .., raise_fuses .., ?_, fun h => raise_aonEvs h ..⟩
  by_cases h : 2 ≤ d.clk.mode.num
  · exact ⟨_, raise_evs h ..⟩
  · exact ⟨[], by rw [raise_stored (Nat.not_le.mp h), List.append_nil]⟩

theorem goesOn_bumpBy (d : Dev) (off inst n : Nat) : GoesOn d (bumpBy d off inst n) := .of_eq rfl rfl rfl rfl rfl
theorem goesOn_bumpM (d : Dev) (ix : Nat) : GoesOn d (bumpM d ix) := goesOn_bumpBy ..

/-! ## Channels (R164, R165) -/

theorem goesOn_modCan (d : Dev) (ch : Nat) (f : CanCh → CanCh) : GoesOn d (modCan d ch f) := .of_eq rfl rfl rfl rfl rfl

theorem goesOn_btChecked (d : Dev) (ch : Nat) : GoesOn d (btChecked d ch) := by
  unfold btChecked
  split
  · exact .ite (goesOn_modCan ..) ((goesOn_modCan ..).trans (goesOn_raise ..))
  · exact goesOn_modCan ..

theorem goesOn_leaveInit (d : Dev) (ch : Nat) : GoesOn d (leaveInit d ch) := by
  obtain h | h := leaveInit_cases d ch <;> rw [h]
  · exact .refl d
  · exact goesOn_modCan ..

theorem goesOn_initUpdate (d : Dev) (ch : Nat) : GoesOn d (initUpdate d ch) := by
  rw [initUpdate_eq]
  exact ((goesOn_btChecked ..).trans (goesOn_modCan ..)).trans (goesOn_leaveInit ..)

theorem goesOn_initDemand (d : Dev) (ch : Nat) (on : Bool) : GoesOn d (initDemand d ch on) :=
  (goesOn_modCan ..).trans (goesOn_initUpdate ..)

/-! ## Ports (R229, R235) -/

theorem goesOn_modEth (d : Dev) (p : Nat) (f : EthP → EthP) : GoesOn d (modEth d p f) := .of_eq rfl rfl rfl rfl rfl

theorem goesOn_gclChange (d : Dev) (p : Nat) : GoesOn d (gclChange d p) := by
  unfold gclChange
  dsimp only
  split
  · exact .refl d
  · exact .ite ((goesOn_modEth ..).trans (goesOn_raise ..)) (.refl d)

theorem goesOn_gclRequest (d : Dev) (p : Nat) : GoesOn d (gclRequest d p) :=
  .ite ((goesOn_gclChange ..).trans (goesOn_modEth ..)) (.refl d)

theorem goesOn_portStart (d : Dev) (p : Nat) : GoesOn d (portStart d p) :=
  have hdown : GoesOn d (if ethInImage d p && flag d (ethBase p) 0 && (ethOf d p).st == 0 then modEth d p (fun e => { e with st := 1 })
    else d) := .ite (goesOn_modEth ..) (.refl d)
  .ite (hdown.trans (goesOn_gclRequest ..)) hdown

/-! ## The Mill (R305, R310, R321, R324) -/

/-- A change of the Mill's own state. -/
theorem goesOn_mil (d : Dev) (m : Mil) : GoesOn d { d with mil := m } := .of_eq rfl rfl rfl rfl rfl

theorem goesOn_milLoss (d : Dev) (pdu why : Nat) : GoesOn d (milLoss d pdu why) := by
  unfold milLoss
  extract_lets n late
  clear_value late
  exact .ite ((goesOn_mil d _).trans (goesOn_raise ..)) (goesOn_mil d _)

theorem goesOn_milDropIf (d : Dev) (host : Bool) (pdu ix : Nat) : GoesOn d (milDropIf d host pdu ix) :=
  .ite ((goesOn_bumpM ..).trans (goesOn_milLoss ..)) (goesOn_bumpM ..)

theorem goesOn_setTab (d : Dev) (ch l : Nat) (e : Nat × Nat) : GoesOn d (setTab d ch l e) := .ite (goesOn_mil d _) (goesOn_mil d _)

theorem goesOn_setTabs (d : Dev) (l : Nat) (e : Nat × Nat) : GoesOn d (setTabs d l e) := (goesOn_setTab ..).trans (goesOn_setTab ..)

theorem goesOn_touchLine (d : Dev) (l : Nat) : GoesOn d (touchLine d l) := by
  unfold touchLine
  split
  · exact goesOn_mil d _
  · exact .refl d

theorem goesOn_accessLines (d : Dev) (late ls : List Nat) : GoesOn d (accessLines d late ls) :=
  (goesOn_foldl goesOn_touchLine d ls).trans (goesOn_bumpBy ..)

theorem goesOn_setEntry (d : Dev) (e v : Nat) : GoesOn d (setEntry d e v) := by
  unfold setEntry
  exact .ite (goesOn_mil d _) (.ite (goesOn_mil d _) (goesOn_setTabs ..))

theorem goesOn_trigger (d : Dev) (p mode : Nat) : GoesOn d (trigger d p mode) := .ite (goesOn_mil d _) (.refl d)

theorem goesOn_placeOne (d : Dev) (src : Nat) (side : Bool) (n v : Nat) (x : Place) : GoesOn d (placeOne d src side n v x) := by
  unfold placeOne
  split
  · exact .refl d
  · dsimp only
    refine .ite ?_ (.ite (.refl d) (.ite (goesOn_mil d _) ((goesOn_mil d _).trans (goesOn_trigger ..))))
    split
    · exact .ite ((goesOn_bumpM ..).trans (goesOn_milLoss ..)) (goesOn_bumpM ..)
    · exact goesOn_bumpM ..

theorem goesOn_placeAll (d : Dev) (late : List Nat) (src : Nat) (side : Bool) (v x : Nat) : GoesOn d (placeAll d late src side v x) :=
  ((goesOn_bumpBy ..).trans (goesOn_accessLines ..)).trans (goesOn_foldl (fun d p => goesOn_placeOne d src side (sgLen v) x p) _ _)

theorem goesOn_entryOp (d : Dev) (job : SliceJob) (side : Bool) (data : Bytes) (e : Nat) : GoesOn d (entryOp d job side data e) := by
  unfold entryOp
  extract_lets d₁ v d₂ path new d₃ d₄
  have hops : GoesOn d d₁ := goesOn_bumpBy ..
  have hread : GoesOn d d₂ := hops.trans ((goesOn_accessLines ..).trans (goesOn_bumpBy ..))
  have hset : GoesOn d d₃ := hread.trans (goesOn_setEntry ..)
  have hchain : GoesOn d d₄ := .ite (hset.trans (goesOn_milDropIf ..)) hset
  exact .ite (hops.trans (goesOn_milDropIf ..)) (.ite hread (.ite (hread.trans (goesOn_bumpM ..)) (.ite (hread.trans (goesOn_bumpM ..))
    (.ite (hread.trans (goesOn_bumpM ..)) (.ite hset (hchain.trans (goesOn_placeAll ..)))))))

theorem goesOn_slicesFinish (d : Dev) : GoesOn d (slicesFinish d) := by
  unfold slicesFinish
  dsimp only
  refine (goesOn_foldl (fun d s => ?_) d d.mil.slices).trans (goesOn_mil _ _)
  have hfree : GoesOn d (journalFree d 10 s.2.pkt.size) := .of_eq rfl rfl rfl rfl rfl
  exact hfree.trans (goesOn_foldl (fun d i => goesOn_entryOp ..) _ _)

theorem goesOn_writeBackAll (d : Dev) : GoesOn d (writeBackAll d) := by
  unfold writeBackAll
  dsimp only
  refine ((goesOn_foldl (fun d e => goesOn_setTabs ..) d d.mil.wback).trans (goesOn_foldl (fun d e => ?_) _ _)).trans (goesOn_mil _ _)
  exact .ite (goesOn_setTabs ..) (.refl d)

theorem goesOn_milForce (d : Dev) (split : Bool) : GoesOn d (milForce d split) := (goesOn_slicesFinish d).trans (goesOn_mil _ _)

theorem goesOn_pinLine (d : Dev) (l : Nat) : GoesOn d (pinLine d l) := .ite (goesOn_mil d _) (.refl d)

theorem goesOn_milStart (d : Dev) : GoesOn d (milStart d) :=
  (goesOn_mil d _).trans (goesOn_foldl (fun d _ => goesOn_foldl (fun d _ => goesOn_pinLine d _) d _) _ _)

end Sys2Proof.Machine
end

section
/-! SUPPORT. Groves (chapter 04): what powering a grove on and off leaves of the device, and a change of groves grove by grove. -/

namespace Sys2Proof.Machine

/-! ## What flushes and cuts leave (R222, R236, R265) -/

/-- The clocks, the flash and the fuses. -/
def lasting (d : Dev) : Clk × NMap Byte × Fuses := (d.clk, d.flash, d.fuses)

theorem lasting_eq_iff {a b : Dev} : lasting a = lasting b ↔ a.clk = b.clk ∧ a.flash = b.flash ∧ a.fuses = b.fuses := by
  simp only [lasting, Prod.mk.injEq]

theorem GoesOn.lasting {a b : Dev} (h : GoesOn a b) : lasting b = lasting a := lasting_eq_iff.mpr ⟨h.clk, h.flash, h.fuses⟩

theorem flushBlind_lasting : FlushBlind lasting :=
  { lnd := fun _ _ => rfl, flt := fun _ _ => rfl, eps := fun _ _ => rfl, can := fun _ _ => rfl, rcd := fun _ _ => rfl,
    whl := fun _ _ => rfl, bump := fun _ _ _ => rfl, raise := fun d code cls data => (goesOn_raise d code cls data).lasting }

theorem lasting_bumpBy (d : Dev) (off inst n : Nat) : lasting (bumpBy d off inst n) = lasting d := rfl
theorem lasting_bumpE (d : Dev) (p rel : Nat) : lasting (bumpE d p rel) = lasting d := rfl
theorem lasting_emit (d : Dev) (o : Output) : lasting (emit d o) = lasting d := rfl
theorem lasting_modEth (d : Dev) (p : Nat) (f : EthP → EthP) : lasting (modEth d p f) = lasting d := rfl
theorem lasting_modLane (d : Dev) (k : Nat) (f : Lane → Lane) : lasting (modLane d k f) = lasting d := rfl

theorem lasting_stomp (d : Dev) (o sent : Nat) : lasting (stomp d o sent) = lasting d := by
  rw [stomp, lasting_bumpBy, lasting_bumpE, lasting_bumpE, lasting_emit, lasting_modEth, lasting_modLane]

/-- R236: a port that is cut leaves them. -/
theorem lasting_portCut (d : Dev) (p st : Nat) : lasting (portCut d p st) = lasting d := by
  have hcross : ∀ d x n, lasting (crossOutside d x n) = lasting d := fun d x n =>
    (flushBlind_lasting.crossReset ..).trans (flushBlind_lasting.crossReset ..)
  have hkill : ∀ d sent, lasting (killPart d p sent) = lasting d := fun d sent =>
    flushBlind_lasting.killPart (fun _ _ => rfl) lasting_stomp d p sent
  unfold portCut
  extract_lets e wire d₁ d₂ d₃ d₄ d₅ d₆ d₇
  have h₁ : lasting d₁ = lasting d := keeps_ite (flushBlind_lasting.flushQueues ..)
  have h₂ : lasting d₂ = lasting d₁ := keeps_ite (g := lasting) (b := d₁) ((lasting_emit ..).trans (lasting_bumpE d₁ p 0x160))
  have h₃ : lasting d₃ = lasting d₂ := keeps_ite (g := lasting) (b := d₂) (lasting_modLane ..)
  have h₄ : lasting d₄ = lasting d₃ := keeps_ite (hkill ..)
  have h₅ : lasting d₅ = lasting d₄ := keeps_ite (g := lasting) (b := d₄) (lasting_bumpE ..)
  have h₆ : lasting d₆ = lasting d₅ := lasting_modEth ..
  have h₇ : lasting d₇ = lasting d₆ := flushBlind_lasting.tsoCut (fun _ _ => rfl) ..
  exact (hcross ..).trans (h₇.trans (h₆.trans (h₅.trans (h₄.trans (h₃.trans (h₂.trans h₁))))))

theorem lasting_portOff (d : Dev) (p : Nat) : lasting (portOff d p) = lasting d :=
  keeps_ite (g := lasting) (lasting_portCut d p 0)

theorem lasting_txDrop (d : Dev) (p : Pkt) (status : Nat) : lasting (txDrop d p status) = lasting d := by
  unfold txDrop
  split <;> rfl

theorem lasting_bumpR (d : Dev) (ix input : Nat) : lasting (bumpR d ix input) = lasting d := rfl

theorem lasting_dropLookups (d : Dev) (src : Nat) : lasting (dropLookups d src) = lasting d := by
  unfold dropLookups
  extract_lets all d₁
  have hstep : ∀ (d : Dev) (it : LookItem), lasting (txDrop (bumpR d 11 it.pkt.input) it.pkt 2) = lasting d :=
    fun d it => (lasting_txDrop (bumpR d 11 it.pkt.input) it.pkt 2).trans (lasting_bumpR d 11 it.pkt.input)
  have h₁ : lasting d₁ = lasting d := foldl_keeps hstep d all
  exact h₁

/-! ## Powering a grove off and on (R35, R87) -/

/-- R87: a grove that is powered off loses its island, and its gating is over; of the clocks nothing else but the PLLs follows. -/
theorem groveOff_leaves (d : Dev) (g : Nat) : (groveOff d g).clk.islands = setBit d.clk.islands (1 + g) false ∧
    (groveOff d g).clk.gating = setBit d.clk.gating g false ∧ (groveOff d g).clk.mode = d.clk.mode ∧ (groveOff d g).flash = d.flash := by
  unfold groveOff
  extract_lets d₁ d₂ d₃
  have h₁ : lasting d₁ = lasting d := foldl_keeps lasting_portOff d _
  have h₂ : lasting d₂ = lasting d₁ := foldl_keeps (f := fun d ch => { d with can := mapDel d.can ch }) (fun d ch => rfl) d₁ _
  have h₃ : lasting d₃ = lasting d₂ := lasting_dropLookups ..
  obtain ⟨hclk, hflash, -⟩ := lasting_eq_iff.mp (show lasting d₃ = lasting d from h₃.trans (h₂.trans h₁))
  refine ⟨?_, ?_, ?_, hflash⟩
  · exact congrArg (fun c => setBit c.islands (1 + g) false) hclk
  · exact congrArg (fun c => setBit c.gating g false) hclk
  · exact (congrArg Clk.mode hclk : d₃.clk.mode = d.clk.mode)

/-- The island of a grove is powered, and the PLLs follow (R35, R82). -/
def islandOn (d : Dev) (g : Nat) : Dev :=
  pllSync (modClk d (fun c => { c with islands := setBit c.islands (1 + g) true, gating := setBit c.gating g false }))

/-- R87: beside its island, a grove that is powered on starts its channels and its ports. -/
theorem grovePower_off {d : Dev} {g : Nat} (h : groveOn d g = false) : GoesOn (islandOn d g) (grovePower d g) := by
  have heq : grovePower d g = (grovePorts g).foldl portStart
      ((groveChans g).foldl (fun d ch => if canInImage d ch then initDemand d ch false else d) (islandOn d g)) :=
    if_neg (ne_true_of_eq_false h)
  rw [heq]
  exact (goesOn_foldl (fun d ch => .ite (goesOn_initDemand ..) (.refl d)) _ _).trans (goesOn_foldl goesOn_portStart _ _)

/-! ## A change of groves (R87) -/

theorem modeBusy_of_trans {d : Dev} (h : d.clk.trans ≠ .idle) : modeBusy d = true := by simp [modeBusy, h]

/-- R428: in a change of groves no grove is gated of itself. -/
theorem autoGate_busy {d : Dev} (h : d.clk.trans ≠ .idle) (g : Nat) : autoGate d g = d := by
  simp [autoGate, modeBusy_of_trans h]

theorem autoRestore_busy {d : Dev} (h : d.clk.trans ≠ .idle) (g : Nat) : autoRestore d g = d := by
  simp [autoRestore, modeBusy_of_trans h]

/-- R87: the change goes on while a grove is left to it. -/
theorem regroupEnd_left {d : Dev} {add drop : Nat} (ht : d.clk.trans = .regroup add drop) (h : add ≠ 0 ∨ drop ≠ 0) :
    regroupEnd d = d := by
  unfold regroupEnd
  split
  · rename_i h0
    rw [ht] at h0
    obtain ⟨ha, hd⟩ := Trans.regroup.inj h0
    omega
  · rfl

/-- R87: a closed grove whose channels are in INIT is powered off, and the change goes on for those that remain. -/
theorem gateStep_gates {d : Dev} {g drop : Nat} (ht : d.clk.trans = .regroup 0 drop) (hb : bit drop g = true)
    (hleft : setBit drop g false ≠ 0) (hidle : groveIdle d g = true) (hclosed : bit d.clk.gating g = true)
    (hinit : groveInit d g = true) :
    gateStep d g = modClk (groveOff d g) (fun c => { c with trans := .regroup 0 (setBit drop g false) }) := by
  simp only [gateStep, ht, hb, hidle, hclosed, hinit, Bool.not_true, Bool.false_eq_true, if_false, if_true]
  exact regroupEnd_left rfl (.inr hleft)

/-- R87: a grove that the change adds is powered on, and the change goes on for those that remain. -/
theorem restoreStep_restores {d : Dev} {g add drop : Nat} (ht : d.clk.trans = .regroup add drop) (hb : bit add g = true)
    (hleft : setBit add g false ≠ 0) :
    restoreStep d g = modClk (grovePower d g) (fun c => { c with trans := .regroup (setBit add g false) drop }) := by
  simp only [restoreStep, ht, hb, if_true]
  exact regroupEnd_left rfl (.inl hleft)

/-- R87, R428: in M4 to M7 with no transition no grove is gated or restored. -/
theorem groves_stay {d : Dev} (hm : 4 ≤ d.clk.mode.num) (ht : d.clk.trans = .idle) (g : Nat) :
    gateStep (autoGate d g) g = d ∧ restoreStep (autoRestore d g) g = d := by
  have h2 : d.clk.mode ≠ .m2 := by intro h; simp [h, Mode.num] at hm
  have h3 : d.clk.mode ≠ .m3 := by intro h; simp [h, Mode.num] at hm
  simp [autoGate, autoRestore, gateStep, restoreStep, h2, h3, ht]

/-- Settles O14: one grove of a change is powered off or on, and outside a change in M4 to M7 none is. -/
theorem grovesAreGatedAndRestored : Obligations.GrovesAreGatedAndRestored := by
  unfold Obligations.GrovesAreGatedAndRestored
  refine ⟨?_, ?_, ?_⟩
  · intro s g drop hg hr ht hb hleft hidle hclosed hinit
    have hbusy : s.dev.clk.trans ≠ .idle := by rw [ht]; exact Trans.noConfusion
    obtain ⟨hisl, hgate, hmode, hflash⟩ := groveOff_leaves s.dev g
    refine yields_act (f := fun d => if g < 4 && running d then gateStep (autoGate d g) g else d) rfl ?_
    rw [if_pos (by simp [hg, hr]), autoGate_busy hbusy, gateStep_gates ht hb hleft hidle hclosed hinit, settle_clk, settle_flash,
      modClk_clk, modClk_flash]
    refine ⟨?_, ?_, rfl, hmode, hflash⟩
    · rw [groveOn, settle_clk, modClk_clk, hisl, bit_setBit, if_pos rfl]
    · rw [hgate, bit_setBit, if_pos rfl]
  · intro s g add drop hg hr ht hb hleft hoff
    have hbusy : s.dev.clk.trans ≠ .idle := by rw [ht]; exact Trans.noConfusion
    have hon := grovePower_off hoff
    refine yields_act (f := fun d => if g < 4 && running d then restoreStep (autoRestore d g) g else d) rfl ?_
    rw [if_pos (by simp [hg, hr]), autoRestore_busy hbusy, restoreStep_restores ht hb hleft, settle_clk, settle_flash,
      modClk_clk, modClk_flash, hon.clk, hon.flash]
    refine ⟨?_, ?_, rfl, rfl, rfl⟩
    · rw [groveOn, settle_clk, modClk_clk, hon.clk]
      exact (bit_setBit ..).trans (if_pos rfl)
    · exact (bit_setBit ..).trans (if_pos rfl)
  · intro s g hm ht
    obtain ⟨hgate, hrestore⟩ := groves_stay hm ht g
    exact ⟨exec_of_act (f := fun d => if g < 4 && running d then gateStep (autoGate d g) g else d) rfl (by rw [hgate, ite_self]),
      exec_of_act (f := fun d => if g < 4 && running d then restoreStep (autoRestore d g) g else d) rfl (by rw [hrestore, ite_self])⟩

end Sys2Proof.Machine
end

section
/-! SUPPORT. Split, lock and Safe-Hold (chapters 04 and 14): what the mark of the twins and a hand-over of the Mill leave, the end of a
transition with nothing left of it, and the entry to M6. -/

namespace Sys2Proof.Machine

/-! ## Entering a mode (R87, R90, R104) -/

/-- R90: a transition that ends with nothing left of its chain, no fault waiting and no request pending. -/
theorem modeSettle_last {d : Dev} (hchain : d.clk.chain.drop 1 = []) (h4 : d.clk.f4Pend = false) (h3 : d.clk.f3Pend = false)
    (hreq : d.clk.pendReq = none) : modeSettle d = modClk d (fun c => { c with trans := .idle, chain := [], pendReq := none }) := by
  simp [modeSettle, modClk, pendSettle, reqSettle, h4, h3, hchain, hreq]

theorem modeEnter_clk (d : Dev) (m : Mode) (trig : Nat) : (modeEnter d m trig).clk = { d.clk with mode := m, target := m } := raise_clk ..

theorem modeEnter_mil (d : Dev) (m : Mode) (trig : Nat) : (modeEnter d m trig).mil = d.mil := raise_mil ..

/-- R104: MODE_CHANGE is the last event when a mode of M2 to M7 comes in force. -/
theorem modeEnter_reports (d : Dev) {m : Mode} (hm : 2 ≤ m.num) (trig : Nat) : ∃ l e, (modeEnter d m trig).evs = l ++ [e] ∧
    e.code = 0x0401 ∧ e.data = e1 d.clk.mode.num ++ e1 m.num ++ e1 trig :=
  ⟨_, _, raise_evs (d := modClk d (fun c => { c with mode := m, target := m })) hm .., rfl, rfl⟩

/-- R87, R104: the last transition of a chain brings its mode in force, with MODE_CHANGE last among the events. -/
theorem modeSettle_enters {d : Dev} {m : Mode} (hm : 2 ≤ m.num) (hchain : d.clk.chain.drop 1 = []) (h4 : d.clk.f4Pend = false)
    (h3 : d.clk.f3Pend = false) (hreq : d.clk.pendReq = none) (trig : Nat) :
    (modeSettle (modeEnter d m trig)).clk.mode = m ∧ (modeSettle (modeEnter d m trig)).clk.trans = .idle ∧
    (modeSettle (modeEnter d m trig)).clk.chain = [] ∧ (modeSettle (modeEnter d m trig)).mil = d.mil ∧
    ∃ l e, (modeSettle (modeEnter d m trig)).evs = l ++ [e] ∧ e.code = 0x0401 ∧
      e.data = e1 d.clk.mode.num ++ e1 m.num ++ e1 trig := by
  have hclk := modeEnter_clk d m trig
  rw [modeSettle_last (by rw [hclk]; exact hchain) (by rw [hclk]; exact h4) (by rw [hclk]; exact h3) (by rw [hclk]; exact hreq),
    modClk_clk, modClk_mil, modClk_evs, hclk]
  exact ⟨rfl, rfl, rfl, modeEnter_mil .., modeEnter_reports d hm trig⟩

/-! ## Split and lock (R411 to R413) -/

theorem goesOn_splitMark (d : Dev) : GoesOn d (splitMark d) :=
  goesOn_foldl (f := fun d i => twinMark d (10 + i)) (fun _ _ => .of_eq rfl rfl rfl rfl rfl) d _

theorem splitMark_mil (d : Dev) : (splitMark d).mil = d.mil :=
  foldl_keeps (g := Dev.mil) (f := fun d i => twinMark d (10 + i)) (fun _ _ => rfl) d _

theorem setTabs_split (d : Dev) (l : Nat) (e : Nat × Nat) : (setTabs d l e).mil.split = d.mil.split := by
  have htab : ∀ (d : Dev) ch, (setTab d ch l e).mil.split = d.mil.split := by
    intro d ch
    unfold setTab
    dsimp only
    split <;> rfl
  exact (htab ..).trans (htab ..)

/-- R412: a write-back of the dirty lines leaves the split. -/
theorem writeBackAll_split (d : Dev) : (writeBackAll d).mil.split = d.mil.split := by
  unfold writeBackAll
  extract_lets d₁ d₂ clean
  have h₁ : d₁.mil.split = d.mil.split := foldl_keeps (g := fun d => d.mil.split) (fun d e => setTabs_split ..) d _
  have h₂ : d₂.mil.split = d₁.mil.split := foldl_keeps (g := fun d => d.mil.split)
    (fun d e => keeps_ite (g := fun d => d.mil.split) (setTabs_split ..)) d₁ _
  exact h₂.trans h₁

theorem lockToSplit_due {d : Dev} (hr : running d = true) (hm : d.clk.mode = .m3) (ht : d.clk.trans = .idle) (hc : d.clk.chain = [.m4])
    (h4 : d.clk.f4Pend = false) (hs : splitTwinsRun d = true) :
    lockToSplit d = modeSettle (modeEnter (splitMark (milForce d true)) .m4 d.clk.trig) :=
  if_pos (by simp [hr, hm, ht, hc, h4, hs])

theorem splitToLock_due {d : Dev} (hr : running d = true) (hm : d.clk.mode = .m4) (ht : d.clk.trans = .idle) (hc : d.clk.chain = [.m3])
    (h4 : d.clk.f4Pend = false) :
    splitToLock d = modeSettle (modeEnter (splitMark (writeBackAll (milForce d false))) .m3 d.clk.trig) :=
  if_pos (by simp [hr, hm, ht, hc, h4])

/-! ## Power in Safe-Hold (R86, R91) -/

/-- R87: powering a grove on leaves every other as it is. -/
theorem groveOn_grovePower (d : Dev) (g h : Nat) : groveOn (grovePower d g) h = (decide (g = h) || groveOn d h) := by
  cases hg : groveOn d g
  case true =>
    rw [grovePower, if_pos hg]
    by_cases hgh : g = h
    · rw [← hgh, hg, Bool.or_true]
    · rw [decide_eq_false hgh, Bool.false_or]
  case false =>
    rw [groveOn, (grovePower_off hg).clk]
    refine (bit_setBit ..).trans ?_
    by_cases hgh : g = h
    · simp [hgh]
    · rw [if_neg (by omega), decide_eq_false hgh, Bool.false_or, groveOn]

theorem grovePower_leaves (d : Dev) (g : Nat) : (grovePower d g).flash = d.flash ∧ (grovePower d g).fuses = d.fuses := by
  cases hg : groveOn d g
  case true =>
    rw [grovePower, if_pos hg]
    exact ⟨rfl, rfl⟩
  case false => exact ⟨(grovePower_off hg).flash, (grovePower_off hg).fuses⟩

/-- Every grove is powered (R35). -/
def AllGroves (d : Dev) : Prop := ∀ g, g < 4 → groveOn d g = true

/-- The groves of `d` after power has come to each of them (R86). -/
def allPowered (d : Dev) : Dev := (List.range 4).foldl grovePower d

theorem allPowered_groves (d : Dev) : AllGroves (allPowered d) := by
  intro g hg
  have hfour : allPowered d = grovePower (grovePower (grovePower (grovePower d 0) 1) 2) 3 := rfl
  simp only [hfour, groveOn_grovePower]
  interval_cases g <;> simp

theorem allPowered_leaves (d : Dev) : (allPowered d).flash = d.flash ∧ (allPowered d).fuses = d.fuses :=
  ⟨foldl_keeps (g := Dev.flash) (fun d g => (grovePower_leaves d g).1) d _,
    foldl_keeps (g := Dev.fuses) (fun d g => (grovePower_leaves d g).2) d _⟩

/-- The MILL island is powered (R35). -/
def millOnIsland (d : Dev) : Dev := modClk d (fun c => { c with islands := setBit c.islands 6 true })

/-- R35, R321: outside M2 the Mill is powered: it goes on, or starts. -/
theorem millPower_full (d : Dev) {m : Mode} (hm : m ≠ .m2) : millPower d m = d ∨ millPower d m = milStart (millOnIsland d) := by
  have hwant : millWanted d m = true := by simp [millWanted, hm]
  cases hon : bit d.clk.islands 6
  · exact .inr (by simp [millPower, hwant, hon, millOnIsland])
  · exact .inl (by simp [millPower, hwant, hon])

/-- R321: powering the Mill leaves the groves, the flash and the fuses. -/
theorem millPower_leaves {d : Dev} {m : Mode} (hm : m ≠ .m2) (h : AllGroves d) :
    AllGroves (millPower d m) ∧ (millPower d m).flash = d.flash ∧ (millPower d m).fuses = d.fuses := by
  obtain heq | heq := millPower_full d hm
  · rw [heq]
    exact ⟨h, rfl, rfl⟩
  · have hgo := goesOn_milStart (millOnIsland d)
    rw [heq]
    refine ⟨fun g hg => ?_, hgo.flash, hgo.fuses⟩
    rw [groveOn, hgo.clk]
    refine (bit_setBit ..).trans ((if_neg (by omega)).trans (h g hg))

/-! ## Flushes in Safe-Hold (R265, R346) -/

theorem lasting_holdChan (d : Dev) (ch : Nat) : lasting (holdChan d ch) = lasting d := by
  unfold holdChan
  extract_lets d₁ n d₂
  have h₁ : lasting d₁ = lasting d := by
    refine foldl_keeps (g := lasting) (fun d b => ?_) d _
    split
    · rfl
    · split
      · rfl
      · split
        · exact flushBlind_lasting.modCan ..
        · exact flushBlind_lasting.flushXb ..
  have h₂ : lasting d₂ = lasting d₁ := lasting_bumpBy ..
  exact (flushBlind_lasting.modCan ..).trans (h₂.trans h₁)

theorem lasting_dropWait (keep : Dest → Bool) (d : Dev) (w : Decided) : lasting (dropWait keep d w) = lasting d :=
  foldl_keeps (g := lasting) (f := fun d (x : Dest) => hostLoss (bumpQ d 0x500068 x.q) x.q)
    (fun _ _ => (flushBlind_lasting.hostLoss ..).trans (flushBlind_lasting.bump ..)) d _

theorem lasting_flushWaiting (d : Dev) (keep : Dest → Bool) : lasting (flushWaiting d keep) = lasting d := by
  unfold flushWaiting
  extract_lets all d₁ rest
  have h₁ : lasting d₁ = lasting d := foldl_keeps (lasting_dropWait keep) d all
  exact h₁

/-- R265: what is bound for no hold route is withdrawn, from the queues and from the channels. -/
def holdFlushed (d : Dev) : Dev :=
  let d := (List.range 24).foldl (fun d ch => if canInImage d ch && (canOf d ch).demand then initDemand d ch false else d) d
  let d := (liveQueues d).foldl (fun d q => flushQueue d q (fun c => !holdCopy d c.2)) d
  let d := flushWaiting d (holdCopy d)
  (List.range 24).foldl holdChan d

theorem lasting_holdFlushed (d : Dev) : lasting (holdFlushed d) = lasting d := by
  unfold holdFlushed
  extract_lets d₁ d₂ d₃
  have h₁ : lasting d₁ = lasting d := foldl_keeps (g := lasting) (fun d ch => keeps_ite (goesOn_initDemand ..).lasting) d _
  have h₂ : lasting d₂ = lasting d₁ := foldl_keeps (g := lasting) (fun d q => flushBlind_lasting.flushQueue ..) d₁ _
  have h₃ : lasting d₃ = lasting d₂ := lasting_flushWaiting ..
  exact (foldl_keeps lasting_holdChan d₃ _).trans (h₃.trans (h₂.trans h₁))

/-- What `g` reads is neither an output nor whether the outputs are safe. -/
structure SafeBlind {α : Type} (g : Dev → α) : Prop where
  safe : ∀ d b, g (modClk d (fun c => { c with safeOut := b })) = g d
  emit : ∀ d o, g (emit d o) = g d

/-- R66, R86: safe outputs are outputs alone. -/
theorem SafeBlind.safeOutputs {α : Type} {g : Dev → α} (hg : SafeBlind g) (d : Dev) : g (safeOutputs d) = g d := by
  have hball : ∀ d r, g (safeBall d r) = g d := by
    intro d r
    unfold safeBall
    split
    · rfl
    · split
      · exact hg.emit ..
      · exact hg.emit ..
      · exact hg.emit ..
      · rfl
  unfold Machine.safeOutputs
  split
  · rfl
  · exact (foldl_keeps hball ..).trans (hg.safe ..)

/-! ## M6 Safe-Hold (R91) -/

/-- The device of `holdEntry` with every island powered, before its mode is in force (R86, R127). -/
def holdPowered (d : Dev) : Dev :=
  millPower (allPowered (twinsRun (modClk d (fun c => { c with trans := .idle, chain := [], gating := 0, ingress := true })))) .m3

theorem holdPowered_leaves (d : Dev) :
    AllGroves (holdPowered d) ∧ (holdPowered d).flash = d.flash ∧ (holdPowered d).fuses = d.fuses := by
  obtain ⟨hgroves, hflash, hfuses⟩ := millPower_leaves (m := .m3) (by decide)
    (allPowered_groves (twinsRun (modClk d (fun c => { c with trans := .idle, chain := [], gating := 0, ingress := true }))))
  obtain ⟨hfl, hfu⟩ := allPowered_leaves (twinsRun (modClk d (fun c => { c with trans := .idle, chain := [], gating := 0, ingress := true })))
  exact ⟨hgroves, hflash.trans hfl, hfuses.trans hfu⟩

/-- The mode is in force, and what is bound for no hold route is withdrawn. -/
def holdEntered (d : Dev) (m : Mode) : Dev := holdFlushed (modClk (holdPowered d) (fun c => { c with mode := m, target := m }))

theorem holdEntry_eq (d : Dev) (m : Mode) (trig : Nat) : holdEntry d m trig =
    raise (safeOutputs { holdEntered d m with cry := { (holdEntered d m).cry with hold := true } }) 0x0401 0
      (e1 (holdPowered d).clk.mode.num ++ e1 m.num ++ e1 trig) := by
  simp only [holdEntry, holdEntered, holdFlushed, holdPowered, allPowered]

theorem holdEntered_leaves (d : Dev) (m : Mode) : (holdEntered d m).clk.mode = m ∧ (holdEntered d m).clk.target = m ∧
    AllGroves (holdEntered d m) ∧ (holdEntered d m).flash = d.flash ∧ (holdEntered d m).fuses = d.fuses := by
  obtain ⟨hgroves, hflash, hfuses⟩ := holdPowered_leaves d
  obtain ⟨hclk, hfl, hfu⟩ := lasting_eq_iff.mp
    (lasting_holdFlushed (modClk (holdPowered d) (fun c => { c with mode := m, target := m })))
  rw [← holdEntered] at hclk hfl hfu
  refine ⟨by rw [hclk, modClk_clk], by rw [hclk, modClk_clk], fun g hg => ?_, hfl.trans hflash, hfu.trans hfuses⟩
  rw [groveOn, hclk]
  exact hgroves g hg

/-- R66, R104: safe outputs and the report of a mode leave the mode, the groves, the user pages, the flash and the fuses. -/
theorem safeReported_leaves {d e : Dev} {code cls : Nat} {data : Bytes} (he : e = raise (safeOutputs d) code cls data) :
    e.clk.mode = d.clk.mode ∧ e.clk.target = d.clk.target ∧ e.clk.islands = d.clk.islands ∧ e.cry = d.cry ∧ e.flash = d.flash ∧
    e.fuses = d.fuses := by
  rw [he, raise_clk, raise_cry, raise_flash, raise_fuses]
  exact ⟨SafeBlind.safeOutputs (g := fun d => d.clk.mode) ⟨fun _ _ => rfl, fun _ _ => rfl⟩ d,
    SafeBlind.safeOutputs (g := fun d => d.clk.target) ⟨fun _ _ => rfl, fun _ _ => rfl⟩ d,
    SafeBlind.safeOutputs (g := fun d => d.clk.islands) ⟨fun _ _ => rfl, fun _ _ => rfl⟩ d,
    SafeBlind.safeOutputs (g := Dev.cry) ⟨fun _ _ => rfl, fun _ _ => rfl⟩ d,
    SafeBlind.safeOutputs (g := Dev.flash) ⟨fun _ _ => rfl, fun _ _ => rfl⟩ d,
    SafeBlind.safeOutputs (g := Dev.fuses) ⟨fun _ _ => rfl, fun _ _ => rfl⟩ d⟩

/-- R86, R91, R346: M6 or M7 is in force, every grove is powered and the user pages are held. -/
theorem holdEntry_leaves (d : Dev) (m : Mode) (trig : Nat) : (holdEntry d m trig).clk.mode = m ∧ (holdEntry d m trig).clk.target = m ∧
    (holdEntry d m trig).cry.hold = true ∧ AllGroves (holdEntry d m trig) ∧ (holdEntry d m trig).flash = d.flash ∧
    (holdEntry d m trig).fuses = d.fuses := by
  obtain ⟨hmode, htarget, hgroves, hflash, hfuses⟩ := holdEntered_leaves d m
  obtain ⟨kmode, ktarget, kislands, kcry, kflash, kfuses⟩ := safeReported_leaves (holdEntry_eq d m trig)
  dsimp only at kmode ktarget kislands kflash kfuses
  refine ⟨kmode.trans hmode, ktarget.trans htarget, by rw [kcry], fun g hg => ?_, kflash.trans hflash, kfuses.trans hfuses⟩
  rw [groveOn, kislands]
  exact hgroves g hg

/-- R91: the rejection of a pending request leaves the flash and the fuses. -/
theorem pendFault_leaves (d : Dev) : (pendFault d).flash = d.flash ∧ (pendFault d).fuses = d.fuses := by
  unfold pendFault
  split
  · exact ⟨raise_flash .., raise_fuses ..⟩
  · exact ⟨rfl, rfl⟩

/-- R91: the faults that waited are answered, and the pending request is rejected. -/
def holdReady (d : Dev) : Dev := pendFault (modClk d (fun c => { c with f4Pend := false, f3Pend := false }))

/-- R91: Safe-Hold is entered as M6, whatever request was pending; its trigger of the recorder is no part of it. -/
theorem safeHold_leaves (d : Dev) : (safeHold d).clk.mode = .m6 ∧ (safeHold d).clk.target = .m6 ∧ (safeHold d).cry.hold = true ∧
    AllGroves (safeHold d) ∧ (safeHold d).flash = d.flash ∧ (safeHold d).fuses = d.fuses := by
  obtain ⟨hflash, hfuses⟩ := pendFault_leaves (modClk d (fun c => { c with f4Pend := false, f3Pend := false }))
  obtain ⟨hmode, htarget, hhold, hgroves, hfl, hfu⟩ := holdEntry_leaves (holdReady d) .m6 (if d.clk.f4Pend then 2 else 0)
  have heq : safeHold d = recTrig (holdEntry (holdReady d) .m6 (if d.clk.f4Pend then 2 else 0)) 5
      (nowNs (holdReady d)) 0 := by
    simp only [safeHold, holdReady]
  generalize hentry : holdEntry (holdReady d) .m6 (if d.clk.f4Pend then 2 else 0) = e at hmode htarget hhold hgroves hfl hfu heq
  rw [heq, recTrig_clk, recTrig_cry, recTrig_flash, recTrig_fuses]
  refine ⟨hmode, htarget, hhold, fun g hg => ?_, hfl.trans hflash, hfu.trans hfuses⟩
  rw [groveOn, recTrig_clk]
  exact hgroves g hg

/-- Settles O17: a hand-over of the Mill ends its transition with MODE_CHANGE, and Safe-Hold is entered as M6. -/
theorem splitLockAndSafeHoldAreEntered : Obligations.SplitLockAndSafeHoldAreEntered := by
  unfold Obligations.SplitLockAndSafeHoldAreEntered
  refine ⟨fun s hr hm ht hc h4 h3 hreq hs => ?_, fun s hr hm ht hc h4 h3 hreq => ?_, fun s hdue => ?_⟩
  · have hclk : (splitMark (milForce s.dev true)).clk = s.dev.clk := ((goesOn_milForce ..).trans (goesOn_splitMark _)).clk
    obtain ⟨hmode, htrans, hchain, hmil, l, e, hevs, hcode, hdata⟩ := modeSettle_enters (d := splitMark (milForce s.dev true)) (m := .m4)
      (by decide) (by rw [hclk, hc]; rfl) (by rw [hclk, h4]) (by rw [hclk, h3]) (by rw [hclk, hreq]) s.dev.clk.trig
    rw [hclk, hm] at hdata
    refine yields_after (exec_of_act (f := lockToSplit) rfl (lockToSplit_due hr hm ht hc h4 hs)) ?_
    rw [settle_clk, settle_mil, settle_evs, hmil, splitMark_mil]
    exact ⟨hmode, htrans, hchain, rfl, l, e, hevs, hcode, hdata⟩
  · have hclk : (splitMark (writeBackAll (milForce s.dev false))).clk = s.dev.clk :=
      ((goesOn_milForce ..).trans ((goesOn_writeBackAll _).trans (goesOn_splitMark _))).clk
    obtain ⟨hmode, htrans, hchain, hmil, l, e, hevs, hcode, hdata⟩ := modeSettle_enters
      (d := splitMark (writeBackAll (milForce s.dev false))) (m := .m3)
      (by decide) (by rw [hclk, hc]; rfl) (by rw [hclk, h4]) (by rw [hclk, h3]) (by rw [hclk, hreq]) s.dev.clk.trig
    rw [hclk, hm] at hdata
    refine yields_after (exec_of_act (f := splitToLock) rfl (splitToLock_due hr hm ht hc h4)) ?_
    rw [settle_clk, settle_mil, settle_evs, hmil, splitMark_mil, writeBackAll_split]
    exact ⟨hmode, htrans, hchain, rfl, l, e, hevs, hcode, hdata⟩
  · obtain ⟨hmode, htarget, hhold, hgroves, hflash, hfuses⟩ := safeHold_leaves s.dev
    refine yields_after (exec_of_act (f := fun d => if holdDue d then safeHold d else d) rfl (if_pos hdue)) ?_
    rw [settle_clk, settle_cry, settle_flash, settle_fuses]
    refine ⟨hmode, htarget, hhold, fun g hg => ?_, hflash, hfuses⟩
    rw [groveOn, settle_clk]
    exact hgroves g hg

end Sys2Proof.Machine
end

section
/-! SUPPORT. The end of a wake (chapter 04): the islands and the balls at power-good, and how routing opens. -/

namespace Sys2Proof.Machine

/-! ## Balls (R61, R64, R111) -/

/-- A function that drives a ball leaves what reads no output. -/
theorem drive_keeps {α : Type} {g : Dev → α} (h : ∀ d o, g (emit d o) = g d) (d : Dev) (n : Nat) (high : Bool) :
    g (drive d n high) = g d := by
  unfold drive
  split
  · rfl
  · exact h ..

theorem lineOf_drive_ne (d : Dev) {m n : Nat} (h : m ≠ n) (high : Bool) : lineOf (drive d m high).out n = lineOf d.out n := by
  unfold drive
  split
  · rfl
  · rw [emit_out, lineOf_emit, if_neg h]

theorem lineOf_drive_same {d : Dev} {n : Nat} (h : pinOff d n = false) (high : Bool) :
    lineOf (drive d n high).out n = some (high != pinInv d n) := by
  rw [drive, if_neg (ne_true_of_eq_false h), emit_out, lineOf_emit, if_pos rfl]

/-- The pin section comes into force: the enables are high, and no PHY is out of reset (R64, R67). -/
def pinsInForce (d : Dev) : Dev :=
  { d with clk := { d.clk with pinsOn := true, pinsAt := d.clk.tclk, phyOut := [], safeOut := false, enSw := true, enRet := true } }

/-- The balls of the pin section after RSTOUT_N and the two supply enables (R66, R67, R112). -/
def pinsRest (d : Dev) : Dev :=
  let d := (List.range 24).foldl (fun d ch => if canInImage d ch then drive d (64 + ch) true else d) d
  let d := (List.range 4).foldl (fun d j => drive d (16 + j) (inhLevel d j)) d
  let d := (roleGpios d 6).foldl (fun d g => drive d (32 + g) false) d
  let d := (roleRecs d 2).foldl pinOut d
  drive ((List.range 8).foldl laneOut d) 6 false

theorem pinsApply_eq (d : Dev) : pinsApply d = pinsRest (drive (drive (drive (pinsInForce d) 3 true) 4 true) 5 true) := by
  simp only [pinsApply, pinsRest, pinsInForce]

/-- What `g` reads of the outputs is no line from 6 on and no lane. -/
structure PinBlind {α : Type} (g : Dev → α) : Prop where
  line : ∀ d n h, 6 ≤ n → g (emit d (.line n h)) = g d
  lane : ∀ d p t r, g (emit d (.lane p t r)) = g d

theorem PinBlind.drive {α : Type} {g : Dev → α} (hg : PinBlind g) (d : Dev) {n : Nat} (h : 6 ≤ n) (high : Bool) :
    g (drive d n high) = g d := by
  unfold Machine.drive
  split
  · rfl
  · exact hg.line _ _ _ h

theorem PinBlind.pinsRest {α : Type} {g : Dev → α} (hg : PinBlind g) (d : Dev) : g (pinsRest d) = g d := by
  have hout : ∀ d r, g (pinOut d r) = g d := by
    intro d r
    unfold pinOut
    split
    · exact hg.line _ _ _ (by omega)
    · rfl
  have hlane : ∀ d p, g (laneOut d p) = g d := fun d p => keeps_ite (hg.lane ..)
  unfold Machine.pinsRest
  extract_lets d₁ d₂ d₃ d₄
  have h₁ : g d₁ = g d := foldl_keeps (fun d ch => keeps_ite (hg.drive d (by omega) true)) d _
  have h₂ : g d₂ = g d₁ := foldl_keeps (fun d j => hg.drive d (by omega) _) d₁ _
  have h₃ : g d₃ = g d₂ := foldl_keeps (fun d x => hg.drive d (by omega) _) d₂ _
  have h₄ : g d₄ = g d₃ := foldl_keeps hout d₃ _
  exact (hg.drive _ (by omega) _).trans ((foldl_keeps hlane d₄ _).trans (h₄.trans (h₃.trans (h₂.trans h₁))))

/-- A part of the device other than the outputs. -/
theorem pinBlind_of {α : Type} {g : Dev → α} (h : ∀ d o, g (emit d o) = g d) : PinBlind g := ⟨fun _ _ _ _ => h .., fun _ _ _ _ => h ..⟩

theorem pinBlind_lineOf {n : Nat} (h : n < 6) : PinBlind (fun d => lineOf d.out n) :=
  ⟨fun d m b hm => by rw [emit_out, lineOf_emit, if_neg (by omega)], fun _ _ _ _ => rfl⟩

/-- R64, R66: the pin section drives RSTOUT_N and SUPPLY_EN_SW high. -/
theorem pinsApply_shows {d : Dev} {n : Nat} (h : n = 3 ∨ n = 4) : Shows d (settle (pinsApply d)).out n true := by
  intro hoff
  have himg : ∀ m, (drive (pinsInForce d) m true).img = d.img := by
    intro m
    exact drive_keeps (g := Dev.img) (fun _ _ => rfl) ..
  rw [lineOf_settle_other _ (by omega), pinsApply_eq, (pinBlind_lineOf (by omega)).pinsRest, lineOf_drive_ne _ (by omega)]
  obtain rfl | rfl := h
  · rw [lineOf_drive_ne _ (by decide), lineOf_drive_same (d := pinsInForce d) hoff]
    rfl
  · rw [lineOf_drive_same (by rw [pinOff_congr (himg 3)]; exact hoff), pinInv_congr (himg 3)]

/-- R64: of the clocks, the pin section moves what `pinsInForce` does. -/
theorem pinsApply_leaves (d : Dev) : (pinsApply d).clk = (pinsInForce d).clk ∧ (pinsApply d).flash = d.flash ∧
    (pinsApply d).evs = d.evs := by
  have hkeep : ∀ {α : Type} {g : Dev → α}, (∀ d o, g (emit d o) = g d) → g (pinsApply d) = g (pinsInForce d) := by
    intro α g hg
    rw [pinsApply_eq, (pinBlind_of hg).pinsRest, drive_keeps hg, drive_keeps hg, drive_keeps hg]
  exact ⟨hkeep fun _ _ => rfl, hkeep (g := Dev.flash) fun _ _ => rfl, hkeep (g := Dev.evs) fun _ _ => rfl⟩

/-! ## Power-good (R96) -/

/-- R155: the reset of a side of a crossing changes the crossings alone. -/
theorem crossReset_eq (d : Dev) (x : Nat) (out reader : Bool) (n : Nat) : ∃ w, crossReset d x out reader n = { d with whl := w } := by
  unfold crossReset
  split
  · exact ⟨_, rfl⟩
  · exact ⟨d.whl, rfl⟩

theorem isolateWatch_eq (d : Dev) : ∃ w, isolateWatch d = { d with whl := w } := by
  obtain ⟨w, hw⟩ := crossReset_eq d 40 false false 0
  obtain ⟨v, hv⟩ := crossReset_eq { d with whl := w } 40 true true 0
  exact ⟨v, by rw [isolateWatch, crossOutside, hw, hv]⟩

/-- The device at power-good of a wake from M1, before its balls are as configured (R96 steps 3 to 6). -/
def wakePowered (d : Dev) : Dev :=
  bootBalls (pllSync (modClk (isolateWatch d) (fun c => { c with
    xtalOk := true, islands := islandsOf (isolateWatch d) (wakeTarget (isolateWatch d)) (wakeGroves (isolateWatch d))
    target := wakeTarget (isolateWatch d) })))

theorem wakePower_eq (d : Dev) : wakePower d = pinsApply (wakePowered d) := by
  simp only [wakePower, wakePowered]

/-- R96: the crystal runs and the islands of the wake's mode are powered; the image, the flash and the events stand. -/
theorem wakePowered_leaves (d : Dev) : (wakePowered d).clk.xtalOk = true ∧ (wakePowered d).clk.switched = d.clk.switched ∧
    (wakePowered d).clk.trans = d.clk.trans ∧ (wakePowered d).clk.islands = islandsOf d (wakeTarget d) (wakeGroves d) ∧
    (wakePowered d).img = d.img ∧ (wakePowered d).flash = d.flash ∧ (wakePowered d).evs = d.evs := by
  obtain ⟨w, hw⟩ := isolateWatch_eq d
  simp only [wakePowered, hw]
  exact ⟨rfl, rfl, rfl, rfl, rfl, rfl, rfl⟩

/-- R96, R97: at power-good a wake from M1 restores what was retained, and one from M0 boots. -/
theorem powerGood_wakes {d : Dev} (hx : d.clk.xtalOk = false) (hsw : d.clk.enSw = true) (hout : outOfReset d = true) (b : BootInput) :
    powerGood d b = match d.clk.trans with
      | .wake false => wakePower (modClk d (fun c => { c with switched := true }))
      | .wake true => (bootRun (modClk d (fun c => { c with switched := true })) b 2).1
      | _ => modClk d (fun c => { c with switched := true }) :=
  if_neg (by simp [hx, hsw, hout])

theorem shows_congr {a b : Dev} (h : a.img = b.img) {out : List Output} {n : Nat} {high : Bool} (hs : Shows a out n high) :
    Shows b out n high := by
  intro hoff
  rw [← pinInv_congr h]
  exact hs (by rw [pinOff_congr h]; exact hoff)

/-- R96: what power-good leaves of a wake from M1. -/
theorem wakePower_leaves (d : Dev) : (wakePower d).clk.xtalOk = true ∧ (wakePower d).clk.switched = d.clk.switched ∧
    (wakePower d).clk.pinsOn = true ∧ (wakePower d).clk.trans = d.clk.trans ∧
    (wakePower d).clk.islands = islandsOf d (wakeTarget d) (wakeGroves d) ∧ Shows d (settle (wakePower d)).out 3 true ∧
    Shows d (settle (wakePower d)).out 4 true ∧ (wakePower d).flash = d.flash ∧ (wakePower d).evs = d.evs := by
  obtain ⟨hxtal, hsw, htrans, hisl, himg, hflash, hevs⟩ := wakePowered_leaves d
  obtain ⟨kclk, kflash, kevs⟩ := pinsApply_leaves (wakePowered d)
  rw [wakePower_eq, kclk, kflash, kevs]
  exact ⟨hxtal, hsw, rfl, htrans, hisl, shows_congr himg (pinsApply_shows (.inl rfl)), shows_congr himg (pinsApply_shows (.inr rfl)),
    hflash, hevs⟩

/-! ## Local need at routing open (R422, R429) -/

/-- What no cluster's transition moves (R421, R422). -/
def nmStill (d : Dev) : Clk × NMap Byte × Fuses × List Ev × List Ev := (d.clk, d.flash, d.fuses, d.evs, d.aonEvs)

theorem goesOn_of_nmStill {a b : Dev} (h : nmStill b = nmStill a) : GoesOn a b := by
  simp only [nmStill, Prod.mk.injEq] at h
  obtain ⟨hclk, hflash, hfuses, hevs, haon⟩ := h
  exact .of_eq hclk hflash hfuses hevs haon

theorem nmBlind_still (c : Nat) : NmBlind c nmStill where
  inh _ _ _ := rfl
  emit _ _ := rfl
  lnd _ _ := rfl
  lookup _ _ _ := rfl
  bumpBy _ _ _ _ := rfl
  cluster _ _ := rfl
  log _ _ := rfl
  port _ _ := rfl

theorem goesOn_needEval (d : Dev) (c : Nat) : GoesOn d (needEval d c) := by
  have hrepeat : ∀ d aw rmr, GoesOn d (enterRepeat d c aw rmr) := fun d aw rmr => goesOn_of_nmStill ((nmBlind_still c).enterRepeat d aw rmr)
  unfold needEval
  dsimp only
  refine .ite (.refl d) ?_
  split
  · split
    · exact (goesOn_raise ..).trans (hrepeat ..)
    · exact hrepeat ..
    · exact goesOn_of_nmStill (((nmBlind_still c).keepAlive _).trans ((nmBlind_still c).enterAwake _))
    · exact (goesOn_raise ..).trans (hrepeat ..)
    · exact .ite (.refl d) (goesOn_of_nmStill rfl)
    · exact .refl d
  · exact .ite (goesOn_of_nmStill ((nmBlind_still c).nmState ..)) (.refl d)

theorem goesOn_needAll (d : Dev) : GoesOn d (needAll d) := goesOn_foldl goesOn_needEval d _

/-! ## Routing opens (R96, R97, R104) -/

theorem goesOn_listenStart (d : Dev) : GoesOn d (listenStart d) := by
  refine goesOn_foldl (fun d c => ?_) d _
  exact .ite (.refl d) (.ite (.of_eq rfl rfl rfl rfl rfl) (.of_eq rfl rfl rfl rfl rfl))

theorem goesOn_recSync (d : Dev) : GoesOn d (recSync d) :=
  .ite (.of_eq rfl rfl rfl rfl rfl) (.ite (.of_eq rfl rfl rfl rfl rfl) (.refl d))

theorem goesOn_recOpen (d : Dev) : GoesOn d (recOpen d) :=
  GoesOn.trans (b := modRec d (fun r => { r with sr := false })) (.of_eq rfl rfl rfl rfl rfl) (.ite (goesOn_raise ..) (goesOn_recSync _))

/-- A mode is in force with routing open and its islands powered, before the blocks take their part in it (R96 step 8). -/
def routed (d : Dev) (m : Mode) (groves : Nat) : Dev :=
  let d := if m == .m2 then putFld d 0x10008 0 4 groves else d
  pllSync (modClk d (fun c => { c with mode := m, target := m, trans := .idle, chain := [], routing := true, ingress := true,
                                       routingAt := c.tclk, holdDone := false, islands := islandsOf d m groves, gating := 0 }))

/-- R96: what the blocks do when routing opens. -/
theorem goesOn_routingStart (d : Dev) (m : Mode) (groves : Nat) : GoesOn (routed d m groves) (routingStart d m groves) := by
  unfold routingStart
  extract_lets d₁ d₂ d₃ d₄ d₅ d₆ d₇ d₈ d₉
  have h₄ : GoesOn d₃ d₄ := goesOn_listenStart d₃
  have h₅ : GoesOn d₄ d₅ := goesOn_foldl (fun d ch => .ite (goesOn_initDemand ..) (.refl d)) d₄ _
  have h₆ : GoesOn d₅ d₆ := goesOn_foldl (fun d p => .ite (goesOn_portStart ..) (.refl d)) d₅ _
  have h₇ : GoesOn d₆ d₇ := goesOn_portStart ..
  have h₈ : GoesOn d₇ d₈ := goesOn_mil ..
  have h₉ : GoesOn d₈ d₉ := .ite (goesOn_milForce ..) (.refl d₈)
  exact ((h₄.trans (h₅.trans (h₆.trans (h₇.trans (h₈.trans h₉))))).trans (goesOn_recOpen d₉)).trans (goesOn_needAll _)

theorem routed_leaves (d : Dev) (m : Mode) (groves : Nat) : (routed d m groves).clk.mode = m ∧ (routed d m groves).clk.trans = .idle ∧
    (routed d m groves).clk.routing = true ∧ (routed d m groves).clk.ingress = true ∧ (routed d m groves).clk.dtime = d.clk.dtime ∧
    (routed d m groves).flash = d.flash ∧ (routed d m groves).evs = d.evs ∧ (routed d m groves).aonEvs = d.aonEvs := by
  unfold routed
  cases m <;> exact ⟨rfl, rfl, rfl, rfl, rfl, rfl, rfl, rfl⟩

theorem goesOn_raiseAt (d : Dev) (stamp code cls : Nat) (data : Bytes) : GoesOn d (raiseAt d stamp code cls data) := by
  refine ⟨raiseAt_clk .., raiseAt_flash .., raiseAt_fuses .., ?_, fun h => ?_⟩
  · unfold raiseAt
    dsimp only
    split
    · exact ⟨_, rfl⟩
    · exact ⟨[], (List.append_nil _).symm⟩
  · simp only [raiseAt, h, decide_true, if_true, evTrig_aonEvs]

theorem goesOn_recordTwin (d : Dev) : GoesOn d (recordTwin d) := by
  unfold recordTwin
  split
  · exact .of_eq rfl rfl rfl rfl rfl
  · exact .refl d

/-- The mode of a wake is in force (R96 step 8). -/
def wakeEntered (d : Dev) (m : Mode) : Dev := modClk d (fun c => { c with mode := m, target := m, trans := .idle })

/-- WAKE_REPORT, as the first event after device time is seeded, and what AON stored behind it (R85, R104, R458). -/
def wakeReported (d : Dev) : Dev := aonRaise (raise (timeSeed { d with evs := [] }) 0x0430 0 (e2 (wakeFirstWord d)))

theorem aonRaise_evs (d : Dev) : ∃ l, (aonRaise d).evs = d.evs ++ l := ⟨_, rfl⟩

theorem timeSeed_clk (d : Dev) : (timeSeed d).clk = { d.clk with dtime := d.clk.rtc * 1000000000 * 2 ^ 24 } := by
  rw [timeSeed, putReg_clk, modClk_clk]

theorem timeSeed_flash (d : Dev) : (timeSeed d).flash = d.flash := by rw [timeSeed, putReg_flash, modClk_flash]
theorem timeSeed_evs (d : Dev) : (timeSeed d).evs = d.evs := by rw [timeSeed, putReg_evs, modClk_evs]

/-- R85, R104: WAKE_REPORT stands first, nothing is left in AON, and device time is that of the real-time counter. -/
theorem wakeReported_leaves {d : Dev} (h : 2 ≤ d.clk.mode.num) : (∃ e l, (wakeReported d).evs = e :: l ∧ e.code = 0x0430) ∧
    (wakeReported d).aonEvs = [] ∧ (wakeReported d).clk = { d.clk with dtime := d.clk.rtc * 1000000000 * 2 ^ 24 } ∧
    (wakeReported d).flash = d.flash := by
  have hclk := timeSeed_clk { d with evs := [] }
  have hflash := timeSeed_flash { d with evs := [] }
  have hevs := timeSeed_evs { d with evs := [] }
  unfold wakeReported
  generalize timeSeed { d with evs := [] } = t at hclk hflash hevs
  have hmode : 2 ≤ t.clk.mode.num := by
    rw [hclk]
    exact h
  obtain ⟨l, hl⟩ := aonRaise_evs (raise t 0x0430 0 (e2 (wakeFirstWord d)))
  rw [raise_evs hmode, hevs] at hl
  exact ⟨⟨_, l, hl, rfl⟩, rfl, (raise_clk ..).trans hclk, (raise_flash ..).trans hflash⟩

/-- The loss of synchronisation and MODE_CHANGE, as they follow WAKE_REPORT (R104). -/
def wakeEvents (d : Dev) (was : Bool) (old m : Mode) : Dev :=
  let d := if was then raise d 0x080A 0 (eFlag false) else d
  raiseAt d (nowNs d + 2) 0x0401 0 (e1 old.num ++ e1 m.num ++ e1 3)

theorem goesOn_wakeEvents (d : Dev) (was : Bool) (old m : Mode) : GoesOn d (wakeEvents d was old m) :=
  GoesOn.trans (.ite (goesOn_raise ..) (.refl d)) (goesOn_raiseAt ..)

theorem wakeReported_img (d : Dev) : (wakeReported d).img = d.img := by
  have hraise := raise_img (timeSeed { d with evs := [] }) 0x0430 0 (e2 (wakeFirstWord d))
  exact hraise.trans (by rw [timeSeed, putReg_img, modClk_img])

theorem wakeEvents_img (d : Dev) (was : Bool) (old m : Mode) : (wakeEvents d was old m).img = d.img := by
  cases was
  · exact raiseAt_img ..
  · exact (raiseAt_img ..).trans (raise_img ..)

/-- The wake up to the report of its mode (R96 step 8, R104). -/
def wakeTold (d : Dev) : Dev :=
  wakeEvents (wakeReported (wakeEntered d (wakeTarget d))) (synced (wakeEntered d (wakeTarget d))) d.clk.mode (wakeTarget d)

theorem wakeTold_img (d : Dev) : (wakeTold d).img = d.img := (wakeEvents_img ..).trans (wakeReported_img _)

/-- R96 step 8: routing opens after a wake from M1 with an image in force. -/
theorem routingOpen_watch {d : Dev} (hw : waking d = true) (hout : outOfReset d = true) (ht : d.clk.trans = .wake false)
    (hf : d.img.fast = true) : ∃ on : Bool, routingOpen d = (fun e => if on then milStart e else e)
      (routingStart (recordTwin (wakeTold d)) (wakeTarget d) (wakeGroves (wakeTold d))) := by
  have htold : (wakeTold d).img.fast = true := by rw [wakeTold_img, hf]
  unfold routingOpen
  rw [if_neg (by simp [hw, hout]), ht]
  extract_lets old m on d₁ was d₂ d₃ d₄ d₅ d₆
  have hm : m = wakeTarget d := if_pos hf
  clear_value m
  subst hm
  have hd₄ : d₄ = wakeTold d := rfl
  have hd₆ : d₆ = routingStart (recordTwin (wakeTold d)) (wakeTarget d) (wakeGroves (wakeTold d)) := by
    rw [← hd₄] at htold ⊢
    exact if_pos htold
  refine ⟨on, ?_⟩
  rw [← hd₆]
  clear_value d₆ on
  simp only [Bool.not_false, Bool.and_true, Bool.false_eq_true, if_false]

/-- R85, R96, R104: what the end of a wake from M1 leaves. -/
theorem routingOpen_leaves {d : Dev} (hw : waking d = true) (hout : outOfReset d = true) (ht : d.clk.trans = .wake false)
    (hf : d.img.fast = true) : (routingOpen d).clk.mode = wakeTarget d ∧ (routingOpen d).clk.trans = .idle ∧
    (routingOpen d).clk.routing = true ∧ (routingOpen d).clk.ingress = true ∧
    (routingOpen d).clk.dtime = d.clk.rtc * 1000000000 * 2 ^ 24 ∧ (routingOpen d).flash = d.flash ∧ (routingOpen d).aonEvs = [] ∧
    (routingOpen d).evs.head?.map (fun e => e.code) = some 0x0430 := by
  obtain ⟨on, hopen⟩ := routingOpen_watch hw hout ht hf
  have hmode : 2 ≤ (wakeTarget d).num := by
    unfold wakeTarget
    split
    · decide
    · split <;> decide
  obtain ⟨⟨e, l, hevs, hcode⟩, haon, hclk, hflash⟩ := wakeReported_leaves (d := wakeEntered d (wakeTarget d)) hmode
  rw [wakeTold] at hopen
  generalize wakeReported (wakeEntered d (wakeTarget d)) = r at hopen hevs haon hclk hflash
  have hrec : GoesOn r (recordTwin (wakeEvents r (synced (wakeEntered d (wakeTarget d))) d.clk.mode (wakeTarget d))) :=
    (goesOn_wakeEvents ..).trans (goesOn_recordTwin _)
  generalize recordTwin (wakeEvents r (synced (wakeEntered d (wakeTarget d))) d.clk.mode (wakeTarget d)) = x at hopen hrec
  generalize wakeGroves (wakeEvents r (synced (wakeEntered d (wakeTarget d))) d.clk.mode (wakeTarget d)) = gs at hopen
  have hgo : GoesOn (routed x (wakeTarget d) gs) (routingOpen d) := by
    rw [hopen]
    exact (goesOn_routingStart ..).trans (.ite (goesOn_milStart _) (.refl _))
  obtain ⟨kmode, ktrans, krouting, kingress, kdtime, kflash, kevs, kaon⟩ := routed_leaves x (wakeTarget d) gs
  obtain ⟨m, hm⟩ := hrec.evs
  obtain ⟨n, hn⟩ := hgo.evs
  have hrmode : 2 ≤ r.clk.mode.num := by
    rw [hclk]
    exact hmode
  refine ⟨by rw [hgo.clk, kmode], by rw [hgo.clk, ktrans], by rw [hgo.clk, krouting], by rw [hgo.clk, kingress], ?_, ?_, ?_, ?_⟩
  · rw [hgo.clk, kdtime, hrec.clk, hclk]
    rfl
  · rw [hgo.flash, kflash, hrec.flash, hflash]
    rfl
  · rw [hgo.aon (by rw [kmode]; exact hmode), kaon, hrec.aon hrmode, haon]
  · rw [hn, kevs, hm, hevs]
    exact congrArg some hcode

/-- Settles O18: power-good and routing open by what each leaves; device time is seeded from the real-time counter whether or not its
crystal is there, by the model's choice (log entry 142), and MODE_CHANGE stands behind WAKE_REPORT (log entry 75). -/
theorem wakeSequenceOpensRouting : Obligations.WakeSequenceOpensRouting := by
  unfold Obligations.WakeSequenceOpensRouting
  refine ⟨fun s b ht hx hsw hout => ?_, fun s b ht hx hsw hout => ?_, fun s hw hout ht hf => ?_⟩
  · have heq := powerGood_wakes hx hsw hout b
    rw [ht] at heq
    obtain ⟨hxtal, hswitched, hpins, htrans, hisl, hrst, hen, hflash, hevs⟩ :=
      wakePower_leaves (modClk s.dev (fun c => { c with switched := true }))
    refine yields_after (exec_of_act (f := fun d => powerGood d b) rfl heq) ?_
    rw [settle_clk, settle_flash, settle_evs]
    exact ⟨hxtal, hswitched, hpins, htrans.trans ht, hisl, hrst, hen, hflash, hevs⟩
  · have heq := powerGood_wakes hx hsw hout b
    rw [ht] at heq
    exact exec_of_act (f := fun d => powerGood d b) rfl heq
  · obtain ⟨hmode, htrans, hrouting, hingress, hdtime, hflash, haon, hevs⟩ := routingOpen_leaves hw hout ht hf
    refine yields_act (f := routingOpen) rfl ?_
    rw [settle_clk, settle_flash, settle_aonEvs, settle_evs]
    exact ⟨hmode, htrans, hrouting, hingress, hdtime, hflash, haon, hevs⟩

end Sys2Proof.Machine
end

section
/-! SUPPORT. The Trace Recorder (chapter 17): a trigger in RUNNING, the record of a frame, the end of the post window, and the readout. -/

namespace Sys2Proof.Machine

/-! ## Triggers (R488) -/

/-- R488: the recorder after the trigger that leaves RUNNING. -/
def recTriggered (d : Dev) (src stamp code : Nat) : Rec :=
  { d.rcd with st := 2, src := src, trigTime := stamp, segsDone := 0, trigs := [Trig.mk src stamp code false (!synced d)] }

/-- R488: an enabled trigger of a running recorder starts the post window. -/
theorem recTrig_running {d : Dev} (hst : d.rcd.st = 1) {src : Nat} (hen : flag d 0xA00000 (8 + src) = true) (stamp code : Nat) :
    recTrig d src stamp code = { d with rcd := recTriggered d src stamp code } := by
  simp [recTrig, recTriggered, hen, hst]

/-- R488: a trigger whose source is not enabled does nothing. -/
theorem recTrig_disabled {d : Dev} {src : Nat} (hen : flag d 0xA00000 (8 + src) = false) (stamp code : Nat) :
    recTrig d src stamp code = d := by
  simp [recTrig, hen]

theorem crashIn_running {d : Dev} (hr : running d = true) (hp : d.clk.pinsOn = true) (hrole : roleRecs d 4 ≠ []) (hst : d.rcd.st = 1)
    (hen : flag d 0xA00000 8 = true) :
    (if running d && d.clk.pinsOn && !(roleRecs d 4).isEmpty then recTrig d 0 (nowNs d) 0 else d) =
      { d with rcd := recTriggered d 0 (nowNs d) 0 } := by
  rw [if_pos (by simp [hr, hp, hrole]), recTrig_running hst hen]

/-! ## Records and their boundaries (R484, R489) -/

/-- R489: outside POST a record boundary changes nothing. -/
theorem recBoundary_outside_post {d : Dev} (h : d.rcd.st ≠ 2) : recBoundary d = d := by
  simp [recBoundary, h]

/-- R484: what a complete record leaves of the recorder and of the device. -/
theorem recPut_leaves (d : Dev) (bs : Bytes) (trunc : Bool) : (recPut d bs trunc).rcd.st = d.rcd.st ∧
    (recPut d bs trunc).rcd.seq = (d.rcd.seq + 1) % 2 ^ 32 ∧
    (recPut d bs trunc).rcd.wptr = (d.rcd.wptr + bs.length) % max 1 (recBytes d) ∧
    mapGet? (recPut d bs trunc).rcd.mem d.rcd.wptr = some bs ∧ (recPut d bs trunc).regs = d.regs ∧ (recPut d bs trunc).evs = d.evs := by
  have hmem : ∀ m : NMap Bytes, mapGet? (mapPut m d.rcd.wptr bs) d.rcd.wptr = some bs := fun m => by
    rw [mapGet?_mapPut, if_pos rfl]
  unfold recPut
  cases trunc <;> simp only [Bool.false_eq_true, if_false, if_true, bump_rcd, bumpBy_rcd, bump_regs, bumpBy_regs, bump_evs, bumpBy_evs]
  all_goals exact ⟨rfl, rfl, rfl, hmem _, rfl, rfl⟩

/-- R400, R484: the frame's copy is gone once its record is written. -/
def frameRecorded (d : Dev) (it : LaneItem) : Dev :=
  copyCommit (unqueue (dropItem (modRec d (fun r => { r with drops := mapDel r.drops (it.dest.q - 392) })) it) it.dest.q it.pkt.id)
    it.pkt.id

/-- R484: in RUNNING a frame whose record fits its segment is written. -/
theorem writeFrame_running {d : Dev} {it : LaneItem} (hst : d.rcd.st = 1)
    (hfit : (frameRecord d it (it.dest.q - 392)).1.length ≤ segLeft d.rcd.wptr) :
    writeFrame d it =
      frameRecorded (recPut d (frameRecord d it (it.dest.q - 392)).1 (frameRecord d it (it.dest.q - 392)).2) it := by
  unfold writeFrame
  dsimp only
  rw [if_pos (by simp [hst]), recWrite, if_pos hfit]
  rfl

theorem CopyBlind.frameRecorded {α : Type} {g : Dev → α} (hg : CopyBlind g) (d : Dev) (it : LaneItem) :
    g (frameRecorded d it) = g (modRec d (fun r => { r with drops := mapDel r.drops (it.dest.q - 392) })) :=
  (hg.copyGone ..).trans ((hg.lnd ..).trans (hg.lnd ..))

theorem copyBlind_rcd : CopyBlind Dev.rcd := ⟨fun _ _ => rfl, fun _ _ => rfl, fun _ _ => rfl⟩

theorem frameRecorded_rcd (d : Dev) (it : LaneItem) :
    (frameRecorded d it).rcd = { d.rcd with drops := mapDel d.rcd.drops (it.dest.q - 392) } := copyBlind_rcd.frameRecorded d it
theorem frameRecorded_regs (d : Dev) (it : LaneItem) : (frameRecorded d it).regs = d.regs := copyBlind_regs.frameRecorded d it
theorem frameRecorded_evs (d : Dev) (it : LaneItem) : (frameRecorded d it).evs = d.evs := copyBlind_evs.frameRecorded d it

/-- R30, R483: a running recorder that holds its slot writes the next frame of its lane. -/
theorem recordStep_running {d : Dev} {it : LaneItem} (hst : d.rcd.st = 1) (hit : recItem d = some it)
    (hslot : slotHeld d 5 0x42 = true) (hout : outFrozen d 0 = false) : recordStep d = recBoundary (writeFrame d it) := by
  unfold recordStep
  dsimp only
  rw [recBoundary_outside_post (by simp [hst]), if_neg (by simp [hslot]), if_neg (by simp [hst]), if_neg (by simp [hout]), hit]

/-- R484: what the record of a frame leaves. -/
theorem recordStep_leaves {d : Dev} {it : LaneItem} (hst : d.rcd.st = 1) (hit : recItem d = some it)
    (hfit : (frameRecord d it (it.dest.q - 392)).1.length ≤ segLeft d.rcd.wptr) (hslot : slotHeld d 5 0x42 = true)
    (hout : outFrozen d 0 = false) : (recordStep d).rcd.seq = (d.rcd.seq + 1) % 2 ^ 32 ∧
    (recordStep d).rcd.wptr = (d.rcd.wptr + (frameRecord d it (it.dest.q - 392)).1.length) % max 1 (recBytes d) ∧
    mapGet? (recordStep d).rcd.mem d.rcd.wptr = some (frameRecord d it (it.dest.q - 392)).1 ∧ (recordStep d).rcd.st = 1 ∧
    (recordStep d).regs = d.regs ∧ (recordStep d).evs = d.evs := by
  rw [recordStep_running hst hit hslot hout, writeFrame_running hst hfit]
  obtain ⟨kst, kseq, kwptr, kmem, kregs, kevs⟩ :=
    recPut_leaves d (frameRecord d it (it.dest.q - 392)).1 (frameRecord d it (it.dest.q - 392)).2
  generalize recPut d (frameRecord d it (it.dest.q - 392)).1 (frameRecord d it (it.dest.q - 392)).2 = w at kst kseq kwptr kmem kregs kevs
  rw [recBoundary_outside_post (by simp [frameRecorded_rcd, kst, hst]), frameRecorded_rcd, frameRecorded_regs, frameRecorded_evs]
  exact ⟨kseq, kwptr, kmem, kst.trans hst, kregs, kevs⟩

/-! ## The end of the post window (R489) -/

/-- R488: what every trigger keeps of the recorder, the report of an event keeps. -/
theorem raise_keeps_rec {P : Rec → Prop} (htrig : ∀ d src stamp code, P d.rcd → P (recTrig d src stamp code).rcd) {d : Dev}
    (h : P d.rcd) (code cls : Nat) (data : Bytes) : P (raise d code cls data).rcd := by
  have hev : ∀ stamp, P (evTrig d stamp code cls).rcd := by
    intro stamp
    have hcls : P (if cls = 3 then recTrig d 2 stamp 0 else if cls = 4 then recTrig d 3 stamp 0 else d).rcd := by
      split
      · exact htrig _ _ _ _ h
      · split
        · exact htrig _ _ _ _ h
        · exact h
    unfold evTrig
    generalize (if cls = 3 then recTrig d 2 stamp 0 else if cls = 4 then recTrig d 3 stamp 0 else d) = e at hcls
    dsimp only
    split
    · exact htrig _ _ _ _ hcls
    · exact hcls
  unfold raise raiseAt
  dsimp only
  split
  · exact hev _
  · exact h

/-- R488: in FROZEN a trigger is counted and leaves the recorder. -/
theorem recTrig_frozen {d : Dev} (h : d.rcd.st = 3) (src stamp code : Nat) : (recTrig d src stamp code).rcd = d.rcd := by
  unfold recTrig
  simp only [h]
  split <;> rfl

theorem raise_frozen {d : Dev} (h : d.rcd.st = 3) (code cls : Nat) (data : Bytes) : (raise d code cls data).rcd = d.rcd :=
  raise_keeps_rec (P := fun r => r = d.rcd)
    (fun e src stamp code he => (recTrig_frozen (by rw [he, h]) src stamp code).trans he) rfl code cls data

/-- R488: a trigger does not touch the readout. -/
theorem recTrig_readout (d : Dev) (src stamp code : Nat) : (recTrig d src stamp code).rcd.readout = d.rcd.readout := by
  unfold recTrig
  dsimp only
  split
  · rfl
  · split
    · rfl
    · split <;> rfl

theorem raise_readout (d : Dev) (code cls : Nat) (data : Bytes) : (raise d code cls data).rcd.readout = d.rcd.readout :=
  raise_keeps_rec (P := fun r => r.readout = d.rcd.readout)
    (fun e src stamp code he => (recTrig_readout e src stamp code).trans he) rfl code cls data

/-- R487, R489: a freeze keeps the trace, and reports where it ends. -/
theorem recFreeze_leaves {d : Dev} (h : 2 ≤ d.clk.mode.num) (why : Nat) :
    (recFreeze d why).rcd = { d.rcd with st := 3, why := why, trigs := [] } ∧
    (recFreeze d why).evs = d.evs ++ [evNow d 0x1102 0 (e1 why ++ e4 (d.rcd.wptr % 2 ^ 32) ++ e4 d.rcd.seq)] := by
  unfold recFreeze
  generalize e1 why ++ e4 (d.rcd.wptr % 2 ^ 32) ++ e4 d.rcd.seq = data
  refine ⟨raise_frozen rfl .., ?_⟩
  rw [raise_evs (by exact h)]
  rfl

/-- R489: the boundary that ends a post window whose time is up. -/
theorem recBoundary_msDone {d : Dev} (hst : d.rcd.st = 2) (ht : d.rcd.trigs = []) (hms : d.rcd.msDone = true) :
    recBoundary d = recFreeze d (if postSeg d ≤ d.rcd.segsDone then 0 else 1) := by
  unfold recBoundary
  rw [if_neg (by simp [hst, ht])]
  split
  · rfl
  · rw [if_pos (by simp [hms])]

/-- R489: POSTMS passed freezes at once where no trigger waits. -/
theorem postmsExpire_passed {d : Dev} (hr : running d = true) (hst : d.rcd.st = 2) (ht : d.rcd.trigs = [])
    (hms : msPassed d = true) :
    postmsExpire d = recFreeze (modRec d (fun r => { r with msDone := true })) (if postSeg d ≤ d.rcd.segsDone then 0 else 1) := by
  unfold postmsExpire
  rw [if_pos (by simp [hr, hst, hms])]
  exact recBoundary_msDone hst ht rfl

/-- R489: outside POST the time of the window means nothing. -/
theorem postmsExpire_outside_post {d : Dev} (h : d.rcd.st ≠ 2) : postmsExpire d = d := by
  simp [postmsExpire, h]

/-! ## Release (R492) -/

theorem recRelease_eq (d : Dev) : recRelease d = if d.rcd.st = 3 then
    (if d.rcd.readout.busy then { d with rcd := { d.rcd with relErr := true } } else { d with rcd := { d.rcd with relDue := true } })
    else d := by
  unfold recRelease modRec
  by_cases h : d.rcd.st = 3 <;> simp [h]

/-! ## Readout (R493) -/

/-- R493: the end of a readout shows its RESULT and reports it, whatever its report triggers. -/
theorem readoutEnd_leaves {d : Dev} (h : 2 ≤ d.clk.mode.num) (result bytes bad : Nat) :
    (readoutEnd d result bytes bad).rcd.readout = { d.rcd.readout with busy := false, result := result, done := true } ∧
    (readoutEnd d result bytes bad).evs = d.evs ++ [evNow d 0x1103 0 (e1 result ++ eCount bytes ++ eCount bad)] ∧
    (readoutEnd d result bytes bad).lnd = d.lnd ∧ (readoutEnd d result bytes bad).out = d.out := by
  unfold readoutEnd
  generalize e1 result ++ eCount bytes ++ eCount bad = data
  refine ⟨raise_readout .., ?_, raise_lnd .., raise_out ..⟩
  rw [raise_evs (by exact h)]
  rfl

/-- R493: why a GO is refused. -/
def goRefused (d : Dev) (e : Nat) : Prop :=
  d.rcd.st ≠ 3 ∨ (epOf d e).bme = false ∨ slotsOf d 5 0x44 = 0 ∨ reg d 0xA00060 / 64 * 64 = 0 ∨ 2 ^ 28 < reg d 0xA00060 / 64 * 64

/-- R493: the readout that a GO starts. -/
def readoutStarted (d : Dev) (e : Nat) : Rec :=
  { d.rcd with readout := { busy := true, e := e, src := regPair d 0xA00050, dst := regPair d 0xA00058,
                            len := reg d 0xA00060 / 64 * 64, result := 0, done := false } }

theorem readoutGo_refused {d : Dev} {e : Nat} (hb : d.rcd.readout.busy = false) (h : goRefused d e) :
    readoutGo d e = readoutEnd d 2 0 0 := by
  unfold readoutGo
  dsimp only
  rw [if_neg (by simp [hb]), if_pos (by simpa [goRefused, or_assoc] using h)]

theorem readoutGo_starts {d : Dev} {e : Nat} (hb : d.rcd.readout.busy = false) (h : ¬ goRefused d e) :
    readoutGo d e = { d with rcd := readoutStarted d e } := by
  unfold readoutGo
  dsimp only
  rw [if_neg (by simp [hb]), if_neg (by simpa [goRefused, or_assoc] using h)]
  rfl

/-- R493: GO by software on an endpoint. -/
theorem exec_readoutGo {s : State} {who : Initiator} {e : Nat} (he : endpointOf who = some e) (hw : MayWrite s.dev who 0xA00064) :
    exec (.readoutGo who) s = .next (after s (readoutGo s.dev e)) := by
  refine exec_of_act (access_regWr hw _ _) ?_
  rw [he]

/-- R493: the posted writes of `l` units leave the device, and change nothing else. -/
theorem readoutWrites_shape (r : Readout) (bad : List Nat) (l : List Nat) (d : Dev) :
    ∃ o, l.foldl (fun d u => emit d (.hostWrite r.e (r.dst + 64 * u) (readoutUnit d bad u))) d = withOut d o ∧
      (∀ x ∈ d.out, x ∈ o) ∧ ∀ u ∈ l, Output.hostWrite r.e (r.dst + 64 * u) (readoutUnit d bad u) ∈ o := by
  induction l generalizing d with
  | nil => exact ⟨d.out, rfl, fun _ h => h, fun u hu => nomatch hu⟩
  | cons v l ih =>
    obtain ⟨o, heq, hold, hnew⟩ := ih (emit d (.hostWrite r.e (r.dst + 64 * v) (readoutUnit d bad v)))
    refine ⟨o, heq, fun x hx => hold x (List.mem_cons_of_mem _ hx), fun u hu => ?_⟩
    obtain rfl | hu := List.mem_cons.mp hu
    · exact hold _ List.mem_cons_self
    · exact hnew u hu

/-- R493: a readout without an unreadable or corrected unit writes all its units and ends with RESULT 0. -/
theorem readoutDone_clean {d : Dev} (hr : running d = true) (hb : d.rcd.readout.busy = true) :
    (readoutDone d [] 0).rcd.readout.busy = false ∧ (readoutDone d [] 0).rcd.readout.result = 0 ∧
    (∀ u, u < d.rcd.readout.len / 64 →
      Output.hostWrite d.rcd.readout.e (d.rcd.readout.dst + 64 * u) (readoutUnit d [] u) ∈ (readoutDone d [] 0).out) ∧
    (readoutDone d [] 0).evs = d.evs ++ [evNow d 0x1103 0 (e1 0 ++ eCount d.rcd.readout.len ++ eCount 0)] := by
  have hbad : (List.range (d.rcd.readout.len / 64)).filter (fun u => ([] : List Nat).contains u) = [] :=
    List.filter_eq_nil_iff.mpr (fun u _ => by simp)
  obtain ⟨o, heq, -, hnew⟩ := readoutWrites_shape d.rcd.readout [] (List.range (d.rcd.readout.len / 64)) d
  unfold readoutDone
  dsimp only
  rw [if_neg (by simp [hr, hb]), hbad, dramCorr, if_pos rfl, heq]
  obtain ⟨kread, kevs, -, kout⟩ := readoutEnd_leaves (d := bumpBy (withOut d o) 0xA00128 0 0) (mode_of_running hr) 0 d.rcd.readout.len 0
  rw [List.length_nil, kread, kevs, kout]
  exact ⟨rfl, rfl, fun u hu => hnew u (List.mem_range.mpr hu), rfl⟩

/-! ## The obligation -/

/-- A change of the recorder alone is what the command leaves. -/
theorem yields_rcd {c : Instr} {s : State} {r : Rec} {P : Rec → Prop} (h : exec c s = .next (after s { s.dev with rcd := r })) (hP : P r) :
    Yields c s (fun d => P d.rcd ∧ d = settle { s.dev with rcd := d.rcd }) :=
  yields_after h ⟨by rw [settle_rcd]; exact hP, by rw [settle_rcd]⟩

/-- Settles O57: each clause by what its operation of the recorder leaves. -/
theorem recorderTriggersFreezesAndReadsOut : Obligations.RecorderTriggersFreezesAndReadsOut := by
  unfold Obligations.RecorderTriggersFreezesAndReadsOut
  refine ⟨fun s who hw hst hen => ?_, fun s hr hp hrole hst hen => ?_, fun s who hen hw => ?_, fun s it hr hst hit hfit hslot hout => ?_,
    fun s hr hst ht hms => ?_, fun s hst => ?_, fun s who hw => ?_, fun s who e he hw hb hst hbme hslot hlen hmax => ?_,
    fun s who e he hw hb hst => ?_, fun s who hw hb => ?_, fun s hr hb => ?_⟩
  · exact yields_rcd (P := fun r => r = recTriggered s.dev 1 (nowNs s.dev) 0)
      (exec_of_act (access_regWr hw _ _) (recTrig_running hst hen ..)) rfl
  · exact (yields_rcd (P := fun r => r.st = 2 ∧ r.src = 0 ∧ r.trigTime = nowNs s.dev)
      (exec_of_act rfl (crashIn_running hr hp hrole hst hen)) ⟨rfl, rfl, rfl⟩).mono (fun d hd => by simpa only [and_assoc] using hd)
  · exact exec_of_act (access_regWr hw _ _) (recTrig_disabled hen ..)
  · obtain ⟨kseq, kwptr, kmem, kst, kregs, kevs⟩ := recordStep_leaves hst hit hfit hslot hout
    refine yields_after (exec_of_act rfl (if_pos hr)) ?_
    rw [settle_rcd, settle_regs, settle_evs]
    exact ⟨kseq, kwptr, kmem, kst, kregs, kevs⟩
  · obtain ⟨krcd, kevs⟩ := recFreeze_leaves (d := modRec s.dev (fun r => { r with msDone := true })) (mode_of_running hr)
      (if postSeg s.dev ≤ s.dev.rcd.segsDone then 0 else 1)
    refine yields_after (exec_of_act rfl (postmsExpire_passed hr hst ht hms)) ?_
    rw [settle_rcd, settle_evs, krcd, kevs]
    exact ⟨rfl, rfl, rfl, rfl, rfl⟩
  · exact exec_of_act rfl (postmsExpire_outside_post hst)
  · exact exec_of_act (access_regWr hw _ _) (recRelease_eq s.dev)
  · have hgo : ¬ goRefused s.dev e := by
      simpa [goRefused, hst, hbme, hslot] using ⟨by omega, hmax⟩
    refine (yields_rcd (P := fun r => r = readoutStarted s.dev e)
      ((exec_readoutGo he hw).trans (by rw [readoutGo_starts hb hgo])) rfl).mono (fun d hd => ?_)
    obtain ⟨hrcd, hd⟩ := hd
    exact ⟨by rw [hrcd]; rfl, by rw [hrcd]; rfl, by rw [hrcd]; rfl, by rw [hrcd]; rfl, by rw [hrcd]; rfl, hd⟩
  · obtain ⟨kread, kevs, -, -⟩ := readoutEnd_leaves (mode_of_running (running_of_mayWrite hw)) 2 0 0
    refine yields_after (exec_readoutGo he hw) ?_
    rw [readoutGo_refused hb (.inl hst), settle_rcd, settle_evs, kread, kevs]
    exact ⟨rfl, rfl, rfl, rfl⟩
  · obtain ⟨kread, kevs, klnd, -⟩ := readoutEnd_leaves (mode_of_running (running_of_mayWrite hw)) 1 0 0
    refine yields_after (exec_of_act (access_regWr hw _ _) (if_pos hb)) ?_
    rw [settle_rcd, settle_evs, settle_lnd, kread, kevs, klnd]
    exact ⟨rfl, rfl, rfl, rfl, rfl⟩
  · obtain ⟨kbusy, kresult, kout, kevs⟩ := readoutDone_clean hr hb
    refine yields_after (exec_of_act (f := fun d => readoutDone d [] 0) rfl rfl) ?_
    rw [settle_rcd, settle_evs]
    exact ⟨kbusy, kresult, fun u hu => mem_out_settle (kout u hu), kevs⟩

end Sys2Proof.Machine
end

section
/-! SUPPORT. Cell times, read slots and flushes of the Landing (chapter 09): the matching keeps an input's cells at 8, a read slot and
the links behind it touch no queue's events, and a flush takes the copies of its queue alone. -/

namespace Sys2Proof.Machine

/-! ## The cell time (R257 to R259) -/

/-- What a cell time leaves of the Landing and the device but for its count and the counters. -/
def cellStill (d : Dev) : NMap (List (Nat × Dest)) × NMap Stored × NMap (List Decided) × Nat × List Ev × Rte × NMap (BitVec 32) :=
  (d.lnd.queues, d.lnd.frames, d.lnd.waiting, d.lnd.cellTimes, d.evs, d.rte, d.regs)

theorem stageQueue_keeps {α : Type} {g : Dev → α} (hg : ∀ d k f, g (modLane d k f) = g d) (d : Dev) (q : Nat) :
    g (stageQueue d q) = g d := by
  unfold stageQueue
  split
  · rfl
  · refine keeps_ite ?_
    split
    · exact hg ..
    · rfl

/-- R245: the lanes take copies, and nothing else changes. -/
theorem fillLanes_keeps {α : Type} {g : Dev → α} (hg : ∀ d k f, g (modLane d k f) = g d) (d : Dev) : g (fillLanes d) = g d :=
  foldl_keeps (stageQueue_keeps hg) d _

/-- R257: the lanes age, and those that reach AGE are counted. -/
theorem ageLanes_keeps {α : Type} {g : Dev → α} (hg : ∀ d k f, g (modLane d k f) = g d) (hb : ∀ d off inst, g (bump d off inst) = g d)
    (d : Dev) (ws : List Want) (served : List Nat) : g (ageLanes d ws served) = g d := by
  refine foldl_keeps (fun d w => ?_) d ws
  dsimp only
  split
  · exact hg ..
  · split
    · exact (hb ..).trans (hg ..)
    · exact hg ..

/-- R259: the cell that an input's matches give it. -/
def noteInput (pairs : List Req) (d : Dev) (i : Nat) : Dev :=
  match (pairs.filter (fun r => r.input == i)).head? with
  | none => d
  | some r =>
    { d with lnd := { d.lnd with matched := mapPut d.lnd.matched i (mapGet [] d.lnd.matched i ++
      [⟨r.want.frame, r.want.cell, ((pairs.filter (fun r => r.input == i)).map Req.lanes).flatten⟩]) } }

theorem noteMatches_eq (d : Dev) (pairs : List Req) : noteMatches d pairs = (pairs.map Req.input).eraseDups.foldl (noteInput pairs) d := rfl

theorem noteInput_still (pairs : List Req) (d : Dev) (i : Nat) : cellStill (noteInput pairs d i) = cellStill d := by
  unfold noteInput
  split <;> rfl

theorem noteMatches_still (d : Dev) (pairs : List Req) : cellStill (noteMatches d pairs) = cellStill d :=
  foldl_keeps (noteInput_still pairs) d _

/-- R259: one input takes at most one cell, and no other any. -/
theorem noteInput_matched (pairs : List Req) (d : Dev) (i j : Nat) :
    (mapGet [] (noteInput pairs d i).lnd.matched j).length ≤ (mapGet [] d.lnd.matched j).length + if j = i then 1 else 0 := by
  unfold noteInput
  split
  · omega
  · by_cases h : j = i
    · subst h
      simp [mapGet, mapGet?_mapPut]
    · simp [mapGet, mapGet?_mapPut, h, Ne.symm h]

theorem noteInputs_matched (pairs : List Req) {l : List Nat} (hl : l.Nodup) (d : Dev) (j : Nat) :
    (mapGet [] (l.foldl (noteInput pairs) d).lnd.matched j).length ≤ (mapGet [] d.lnd.matched j).length + if j ∈ l then 1 else 0 := by
  induction l generalizing d with
  | nil => exact Nat.le_refl _
  | cons i l ih =>
    obtain ⟨hi, hl⟩ := List.nodup_cons.mp hl
    have hone := noteInput_matched pairs d i j
    have hrest := ih hl (noteInput pairs d i)
    rw [List.foldl_cons]
    by_cases hj : j = i
    · subst hj
      rw [if_neg hi] at hrest
      rw [if_pos rfl] at hone
      rw [if_pos List.mem_cons_self]
      omega
    · rw [if_neg hj] at hone
      simp only [List.mem_cons, hj, false_or]
      omega

theorem nodup_eraseDups : ∀ l : List Nat, l.eraseDups.Nodup
  | [] => List.nodup_nil
  | a :: l => by
    rw [List.eraseDups_cons, List.nodup_cons, List.mem_eraseDups, List.mem_filter]
    exact ⟨fun h => by simp at h, nodup_eraseDups _⟩
  termination_by l => l.length
  decreasing_by exact Nat.lt_succ_of_le (List.length_filter_le ..)

/-! ### Matches go to open inputs alone (R258) -/

theorem bestBy_mem {α : Type} {key : α → Nat} : ∀ {l : List α} {a : α}, bestBy key l = some a → a ∈ l
  | b :: l, a, h => by
    unfold bestBy at h
    split at h
    · exact List.mem_cons.mpr (.inl (Option.some.inj h).symm)
    · next c hc =>
      split at h
      · exact List.mem_cons_of_mem _ (Option.some.inj h ▸ bestBy_mem hc)
      · exact List.mem_cons.mpr (.inl (Option.some.inj h).symm)

theorem mem_of_mem_turnFrom {α : Type} {num : α → Nat} {p : Nat} {l : List α} {a : α} (h : a ∈ turnFrom num p l) : a ∈ l := by
  rw [turnFrom, List.mem_append, List.mem_filter, List.mem_filter] at h
  exact h.elim And.left And.left

/-- R258: an input grants requests made to it. -/
theorem mem_of_mem_grantsOf {d : Dev} {reqs : List Req} {i : Nat} {r : Req} (h : r ∈ grantsOf d reqs i) : r ∈ reqs := by
  unfold grantsOf at h
  dsimp only at h
  split at h
  · exact nomatch h
  · next b hb =>
    obtain rfl | h := List.mem_cons.mp h
    · exact (List.mem_filter.mp (mem_of_mem_turnFrom (bestBy_mem hb))).1
    · exact (List.mem_filter.mp (List.mem_filter.mp h).1).1

theorem reqOf_input {d : Dev} {ws : List Want} {o i : Nat} {r : Req} (h : reqOf d ws o i = some r) : r.input = i := by
  unfold reqOf at h
  dsimp only at h
  split at h
  · exact nomatch h
  · exact Option.some.inj h ▸ rfl

/-- R258: an iteration adds matches of open inputs. -/
theorem iterate_open {d : Dev} {ws : List Want} {m : Matching} (hm : ∀ r ∈ m.pairs, inputOpen d r.input = true) :
    ∀ r ∈ (iterate d ws m).pairs, inputOpen d r.input = true := by
  intro r hr
  unfold iterate at hr
  dsimp only at hr
  obtain hr | hr := List.mem_append.mp hr
  · exact hm r hr
  · obtain ⟨o, -, ho⟩ := List.mem_filterMap.mp hr
    have hgrant := (List.mem_filter.mp (mem_of_mem_turnFrom (bestBy_mem ho))).1
    obtain ⟨l, hl, hrl⟩ := List.mem_flatten.mp hgrant
    obtain ⟨i, -, rfl⟩ := List.mem_map.mp hl
    obtain ⟨l, hl, hrl⟩ := List.mem_flatten.mp (mem_of_mem_grantsOf hrl)
    obtain ⟨o', -, rfl⟩ := List.mem_map.mp hl
    obtain ⟨i', hi', hreq⟩ := List.mem_filterMap.mp hrl
    obtain ⟨-, hopen⟩ := List.mem_filter.mp hi'
    rw [reqOf_input hreq]
    exact (Bool.and_eq_true _ _ ▸ hopen).2

theorem matching_open (d : Dev) (ws : List Want) : ∀ r ∈ (matching d ws).2, inputOpen d r.input = true :=
  iterate_open (iterate_open (iterate_open (fun _ h => nomatch h)))

theorem inputOpen_movePointers (d : Dev) (first : List Req) (i : Nat) : inputOpen (movePointers d first) i = inputOpen d i := rfl
theorem movePointers_matched (d : Dev) (first : List Req) : (movePointers d first).lnd.matched = d.lnd.matched := rfl
theorem movePointers_still (d : Dev) (first : List Req) : cellStill (movePointers d first) = cellStill d := rfl

/-- R258, R259: the matches of a cell time keep every input at 8 cells. -/
theorem noteMatches_matched {d : Dev} {pairs : List Req} (hopen : ∀ r ∈ pairs, inputOpen d r.input = true)
    (h : ∀ i, (mapGet [] d.lnd.matched i).length ≤ 8) (i : Nat) : (mapGet [] (noteMatches d pairs).lnd.matched i).length ≤ 8 := by
  have hnote := noteInputs_matched pairs (nodup_eraseDups (pairs.map Req.input)) d i
  rw [← noteMatches_eq] at hnote
  by_cases hi : i ∈ (pairs.map Req.input).eraseDups
  · obtain ⟨r, hr, rfl⟩ := List.mem_map.mp (List.mem_eraseDups.mp hi)
    have hlt : (mapGet [] d.lnd.matched r.input).length < 8 := of_decide_eq_true (hopen r hr)
    rw [if_pos hi] at hnote
    omega
  · rw [if_neg hi] at hnote
    exact hnote.trans (h i)

/-- R258, R259: the matches of a cell time, and their cells. -/
def cellsMatched (d : Dev) (first all : List Req) : Dev := noteMatches (movePointers d first) all

theorem cellsMatched_still (d : Dev) (first all : List Req) : cellStill (cellsMatched d first all) = cellStill d :=
  (noteMatches_still ..).trans (movePointers_still ..)

theorem cellsMatched_matched {d : Dev} {all : List Req} (hopen : ∀ r ∈ all, inputOpen d r.input = true)
    (h : ∀ i, (mapGet [] d.lnd.matched i).length ≤ 8) (first : List Req) (i : Nat) :
    (mapGet [] (cellsMatched d first all).lnd.matched i).length ≤ 8 :=
  noteMatches_matched (fun r hr => (inputOpen_movePointers d first r.input).trans (hopen r hr))
    (fun i => by rw [movePointers_matched]; exact h i) i

/-- R257 to R259: a cell time fills the lanes, matches, ages the lanes and counts itself. -/
theorem cellTime_eq {d : Dev} (hf : frozen d 0 = false) : ∃ first all served, (∀ r ∈ all, inputOpen (fillLanes d) r.input = true) ∧
    cellTime d = (fun e : Dev => { e with lnd := { e.lnd with cellTimes := e.lnd.cellTimes + 1 } })
      (ageLanes (cellsMatched (fillLanes d) first all) (wants (fillLanes d)) served) := by
  refine ⟨(matching (fillLanes d) (wants (fillLanes d))).1, (matching (fillLanes d) (wants (fillLanes d))).2,
    ((matching (fillLanes d) (wants (fillLanes d))).2.map Req.lanes).flatten, matching_open (fillLanes d) (wants (fillLanes d)), ?_⟩
  unfold cellTime
  rw [if_neg (by simp [hf])]
  rfl

/-- R258, R259: one cell time. -/
theorem cellTime_leaves {d : Dev} (hf : frozen d 0 = false) (h : ∀ i, (mapGet [] d.lnd.matched i).length ≤ 8) :
    (∀ i, (mapGet [] (cellTime d).lnd.matched i).length ≤ 8) ∧
    cellStill (cellTime d) = cellStill { d with lnd := { d.lnd with cellTimes := d.lnd.cellTimes + 1 } } := by
  obtain ⟨first, all, served, hopen, heq⟩ := cellTime_eq hf
  have hfill : (fillLanes d).lnd.matched = d.lnd.matched := fillLanes_keeps (g := fun d => d.lnd.matched) (fun _ _ _ => rfl) d
  have hstill : cellStill (fillLanes d) = cellStill d := fillLanes_keeps (g := cellStill) (fun _ _ _ => rfl) d
  rw [heq]
  generalize wants (fillLanes d) = ws
  generalize fillLanes d = e at hopen hfill hstill
  have hmatched := cellsMatched_matched hopen (fun i => by rw [hfill]; exact h i) first
  have hstill' := (cellsMatched_still e first all).trans hstill
  generalize cellsMatched e first all = c at hmatched hstill'
  have hage : (ageLanes c ws served).lnd.matched = c.lnd.matched :=
    ageLanes_keeps (g := fun d => d.lnd.matched) (fun _ _ _ => rfl) (fun _ _ _ => rfl) ..
  have hstill'' : cellStill (ageLanes c ws served) = cellStill d :=
    (ageLanes_keeps (g := cellStill) (fun _ _ _ => rfl) (fun _ _ _ => rfl) ..).trans hstill'
  generalize ageLanes c ws served = a at hage hstill''
  refine ⟨fun i => ?_, ?_⟩
  · dsimp only
    rw [hage]
    exact hmatched i
  · simp only [cellStill, Prod.mk.injEq] at hstill'' ⊢
    obtain ⟨hqueues, hframes, hwaiting, hcount, hevs, hrte, hregs⟩ := hstill''
    exact ⟨hqueues, hframes, hwaiting, by rw [hcount], hevs, hrte, hregs⟩

/-! ## The end of a copy, as the matched cells and the other queues see it (R252) -/

/-- What `g` reads is none of the stored frames, the twins and the endpoints. -/
structure FrameBlind {α : Type} (g : Dev → α) : Prop where
  frames : ∀ d f, g { d with lnd := { d.lnd with frames := f } } = g d
  flt : ∀ d f, g { d with flt := f } = g d
  eps : ∀ d e, g { d with eps := e } = g d

section FrameBlind
variable {α : Type} {g : Dev → α} (hg : FrameBlind g)
include hg

theorem FrameBlind.freeCells (d : Dev) : g (freeCells d) = g d := by
  unfold Machine.freeCells
  dsimp only
  rw [hg.frames]
  exact foldl_keeps (fun d _ => hg.flt d _) d _

theorem FrameBlind.copyGone (d : Dev) (id : Nat) (committed : Bool) (stamp : Nat) : g (copyGone d id committed stamp) = g d := by
  have hcommit : ∀ d, g (if committed then commitOut d 0 id else d) = g d := fun d => keeps_ite (hg.flt d _)
  unfold Machine.copyGone
  split
  · rfl
  · dsimp only
    rw [hg.freeCells]
    split
    · split
      · exact (hg.eps _ _).trans ((hcommit _).trans (hg.frames d _))
      · exact (hcommit _).trans (hg.frames d _)
    · exact (hcommit _).trans (hg.frames d _)

end FrameBlind

/-! ## Links out of the Landing (R259 to R261, R295) -/

/-- What `g` reads is nothing that a cell on its way out of the Landing changes: neither lanes, queues and stored frames nor the
Route Engine's queues, an output or a counter. -/
structure LinkOutBlind {α : Type} (g : Dev → α) : Prop extends FrameBlind g where
  lanes : ∀ d l, g { d with lnd := { d.lnd with lanes := l } } = g d
  queues : ∀ d q, g { d with lnd := { d.lnd with queues := q } } = g d
  rte : ∀ d r, g { d with rte := r } = g d
  out : ∀ d o, g { d with out := o } = g d
  tally : ∀ d t, g { d with tally := t } = g d

section LinkOutBlind
variable {α : Type} {g : Dev → α} (hg : LinkOutBlind g)
include hg

theorem LinkOutBlind.modDiag (d : Dev) (target : Nat) (f : DiagReq → DiagReq) : g (modDiag d target f) = g d := hg.rte ..

theorem LinkOutBlind.diagFrame (d : Dev) (i : Nat) (data : Bytes) : g (diagFrame d i data) = g d := (hg.rte ..).trans (hg.tally ..)

theorem LinkOutBlind.diagBlock (i target : Nat) : ∀ (n : Nat) (d : Dev), g (diagBlock i target n d) = g d
  | 0, _ => rfl
  | n + 1, d => by
    unfold Machine.diagBlock
    split
    · rfl
    · split
      · rfl
      · dsimp only
        split
        · exact (LinkOutBlind.diagBlock i target n _).trans ((hg.modDiag ..).trans (hg.diagFrame ..))
        · exact (hg.modDiag ..).trans (hg.diagFrame ..)

theorem LinkOutBlind.flowControl (d : Dev) (i : Nat) (q : DiagReq) (data : Bytes) : g (flowControl d i q data) = g d := by
  unfold Machine.flowControl
  split
  · exact (hg.diagBlock ..).trans (hg.modDiag ..)
  · exact hg.modDiag ..
  · exact hg.rte ..

theorem LinkOutBlind.diagTake (d : Dev) (i : Nat) (q : DiagReq) (data : Bytes) : g (diagTake d i q data) = g d := by
  unfold Machine.diagTake
  dsimp only
  split
  · exact hg.flowControl ..
  · split
    · exact (hg.modDiag ..).trans (hg.diagFrame ..)
    · exact keeps_ite (hg.modDiag ..)

/-- R295: SC2 takes a frame. -/
theorem LinkOutBlind.svcTake (d : Dev) (p : Pkt) : g (svcTake d p) = g d := by
  unfold Machine.svcTake
  split
  · rfl
  · split
    · split
      · split
        · exact hg.out ..
        · rfl
      · rfl
    · split
      · exact hg.diagTake ..
      · rfl

theorem LinkOutBlind.dropTxRef (d : Dev) (id : Nat) : g (dropTxRef d id) = g d := by
  unfold Machine.dropTxRef
  split
  · exact hg.frames ..
  · rfl

/-- R261: a link lane hands on what it holds whole. -/
theorem LinkOutBlind.linkOut (d : Dev) (k : Nat) : g (linkOut d k) = g d := by
  unfold Machine.linkOut
  extract_lets whole d₁ d₂ d₃ keep
  have h₁ : g d₁ = g d := keeps_ite (foldl_keeps (f := fun d (it : LaneItem) => Machine.svcTake d it.pkt) (fun d it => hg.svcTake d it.pkt) d _)
  have h₂ : g d₂ = g d₁ :=
    keeps_ite (foldl_keeps (f := fun d (it : LaneItem) => Machine.dropTxRef d it.pkt.id) (fun d it => hg.dropTxRef d it.pkt.id) d₁ _)
  have h₃ : g d₃ = g d₂ :=
    foldl_keeps (f := fun d (it : LaneItem) => copyCommit (Machine.unqueue d it.dest.q it.pkt.id) it.pkt.id)
      (fun d it => (hg.copyGone ..).trans (hg.queues ..)) d₂ _
  exact (hg.lanes ..).trans (h₃.trans (h₂.trans h₁))

/-- R259: a cell reaches its lanes. -/
theorem LinkOutBlind.deliver (d : Dev) (c : MatchCell) : g (deliver d c) = g d := by
  refine foldl_keeps (fun d k => ?_) d _
  exact keeps_ite ((hg.tally ..).trans (hg.lanes ..))

/-- R260: a read slot without an uncorrectable cell takes four cells. -/
theorem LinkOutBlind.cellReadStep {d : Dev} {input : Nat} (hf : frozen d 0 = false) (hs : slotOwned d 1 input = true) :
    g (cellReadStep d input []) =
      g { d with lnd := { d.lnd with matched := mapPut d.lnd.matched input ((mapGet [] d.lnd.matched input).drop 4) } } := by
  unfold Machine.cellReadStep
  rw [if_neg (by simp [hf, hs])]
  dsimp only
  exact (foldl_keeps hg.linkOut _ _).trans (foldl_keeps (f := readCell []) (fun d c => hg.deliver d c.1) _ _)

end LinkOutBlind

theorem linkOutBlind_matched : LinkOutBlind (fun d => d.lnd.matched) :=
  { frames := fun _ _ => rfl, flt := fun _ _ => rfl, eps := fun _ _ => rfl, lanes := fun _ _ => rfl, queues := fun _ _ => rfl,
    rte := fun _ _ => rfl, out := fun _ _ => rfl, tally := fun _ _ => rfl }

theorem linkOutBlind_waiting : LinkOutBlind (fun d => d.lnd.waiting) :=
  { frames := fun _ _ => rfl, flt := fun _ _ => rfl, eps := fun _ _ => rfl, lanes := fun _ _ => rfl, queues := fun _ _ => rfl,
    rte := fun _ _ => rfl, out := fun _ _ => rfl, tally := fun _ _ => rfl }

theorem linkOutBlind_evs : LinkOutBlind Dev.evs :=
  { frames := fun _ _ => rfl, flt := fun _ _ => rfl, eps := fun _ _ => rfl, lanes := fun _ _ => rfl, queues := fun _ _ => rfl,
    rte := fun _ _ => rfl, out := fun _ _ => rfl, tally := fun _ _ => rfl }

theorem linkOutBlind_regs : LinkOutBlind Dev.regs :=
  { frames := fun _ _ => rfl, flt := fun _ _ => rfl, eps := fun _ _ => rfl, lanes := fun _ _ => rfl, queues := fun _ _ => rfl,
    rte := fun _ _ => rfl, out := fun _ _ => rfl, tally := fun _ _ => rfl }

/-! ## An uncorrectable cell (R267) -/

theorem goesOn_copyDrop (d : Dev) (id : Nat) : GoesOn d (copyDrop d id) :=
  .of_eq (flushBlind_clk.copyDrop ..) (CopyBlind.copyDrop ⟨fun _ _ => rfl, fun _ _ => rfl, fun _ _ => rfl⟩ ..)
    (CopyBlind.copyDrop ⟨fun _ _ => rfl, fun _ _ => rfl, fun _ _ => rfl⟩ ..) (copyBlind_evs.copyDrop ..)
    (CopyBlind.copyDrop ⟨fun _ _ => rfl, fun _ _ => rfl, fun _ _ => rfl⟩ ..)

theorem goesOn_unstage (d : Dev) (q id : Nat) : GoesOn d (unstage d q id) := .of_eq rfl rfl rfl rfl rfl
theorem goesOn_unqueue (d : Dev) (q id : Nat) : GoesOn d (unqueue d q id) := .of_eq rfl rfl rfl rfl rfl

theorem goesOn_stomp (d : Dev) (o sent : Nat) : GoesOn d (stomp d o sent) := by
  have hlasting := lasting_eq_iff.mp (lasting_stomp d o sent)
  obtain ⟨hclk, hflash, hfuses⟩ := hlasting
  refine .of_eq hclk hflash hfuses ?_ ?_
  · rw [stomp, bumpBy_evs, bumpE, bumpE, bump_evs, bump_evs, emit_evs]
    rfl
  · rw [stomp, bumpBy_aonEvs, bumpE, bumpE, bump_aonEvs, bump_aonEvs, emit_aonEvs]
    rfl

theorem goesOn_lnd (d : Dev) (l : Lnd) : GoesOn d { d with lnd := l } := .of_eq rfl rfl rfl rfl rfl
theorem goesOn_eps (d : Dev) (e : NMap Ep) : GoesOn d { d with eps := e } := .of_eq rfl rfl rfl rfl rfl

theorem goesOn_hostLoss (d : Dev) (q : Nat) : GoesOn d (hostLoss d q) := by
  have hreport : ∀ (late : Bool) (a b : Lnd) (data : Bytes),
      GoesOn d (if late then raise { d with lnd := a } 0x0902 0 data else { d with lnd := b }) := fun _ a b _ =>
    .ite ((goesOn_lnd d a).trans (goesOn_raise ..)) (goesOn_lnd d b)
  unfold hostLoss
  split
  · exact .ite (.of_eq rfl rfl rfl rfl rfl) (.refl d)
  · exact (hreport ..).trans (goesOn_eps ..)

theorem goesOn_dropBad (d : Dev) (q id : Nat) : GoesOn d (dropBad d q id) := by
  unfold dropBad
  split
  · dsimp only
    exact .ite ((goesOn_unstage ..).trans (goesOn_stomp ..))
      (.ite (.refl d) ((goesOn_unqueue ..).trans ((goesOn_unstage ..).trans (goesOn_copyDrop ..))))
  · exact (goesOn_unqueue ..).trans ((goesOn_unstage ..).trans ((goesOn_hostLoss ..).trans (goesOn_copyDrop ..)))

/-- The events of `a` stand first among those of `b`. -/
def EvsGrow (a b : Dev) : Prop := ∃ l, b.evs = a.evs ++ l

theorem EvsGrow.of_eq {a b : Dev} (h : b.evs = a.evs) : EvsGrow a b := ⟨[], h.trans (List.append_nil _).symm⟩

theorem EvsGrow.trans {a b c : Dev} (h : EvsGrow a b) (k : EvsGrow b c) : EvsGrow a c := by
  obtain ⟨l, hl⟩ := h
  obtain ⟨m, hm⟩ := k
  exact ⟨l ++ m, by rw [hm, hl, List.append_assoc]⟩

theorem evsGrow_foldl {α : Type} {f : Dev → α → Dev} (h : ∀ d x, EvsGrow d (f d x)) (d : Dev) (l : List α) : EvsGrow d (l.foldl f d) :=
  List.foldlRecOn (motive := EvsGrow d) l f (.of_eq rfl) (fun e he x _ => he.trans (h e x))

theorem evsGrow_memUnc (d : Dev) (mem row : Nat) : EvsGrow d (memUnc d mem row) := by
  unfold memUnc
  dsimp only
  split
  · exact (goesOn_raise { d with flt := _ } 0x0E09 4 (e1 mem)).evs
  · exact .of_eq rfl

/-- R267: an uncorrectable cell is reported with its number, behind the events that stand. -/
theorem poisonCell_reports {d : Dev} (h : 2 ≤ d.clk.mode.num) (frame cell : Nat) : ∃ l e, (poisonCell d frame cell).evs = d.evs ++ l ∧
    e ∈ l ∧ e.code = 0x0904 ∧ ∃ n, e.data = e4 cell ++ eCount n := by
  unfold poisonCell
  extract_lets qs wire all fr l₀ d₁ d₂
  have hmark : GoesOn d d₁ := (goesOn_lnd d _).trans (goesOn_bumpBy ..)
  have hdrop : GoesOn d d₂ := hmark.trans (goesOn_foldl (fun d q => goesOn_dropBad d q frame) d₁ all)
  clear_value d₂
  obtain ⟨l, hl⟩ := hdrop.evs
  obtain ⟨m, hm⟩ := evsGrow_memUnc (raise d₂ 0x0904 0 (e4 cell ++ eCount all.length)) 0 (cell / 4)
  rw [raise_evs (by rw [hdrop.clk]; exact h), hl] at hm
  refine ⟨l ++ evNow d₂ 0x0904 0 (e4 cell ++ eCount all.length) :: m, _, ?_, List.mem_append_right _ List.mem_cons_self, rfl,
    all.length, rfl⟩
  rw [hm, List.append_assoc, List.append_assoc, List.singleton_append]

theorem poisonCell_grows (d : Dev) (frame cell : Nat) : EvsGrow d (poisonCell d frame cell) := by
  unfold poisonCell
  extract_lets qs wire all fr l₀ d₁ d₂
  have hmark : GoesOn d d₁ := (goesOn_lnd d _).trans (goesOn_bumpBy ..)
  have hdrop : GoesOn d d₂ := hmark.trans (goesOn_foldl (fun d q => goesOn_dropBad d q frame) d₁ all)
  clear_value d₂
  have hgrow : EvsGrow d d₂ := hdrop.evs
  have hraise : EvsGrow d₂ (raise d₂ 0x0904 0 (e4 cell ++ eCount all.length)) := (goesOn_raise ..).evs
  exact hgrow.trans (hraise.trans (evsGrow_memUnc ..))

theorem readCell_grows (unc : List (Nat × Nat)) (d : Dev) (c : MatchCell × Nat) : EvsGrow d (readCell unc d c) := by
  unfold readCell
  split
  · exact poisonCell_grows ..
  · exact .of_eq (linkOutBlind_evs.deliver ..)

/-- R260, R267: a read slot whose first cell is uncorrectable reports it. -/
theorem cellReadStep_bad {d : Dev} {input cell : Nat} {c : MatchCell} {rest : List MatchCell} (hf : frozen d 0 = false)
    (hs : slotOwned d 1 input = true) (h : 2 ≤ d.clk.mode.num) (hl : mapGet [] d.lnd.matched input = c :: rest) :
    ∃ l e, (cellReadStep d input [(0, cell)]).evs = d.evs ++ l ∧ e ∈ l ∧ e.code = 0x0904 ∧ ∃ n, e.data = e4 cell ++ eCount n := by
  unfold cellReadStep
  rw [if_neg (by simp [hf, hs]), hl]
  extract_lets l l₀ d₁ d₂
  obtain ⟨m, e, hm, hem, hcode, hdata⟩ := poisonCell_reports (d := d₁) h c.frame cell
  have hread : EvsGrow (poisonCell d₁ c.frame cell) d₂ := evsGrow_foldl (readCell_grows [(0, cell)]) _ ((rest.take 3).zipIdx 1)
  have hlink : EvsGrow d₂ ((linkLanes d₂).foldl linkOut d₂) := .of_eq (foldl_keeps linkOutBlind_evs.linkOut ..)
  obtain ⟨n, hn⟩ := hread.trans hlink
  exact ⟨m ++ n, e, by rw [hn, hm, List.append_assoc], List.mem_append_left _ hem, hcode, hdata⟩

/-! ## Flush by software (R266) -/

theorem frameBlind_queues : FrameBlind (fun d => d.lnd.queues) := ⟨fun _ _ => rfl, fun _ _ => rfl, fun _ _ => rfl⟩

/-- R265: a flushed copy leaves its queue. -/
theorem flushCopy_queues (d : Dev) (q id : Nat) : (flushCopy d q id).lnd.queues = (unqueue d q id).lnd.queues := by
  have hcount : ∀ e : Dev, (portFlushCount e q).lnd = e.lnd := by
    intro e
    unfold portFlushCount
    split
    · rfl
    · split <;> rfl
  refine (frameBlind_queues.copyGone ..).trans ((LandingKept.hostLoss ..).queues.trans ?_)
  rw [hcount]
  rfl

theorem flushCopy_waiting (d : Dev) (q id : Nat) : (flushCopy d q id).lnd.waiting = d.lnd.waiting := linkBlind_waiting.flushCopy ..

theorem unqueue_sorted {d : Dev} (hs : mapSorted d.lnd.queues = true) (q id : Nat) : mapSorted (unqueue d q id).lnd.queues = true := by
  unfold unqueue setQueue
  dsimp only
  split
  · exact mapSorted_mapDel hs q
  · exact mapSorted_mapPut hs q _

theorem queueOf_unqueue {d : Dev} (hs : mapSorted d.lnd.queues = true) (q id o : Nat) :
    queueOf (unqueue d q id) o = if o = q then (queueOf d q).filter (fun c => c.1 != id) else queueOf d o := by
  unfold unqueue setQueue queueOf mapGet
  dsimp only
  split
  · next h =>
    rw [mapGet?_mapDel hs]
    by_cases ho : o = q
    · subst ho
      simpa using h
    · simp [ho, Ne.symm ho]
  · rw [mapGet?_mapPut]
    by_cases ho : o = q
    · simp [ho]
    · simp [ho, Ne.symm ho]

/-- R266: the copies flushed leave their queue, and every other queue keeps its own. -/
theorem flushCopies_queues {q : Nat} (l : List (Nat × Dest)) {d : Dev} (hs : mapSorted d.lnd.queues = true) (o : Nat) :
    queueOf (l.foldl (fun d c => flushCopy d q c.1) d) o =
      if o = q then (queueOf d q).filter (fun c => l.all (fun f => c.1 != f.1)) else queueOf d o := by
  induction l generalizing d with
  | nil => split <;> simp [*]
  | cons f l ih =>
    have hone : ∀ o, queueOf (flushCopy d q f.1) o = queueOf (unqueue d q f.1) o := fun o => by
      rw [queueOf, flushCopy_queues, queueOf]
    rw [List.foldl_cons, ih (by rw [flushCopy_queues]; exact unqueue_sorted hs q f.1), hone, hone, queueOf_unqueue hs,
      queueOf_unqueue hs, if_pos rfl, List.filter_filter]
    split
    · simp only [List.all_cons, Bool.and_comm]
    · rfl

/-- R266: of copies picked by their frame, the flush takes out those and no others. -/
theorem filter_notPicked {p : Nat × Dest → Bool} (hp : ∀ a b : Nat × Dest, a.1 = b.1 → p a = p b) (l : List (Nat × Dest)) :
    l.filter (fun c => (l.filter p).all (fun f => c.1 != f.1)) = l.filter (fun c => !p c) := by
  refine List.filter_congr (fun c hc => ?_)
  cases hpc : p c with
  | true =>
    simp only [Bool.not_true, List.all_eq_false]
    exact ⟨c, List.mem_filter.mpr ⟨hc, hpc⟩, by simp⟩
  | false =>
    simp only [Bool.not_false, List.all_eq_true]
    intro f hf
    obtain ⟨-, hpf⟩ := List.mem_filter.mp hf
    have hne : c.1 ≠ f.1 := fun h => by simp [hp c f h, hpf] at hpc
    simpa using hne

/-- R266: what a write of LND_QFLUSH leaves. -/
theorem queueFlush_leaves {d : Dev} {w : Nat} (hm : 2 ≤ d.clk.mode.num) (hq : qExists (bits w 0 9) = true)
    (hs : mapSorted d.lnd.queues = true) :
    queueOf (queueFlush d w) (bits w 0 9) = (queueOf d (bits w 0 9)).filter (fun c => !admittedBefore d c) ∧
    (∀ q, q ≠ bits w 0 9 → queueOf (queueFlush d w) q = queueOf d q) ∧ (queueFlush d w).lnd.waiting = d.lnd.waiting ∧
    ∃ l, (queueFlush d w).evs = l ++ [evNow d 0x0903 0 (e2 (bits w 0 9) ++
      eCount ((queueOf d (bits w 0 9)).filter (admittedBefore d)).length ++ e1 0)] := by
  unfold queueFlush
  generalize bits w 0 9 = q at hq ⊢
  dsimp only
  rw [if_neg (by simp [hq])]
  generalize hl : (queueOf d q).filter (admittedBefore d) = l
  have hqueues := flushCopies_queues (q := q) l hs
  have hwaiting : (l.foldl (fun d c => flushCopy d q c.1) d).lnd.waiting = d.lnd.waiting :=
    foldl_keeps (g := fun d => d.lnd.waiting) (f := fun d (c : Nat × Dest) => flushCopy d q c.1) (fun d c => flushCopy_waiting d q c.1) d l
  have hclk : (l.foldl (fun d c => flushCopy d q c.1) d).clk = d.clk :=
    foldl_keeps (f := fun d (c : Nat × Dest) => flushCopy d q c.1) (fun d c => flushBlind_clk.flushCopy d q c.1) d l
  have hregs : (l.foldl (fun d c => flushCopy d q c.1) d).regs = d.regs :=
    foldl_keeps (f := fun d (c : Nat × Dest) => flushCopy d q c.1) (fun d c => flushBlind_regs.flushCopy d q c.1) d l
  generalize l.foldl (fun d c => flushCopy d q c.1) d = e at hqueues hwaiting hclk hregs
  have hraise : ∀ o, queueOf (raise e 0x0903 0 (e2 q ++ eCount l.length ++ e1 0)) o = queueOf e o := fun o => by
    rw [queueOf, raise_lnd, queueOf]
  refine ⟨?_, fun o ho => ?_, by rw [raise_lnd, hwaiting], e.evs, ?_⟩
  · rw [hraise, hqueues, if_pos rfl, ← hl]
    exact filter_notPicked (fun a b h => by rw [admittedBefore, h, admittedBefore]) _
  · rw [hraise, hqueues, if_neg ho]
  · rw [raise_evs (by rw [hclk]; exact hm), evNow_congr hclk hregs]

/-! ## The obligation -/

theorem queueOf_settle (d : Dev) (q : Nat) : queueOf (settle d) q = queueOf d q := by rw [queueOf, settle_lnd, queueOf]

/-- Settles O34: a cell time by the bound of its matching, a read slot by what the cells on their way out leave alone, a flush by the
queue it takes copies of. -/
theorem cellsMoveAndQueuesFlush : Obligations.CellsMoveAndQueuesFlush := by
  unfold Obligations.CellsMoveAndQueuesFlush
  refine ⟨fun s hf h => ?_, fun s input unc hf => ⟨?_, ?_⟩, fun s input unc hs => ?_, fun s input hf hs => ?_,
    fun s input cell c rest hf hs hm hl => ?_, fun s who w hw hq hs => ?_, fun s who w hw hq => ?_⟩
  · obtain ⟨hmatched, hstill⟩ := cellTime_leaves hf h
    simp only [cellStill, Prod.mk.injEq] at hstill
    obtain ⟨hqueues, hframes, hwaiting, hcount, hevs, hrte, hregs⟩ := hstill
    refine yields_act (f := cellTime) rfl ?_
    rw [settle_lnd, settle_evs, settle_rte, settle_regs]
    exact ⟨hcount, hmatched, hqueues, hframes, hwaiting, hevs, hrte, hregs⟩
  · exact exec_of_act (f := cellTime) rfl (if_pos hf)
  · exact exec_of_act (f := fun d => cellReadStep d input unc) rfl (if_pos (by simp [hf]))
  · exact exec_of_act (f := fun d => cellReadStep d input unc) rfl (if_pos (by simp [hs]))
  · have hmatched := linkOutBlind_matched.cellReadStep hf hs
    have hwaiting := linkOutBlind_waiting.cellReadStep hf hs
    have hevs := linkOutBlind_evs.cellReadStep hf hs
    have hregs := linkOutBlind_regs.cellReadStep hf hs
    dsimp only at hmatched hwaiting hevs hregs
    refine yields_act (f := fun d => cellReadStep d input []) rfl ?_
    rw [settle_lnd, settle_evs, settle_regs, hmatched, hwaiting]
    refine ⟨?_, fun i hi => ?_, hevs, rfl, hregs⟩
    · simp [mapGet, mapGet?_mapPut]
    · simp [mapGet, mapGet?_mapPut, Ne.symm hi]
  · refine yields_act (f := fun d => cellReadStep d input [(0, cell)]) rfl ?_
    rw [settle_evs]
    exact cellReadStep_bad hf hs hm hl
  · obtain ⟨hqueue, hother, hwaiting, l, hevs⟩ := queueFlush_leaves (mode_of_running (running_of_mayWrite hw)) hq hs
    refine yields_act (access_regWr hw _ (fun d => queueFlush d w.toNat)) ?_
    simp only [queueOf_settle, settle_lnd, settle_evs]
    exact ⟨hqueue, hother, hwaiting, l, hevs⟩
  · exact exec_of_act (access_regWr hw _ (fun d => queueFlush d w.toNat)) (if_pos (by simp [hq]))

end Sys2Proof.Machine
end

section
/-! SUPPORT. CAN reception (chapter 07): a good frame lowers REC and joins the stage, and the verdict on the oldest frame of the stage. -/

namespace Sys2Proof.Machine

/-! ## A good frame (R168, R193) -/

/-- ISO 11898-1: REC after a good reception. -/
def recLowered (n : Nat) : Nat := if 127 < n then clamp 119 127 Config.recAfterGood else n - 1

/-- R168, R193: a channel after a good frame has ended on its bus. -/
def heardGood (c : CanCh) : CanCh :=
  { c with past := [], rec' := recLowered c.rec', state := if 127 < c.tec || 127 < recLowered c.rec' then 3 else 2 }

theorem recLowered_le {n : Nat} (h : n ≤ 127) : recLowered n ≤ 127 := by
  rw [recLowered, if_neg (by omega)]
  omega

/-- R193: with no counter risen above 127 the counters give the state, and nothing is reported. -/
theorem errState_quiet {d : Dev} {ch tec0 rec0 : Nat}
    (h : ¬ ((tec0 ≤ 127 && 127 < (canOf d ch).tec) || (rec0 ≤ 127 && 127 < (canOf d ch).rec')) = true) :
    errState d ch tec0 rec0 = modCan d ch (fun c => { c with state := if 127 < c.tec || 127 < c.rec' then 3 else 2 }) := by
  unfold errState
  dsimp only
  rw [if_neg h]

/-- R193: no counter passes 127 at a good reception: nothing is reported. -/
theorem recGood_eq (d : Dev) (ch : Nat) : recGood d ch = modCan d ch (fun c =>
    { c with rec' := recLowered c.rec', state := if 127 < c.tec || 127 < recLowered c.rec' then 3 else 2 }) := by
  have hquiet : ¬ (((canOf d ch).tec ≤ 127 && 127 < (canOf d ch).tec) ||
      ((canOf d ch).rec' ≤ 127 && 127 < recLowered (canOf d ch).rec')) = true := by
    have hle := @recLowered_le (canOf d ch).rec'
    simp only [Bool.or_eq_true, Bool.and_eq_true, decide_eq_true_eq]
    omega
  have hlower : recGood d ch = errState (modCan d ch (fun c => { c with rec' := recLowered c.rec' })) ch (canOf d ch).tec
    (canOf d ch).rec' := rfl
  rw [hlower, errState_quiet (by rw [canOf_modCan_same]; exact hquiet), modCan_modCan]

/-- R168, R179: what a channel does with a frame that ends on its bus: not live or not running it hears none. -/
theorem rxFrame_deaf {d : Dev} {ch : Nat} (h : canLive d ch = false ∨ canRuns (canOf d ch) = false ∨ (canOf d ch).opmode = 2)
    (back : Nat) (f : CanFrame) : rxFrame d ch back f = d := by
  unfold rxFrame
  dsimp only
  rw [if_pos]
  obtain h | h | h := h <;> simp [h]

/-- A frame that a channel hears: of a format that it has, under what was latched at its SOF. -/
structure Hears (d : Dev) (ch back : Nat) (f : CanFrame) : Prop where
  live : canLive d ch = true
  runs : canRuns (canOf d ch) = true
  bus : (canOf d ch).opmode ≠ 2
  kind : protoKind d ch (latchOf d ch back) f = none

/-- R424: the cluster of a channel, when it sleeps. -/
def sleepingCluster (d : Dev) (ch : Nat) : Option Nat :=
  match canCluster d ch with
  | some k => if nmSleeps d k then some k else none
  | none => none

/-- R179, R424: where a frame heard goes. -/
def heardFrame (d : Dev) (ch : Nat) (l : CanLatch) (f : CanFrame) : Option Nat → Dev
  | some k => sleepFrame d k
  | none => stageFrame d ch l f

/-- R96, R168: outside a wake a frame that the channel hears lowers REC; then it is staged, or its cluster sleeps. -/
theorem canReceive_hears {d : Dev} {ch back : Nat} {f : CanFrame} (hw : waking d = false) (h : Hears d ch back f) :
    canReceive d ch back f = heardFrame (modCan d ch heardGood) ch (latchOf d ch back) f (sleepingCluster d ch) := by
  have hheard : recGood (modCan d ch (fun c => { c with past := [] })) ch = modCan d ch heardGood := by
    rw [recGood_eq, modCan_modCan]
    rfl
  unfold canReceive
  rw [if_neg (by simp [hw])]
  unfold rxFrame
  dsimp only
  rw [if_neg (by simp [h.live, h.runs, h.bus])]
  rw [show protoKind (modCan d ch fun c => { c with past := [] }) ch (latchOf d ch back) f = none from h.kind]
  dsimp only
  rw [hheard]
  rfl

/-- R179: a frame whose channel is in no sleeping cluster goes to the stage. -/
theorem canReceive_awake {d : Dev} {ch back : Nat} {f : CanFrame} (hw : waking d = false) (h : Hears d ch back f)
    (hawake : ∀ k, canCluster d ch = some k → nmSleeps d k = false) :
    canReceive d ch back f = stageFrame (modCan d ch heardGood) ch (latchOf d ch back) f := by
  have hnone : sleepingCluster d ch = none := by
    unfold sleepingCluster
    cases hc : canCluster d ch with
    | none => rfl
    | some k => exact if_neg (by simp [hawake k hc])
  rw [canReceive_hears hw h, hnone]
  rfl

/-- R424: a frame whose cluster sleeps is counted there. -/
theorem canReceive_asleep {d : Dev} {ch back k : Nat} {f : CanFrame} (hw : waking d = false) (h : Hears d ch back f)
    (hc : canCluster d ch = some k) (hs : nmSleeps d k = true) :
    canReceive d ch back f = sleepFrame (modCan d ch heardGood) k := by
  have hsome : sleepingCluster d ch = some k := by
    rw [sleepingCluster, hc]
    exact if_pos hs
  rw [canReceive_hears hw h, hsome]
  rfl

/-! ## The receive stage (R172, R179) -/

theorem stageFrame_joins {d : Dev} {ch : Nat} {f : CanFrame} (hr : f.rtr = false ∨ bit (canCtl d ch) 6 = true)
    (hl : (canOf d ch).stage.length < 2) (l : CanLatch) :
    stageFrame d ch l f = modCan d ch (fun c => { c with stage := c.stage ++ [⟨f, l.base, l.cnt, l.rej⟩] }) := by
  unfold stageFrame
  rw [if_neg, if_neg (Nat.not_le.mpr hl)]
  obtain hr | hr := hr <;> simp [hr]

theorem stageFrame_full {d : Dev} {ch : Nat} {f : CanFrame} (hr : f.rtr = false) (hl : (canOf d ch).stage.length = 2) (l : CanLatch) :
    stageFrame d ch l f = bumpC d ch 0x150 := by
  simp [stageFrame, hr, hl]

theorem stageFrame_remote {d : Dev} {ch : Nat} {f : CanFrame} (hr : f.rtr = true) (hoff : bit (canCtl d ch) 6 = false) (l : CanLatch) :
    stageFrame d ch l f = bumpC d ch 0x160 := by
  simp [stageFrame, hr, hoff]

/-- R424, R425: without WAKEON a frame does not wake its cluster. -/
theorem sleepFrame_counts {d : Dev} {k : Nat} (h : bit (nmReg d k 12) 8 = false) : sleepFrame d k = bumpN d k 0xB8 := by
  unfold sleepFrame
  dsimp only
  rw [if_neg]
  rw [show nmReg (bumpN d k 0xB8) k 12 = nmReg d k 12 from rfl, h]
  exact Bool.false_ne_true

theorem stage_heardGood (d : Dev) (ch : Nat) : (canOf (modCan d ch heardGood) ch).stage = (canOf d ch).stage := by
  rw [canOf_modCan_same]
  rfl

/-! ## The verdict (R176 to R179) -/

/-- The verdict takes the oldest frame out of the stage. -/
def unstaged (d : Dev) (ch : Nat) (rest : List RxStage) : Dev := modCan d ch (fun c => { c with stage := rest })

theorem stage_unstaged (d : Dev) (ch : Nat) (rest : List RxStage) : (canOf (unstaged d ch rest) ch).stage = rest := by
  rw [unstaged, canOf_modCan_same]

/-- R179, R275: an accepted frame as its classifier takes it. -/
def canItem (d : Dev) (ch : Nat) (f : CanFrame) : LookItem :=
  { pkt := canPkt d ch f, named := none, eth := false, ptype := if f.fmt == .xl then 2 else 1 }

section Verdict
variable {d : Dev} {ch : Nat} {r : RxStage} {rest : List RxStage} (hst : (canOf d ch).stage = r :: rest)
include hst

/-- R178: a rejected frame is counted. -/
theorem filterVerdict_rejects (h : filtAccepts d (ch / 6) r = false) : filterVerdict d ch = bumpC (unstaged d ch rest) ch 0x110 := by
  unfold filterVerdict
  rw [hst]
  dsimp only
  rw [if_pos]
  · rfl
  · rw [show filtAccepts (modCan d ch _) (ch / 6) r = filtAccepts d (ch / 6) r from rfl, h]
    rfl

/-- R178, R179: what becomes of an accepted frame. -/
theorem filterVerdict_accepts (h : filtAccepts d (ch / 6) r = true) : filterVerdict d ch =
    if d.clk.ingress && (xOf d ch false).timed then
      bumpX (modX (bumpC (unstaged d ch rest) ch 0x100) ch false (fun g => { g with dropped := g.dropped + 1 })) 1 ch false 1
    else if !d.clk.ingress || !xTakes (xOf d ch false) ch (frameWords r.frame) then
      bumpC (bumpC (unstaged d ch rest) ch 0x100) ch 0x150
    else toParse (bumpBy (bumpC (unstaged d ch rest) ch 0x100) 0x500080 (ch / 6) (cells r.frame.data.length)) (ch / 6)
      [canItem (bumpC (unstaged d ch rest) ch 0x100) ch r.frame] := by
  unfold filterVerdict
  rw [hst]
  dsimp only
  rw [if_neg]
  · rfl
  · rw [show filtAccepts (modCan d ch _) (ch / 6) r = filtAccepts d (ch / 6) r from rfl, h]
    exact Bool.false_ne_true

end Verdict

/-- R179: the crossing in its timeout drops the frame and counts it. -/
theorem xOf_modX_same (d : Dev) (x : Nat) (out : Bool) (f : Xing → Xing) : xOf (modX d x out f) x out = f (xOf d x out) := by
  simp [xOf, modX, mapMod, mapGet, mapGet?_mapPut]

/-- R275: an item joins a parse stage. -/
def parseJoined (d : Dev) (src : Nat) (it : LookItem) : Dev :=
  { d with rte := { d.rte with parse := mapPut d.rte.parse src (mapGet [] d.rte.parse src ++ [it]) } }

theorem parse_parseJoined (d : Dev) (src : Nat) (it : LookItem) :
    mapGet [] (parseJoined d src it).rte.parse src = mapGet [] d.rte.parse src ++ [it] := by
  simp [parseJoined, mapGet, mapGet?_mapPut]

/-- R275: a parse stage with room takes an item. -/
theorem toParse_one {d : Dev} {src : Nat} (h : src < 4 → lkFill d src < 256) (it : LookItem) :
    toParse d src [it] = parseJoined d src it := by
  rw [toParse, if_neg]
  · rfl
  simp only [Bool.and_eq_true, decide_eq_true_eq, List.length_singleton]
  omega

/-! ## The obligation -/

/-- Settles O23: a frame at a closed ingress counts as lost at its channel (log entry 73). -/
theorem canReceptionFillsTheStage : Obligations.CanReceptionFillsTheStage := by
  unfold Obligations.CanReceptionFillsTheStage
  refine ⟨fun s ch back f l hw hlive hruns hbus hl hkind hawake hrtr hlen => ?_,
    fun s ch back f hw hlive hruns hbus hkind hawake hrtr hlen hsorted => ?_,
    fun s ch back f hw hlive hruns hbus hkind hawake hrtr hoff => ?_,
    fun s ch back k f hw hlive hruns hbus hkind hc hs hwake => ?_,
    fun s ch back f hw hch himg => ?_, fun s ch back f hw h => ?_, fun s ch hst => ?_, fun s ch r rest hst h => ?_,
    fun s ch r rest hst hch h hin htakes hfill => ?_, fun s ch r rest hst h hno => ?_, fun s ch r rest hst h hin htimed => ?_⟩
  · subst hl
    have heq := canReceive_awake hw ⟨hlive, hruns, hbus, hkind⟩ hawake
    rw [stageFrame_joins (d := modCan s.dev ch heardGood) hrtr (by rw [stage_heardGood]; exact hlen), modCan_modCan] at heq
    refine yields_after (exec_of_act (f := fun d => canReceive d ch back f) rfl heq) ?_
    rw [canOf_settle, canOf_modCan_same]
    exact ⟨rfl, rfl, rfl, onlyCan_modCan ..⟩
  · have heq := canReceive_awake hw ⟨hlive, hruns, hbus, hkind⟩ hawake
    rw [stageFrame_full hrtr (by rw [stage_heardGood]; exact hlen)] at heq
    refine yields_after (exec_of_act (f := fun d => canReceive d ch back f) rfl heq) ?_
    rw [canOf_settle, settle_rte, canOf_bumpC, stage_heardGood, tallyOf, settle_tally]
    exact ⟨rfl, tallyOf_bumpBy (d := modCan s.dev ch heardGood) hsorted .., rfl⟩
  · have heq := canReceive_awake hw ⟨hlive, hruns, hbus, hkind⟩ hawake
    rw [stageFrame_remote (d := modCan s.dev ch heardGood) hrtr hoff] at heq
    refine yields_after (exec_of_act (f := fun d => canReceive d ch back f) rfl heq) ?_
    rw [canOf_settle, settle_rte, canOf_bumpC, stage_heardGood, settle_tally]
    exact ⟨rfl, rfl, rfl⟩
  · have heq := canReceive_asleep hw ⟨hlive, hruns, hbus, hkind⟩ hc hs
    rw [sleepFrame_counts (d := modCan s.dev ch heardGood) hwake] at heq
    refine yields_after (exec_of_act (f := fun d => canReceive d ch back f) rfl heq) ?_
    rw [canOf_settle, settle_rte, settle_tally, settle_nmc]
    exact ⟨stage_heardGood .., rfl, rfl, rfl⟩
  · refine exec_of_act (f := fun d => canReceive d ch back f) rfl ?_
    simp [canReceive, hw, hch, himg]
  · refine exec_of_act (f := fun d => canReceive d ch back f) rfl ?_
    rw [canReceive, if_neg (by simp [hw])]
    exact rxFrame_deaf h back f
  · refine exec_of_act (f := fun d => filterVerdict d ch) rfl ?_
    simp [filterVerdict, hst]
  · refine yields_after (exec_of_act (f := fun d => filterVerdict d ch) rfl (filterVerdict_rejects hst h)) ?_
    rw [canOf_settle, settle_rte, settle_tally, canOf_bumpC, stage_unstaged]
    exact ⟨rfl, rfl, rfl⟩
  · have hfree : (xOf s.dev ch false).timed = false := by
      simp only [xTakes, Bool.and_eq_true, Bool.not_eq_true'] at htakes
      exact htakes.1.1
    have heq := filterVerdict_accepts hst h
    rw [if_neg (by simp [hfree]), if_neg (by simp [hin, htakes]), 
      toParse_one (d := bumpBy (bumpC (unstaged s.dev ch rest) ch 0x100) 0x500080 (ch / 6) (cells r.frame.data.length)) (fun _ => hfill)] at heq
    refine yields_after (exec_of_act (f := fun d => filterVerdict d ch) rfl heq) ?_
    rw [canOf_settle, settle_rte, settle_tally]
    refine ⟨stage_unstaged .., rfl, canItem (bumpC (unstaged s.dev ch rest) ch 0x100) ch r.frame,
      parse_parseJoined .., rfl, rfl, rfl, rfl⟩
  · have heq := filterVerdict_accepts hst h
    rw [if_neg, if_pos] at heq
    · refine yields_after (exec_of_act (f := fun d => filterVerdict d ch) rfl heq) ?_
      rw [canOf_settle, settle_rte, settle_tally]
      exact ⟨stage_unstaged .., rfl, rfl⟩
    · obtain hno | ⟨-, hno⟩ := hno <;> simp [hno]
    · obtain hno | ⟨hno, -⟩ := hno <;> simp [hno]
  · have heq := filterVerdict_accepts hst h
    rw [if_pos (by simp [hin, htimed])] at heq
    refine yields_after (exec_of_act (f := fun d => filterVerdict d ch) rfl heq) ?_
    rw [canOf_settle, settle_rte, settle_tally, xOf, settle_whl]
    exact ⟨stage_unstaged .., rfl, rfl, xOf_modX_same ..⟩

end Sys2Proof.Machine
end

section
/-! SUPPORT. Ethernet reception (chapter 08): the frame that a check drops, the frame that becomes one lookup, and the pause. -/

namespace Sys2Proof.Machine

/-! ## Frames (R212 to R216) -/

/-- R224: a whole frame leaves no frame in arrival at its port. -/
def frameEnded (d : Dev) (p : Nat) : Dev := modEth d p (fun x => { x with rxOn := false })

theorem ethReject_frameEnded (d : Dev) (p : Nat) (f : Bytes) (e : Bool) : ethReject (frameEnded d p) p f e = ethReject d p f e := rfl
theorem ethTakes_frameEnded (d : Dev) (p len : Nat) : ethTakes (frameEnded d p) p len = ethTakes d p len := rfl
theorem isAcf_frameEnded (d : Dev) (p : Nat) (data : Bytes) : isAcf (frameEnded d p) p data = isAcf d p data := rfl

/-- R212: outside a wake a port in LINK_UP looks at a whole frame. -/
theorem ethReceived_whole {d : Dev} {p : Nat} (hw : waking d = false) (hl : ethLive d p = true) (hst : (ethOf d p).st = 3) (f : Bytes)
    (e : Bool) : ethReceived d p (.whole f e) = ethWhole (frameEnded d p) p f e := by
  unfold ethReceived
  rw [if_neg (by simp [hw]), if_neg (by simp [hl]), if_neg (by simp [hst])]
  rfl

/-- R212: a frame that breaks a check is counted. -/
theorem ethWhole_drops {d : Dev} {p c : Nat} {f : Bytes} {e : Bool} (h : ethReject d p f e = some c) : ethWhole d p f e = bumpE d p c := by
  unfold ethWhole
  dsimp only
  rw [h]

/-- R216: a good frame of a port without MACsec that is no MAC control frame goes to its classifier. -/
theorem ethWhole_classifies {d : Dev} {p : Nat} {f : Bytes} {e : Bool} (h : ethReject d p f e = none)
    (hctl : isMacCtl (f.take (f.length - 4)) = false) (hms : msEn d p = false) :
    ethWhole d p f e = ethClassify d p (f.take (f.length - 4)) f.length f.length := by
  unfold ethWhole
  dsimp only
  rw [h]
  dsimp only
  rw [if_neg (by simp [hctl]), if_neg (by simp [msUntagged, hms]), if_neg (by simp [isProtected, hms])]

theorem isAcf_bumpBy (d : Dev) (off inst n p : Nat) (data : Bytes) : isAcf (bumpBy d off inst n) p data = isAcf d p data := rfl
theorem rxStamp_bumpBy (d : Dev) (off inst n p len : Nat) : rxStamp (bumpBy d off inst n) p len = rxStamp d p len := rfl
theorem rxStamp_frameEnded (d : Dev) (p len : Nat) : rxStamp (frameEnded d p) p len = rxStamp d p len := rfl

/-- R211, R225: a received frame of `len` bytes, `wire` of them on the line, as its classifier takes it. -/
def ethItem (d : Dev) (p : Nat) (data : Bytes) (len wire : Nat) : LookItem :=
  { pkt := { kind := 0, data := data, size := len, ingress := ethIngress p, input := ethInput p, stamp := rxStamp d p wire,
             unsync := !synced d, ethm := p == 8 },
    named := none, eth := true, ptype := ethPtype d p }

/-- R216: the counters of a frame that its crossing takes. -/
def ethCounted (d : Dev) (p len : Nat) : Dev :=
  bumpBy (bumpBy (bumpE d p 0x100) (ethBase p + 0x108) 0 len) 0x500080 (ethInput p) (cells len)

/-- R216, R275: with ingress open and room in its crossing and its classifier a frame outside the ACF path becomes one lookup. -/
theorem ethClassify_looks {d : Dev} {p len : Nat} {data : Bytes} (hin : d.clk.ingress = true) (ht : ethTakes d p len = true)
    (hacf : p < 8 → isAcf d p data = false) (hfill : ethInput p < 4 → lkFill d (ethInput p) < 256) (wire : Nat) :
    ethClassify d p data len wire = parseJoined (ethCounted d p len) (ethInput p) (ethItem (ethCounted d p len) p data len wire) := by
  have hfree : (xOf d (24 + p) false).timed = false := by
    simp only [ethTakes, xTakes, Bool.and_eq_true, Bool.not_eq_true'] at ht
    exact ht.1.1
  have hpath : (decide (p < 8) && isAcf d p data) = false := by
    by_cases hp : p < 8
    · simp [hacf hp]
    · simp [hp]
  have hparse := toParse_one (d := ethCounted d p len) hfill (ethItem (ethCounted d p len) p data len wire)
  rw [← hparse]
  unfold ethClassify
  extract_lets c c₁ s sid r c₂ q
  have hin' : c.clk.ingress = true := hin
  have hfree' : (xOf c (24 + p) false).timed = false := hfree
  have ht' : ethTakes c p len = true := ht
  have hpath' : (decide (p < 8) && isAcf c₁ p data) = false := by
    rw [show isAcf c₁ p data = isAcf d p data by simp only [c₁, c, bumpE, bump, isAcf_bumpBy], hpath]
  rw [if_neg (by simp [hfree']), if_neg (by simp [hin', ht']), if_neg (by simp [hpath'])]
  rfl

theorem parseJoined_keeps (d : Dev) (src : Nat) (it : LookItem) : (parseJoined d src it).lnd = d.lnd ∧
    (parseJoined d src it).eth = d.eth ∧ (parseJoined d src it).regs = d.regs ∧ (parseJoined d src it).evs = d.evs :=
  ⟨rfl, rfl, rfl, rfl⟩

/-- R225: the counters of a frame leave its stamp. -/
theorem ethItem_stamp (d : Dev) (p len wire : Nat) (data : Bytes) :
    (ethItem (ethCounted (frameEnded d p) p len) p data len wire).pkt.stamp = nowNs d - wireNs d p wire := by
  have hcounted : rxStamp (ethCounted (frameEnded d p) p len) p wire = rxStamp d p wire := by
    simp only [ethCounted, bumpE, bump, rxStamp_bumpBy, rxStamp_frameEnded]
  exact hcounted

/-- R216: the counters leave the Landing, the ports, the registers and the events. -/
theorem ethCounted_keeps (d : Dev) (p len : Nat) : (ethCounted d p len).lnd = d.lnd ∧ (ethCounted d p len).eth = d.eth ∧
    (ethCounted d p len).regs = d.regs ∧ (ethCounted d p len).evs = d.evs := by
  unfold ethCounted bumpE
  simp only [bumpBy_lnd, bump_lnd, bumpBy_eth, bump_eth, bumpBy_regs, bump_regs, bumpBy_evs, bump_evs, and_self]

/-! ## Pause (R217, R218) -/

/-- R217: a port in LINK_UP takes a pause frame. -/
theorem pauseReceived_up {d : Dev} {p q : Nat} (hl : ethLive d p = true) (hst : (ethOf d p).st = 3) (hq : q < 65536) :
    pauseReceived d p q = pauseRx d p q := by
  rw [pauseReceived, if_neg (by simp [hl]), if_neg (by simp [hst]), Nat.mod_eq_of_lt hq]

/-- R217: without RXEN a pause frame is counted alone. -/
theorem pauseRx_off {d : Dev} {p : Nat} (h : flag d (ethBase p + 0x14) 0 = false) (q : Nat) : pauseRx d p q = bumpE d p 0x130 := by
  unfold pauseRx
  dsimp only
  rw [if_pos]
  rw [show flag (bumpE d p 0x130) (ethBase p + 0x14) 0 = flag d (ethBase p + 0x14) 0 from rfl, h]
  rfl

/-- R217, R218: a port after a pause frame for `q` quanta. -/
def pausedFor (d : Dev) (p q : Nat) (x : EthP) : EthP :=
  { x with paused := decide (0 < q), pauseEnd := runNs d + ceilDiv (512000 * q) (macRate d p) }

/-- R217: with RXEN and no cap a pause frame pauses its port for its quanta. -/
theorem pauseRx_pauses {d : Dev} {p : Nat} (hon : flag d (ethBase p + 0x14) 0 = true) (hcap : fld d (ethBase p + 0x14) 16 16 = 0) (q : Nat) :
    pauseRx d p q = modEth (bumpE d p 0x130) p (pausedFor d p q) := by
  have hcut : pauseCap (bumpE d p 0x130) p q = (bumpE d p 0x130, q) := by
    unfold pauseCap
    dsimp only
    rw [if_pos]
    rw [show fld (bumpE d p 0x130) (ethBase p + 0x14) 16 16 = fld d (ethBase p + 0x14) 16 16 from rfl, hcap]
    rfl
  unfold pauseRx
  dsimp only
  rw [if_neg, hcut]
  · rfl
  · rw [show flag (bumpE d p 0x130) (ethBase p + 0x14) 0 = flag d (ethBase p + 0x14) 0 from rfl, hon]
    exact Bool.false_ne_true

/-! ## The obligation -/

/-- Settles O28: the stamp of a frame is now less its time on the line (log entry 155). -/
theorem ethernetReceptionChecksAndPauses : Obligations.EthernetReceptionChecksAndPauses := by
  unfold Obligations.EthernetReceptionChecksAndPauses
  refine ⟨fun s p c f e hw hl hst h => ?_, fun s p f e hw hl hst h hctl hms hin ht hacf => ?_, fun s p f e hw hl hst => ?_,
    fun s p f e hw hp himg => ?_, fun s p q hl hst hoff => ?_, fun s p q hl hst hon hcap hq => ?_, fun s p hp hover => ?_⟩
  · refine exec_of_act (f := fun d => ethReceived d p (.whole f e)) rfl ?_
    exact (ethReceived_whole hw hl hst f e).trans (ethWhole_drops (d := frameEnded s.dev p) h)
  · have hfill : ethInput p < 4 → lkFill s.dev (ethInput p) < 256 := by
      intro hlt
      refine (hacf ?_).2
      by_contra hp
      have hle : p ≤ 8 := by
        simp only [ethLive, Bool.and_eq_true, decide_eq_true_eq] at hl
        exact hl.1.1.1
      have h8 : p = 8 := by omega
      subst h8
      exact absurd hlt (by decide)
    rw [← ethReject_frameEnded] at h
    rw [← ethTakes_frameEnded] at ht
    have hwhole := ethWhole_classifies (d := frameEnded s.dev p) h hctl hms
    have hpath : p < 8 → isAcf (frameEnded s.dev p) p (f.take (f.length - 4)) = false := fun hp => by
      rw [isAcf_frameEnded]
      exact (hacf hp).1
    have hlook := ethClassify_looks (d := frameEnded s.dev p) hin ht hpath hfill f.length
    have heq := (ethReceived_whole hw hl hst f e).trans (hwhole.trans hlook)
    refine yields_after (exec_of_act (f := fun d => ethReceived d p (.whole f e)) rfl heq) ?_
    obtain ⟨jlnd, jeth, jregs, jevs⟩ := parseJoined_keeps (ethCounted (frameEnded s.dev p) p f.length) (ethInput p)
      (ethItem (ethCounted (frameEnded s.dev p) p f.length) p (f.take (f.length - 4)) f.length f.length)
    obtain ⟨klnd, keth, kregs, kevs⟩ := ethCounted_keeps (frameEnded s.dev p) p f.length
    rw [settle_rte, settle_lnd, settle_regs, settle_evs, jlnd, klnd, jregs, kregs, jevs, kevs]
    refine ⟨⟨ethItem (ethCounted (frameEnded s.dev p) p f.length) p (f.take (f.length - 4)) f.length f.length, parse_parseJoined ..,
      rfl, rfl, ethItem_stamp .., rfl⟩, ?_, fun o ho => ?_, modEth_lnd .., modEth_regs .., modEth_evs ..⟩
    · rw [ethOf_settle, ethOf, jeth, keth]
      exact ethOf_modEth_same ..
    · rw [ethOf_settle, ethOf, jeth, keth]
      exact ethOf_modEth_ne s.dev ho _
  · refine exec_of_act (f := fun d => ethReceived d p (.whole f e)) rfl ?_
    exact (if_neg (by simp [hw])).trans ((if_neg (by simp [hl])).trans (if_pos hst))
  · refine exec_of_act (f := fun d => ethReceived d p (.whole f e)) rfl ?_
    exact (if_pos hw).trans (if_pos (by simp [hp, himg]))
  · refine exec_of_act (f := fun d => pauseReceived d p q) rfl ?_
    rw [pauseReceived, if_neg (by simp [hl]), if_neg (by simp [hst]), pauseRx_off hoff]
  · refine yields_after (exec_of_act (f := fun d => pauseReceived d p q) rfl
      ((pauseReceived_up hl hst hq).trans (pauseRx_pauses hon hcap q))) ?_
    rw [ethOf_settle, ethOf_modEth_same, settle_lnd, settle_evs]
    refine ⟨rfl, fun o ho => ?_, rfl, rfl⟩
    rw [ethOf_settle, ethOf_modEth_ne _ ho]
    rfl
  · refine yields_after (exec_of_act (f := fun d => pauseOver d p) rfl (if_pos (by simp [hp, hover]))) ?_
    rw [ethOf_settle, ethOf_modEth_same]
    exact ⟨rfl, onlyEth_modEth ..⟩

end Sys2Proof.Machine
end

section
/-! SUPPORT. Parsing and lookup (chapter 10): the parse stage, the lookup of an entry that an item names, and the streams. -/

namespace Sys2Proof.Machine

/-! ## What reports change (R397, R458, R488) -/

/-- What the report of an event or of a fault changes of the device. -/
structure Notes where
  flt : Flt
  f4Pend : Bool
  evs : List Ev
  aonEvs : List Ev
  rcd : Rec
  tally : NMap Nat

/-- The device with what reports change. -/
def withNotes (d : Dev) (n : Notes) : Dev :=
  { d with flt := n.flt, clk := { d.clk with f4Pend := n.f4Pend }, evs := n.evs, aonEvs := n.aonEvs, rcd := n.rcd, tally := n.tally }

/-- `b` is `a` but for what reports change; of the counters that is the recorder's of triggers at its end. -/
structure Noted (a b : Dev) : Prop where
  notes : ∃ n, b = withNotes a n
  sorted : mapSorted a.tally = true → mapSorted b.tally = true
  counts : mapSorted a.tally = true → ∀ off inst, regKey 0xA00120 0 ≠ regKey off inst → tallyOf b off inst = tallyOf a off inst

theorem Noted.trans {a b c : Dev} (h : Noted a b) (k : Noted b c) : Noted a c := by
  obtain ⟨m, hm⟩ := h.notes
  obtain ⟨n, hn⟩ := k.notes
  refine ⟨⟨n, ?_⟩, fun hs => k.sorted (h.sorted hs), fun hs off inst hne => ?_⟩
  · rw [hn, hm]
    rfl
  · rw [k.counts (h.sorted hs) off inst hne, h.counts hs off inst hne]

/-- A change of the notes that leaves the counters. -/
theorem Noted.of_eq {a b : Dev} {n : Notes} (h : b = withNotes a n) (ht : n.tally = a.tally) : Noted a b := by
  have htally : b.tally = a.tally := by
    rw [h]
    exact ht
  exact ⟨⟨n, h⟩, fun hs => by rw [htally, hs], fun _ off inst _ => by rw [tallyOf, htally, tallyOf]⟩

/-- The notes of a device. -/
def notesOf (d : Dev) : Notes := ⟨d.flt, d.clk.f4Pend, d.evs, d.aonEvs, d.rcd, d.tally⟩

theorem Noted.refl (d : Dev) : Noted d d := .of_eq (n := notesOf d) rfl rfl

theorem Noted.ite {a b c : Dev} {p : Prop} {i : Decidable p} (h : Noted a b) (k : Noted a c) : Noted a (if p then b else c) := by
  split
  · exact h
  · exact k

theorem noted_rcd (d : Dev) (r : Rec) : Noted d { d with rcd := r } := .of_eq (n := { notesOf d with rcd := r }) rfl rfl
theorem noted_flt (d : Dev) (f : Flt) : Noted d { d with flt := f } := .of_eq (n := { notesOf d with flt := f }) rfl rfl

theorem noted_lostTrig (d : Dev) : Noted d (bump d 0xA00120 0) :=
  ⟨⟨{ notesOf d with tally := (bump d 0xA00120 0).tally }, rfl⟩, fun hs => bumpBy_sorted hs .., fun hs _ _ hne =>
    tallyOf_bumpBy_ne hs hne 1⟩

/-- R488: a trigger. -/
theorem noted_recTrig (d : Dev) (src stamp code : Nat) : Noted d (recTrig d src stamp code) :=
  .ite (.refl d) (.ite (noted_rcd ..) (.ite (noted_rcd ..) (noted_lostTrig d)))

/-- R458: an event. -/
theorem noted_raise (d : Dev) (code cls : Nat) (data : Bytes) : Noted d (raise d code cls data) := by
  have hcls : ∀ stamp, Noted d (if cls = 3 then recTrig d 2 stamp 0 else if cls = 4 then recTrig d 3 stamp 0 else d) := fun _ =>
    .ite (noted_recTrig ..) (.ite (noted_recTrig ..) (.refl d))
  have htrig : ∀ stamp, Noted d (evTrig d stamp code cls) := fun stamp =>
    .ite ((hcls stamp).trans (noted_recTrig ..)) (hcls stamp)
  have hevs : ∀ (e : Dev) l, Noted e { e with evs := l } := fun e l => .of_eq (n := { notesOf e with evs := l }) rfl rfl
  unfold raise raiseAt
  dsimp only
  split
  · exact (htrig _).trans (hevs ..)
  · exact .of_eq (n := { notesOf d with aonEvs := _ }) rfl rfl

/-- R91: an F4 fault. -/
theorem noted_raiseF4 (d : Dev) (code : Nat) (data : Bytes) : Noted d (raiseF4 d code data) :=
  (noted_raise d code 4 data).trans (.of_eq (n := { notesOf (raise d code 4 data) with flt := _, f4Pend := true }) rfl rfl)

/-- R397: an item joins a journal. -/
theorem noted_journalAdd (d : Dev) (t size : Nat) : Noted d (journalAdd d t size) := by
  unfold journalAdd
  extract_lets w fill lvl d₁ d₂
  have h₁ : Noted d d₁ := noted_flt ..
  have h₂ : Noted d d₂ := h₁.trans (.ite (noted_raise ..) (.refl d₁))
  exact h₂.trans (.ite (noted_raiseF4 ..) (.refl d₂))

/-! ## The parse stage (R275) -/

theorem findIdx_skip {α : Type} {p : α → Bool} {x : α} (hx : p x = true) (rest : List α) : ∀ (pre : List α) (i : Nat),
    (∀ y ∈ pre, p y = false) → findIdx p (pre ++ x :: rest) i = some (i + pre.length)
  | [], i, _ => by simp [findIdx, hx]
  | y :: pre, i, h => by
    rw [List.cons_append, findIdx, if_neg (by simp [h y List.mem_cons_self]),
      findIdx_skip hx rest pre (i + 1) (fun z hz => h z (List.mem_cons_of_mem _ hz)), List.length_cons]
    exact congrArg some (by omega)

/-- R275: the parse stage of a source after an item has left it. -/
def parseLeft (d : Dev) (src : Nat) (l : List LookItem) : Dev := { d with rte := { d.rte with parse := mapPut d.rte.parse src l } }

/-- R275: the oldest item with an engine joins the lookup queue. -/
theorem parseStep_moves {d : Dev} {src : Nat} {pre rest : List LookItem} {it : LookItem} (hf : src < 4 → frozen d (2 + src) = false)
    (hl : mapGet [] d.rte.parse src = pre ++ it :: rest) (hpre : ∀ x ∈ pre, hasEngine d src x = false) (hit : hasEngine d src it = true) :
    parseStep d src = toLookup (parseLeft d src (pre ++ rest)) src it := by
  have hfind := findIdx_skip hit rest pre 0 hpre
  have htake : (pre ++ it :: rest).take pre.length = pre := List.take_left
  have hdrop : (pre ++ it :: rest).drop (pre.length + 1) = rest := by simp [List.drop_append]
  rw [Nat.zero_add] at hfind
  unfold parseStep
  dsimp only
  rw [if_neg (by simp only [Bool.and_eq_true, decide_eq_true_eq]; exact fun ⟨h, k⟩ => by simp [hf h] at k), hl, hfind]
  dsimp only
  rw [List.getElem?_append_right (Nat.le_refl _), Nat.sub_self, htake, hdrop]
  rfl

/-! ## The lookup of a named entry (R280, R281) -/

section Named
variable {d : Dev} {it : LookItem} {ix : Nat} (hn : it.named = some ix) (hw : inSendWindow d it.pkt.input ix = true)
include hn hw

/-- R281 step 1: an entry that is not valid. -/
theorem lookupItem_invalid (hv : rtValid (routeEntry d ix) = false) : lookupItem d it = noRoute (bumpR d 0 it.pkt.input) it.pkt := by
  have hv' : rtValid (routeEntry (bumpR d 0 it.pkt.input) ix) = false := hv
  unfold lookupItem
  dsimp only
  rw [hn]
  dsimp only
  rw [if_neg (by simp [hw]), if_pos (by simp [hv'])]

/-- R281 step 1: an entry that is valid and open. -/
theorem lookupItem_open (hv : rtValid (routeEntry d ix) = true) (hh : holdMode d = false) (ho : pncOpen d ix = true) :
    lookupItem d it = lookupEntry (bumpR d 0 it.pkt.input) it.pkt ix (routeEntry d ix) false := by
  have hv' : rtValid (routeEntry (bumpR d 0 it.pkt.input) ix) = true := hv
  have hstep : step1 (bumpR d 0 it.pkt.input) ix = .pass := by
    have hh' : holdMode (bumpR d 0 it.pkt.input) = false := hh
    have ho' : pncOpen (bumpR d 0 it.pkt.input) ix = true := ho
    simp [step1, hh', ho']
  unfold lookupItem
  dsimp only
  rw [hn]
  dsimp only
  rw [if_neg (by simp [hw]), if_neg (by simp [hv']), hstep]
  rfl

end Named

/-- R281: an entry that forwards, without Mill copy, policer and authentication, for a frame of no stream. -/
structure PlainEntry (d : Dev) (ix entry : Nat) : Prop where
  verdict : rtVerdict entry = 0
  mill : rtMill entry = false
  altXl : rtAltXl entry = false
  pol : rtPolEn entry = false
  auth : rtAuth entry = 0
  qci : streamOf d ix 0 = none
  gen : streamOf d ix 1 = none
  rcv : streamOf d ix 2 = none

/-- R281, R282: a frame as such an entry decides it. -/
def decidedPkt (p : Pkt) (ix entry : Nat) : Pkt := { p with rstrip := false, rtag := none, route := ix, entry := entry }

/-- R281 steps 2 to 5: the copies that pass step 2 go to admission. -/
theorem lookupEntry_forwards {d : Dev} {ix entry : Nat} (h : PlainEntry d ix entry) {p : Pkt} {xs : List Dest}
    (h2 : step2All d entry p (entryDests d ix entry) = (xs, [], [])) (hne : xs ≠ []) :
    lookupEntry d p ix entry false = toAdmission d (decidedPkt p ix entry) (xs ++ recCopies ix entry 0) := by
  have hempty : xs.isEmpty = false := by simp [hne]
  have hstep2 : afterStep2 d p ix entry = (d, ix, entry, xs) := by
    simp [afterStep2, h.verdict, h2, countDrops, countLong]
  have hmill : millCopy d p ix entry = ([], none) := by simp [millCopy, h.mill]
  have hqci : qci d ix p = (d, true, false) := by simp [qci, h.qci]
  have hrcv : cbRecover d ix p = (d, true, false) := by simp [cbRecover, h.rcv]
  have hgen : cbGenerate d ix = (d, none) := by simp [cbGenerate, h.gen]
  have hstep4 : ∀ q, step4 d q entry false xs = (d, 0, false) := fun q => by simp [step4, h.verdict, h.pol]
  unfold lookupEntry
  simp [hstep2, hmill, h.verdict, hempty, hqci, hrcv, hstep4, hgen, step5, h.auth, decidedPkt]

/-- R281 step 1: a lookup without an entry is counted. -/
theorem noRoute_uncopied {d : Dev} (h : flag d 0x580000 0 = false) (p : Pkt) : noRoute d p = txDrop (bumpR d 1 p.input) p 2 := by
  have hflag : flag (txDrop (bumpR d 1 p.input) p 2) 0x580000 0 = false := by
    unfold txDrop
    split <;> exact h
  simp [noRoute, hflag]

theorem txDrop_shape (d : Dev) (p : Pkt) (status : Nat) : ∃ e, txDrop d p status = { d with eps := e } := by
  unfold txDrop
  split
  · exact ⟨_, rfl⟩
  · exact ⟨d.eps, rfl⟩

/-! ## The slot of a client (R30, R145) -/

/-- The lookups of a client that remain behind its oldest. -/
def lookupTaken (d : Dev) (client : Nat) (rest : List LookItem) : Dev :=
  { d with rte := { d.rte with lookup := mapPut d.rte.lookup client rest } }

/-- R30, R281: a client that owns the slot decides its oldest lookup, behind its journal. -/
theorem lookupStep_decides {d : Dev} {client : Nat} {it : LookItem} {rest : List LookItem} (hf : frozen d 1 = false)
    (hs : slotOwned d 2 (lookupOwner client) = true) (ha : arrivedWhole d client it = true)
    (hl : mapGet [] d.rte.lookup client = it :: rest) :
    ∃ n, Noted (lookupTaken d client rest) (withNotes (lookupTaken d client rest) n) ∧
      lookupStep d client = lookupItem (withNotes (lookupTaken d client rest) n) it := by
  have hnoted := noted_journalAdd (lookupTaken d client rest) 1 64
  obtain ⟨n, hn⟩ := hnoted.notes
  refine ⟨n, hn ▸ hnoted, ?_⟩
  unfold lookupStep
  rw [if_neg (by simp [hf, hs]), hl]
  dsimp only
  rw [if_neg (by simp [ha]), ← hn]
  rfl

/-- R281: a lookup that finds its entry not valid is counted and goes nowhere. -/
theorem lookupItem_uncounted {d : Dev} {it : LookItem} {ix : Nat} (hn : it.named = some ix) (hw : inSendWindow d it.pkt.input ix = true)
    (hv : rtValid (routeEntry d ix) = false) (hflag : flag d 0x580000 0 = false) (hs : mapSorted d.tally = true) :
    (lookupItem d it).rte = d.rte ∧ (lookupItem d it).lnd = d.lnd ∧
    tallyOf (lookupItem d it) 0x580308 (srcOf it.pkt.input) = min (tallyOf d 0x580308 (srcOf it.pkt.input) + 1) tallyMax := by
  obtain ⟨e, he⟩ := txDrop_shape (bumpR (bumpR d 0 it.pkt.input) 1 it.pkt.input) it.pkt 2
  rw [lookupItem_invalid hn hw hv, noRoute_uncopied (d := bumpR d 0 it.pkt.input) hflag, he]
  refine ⟨rfl, rfl, ?_⟩
  have hlookups : tallyOf (bumpR d 0 it.pkt.input) 0x580308 (srcOf it.pkt.input) = tallyOf d 0x580308 (srcOf it.pkt.input) :=
    tallyOf_bumpBy_ne hs (by simp only [regKey]; omega) 1
  have hcount := tallyOf_bumpBy (d := bumpR d 0 it.pkt.input) (bumpBy_sorted hs ..) 0x580308 (srcOf it.pkt.input) 1
  rw [hlookups] at hcount
  exact hcount

/-- A decided frame waits at its input. -/
def waitingDecided (d : Dev) (p : Pkt) (dests : List Dest) : Dev :=
  { d with lnd := { d.lnd with waiting := mapPut d.lnd.waiting p.input (mapGet [] d.lnd.waiting p.input ++ [⟨p, dests, none⟩]) } }

theorem toAdmission_some (d : Dev) (p : Pkt) {dests : List Dest} (h : dests ≠ []) : toAdmission d p dests = waitingDecided d p dests := by
  rw [toAdmission, if_neg (by simpa using h)]
  rfl

/-- R281: a frame whose entry forwards waits for its admission with the copies that pass step 2 and its record copy. -/
theorem lookupItem_forwards {d : Dev} {it : LookItem} {ix : Nat} (hn : it.named = some ix) (hw : inSendWindow d it.pkt.input ix = true)
    (hv : rtValid (routeEntry d ix) = true) (hh : holdMode d = false) (ho : pncOpen d ix = true) (hp : PlainEntry d ix (routeEntry d ix))
    {xs : List Dest} (h2 : step2All d (routeEntry d ix) it.pkt (entryDests d ix (routeEntry d ix)) = (xs, [], [])) (hne : xs ≠ []) :
    lookupItem d it = waitingDecided (bumpR d 0 it.pkt.input) (decidedPkt it.pkt ix (routeEntry d ix))
      (xs ++ recCopies ix (routeEntry d ix) 0) := by
  have hplain : PlainEntry (bumpR d 0 it.pkt.input) ix (routeEntry d ix) :=
    ⟨hp.verdict, hp.mill, hp.altXl, hp.pol, hp.auth, hp.qci, hp.gen, hp.rcv⟩
  rw [lookupItem_open hn hw hv hh ho, lookupEntry_forwards hplain h2 hne, toAdmission_some _ _ (by simp [hne])]

/-! ## Streams (R234, R298) -/

theorem strmOf_modStrm_same (d : Dev) (k : Nat) (f : Strm → Strm) : strmOf (modStrm d k f) k = f (strmOf d k) := by
  simp [strmOf, modStrm, mapMod, mapGet, mapGet?_mapPut]

theorem strmOf_modStrm_ne (d : Dev) {k j : Nat} (h : j ≠ k) (f : Strm → Strm) : strmOf (modStrm d k f) j = strmOf d j := by
  simp [strmOf, modStrm, mapMod, mapGet, mapGet?_mapPut, Ne.symm h]

theorem strmOf_settle (d : Dev) (k : Nat) : strmOf (settle d) k = strmOf d k := by rw [strmOf, settle_rte, strmOf]
theorem strmOf_raise (d : Dev) (code cls : Nat) (data : Bytes) (k : Nat) : strmOf (raise d code cls data) k = strmOf d k := by
  rw [strmOf, raise_rte, strmOf]

/-- R234: a recovery stream after its reset. -/
def recoveryReset (s : Strm) : Strm := { s with recInit := false, recHist := 0, recHigh := 0, nReset := min (s.nReset + 1) tallyMax }

/-- R234: a recovery stream through which nothing passed for RESETMS is reset and reported. -/
theorem cbReset_resets {d : Dev} {idx : Nat} {r : Nat × Nat}
    (hr : (overlay d 14 d.img.stream).find? (fun r => stKind r.2 == 2 && bits r.2 0 12 == idx) = some r)
    (hi : (strmOf d (4096 + idx)).recInit = true)
    (ht : (strmOf d (4096 + idx)).recLast + 500000 * bits (stParam r.2) 6 16 ≤ d.clk.tclk) :
    cbReset d idx = raise (modStrm d (4096 + idx) recoveryReset) 0x0808 0 (e1 0 ++ e2 idx) := by
  unfold cbReset
  rw [hr]
  dsimp only
  rw [if_pos (by simp [hi, ht])]
  rfl

/-- R234: a recovery stream that is not initialized is left alone. -/
theorem cbReset_idle {d : Dev} {idx : Nat} (hi : (strmOf d (4096 + idx)).recInit = false) : cbReset d idx = d := by
  unfold cbReset
  split
  · rfl
  · dsimp only
    rw [if_neg (by simp [hi])]

/-! ## The obligation -/

/-- R30, R281: what a slot of a client leaves when its oldest lookup finds its entry not valid. -/
theorem lookupStep_uncounted {d : Dev} {client ix : Nat} {it : LookItem} {rest : List LookItem} (hf : frozen d 1 = false)
    (hs : slotOwned d 2 (lookupOwner client) = true) (ha : arrivedWhole d client it = true)
    (hl : mapGet [] d.rte.lookup client = it :: rest) (hn : it.named = some ix) (hw : inSendWindow d it.pkt.input ix = true)
    (hv : rtValid (routeEntry d ix) = false) (hflag : flag d 0x580000 0 = false) (hsorted : mapSorted d.tally = true) :
    mapGet [] (lookupStep d client).rte.lookup client = rest ∧ (lookupStep d client).lnd = d.lnd ∧
    tallyOf (lookupStep d client) 0x580308 (srcOf it.pkt.input) = min (tallyOf d 0x580308 (srcOf it.pkt.input) + 1) tallyMax := by
  obtain ⟨n, hnoted, heq⟩ := lookupStep_decides hf hs ha hl
  obtain ⟨krte, klnd, ktally⟩ := lookupItem_uncounted (d := withNotes (lookupTaken d client rest) n) hn hw hv hflag (hnoted.sorted hsorted)
  have hcount := hnoted.counts hsorted 0x580308 (srcOf it.pkt.input) (by simp only [regKey]; omega)
  rw [heq, krte, klnd, ktally, hcount]
  refine ⟨?_, rfl, rfl⟩
  simp [withNotes, lookupTaken, mapGet, mapGet?_mapPut]

/-- R30, R281: what a slot of a client does with a frame whose entry forwards. -/
theorem lookupStep_forwards {d : Dev} {client ix : Nat} {it : LookItem} {rest : List LookItem} {xs : List Dest} (hf : frozen d 1 = false)
    (hs : slotOwned d 2 (lookupOwner client) = true) (ha : arrivedWhole d client it = true)
    (hl : mapGet [] d.rte.lookup client = it :: rest) (hn : it.named = some ix) (hw : inSendWindow d it.pkt.input ix = true)
    (hv : rtValid (routeEntry d ix) = true) (hh : holdMode d = false) (ho : pncOpen d ix = true) (hp : PlainEntry d ix (routeEntry d ix))
    (h2 : step2All d (routeEntry d ix) it.pkt (entryDests d ix (routeEntry d ix)) = (xs, [], [])) (hne : xs ≠ []) :
    ∃ n, lookupStep d client = waitingDecided (bumpR (withNotes (lookupTaken d client rest) n) 0 it.pkt.input)
      (decidedPkt it.pkt ix (routeEntry d ix)) (xs ++ recCopies ix (routeEntry d ix) 0) := by
  obtain ⟨n, -, heq⟩ := lookupStep_decides hf hs ha hl
  have hplain : PlainEntry (withNotes (lookupTaken d client rest) n) ix (routeEntry d ix) :=
    ⟨hp.verdict, hp.mill, hp.altXl, hp.pol, hp.auth, hp.qci, hp.gen, hp.rcv⟩
  exact ⟨n, heq.trans (lookupItem_forwards (d := withNotes (lookupTaken d client rest) n) hn hw hv hh ho hplain h2 hne)⟩

/-- Settles O32: a report's event port is 0 at a recovery reset (log entry 102). -/
theorem parsingAndLookupDecideFrames : Obligations.ParsingAndLookupDecideFrames := by
  unfold Obligations.ParsingAndLookupDecideFrames
  refine ⟨fun s src pre it rest hf hl hpre hit => ?_, fun s src hsrc hf => ?_, fun s client h => ?_,
    fun s client ix it rest hf hs ha hl hn hw hv hflag hsorted => ?_,
    fun s client ix it rest xs hf hs ha hl hn hw hv hh ho hverdict hmill halt hpol hauth hq hg hc h2 hne => ?_,
    fun s who w hw hb hsorted => ?_, fun s who w hw hb => ?_, fun s idx r hr hi ht hm hsorted => ?_, fun s idx hi => ?_⟩
  · refine yields_after (exec_of_act (f := fun d => parseStep d src) rfl (parseStep_moves hf hl hpre hit)) ?_
    rw [settle_rte, settle_lnd, settle_evs, settle_regs]
    refine ⟨?_, lookup_toLookup .., fun o ho => ⟨?_, ?_⟩, rfl, rfl, rfl⟩
    · simp [toLookup, parseLeft, mapGet, mapGet?_mapPut]
    · simp [toLookup, parseLeft, mapGet, mapGet?_mapPut, Ne.symm ho]
    · simp [toLookup, parseLeft, mapGet, mapGet?_mapPut, Ne.symm ho]
  · exact exec_of_act (f := fun d => parseStep d src) rfl (if_pos (by simp [hsrc, hf]))
  · refine exec_of_act (f := fun d => lookupStep d client) rfl (if_pos ?_)
    obtain h | h := h <;> simp [h]
  · obtain ⟨hlookup, hlnd, htally⟩ := lookupStep_uncounted hf hs ha hl hn hw hv hflag hsorted
    refine yields_act (f := fun d => lookupStep d client) rfl ?_
    rw [settle_rte, settle_lnd, tallyOf, settle_tally]
    exact ⟨hlookup, hlnd, htally⟩
  · obtain ⟨n, heq⟩ := lookupStep_forwards hf hs ha hl hn hw hv hh ho ⟨hverdict, hmill, halt, hpol, hauth, hq, hg, hc⟩ h2 hne
    refine yields_after (exec_of_act (f := fun d => lookupStep d client) rfl heq) ?_
    rw [settle_rte, settle_lnd, settle_regs]
    refine ⟨?_, ⟨⟨decidedPkt it.pkt ix (routeEntry s.dev ix), xs ++ recCopies ix (routeEntry s.dev ix) 0, none⟩, ?_, rfl, rfl, rfl, rfl,
      rfl, rfl⟩, rfl, rfl, rfl⟩
    · simp [waitingDecided, bumpR, withNotes, lookupTaken, mapGet, mapGet?_mapPut]
    · simp [waitingDecided, decidedPkt, bumpR, withNotes, lookupTaken, mapGet, mapGet?_mapPut]
  · refine yields_after (exec_of_act (access_regWr hw _ _) (if_pos hb)) ?_
    simp only [strmOf_settle, settle_lnd, settle_evs, settle_regs]
    exact ⟨strmOf_modStrm_same .., fun k hk => strmOf_modStrm_ne _ hk _, rfl, rfl, rfl⟩
  · exact exec_of_act (access_regWr hw _ _) (if_neg (by simp [hb]))
  · refine yields_after (exec_of_act (f := fun d => cbReset d idx) rfl (cbReset_resets hr hi ht)) ?_
    simp only [strmOf_settle, strmOf_raise, settle_evs]
    refine ⟨strmOf_modStrm_same .., fun k hk => strmOf_modStrm_ne _ hk _, ?_⟩
    rw [raise_evs (by exact hm)]
    rfl
  · exact exec_of_act (f := fun d => cbReset d idx) rfl (cbReset_idle hi)

end Sys2Proof.Machine
end
